-- ==== Sys2Proof/Word.lean ====
section
/-! DEFINITION. The machine word and the byte, and the plainest arithmetic on them. -/

namespace Sys2Proof

/-- A doubleword: an s register, an address, a control register (06_isa_formats.md R153). -/
abbrev Word := BitVec 64

/-- One byte of memory. -/
abbrev Byte := BitVec 8

/-- A v register: 64 lanes of 32 bits, lane i at bits [32i+31:32i] (02_execution_model.md R28). -/
abbrev VReg := BitVec 2048

end Sys2Proof
end

