-- ==== Sys2Proof/Syntax.lean ====
section
/-! DEFINITION. The steps of the part: one constructor of `Instr` for each row of opcode_table.json.
The operand records below are the instruction formats of 06_isa_formats.md (R149 to R152) and the data
that the events of the table carry. -/

namespace Sys2Proof

/-- C-op format CR (R149). -/
structure CR where
  rd : BitVec 5
  ra : BitVec 5
  rb : BitVec 5
  deriving DecidableEq, Repr

/-- C-op format CI (R149); the major's use of imm15 is in Table — C-slot opcode map (R155). -/
structure CI where
  rd : BitVec 5
  ra : BitVec 5
  imm : BitVec 15
  deriving DecidableEq, Repr

/-- C-op format CM (R149): kw, kp and the signed offset in access-size units. -/
structure CM where
  rd : BitVec 5
  ra : BitVec 5
  kw : BitVec 3
  kp : BitVec 3
  off : BitVec 9
  deriving DecidableEq, Repr

/-- C-op format CB (R149). -/
structure CB where
  ra : BitVec 5
  rb : BitVec 5
  off : BitVec 15
  deriving DecidableEq, Repr

/-- A-op format AS (R150). -/
structure AS where
  sd : BitVec 5
  sa : BitVec 5
  sb : BitVec 5
  deriving DecidableEq, Repr

/-- A-op format AS of scalar floating point with the fn11 layout of R156: `t2` is [9:7], `t` is [6:4]. -/
structure AF where
  sd : BitVec 5
  sa : BitVec 5
  sb : BitVec 5
  t2 : BitVec 3
  t : BitVec 3
  deriving DecidableEq, Repr

/-- A-op format AV (R150). -/
structure AV where
  vd : BitVec 5
  va : BitVec 5
  vb : BitVec 5
  mm : BitVec 3
  ty : BitVec 4
  deriving DecidableEq, Repr

/-- A-op format AV whose fn4 is an operand (vcmp, vcvt, vqnt, vdeq). -/
structure AVF where
  vd : BitVec 5
  va : BitVec 5
  vb : BitVec 5
  mm : BitVec 3
  ty : BitVec 4
  fn : BitVec 4
  deriving DecidableEq, Repr

/-- A-op format AM (R150). -/
structure AM where
  md : BitVec 3
  ma : BitVec 3
  mb : BitVec 3
  sreg : BitVec 5
  deriving DecidableEq, Repr

/-- L-op format LM (R151). -/
structure LM where
  rd : BitVec 5
  ra : BitVec 5
  kw : BitVec 3
  kp : BitVec 3
  ord : BitVec 2
  scope : BitVec 3
  size : BitVec 3
  off : BitVec 32
  deriving DecidableEq, Repr

/-- L-op format LX of the memory group, with the parameter word of R152. -/
structure MX where
  ra : BitVec 5
  rb : BitVec 5
  rc : BitVec 5
  kw : BitVec 3
  kp : BitVec 3
  ord : BitVec 2
  scope : BitVec 3
  size : BitVec 3
  off : BitVec 18
  deriving DecidableEq, Repr

/-- The cache op (R211): an MX form whose fn9[2] and fn9[3] are operands. -/
structure MXC where
  m : MX
  port : Bool
  icache : Bool
  deriving DecidableEq, Repr

/-- Every other L-op of format LX (R151): fn9 and the parameter word as the op's entry lays them out. -/
structure EX where
  ra : BitVec 5
  rb : BitVec 5
  rc : BitVec 5
  fn9 : BitVec 9
  par : BitVec 32
  deriving DecidableEq, Repr

/-- A context of a tile (`ctx` 0 to 10), or its awn core (`ctx` 15, the number `hself` gives, R181). -/
structure Agent where
  tile : Nat
  ctx : Nat
  deriving DecidableEq, Repr

/-- A capacity-table request (10 R316, R317): its V-tile and entry, operand, issuer, and the op that waits for the answer. -/
structure CapMsg where
  tile : Nat
  entry : Nat
  operand : Word
  issuer : Agent
  op : Nat
  deriving DecidableEq, Repr

/-- A class 1 to 3 packet: the header fields of Table — Header flit (12_fabric_collectives.md R345) and its payload; the poison marks of its eight
payload flits (20 R421); `poster` the context or awn core whose mailbox post it is (13 R363). -/
structure Packet where
  cls : Nat := 1
  kind : Nat := 0
  dest : Nat := 0
  pkg : Nat := 0
  byRoute : Bool := false
  route : Nat := 0
  handler : Nat := 0
  hasPayload : Bool := false
  rtype : Nat := 0
  wire : Bool := false
  src : Nat := 0
  srcPkg : Nat := 0
  rank : Nat := 0
  arg : Word := 0
  hdr : Word := 0
  payload : VReg := 0
  pois : BitVec 8 := 0
  poster : Option Agent := none
  cap : Option (Nat × CapMsg) := none
  launch : Option Nat := none
  deriving DecidableEq, Repr

/-- A verified-stage claim: digest and signature halves (14_host_pod_firmware.md R389). -/
structure Signed where
  digest : BitVec 384
  sigR : BitVec 384
  sigS : BitVec 384
  deriving DecidableEq, Repr

/-- A graph op at its dispatcher (07 R186 to R190): kind 0 tdec, 1 tsetc, 2 tsetc.add, 3 tspawn. -/
structure GraphOp where
  kind : Nat
  target : Nat
  amount : Nat
  asid : Nat
  issuer : Agent
  rc : BitVec 5
  die : Nat := 0
  renames : List (Word × Word) := []
  queue : Nat := 0
  qv : Bool := false
  op : Nat := 0
  sender : Nat := 0
  launch : Option Nat := none
  deriving DecidableEq, Repr

/-- An event op at its event table (08 R225 to R229): op 0 evpost, 1 evsig, 2 evq.clr. -/
structure EventOp where
  op : Nat
  name : BitVec 16
  amount : Nat
  src : Nat
  deriving DecidableEq, Repr

/-- One granule on a stream edge (11 R334): producer task and edge slot, consumer granule, data, and the bytes written. -/
structure EdgeGranule where
  task : Nat
  edge : Nat
  gran : Nat
  data : BitVec 128
  poisoned : Bool
  mask : BitVec 16 := BitVec.allOnes 16
  maker : Option (Nat × Nat) := none
  behind : Nat := 0
  deriving DecidableEq, Repr

/-- Who sends a decrement (11 R325): the task's identifier, and the launch that counts the message (02 R55). -/
structure DecSender where
  id : Nat
  launch : Option Nat := none
  deriving DecidableEq, Repr

/-- The edge slot that a permit returns to (11 R335), and the producer of its granule's token (02 R55). -/
structure PermitEdge where
  slot : Nat
  maker : Option (Nat × Nat) := none
  deriving DecidableEq, Repr

/-- A batch or clock notice of R105: sending die, its vector stamp, and the lines whose copies it invalidates where it goes. -/
structure Batch where
  src : Nat
  vc : List Nat
  inv : List Nat := []
  deriving DecidableEq, Repr

/-- A class-3 count token (05 R140): the five counters, the tree number, how many tokens it sums, its route class, since when it waits, its launch. -/
structure CountToken where
  counts : List Nat
  tree : Nat
  tokens : Nat
  route : Nat
  since : Nat := 0
  launch : Option Nat := none
  deriving DecidableEq, Repr

/-- Where an uncorrectable error is found (20 R421, R426): unit 0 an HBM4 or L2 line (`x` its physical
address), 1 a buffer granule (`x` tile, `y` window code, `z` frame*128+granule), 2 the control state of tile
x's router, 3 its adder, 4 a Levee edge, 5 die x's memory port, 6 the freeze domain of tile x, 7 tile x's awn core, 8 a line of die x's polder slot `y` (`z` its number in the page), 9 a line of the version store (`x` line, `y` its place among the
preserved versions), 10 the payload of the `y`-th packet that waits at tile x's router, 11 that of the `y`-th pending arrival at it (`z` the flit of
the payload), 12 the `y`-th class-0 flit at tile x, 13 the copy that die x's L2 holds of line `y` of another die or package, 14 the overflow handler's
table entry of line `x` (22 R460). -/
structure ErrorSite where
  unit : Nat
  x : Nat
  y : Nat := 0
  z : Nat := 0
  deriving DecidableEq, Repr

/-- An RDMA request (14 R376). -/
structure Rdma where
  qp : Nat
  rkey : Nat
  va : Word
  len : Nat := 8
  data : List Byte := []
  compare : Word := 0
  operand : Word := 0
  deriving DecidableEq, Repr

/-- A control message's frame and sender (14 R385, R386): `key` is the digest of the sending host's key, `port` the host port (01 R20) by which it came:
an unsplit port p is 2p, the halves of a split one 2p and 2p + 1. -/
structure Msg where
  key : BitVec 384
  qp : Nat
  port : Fin 8
  tag : Nat
  typ : Nat := 0
  deriving DecidableEq, Repr

/-- CLAIM body (R386). -/
structure ClaimBody where
  pub : BitVec 768
  sigR : BitVec 384
  sigS : BitVec 384
  chain : List Byte
  deriving DecidableEq, Repr

/-- Queue descriptor (14 Table — Queue descriptor, R377). -/
structure QueueDesc where
  base : Word
  log : Nat
  prio : Nat
  errq : Nat
  qp : Nat
  gvroot : Word
  widx : Word
  deriving DecidableEq, Repr

/-- MREG body (R386). -/
structure RegionDesc where
  base : Word
  len : Nat
  asid : Nat
  rights : BitVec 8
  qp : Nat
  deriving DecidableEq, Repr

/-- UPDATE body (R386) with the signature the image carries (R389). -/
structure UpdateBody where
  addr : Word
  len : Nat
  reg : Nat
  digest : BitVec 384
  stage : Signed
  minVer : Nat
  maxVer : Nat
  deriving DecidableEq, Repr

/-- An incoming UALink transaction (R391): `pa` local physical address; for a write, `msg` delivers a message
instead: 0 none, 1 decrement (target, sender), 2 event op, 3 active message. -/
structure UaReq where
  pa : Nat
  len : Nat := 32
  data : List Byte := []
  mask : List Bool := []
  op : Nat := 0
  operand : Word := 0
  msg : Nat := 0
  target : Nat := 0
  sender : Nat := 0
  ev : EventOp := ⟨0, 0, 0, 0⟩
  pkt : Packet := {}
  deriving DecidableEq, Repr

/-- A memory request at a home slice (04 R102): a write of `data` at physical address `pa` (kind 0), or an
atomic of function `op` (9 compares with `expected`) with operand `operand` on `len` bytes (kind 1), or a fill by a sharer (kind 2);
`home` is the home slice's tile and `ver` tells a page with VER = 1. -/
structure MemReq where
  kind : Nat
  agent : Agent
  pa : Nat
  data : List Byte := []
  poisoned : Bool := false
  op : Nat := 0
  len : Nat := 0
  operand : Word := 0
  expected : Word := 0
  sharer : Nat := 0
  home : Nat := 0
  ver : Bool := false
  deriving DecidableEq, Repr

/-- The steps of the part (opcode_table.json). Instructions carry the fields of their format; events carry what they act on. -/
inductive Instr where
  /-- PACKAGE_RESET (R7). -/
  | packageReset
  /-- POWER_INPUT_CHANGE (R27). -/
  | powerInputChange (mainUp standbyUp : Bool)
  /-- MEASURED_BOOT_STAGE (R389). -/
  | measuredBootStage (reg : Nat) (stage : Signed)
  /-- CONTEXT_WAIT_CLEAR (R32). -/
  | contextWaitClear (a : Agent)
  /-- YIELD_EXPIRY (R182). -/
  | yieldExpiry (a : Agent)
  /-- OPERATION_COMPLETION (R94). -/
  | operationCompletion (op : Nat)
  /-- PAGE_IN_COMPLETE (R69). -/
  | pageInComplete (tile win page : Nat)
  /-- TASK_RETIREMENT (R39). -/
  | taskRetirement (tile : Nat)
  /-- DECREMENT_ARRIVAL (R325). -/
  | decrementArrival (target : Nat) (sender : DecSender)
  /-- GRAPH_OP_ARRIVAL (R190). -/
  | graphOpArrival (g : GraphOp)
  /-- DISPATCH_DECISION (R327). -/
  | dispatchDecision (die : Nat)
  /-- FOOTPRINT_FETCH_START (R330). -/
  | footprintFetchStart (die : Nat)
  /-- FOOTPRINT_FETCH_COMPLETE (R328). -/
  | footprintFetchComplete (die : Nat)
  /-- TASK_ENTER_RUNNING (R332). -/
  | taskEnterRunning (tile : Nat)
  /-- WATCHDOG_EXPIRY (R49). -/
  | watchdogExpiry (task : Nat)
  /-- GANG_RESTORE (R484). -/
  | gangRestore (task : Nat)
  /-- ENERGY_REFILL (R339). -/
  | energyRefill
  /-- ENERGY_COUNTER_UPDATE (R191). -/
  | energyCounterUpdate (tile : Nat)
  /-- FREEZE_REQUEST_ARRIVAL (R394). -/
  | freezeRequestArrival (tile : Nat) (image : Option Word)
  /-- FREEZE_STOPPING_POINT (R394). -/
  | freezeStoppingPoint (tile : Nat)
  /-- DIKE_COMPLETE (R396). -/
  | dikeComplete (tile : Nat)
  /-- SLUICE_IMAGE_WRITTEN (R398). -/
  | sluiceImageWritten (tile : Nat)
  /-- BARRIER_PHASE_COMPLETE (R223). -/
  | barrierPhaseComplete (task : Nat)
  /-- LAUNCH_SWEEP (R56). -/
  | launchSweep (launch : Nat)
  /-- ROUTER_PACKET_ARRIVAL (R354). -/
  | routerPacketArrival (tile port : Nat) (p : Packet)
  /-- STREAM_EDGE_GRANULE_ARRIVAL (R334). -/
  | streamEdgeGranuleArrival (g : EdgeGranule)
  /-- PERMIT_RETURN (R335). -/
  | permitReturn (task : Nat) (edge : PermitEdge)
  /-- CONFIG_WAVEFRONT_ARRIVAL (R51). -/
  | configWavefrontArrival (tile load : Nat)
  /-- LEVEE_BATCH_ARRIVAL (R105). -/
  | leveeBatchArrival (die : Nat) (b : Batch)
  /-- ADDER_CONTRIBUTION_ARRIVAL (R356). -/
  | adderContributionArrival (tile port : Nat) (p : Packet)
  /-- STAT_TOKEN_ARRIVAL (R358). -/
  | statTokenArrival (tile port : Nat) (t : CountToken)
  /-- STAT_MERGE_TIMEOUT (R358). -/
  | statMergeTimeout (tile cls : Nat)
  /-- AWN_MESSAGE_ARRIVAL (R355). -/
  | awnMessageArrival (tile : Nat) (p : Packet)
  /-- HANDLER_START (R305). -/
  | handlerStart (tile : Nat)
  /-- DIRECTORY_OVERFLOW (R108). -/
  | directoryOverflow (line sharer : Nat)
  /-- OVERFLOW_HANDLER_REPORT (R108). -/
  | overflowHandlerReport (line : Nat) (refuse : Bool)
  /-- MEMORY_PORT_GRANT (R352). -/
  | memoryPortGrant (die : Nat)
  /-- MAILBOX_POST_ARRIVAL (R312). -/
  | mailboxPostArrival (tile : Nat) (p : Packet)
  /-- RETURN_STRIP_ARRIVAL (R315). -/
  | returnStripArrival (tile : Nat) (p : Packet)
  /-- CAPACITY_CLAIM_ARRIVAL (R317). -/
  | capacityClaimArrival (c : CapMsg)
  /-- CAPACITY_END_ARRIVAL (R317). -/
  | capacityEndArrival (c : CapMsg)
  /-- CAPACITY_SET_ARRIVAL (R316). -/
  | capacitySetArrival (c : CapMsg)
  /-- TRANSFER_COMPLETION (R296). -/
  | transferCompletion (op : Nat)
  /-- MATRIX_STEP (R276). -/
  | matrixStep (tile : Nat)
  /-- STREAM_STRIP_FETCH (R290). -/
  | streamStripFetch (a : Agent) (reg : Nat)
  /-- STREAM_STRIP_WRITE (R292). -/
  | streamStripWrite (a : Agent) (reg : Nat)
  /-- TLBINV_WRITE (R86). -/
  | tlbinvWrite (a : Agent) (value : Word)
  /-- CTXHOLD_WRITE (R167). -/
  | ctxholdWrite (a : Agent) (value : Word)
  /-- CTXREL_WRITE (R167). -/
  | ctxrelWrite (a : Agent) (value : Word)
  /-- BFMT_WRITE (R66). -/
  | bfmtWrite (a : Agent) (num : BitVec 12) (value : Word)
  /-- FREC0_VALID_CLEAR (R424). -/
  | frec0ValidClear (a : Agent)
  /-- EFAULT_VALID_CLEAR (R454). -/
  | efaultValidClear (a : Agent)
  /-- DRLOVF_CLEAR (R89). -/
  | drlovfClear (a : Agent)
  /-- CONTROL_REGISTER_WRITE (R168). -/
  | controlRegisterWrite (a : Agent) (num : BitVec 12) (value : Word)
  /-- UNCORRECTABLE_ERROR (R421). -/
  | uncorrectableError (u : ErrorSite)
  /-- CORRECTED_ERROR (R427). -/
  | correctedError (die : Nat)
  /-- COMMAND_QUEUE_DOORBELL (R378). -/
  | commandQueueDoorbell (q : Nat)
  /-- NOP_PACKET (R380). -/
  | nopPacket (q idx : Nat)
  /-- LAUNCH_PACKET (R381). -/
  | launchPacket (q idx : Nat)
  /-- GRAPH_PACKET (R382). -/
  | graphPacket (q idx : Nat)
  /-- COPY_PACKET (R380). -/
  | copyPacket (q idx : Nat)
  /-- SIGNAL_PACKET (R380). -/
  | signalPacket (q idx : Nat)
  /-- WAIT_PACKET (R380). -/
  | waitPacket (q idx : Nat)
  /-- FENCE_PACKET (R380). -/
  | fencePacket (q idx : Nat)
  /-- PACKET_COMPLETION (R380). -/
  | packetCompletion (q idx : Nat)
  /-- RDMA_WRITE (R376). -/
  | rdmaWrite (r : Rdma)
  /-- RDMA_READ (R376). -/
  | rdmaRead (r : Rdma)
  /-- RDMA_COMPARE_AND_SWAP (R376). -/
  | rdmaCompareAndSwap (r : Rdma)
  /-- RDMA_FETCH_AND_ADD (R376). -/
  | rdmaFetchAndAdd (r : Rdma)
  /-- RDMA_UNSUPPORTED_REQUEST (R375). -/
  | rdmaUnsupportedRequest (qp : Nat)
  /-- CLAIM (R383). -/
  | claim (m : Msg) (c : ClaimBody)
  /-- HEARTBEAT (R384). -/
  | heartbeat (m : Msg) (ms : Nat)
  /-- HANDOVER (R387). -/
  | handover (m : Msg) (digest : BitVec 384)
  /-- QCREATE (R377). -/
  | qcreate (m : Msg) (q : Nat) (d : QueueDesc)
  /-- QDESTROY (R385). -/
  | qdestroy (m : Msg) (q : Nat)
  /-- QPRIO (R342). -/
  | qprio (m : Msg) (q prio : Nat)
  /-- SETLIMIT (R339). -/
  | setlimit (m : Msg) (watts : Nat)
  /-- MREG (R376). -/
  | mreg (m : Msg) (r : RegionDesc)
  /-- UPDATE (R388). -/
  | update (m : Msg) (u : UpdateBody)
  /-- QUIESCE (R392). -/
  | quiesce (m : Msg)
  /-- RESUME (R392). -/
  | resume (m : Msg)
  /-- REPORT (R390). -/
  | report (m : Msg) (nonce : BitVec 256)
  /-- STATUS (R385). -/
  | status (m : Msg) (first : Nat)
  /-- FRESTORE (R468). -/
  | frestore (m : Msg) (task tile : Nat) (clear : Bool)
  /-- FDISCARD (R469). -/
  | fdiscard (m : Msg) (task : Nat) (send : Bool)
  /-- LEASE_LAPSE (R384). -/
  | leaseLapse
  /-- HANDOVER_LAPSE (R387). -/
  | handoverLapse
  /-- COMPLEX_FAILOVER (R480). -/
  | complexFailover (activeError : Bool)
  /-- QUEUE_WAIT_CYCLE_SWEEP (R473). -/
  | queueWaitCycleSweep
  /-- UALINK_BRINGUP (R391). -/
  | ualinkBringup (pkg : Nat) (pod : List Nat)
  /-- UALINK_READ (R391). -/
  | ualinkRead (r : UaReq)
  /-- UALINK_WRITE (R391). -/
  | ualinkWrite (r : UaReq)
  /-- UALINK_ATOMIC (R391). -/
  | ualinkAtomic (r : UaReq)
  /-- UALINK_TIMEOUT (R482). -/
  | ualinkTimeout (port failed : Nat)
  /-- HOST_PORT_LINK_FAILURE (R481). -/
  | hostPortLinkFailure (port : Fin 8) (qps : Nat)
  /-- EVENT_OP_ARRIVAL (R337). -/
  | eventOpArrival (e : EventOp)
  /-- RESERVED_ENCODING (R157). -/
  | reservedEncoding (code : BitVec 10)
  /-- INSTRUCTION_FETCH_FAULT (R434). -/
  | instructionFetchFault (cause : BitVec 16) (code : BitVec 10) (addr : Word)
  /-- RESERVED_CONTROL_MESSAGE (R386). -/
  | reservedControlMessage (m : Msg)
  /-- MEMORY_REQUEST_ARRIVAL (R102). -/
  | memoryRequestArrival (r : MemReq)
  /-- PRODUCER_HOLD_ARRIVAL (R396). -/
  | producerHoldArrival (task edge : Nat) (hold : Bool)
  /-- CREDIT_ARRIVAL (R350). -/
  | creditArrival (tile port cls : Nat)
  /-- SLOT_TABLE_CYCLE (R347). -/
  | slotTableCycle (die : Nat)
  /-- `nop` (R182). -/
  | nopOp
  /-- `yield` (R182). -/
  | yield
  /-- `brk` (R183). -/
  | brk (code : BitVec 10)
  /-- `trap` (R183). -/
  | trapOp (code : BitVec 10)
  /-- `eret` (R184). -/
  | eret
  /-- `hexit` (R180). -/
  | hexit
  /-- `texit` (R185). -/
  | texit
  /-- `add` (R169). -/
  | addOp (f : CR)
  /-- `sub` (R169). -/
  | subOp (f : CR)
  /-- `and` (R169). -/
  | andOp (f : CR)
  /-- `or` (R169). -/
  | orOp (f : CR)
  /-- `xor` (R169). -/
  | xorOp (f : CR)
  /-- `shl` (R169). -/
  | shl (f : CR)
  /-- `shr` (R169). -/
  | shr (f : CR)
  /-- `sar` (R169). -/
  | sar (f : CR)
  /-- `mul` (R169). -/
  | mulOp (f : CR)
  /-- `mulh` (R169). -/
  | mulh (f : CR)
  /-- `mulhu` (R169). -/
  | mulhu (f : CR)
  /-- `div` (R170). -/
  | divOp (f : CR)
  /-- `divu` (R170). -/
  | divu (f : CR)
  /-- `rem` (R170). -/
  | rem (f : CR)
  /-- `remu` (R170). -/
  | remu (f : CR)
  /-- `min` (R169). -/
  | minOp (f : CR)
  /-- `max` (R169). -/
  | maxOp (f : CR)
  /-- `minu` (R169). -/
  | minu (f : CR)
  /-- `maxu` (R169). -/
  | maxu (f : CR)
  /-- `slt` (R169). -/
  | slt (f : CR)
  /-- `sltu` (R169). -/
  | sltu (f : CR)
  /-- `clz` (R169). -/
  | clz (f : CR)
  /-- `ctz` (R169). -/
  | ctz (f : CR)
  /-- `popc` (R169). -/
  | popc (f : CR)
  /-- `add` (R169). -/
  | addAs (f : AS)
  /-- `sub` (R169). -/
  | subAs (f : AS)
  /-- `and` (R169). -/
  | andAs (f : AS)
  /-- `or` (R169). -/
  | orAs (f : AS)
  /-- `xor` (R169). -/
  | xorAs (f : AS)
  /-- `shl` (R169). -/
  | shlAs (f : AS)
  /-- `shr` (R169). -/
  | shrAs (f : AS)
  /-- `sar` (R169). -/
  | sarAs (f : AS)
  /-- `mul` (R169). -/
  | mulAs (f : AS)
  /-- `mulh` (R169). -/
  | mulhAs (f : AS)
  /-- `mulhu` (R169). -/
  | mulhuAs (f : AS)
  /-- `div` (R170). -/
  | divAs (f : AS)
  /-- `divu` (R170). -/
  | divuAs (f : AS)
  /-- `rem` (R170). -/
  | remAs (f : AS)
  /-- `remu` (R170). -/
  | remuAs (f : AS)
  /-- `min` (R169). -/
  | minAs (f : AS)
  /-- `max` (R169). -/
  | maxAs (f : AS)
  /-- `minu` (R169). -/
  | minuAs (f : AS)
  /-- `maxu` (R169). -/
  | maxuAs (f : AS)
  /-- `slt` (R169). -/
  | sltAs (f : AS)
  /-- `sltu` (R169). -/
  | sltuAs (f : AS)
  /-- `clz` (R169). -/
  | clzAs (f : AS)
  /-- `ctz` (R169). -/
  | ctzAs (f : AS)
  /-- `popc` (R169). -/
  | popcAs (f : AS)
  /-- `addi` (R169). -/
  | addi (f : CI)
  /-- `andi` (R169). -/
  | andi (f : CI)
  /-- `ori` (R169). -/
  | ori (f : CI)
  /-- `xori` (R169). -/
  | xori (f : CI)
  /-- `shli` (R169). -/
  | shli (f : CI)
  /-- `shri` (R169). -/
  | shri (f : CI)
  /-- `sari` (R169). -/
  | sari (f : CI)
  /-- `slti` (R169). -/
  | slti (f : CI)
  /-- `sltiu` (R169). -/
  | sltiu (f : CI)
  /-- `bfx` (R171). -/
  | bfx (f : CI)
  /-- `bfxs` (R171). -/
  | bfxs (f : CI)
  /-- `bfi` (R171). -/
  | bfi (f : CI)
  /-- `lea` (R172). -/
  | lea (f : CI)
  /-- `lea.g` (R172). -/
  | leaG (f : CI)
  /-- `crd` (R168). -/
  | crd (f : CI)
  /-- `cwr` (R168). -/
  | cwr (f : CI)
  /-- `beq` (R177). -/
  | beq (f : CB)
  /-- `bne` (R177). -/
  | bne (f : CB)
  /-- `blt` (R177). -/
  | blt (f : CB)
  /-- `bge` (R177). -/
  | bge (f : CB)
  /-- `bltu` (R177). -/
  | bltu (f : CB)
  /-- `bgeu` (R177). -/
  | bgeu (f : CB)
  /-- `jal` (R177). -/
  | jal (rd : BitVec 5) (off : BitVec 20)
  /-- `jalr` (R177). -/
  | jalr (f : CI)
  /-- `loop` (R178). -/
  | loopOp (f : CB)
  /-- `hstart` (R179). -/
  | hstart (f : CR)
  /-- `hjoin` (R180). -/
  | hjoin (f : CR)
  /-- `hself` (R181). -/
  | hself (rd : BitVec 5)
  /-- `gwork` (R181). -/
  | gwork (rd : BitVec 5)
  /-- `grank` (R181). -/
  | grank (rd : BitVec 5)
  /-- `tid` (R181). -/
  | tid (rd : BitVec 5)
  /-- `clk` (R181). -/
  | clk (rd : BitVec 5)
  /-- `ld.b` (R200). -/
  | ldB (f : CM)
  /-- `ld.bu` (R200). -/
  | ldBu (f : CM)
  /-- `ld.h` (R200). -/
  | ldH (f : CM)
  /-- `ld.hu` (R200). -/
  | ldHu (f : CM)
  /-- `ld.w` (R200). -/
  | ldW (f : CM)
  /-- `ld.wu` (R200). -/
  | ldWu (f : CM)
  /-- `ld.d` (R200). -/
  | ldD (f : CM)
  /-- `st.b` (R200). -/
  | stB (f : CM)
  /-- `st.h` (R200). -/
  | stH (f : CM)
  /-- `st.w` (R200). -/
  | stW (f : CM)
  /-- `st.d` (R200). -/
  | stD (f : CM)
  /-- `vld` (R201). -/
  | vld (f : CM)
  /-- `vst` (R201). -/
  | vst (f : CM)
  /-- `amo.add` (R214). -/
  | amoAdd (f : CR)
  /-- `amo.and` (R214). -/
  | amoAnd (f : CR)
  /-- `amo.or` (R214). -/
  | amoOr (f : CR)
  /-- `amo.xor` (R214). -/
  | amoXor (f : CR)
  /-- `amo.min` (R214). -/
  | amoMin (f : CR)
  /-- `amo.max` (R214). -/
  | amoMax (f : CR)
  /-- `amo.minu` (R214). -/
  | amoMinu (f : CR)
  /-- `amo.maxu` (R214). -/
  | amoMaxu (f : CR)
  /-- `amo.swap` (R214). -/
  | amoSwap (f : CR)
  /-- `amocas` (R214). -/
  | amocas (f : CR)
  /-- `tkwait` (R219). -/
  | tkwait (kn : BitVec 3)
  /-- `fence` (R98). -/
  | fenceOp (mask : BitVec 6) (scope : BitVec 3)
  /-- `bar.arrive` (R223). -/
  | barArrive (stat : Bool)
  /-- `bar.wait` (R223). -/
  | barWait (stat : Bool)
  /-- `bar.sync` (R223). -/
  | barSync (stat : Bool)
  /-- `anop` (R155). -/
  | anop
  /-- `fadd` (R175). -/
  | fadd (f : AF)
  /-- `fsub` (R175). -/
  | fsub (f : AF)
  /-- `fmul` (R175). -/
  | fmul (f : AF)
  /-- `fma` (R175). -/
  | fma (f : AF)
  /-- `fmin` (R175). -/
  | fmin (f : AF)
  /-- `fmax` (R175). -/
  | fmax (f : AF)
  /-- `fabs` (R175). -/
  | fabs (f : AF)
  /-- `fneg` (R175). -/
  | fneg (f : AF)
  /-- `fcvt` (R175). -/
  | fcvt (f : AF)
  /-- `fcmp` (R175). -/
  | fcmp (f : AF)
  /-- `vadd` (R252). -/
  | vadd (f : AV)
  /-- `vsub` (R252). -/
  | vsub (f : AV)
  /-- `vmul` (R252). -/
  | vmul (f : AV)
  /-- `vfma` (R252). -/
  | vfma (f : AV)
  /-- `vfms` (R252). -/
  | vfms (f : AV)
  /-- `vnfma` (R252). -/
  | vnfma (f : AV)
  /-- `vmin` (R252). -/
  | vmin (f : AV)
  /-- `vmax` (R252). -/
  | vmax (f : AV)
  /-- `vabs` (R252). -/
  | vabs (f : AV)
  /-- `vneg` (R252). -/
  | vneg (f : AV)
  /-- `vrcp` (R254). -/
  | vrcp (f : AV)
  /-- `vrsq` (R254). -/
  | vrsq (f : AV)
  /-- `vsqrt` (R254). -/
  | vsqrt (f : AV)
  /-- `vexp2` (R254). -/
  | vexp2 (f : AV)
  /-- `vlog2` (R254). -/
  | vlog2 (f : AV)
  /-- `vsin` (R254). -/
  | vsin (f : AV)
  /-- `vcos` (R254). -/
  | vcos (f : AV)
  /-- `vtanh` (R254). -/
  | vtanh (f : AV)
  /-- `vcmp` (R255). -/
  | vcmp (f : AVF)
  /-- `vsel` (R256). -/
  | vsel (f : AV)
  /-- `vand` (R257). -/
  | vand (f : AV)
  /-- `vor` (R257). -/
  | vor (f : AV)
  /-- `vxor` (R257). -/
  | vxor (f : AV)
  /-- `vnot` (R257). -/
  | vnot (f : AV)
  /-- `vandn` (R257). -/
  | vandn (f : AV)
  /-- `vshl` (R258). -/
  | vshl (f : AV)
  /-- `vshr` (R258). -/
  | vshr (f : AV)
  /-- `vsar` (R258). -/
  | vsar (f : AV)
  /-- `vmulh` (R259). -/
  | vmulh (f : AV)
  /-- `vmulhu` (R259). -/
  | vmulhu (f : AV)
  /-- `vadds` (R259). -/
  | vadds (f : AV)
  /-- `vsubs` (R259). -/
  | vsubs (f : AV)
  /-- `vcvt` (R260). -/
  | vcvt (f : AVF)
  /-- `vqnt` (R261). -/
  | vqnt (f : AVF)
  /-- `vdeq` (R261). -/
  | vdeq (f : AVF)
  /-- `vperm` (R262). -/
  | vperm (f : AV)
  /-- `vpermb` (R262). -/
  | vpermb (f : AV)
  /-- `vnib.lo` (R263). -/
  | vnibLo (f : AV)
  /-- `vnib.hi` (R263). -/
  | vnibHi (f : AV)
  /-- `vzip` (R264). -/
  | vzip (f : AV)
  /-- `vunzip` (R264). -/
  | vunzip (f : AV)
  /-- `vslideup` (R265). -/
  | vslideup (f : AV)
  /-- `vslidedn` (R265). -/
  | vslidedn (f : AV)
  /-- `vbcast` (R266). -/
  | vbcast (f : AV)
  /-- `vext` (R266). -/
  | vext (f : AV)
  /-- `vins` (R266). -/
  | vins (f : AV)
  /-- `vred.add` (R267). -/
  | vredAdd (f : AV)
  /-- `vred.min` (R267). -/
  | vredMin (f : AV)
  /-- `vred.max` (R267). -/
  | vredMax (f : AV)
  /-- `vscan.add` (R268). -/
  | vscanAdd (f : AV)
  /-- `vscan.min` (R268). -/
  | vscanMin (f : AV)
  /-- `vscan.max` (R268). -/
  | vscanMax (f : AV)
  /-- `vcompress` (R269). -/
  | vcompress (f : AV)
  /-- `vexpand` (R269). -/
  | vexpand (f : AV)
  /-- `viota` (R269). -/
  | viota (f : AV)
  /-- `vclass` (R270). -/
  | vclass (f : AV)
  /-- `mand` (R271). -/
  | mand (f : AM)
  /-- `mor` (R271). -/
  | mor (f : AM)
  /-- `mxor` (R271). -/
  | mxor (f : AM)
  /-- `mnot` (R271). -/
  | mnot (f : AM)
  /-- `mandn` (R271). -/
  | mandn (f : AM)
  /-- `mmov` (R271). -/
  | mmov (f : AM)
  /-- `mfroms` (R271). -/
  | mfroms (f : AM)
  /-- `mtos` (R271). -/
  | mtos (f : AM)
  /-- `mpop` (R271). -/
  | mpop (f : AM)
  /-- `mfirst` (R271). -/
  | mfirst (f : AM)
  /-- `movi` (R173). -/
  | movi (rd : BitVec 5) (imm : BitVec 32)
  /-- `movhi` (R173). -/
  | movhi (rd : BitVec 5) (imm : BitVec 32)
  /-- `sel` (R174). -/
  | sel (f : EX)
  /-- `ld.o` (R200). -/
  | ldO (f : LM)
  /-- `st.o` (R200). -/
  | stO (f : LM)
  /-- `vld.o` (R201). -/
  | vldO (f : LM)
  /-- `vst.o` (R201). -/
  | vstO (f : LM)
  /-- `ld.snap` (R208). -/
  | ldSnap (f : MX)
  /-- `vld.snap` (R208). -/
  | vldSnap (f : MX)
  /-- `ld.fe` (R207). -/
  | ldFe (f : MX)
  /-- `ld.fe.clr` (R207). -/
  | ldFeClr (f : MX)
  /-- `vld.fe` (R207). -/
  | vldFe (f : MX)
  /-- `vld.fe.clr` (R207). -/
  | vldFeClr (f : MX)
  /-- `st.fe` (R206). -/
  | stFe (f : MX)
  /-- `vst.fe` (R206). -/
  | vstFe (f : MX)
  /-- `vldx` (R204). -/
  | vldx (f : MX)
  /-- `vstx` (R204). -/
  | vstx (f : MX)
  /-- `vlds` (R203). -/
  | vlds (f : MX)
  /-- `vsts` (R203). -/
  | vsts (f : MX)
  /-- `pref` (R210). -/
  | pref (f : LM)
  /-- `cache.clean` (R211). -/
  | cacheClean (f : MXC)
  /-- `cache.inv` (R211). -/
  | cacheInv (f : MXC)
  /-- `cache.flush` (R211). -/
  | cacheFlush (f : MXC)
  /-- `amo.s.add` (R215). -/
  | amoSAdd (f : MX)
  /-- `amo.s.and` (R215). -/
  | amoSAnd (f : MX)
  /-- `amo.s.or` (R215). -/
  | amoSOr (f : MX)
  /-- `amo.s.xor` (R215). -/
  | amoSXor (f : MX)
  /-- `amo.s.min` (R215). -/
  | amoSMin (f : MX)
  /-- `amo.s.max` (R215). -/
  | amoSMax (f : MX)
  /-- `amo.s.minu` (R215). -/
  | amoSMinu (f : MX)
  /-- `amo.s.maxu` (R215). -/
  | amoSMaxu (f : MX)
  /-- `amo.s.swap` (R215). -/
  | amoSSwap (f : MX)
  /-- `amocas.s` (R215). -/
  | amocasS (f : MX)
  /-- `famo.add.f32` (R216). -/
  | famoAddF32 (f : MX)
  /-- `famo.add.bf16x2` (R216). -/
  | famoAddBf16x2 (f : MX)
  /-- `vamo.add` (R217). -/
  | vamoAdd (f : MX)
  /-- `vamo.and` (R217). -/
  | vamoAnd (f : MX)
  /-- `vamo.or` (R217). -/
  | vamoOr (f : MX)
  /-- `vamo.xor` (R217). -/
  | vamoXor (f : MX)
  /-- `vamo.min` (R217). -/
  | vamoMin (f : MX)
  /-- `vamo.max` (R217). -/
  | vamoMax (f : MX)
  /-- `vamo.minu` (R217). -/
  | vamoMinu (f : MX)
  /-- `vamo.maxu` (R217). -/
  | vamoMaxu (f : MX)
  /-- `vamo.swap` (R217). -/
  | vamoSwap (f : MX)
  /-- `evsig` (R226). -/
  | evsig (f : EX)
  /-- `evwait` (R229). -/
  | evwait (f : EX)
  /-- `evpost` (R226). -/
  | evpost (f : EX)
  /-- `evq` (R227). -/
  | evq (f : EX)
  /-- `evq.clr` (R226). -/
  | evqClr (f : EX)
  /-- `snap` (R114). -/
  | snap (f : EX)
  /-- `snaprel` (R231). -/
  | snaprel (f : EX)
  /-- `txbegin` (R232). -/
  | txbegin (f : EX)
  /-- `txcommit` (R233). -/
  | txcommit (f : EX)
  /-- `txabort` (R234). -/
  | txabort (f : EX)
  /-- `txstat` (R235). -/
  | txstat (f : EX)
  /-- `spmap` (R239). -/
  | spmap (f : EX)
  /-- `spunmap` (R240). -/
  | spunmap (f : EX)
  /-- `sppin` (R241). -/
  | sppin (f : EX)
  /-- `spunpin` (R241). -/
  | spunpin (f : EX)
  /-- `spfmt` (R243). -/
  | spfmt (f : EX)
  /-- `spmig.res` (R242). -/
  | spmigRes (f : EX)
  /-- `spmig.pold` (R242). -/
  | spmigPold (f : EX)
  /-- `spmig.hbm` (R242). -/
  | spmigHbm (f : EX)
  /-- `mma` (R280). -/
  | mma (f : EX)
  /-- `mma.mask` (R281). -/
  | mmaMask (f : EX)
  /-- `mma.mask.fill` (R281). -/
  | mmaMaskFill (f : EX)
  /-- `mzero` (R282). -/
  | mzero (f : EX)
  /-- `mcvt` (R283). -/
  | mcvt (f : EX)
  /-- `mtr` (R284). -/
  | mtr (f : EX)
  /-- `mwait` (R286). -/
  | mwait (f : EX)
  /-- `mscale.col` (R285). -/
  | mscaleCol (f : EX)
  /-- `mscale.row` (R285). -/
  | mscaleRow (f : EX)
  /-- `sbind.in` (R290). -/
  | sbindIn (f : EX)
  /-- `sbind.out` (R290). -/
  | sbindOut (f : EX)
  /-- `sgen` (R289). -/
  | sgen (f : EX)
  /-- `sunbind` (R294). -/
  | sunbind (f : EX)
  /-- `sstat` (R295). -/
  | sstat (f : EX)
  /-- `bcopy` (R299). -/
  | bcopy (f : EX)
  /-- `bcopyn` (R300). -/
  | bcopyn (f : EX)
  /-- `bmcast` (R301). -/
  | bmcast (f : EX)
  /-- `bfill` (R302). -/
  | bfill (f : EX)
  /-- `bmig` (R303). -/
  | bmig (f : EX)
  /-- `bpoll` (R304). -/
  | bpoll (f : EX)
  /-- `bwait` (R304). -/
  | bwait (f : EX)
  /-- `amsend` (R306). -/
  | amsend (f : EX)
  /-- `amreply` (R306). -/
  | amreply (f : EX)
  /-- `amhinst` (R307). -/
  | amhinst (f : EX)
  /-- `redsend` (R308). -/
  | redsend (f : EX)
  /-- `rtset` (R309). -/
  | rtset (f : EX)
  /-- `slotset` (R309). -/
  | slotset (f : EX)
  /-- `cfgtok` (R310). -/
  | cfgtok (f : EX)
  /-- `stflush` (R311). -/
  | stflush (f : EX)
  /-- `mbpost` (R312). -/
  | mbpost (f : EX)
  /-- `mbrd` (R313). -/
  | mbrd (f : EX)
  /-- `mbclr` (R313). -/
  | mbclr (f : EX)
  /-- `steer` (R314). -/
  | steer (f : EX)
  /-- `steer.ret` (R314). -/
  | steerRet (f : EX)
  /-- `mgrd` (R315). -/
  | mgrd (f : EX)
  /-- `capclaim` (R317). -/
  | capclaim (f : EX)
  /-- `capclaim.end` (R317). -/
  | capclaimEnd (f : EX)
  /-- `capclaim.set` (R316). -/
  | capclaimSet (f : EX)
  /-- `tspawn` (R187). -/
  | tspawn (f : EX)
  /-- `tdec` (R188). -/
  | tdec (f : EX)
  /-- `tsetc` (R189). -/
  | tsetc (f : EX)
  /-- `tsetc.add` (R189). -/
  | tsetcAdd (f : EX)
  /-- `erd` (R191). -/
  | erd (f : EX)
  /-- `ctxrd` (R192). -/
  | ctxrd (f : EX)
  /-- `ctxwr` (R192). -/
  | ctxwr (f : EX)
  /-- `tfreeze` (R401). -/
  | tfreeze (f : EX)
  /-- `trestore` (R402). -/
  | trestore (f : EX)
  deriving DecidableEq, Repr

end Sys2Proof
end

