-- ==== Sys2Proof/Machine/Reserved.lean ====
section
/-! DEFINITION. The reserved values of each instruction's operand fields, with the CODE of
Table — Reserved-encoding detail (21_instruction_exceptions.md R432, R438). -/

namespace Sys2Proof

/-- [7] when a field that must be zero is not (R432 CODE 7). -/
def mustZero (b : Bool) : List Nat := if b then [] else [7]

/-- [code] when the field does not hold an allowed value. -/
def mustBe (code : Nat) (b : Bool) : List Nat := if b then [] else [code]

/-- Width in bits of an element type code (06 Table — Type codes, 05 R123); 0 for the reserved code 15. -/
def tyWidth (t : Nat) : Nat :=
  if t ≤ 1 then 32 else if t ≤ 3 then 16 else if t ≤ 5 then 8 else if t = 6 then 32 else if t ≤ 8 then 16
  else if t ≤ 10 then 8 else if t ≤ 13 then 4 else if t = 14 then 8 else 0

/-- FT of R246: f32, bf16, f16. -/
def isFT (t : Nat) : Bool := 6 ≤ t && t ≤ 8

/-- IT of R246: i32 to n8. -/
def isIT (t : Nat) : Bool := t ≤ 5

/-- The control registers whose scope is Context (07 Table — Control registers). -/
def cregIsCtx (n : Nat) : Bool := n ≤ 0x14 || n == 0x18 || (0x20 ≤ n && n ≤ 0x2C)

/-- The buffer and bank a BFMT number names on a V-tile (`v`) or M-tile: codes A 0, W 1, C 2 (R166). -/
def bfmtBank (v : Bool) (n : Nat) : Option (Nat × Nat) :=
  if 0x100 ≤ n && n < 0x100 + (if v then 64 else 32) then some (0, n - 0x100)
  else if 0x140 ≤ n && n < 0x140 + (if v then 16 else 48) then some (1, n - 0x140)
  else if 0x180 ≤ n && n < 0x180 + 16 then some (2, n - 0x180)
  else none

/-- A number that Table — Control registers lists for the tile's kind (R166). -/
def cregKnown (v : Bool) (n : Nat) : Bool :=
  cregIsCtx n || (0x40 ≤ n && n ≤ 0x44) || (0x48 ≤ n && n ≤ 0x4A) || (bfmtBank v n).isSome ||
  (0x200 ≤ n && n ≤ 0x20D) || (0x280 ≤ n && n ≤ 0x282)

/-- Scope and ordering fields of a lone memory op (R90, R197); `ords` are the codes its class allows. -/
def ordScope (ord : BitVec 2) (scope : BitVec 3) (ords : List Nat) : List Nat :=
  mustBe 5 (scope.toNat ≤ 4) ++ mustBe 6 (ords.contains ord.toNat)

/-- A memory-group op's size, scope and ordering codes. -/
def memCodes (f : MX) (sizes ords : List Nat) : List Nat :=
  mustBe 4 (sizes.contains f.size.toNat) ++ ordScope f.ord f.scope ords

/-- As `memCodes` for format LM. -/
def lmCodes (f : LM) (sizes ords : List Nat) : List Nat :=
  mustBe 4 (sizes.contains f.size.toNat) ++ ordScope f.ord f.scope ords

/-- Bits [hi:lo] of a parameter word, as a number. -/
def parF (w : BitVec 32) (hi lo : Nat) : Nat := (w.toNat >>> lo) % 2 ^ (hi - lo + 1)

/-- The zero fields of an LX entry: register fields and a mask of the fn9 and parameter bits it assigns. -/
def exZero (f : EX) (ra rb rc : Bool) (fnMask : BitVec 9) (parMask : BitVec 32) : List Nat :=
  mustZero ((ra || f.ra == 0) && (rb || f.rb == 0) && (rc || f.rc == 0) && (f.fn9 &&& ~~~fnMask) == 0 &&
    (f.par &&& ~~~parMask) == 0)

/-- The type legality of Table — Vector type legality (R246). -/
def tyIn (f : AV) (ok : Nat → Bool) : List Nat := mustBe 3 (ok f.ty.toNat)

/-- Scalar floating-point type fields (R156, R176). -/
def afCodes (f : AF) : List Nat := mustBe 3 (f.t.toNat ≤ 2) ++ mustZero (f.t2 == 0)

/-- ctxrd and ctxwr classes (R192). -/
def ctxClass (f : EX) : List Nat :=
  let c := parF f.par 15 13; let n := parF f.par 12 0
  mustBe 11 (c ≤ 5) ++ mustZero (f.par.toNat < 2 ^ 16) ++
  (if c = 0 then mustZero (n < 32) else if c = 1 then mustZero (n < 2048) else if c ≤ 3 then mustZero (n < 8)
   else if c = 4 then mustZero (n < 4096) ++ mustBe 10 (cregIsCtx n) else if c = 5 then mustZero (n == 0) else [])

/-- MB, NB (and K) of the matrix ops (R280, R285). -/
def matDims (f : EX) (k : Bool) : List Nat :=
  mustBe 11 (parF f.par 31 24 != 0 && parF f.par 23 16 != 0 && (!k || parF f.par 15 0 != 0))

/-- A page count n of R237. -/
def pageCount (f : EX) : List Nat := mustBe 11 (1 ≤ parF f.par 12 0 && parF f.par 12 0 ≤ 6144)

/-- The bank and buffer fields of spfmt (R243). -/
def spfmtCodes (v : Bool) (f : EX) : List Nat :=
  let b := parF f.par 7 0; let x := parF f.par 9 8
  mustBe 10 ((bfmtBank v (0x100 + 0x40 * x + b)).any (fun p => p.1 == x && x != 3))

/-- The CODEs of an instruction's reserved operand values; empty for a well-formed one. `v` is true on a V-tile. -/
def reservedCodes (v : Bool) (i : Instr) : List Nat :=
  match i with
  | .packageReset => []
  | .powerInputChange _ _ => []
  | .measuredBootStage _ _ => []
  | .contextWaitClear _ => []
  | .yieldExpiry _ => []
  | .operationCompletion _ => []
  | .pageInComplete _ _ _ => []
  | .taskRetirement _ => []
  | .decrementArrival _ _ => []
  | .graphOpArrival _ => []
  | .dispatchDecision _ => []
  | .footprintFetchStart _ => []
  | .footprintFetchComplete _ => []
  | .taskEnterRunning _ => []
  | .watchdogExpiry _ => []
  | .gangRestore _ => []
  | .energyRefill => []
  | .energyCounterUpdate _ => []
  | .freezeRequestArrival _ _ => []
  | .freezeStoppingPoint _ => []
  | .dikeComplete _ => []
  | .sluiceImageWritten _ => []
  | .barrierPhaseComplete _ => []
  | .launchSweep _ => []
  | .routerPacketArrival _ _ _ => []
  | .streamEdgeGranuleArrival _ => []
  | .permitReturn _ _ => []
  | .configWavefrontArrival _ _ => []
  | .leveeBatchArrival _ _ => []
  | .adderContributionArrival _ _ _ => []
  | .statTokenArrival _ _ _ => []
  | .statMergeTimeout _ _ => []
  | .awnMessageArrival _ _ => []
  | .handlerStart _ => []
  | .directoryOverflow _ _ => []
  | .overflowHandlerReport _ _ => []
  | .memoryPortGrant _ => []
  | .mailboxPostArrival _ _ => []
  | .returnStripArrival _ _ => []
  | .capacityClaimArrival _ => []
  | .capacityEndArrival _ => []
  | .capacitySetArrival _ => []
  | .transferCompletion _ => []
  | .matrixStep _ => []
  | .streamStripFetch _ _ => []
  | .streamStripWrite _ _ => []
  | .tlbinvWrite _ _ => []
  | .ctxholdWrite _ _ => []
  | .ctxrelWrite _ _ => []
  | .bfmtWrite _ _ _ => []
  | .frec0ValidClear _ => []
  | .efaultValidClear _ => []
  | .drlovfClear _ => []
  | .controlRegisterWrite _ _ _ => []
  | .uncorrectableError _ => []
  | .correctedError _ => []
  | .commandQueueDoorbell _ => []
  | .nopPacket _ _ => []
  | .launchPacket _ _ => []
  | .graphPacket _ _ => []
  | .copyPacket _ _ => []
  | .signalPacket _ _ => []
  | .waitPacket _ _ => []
  | .fencePacket _ _ => []
  | .packetCompletion _ _ => []
  | .rdmaWrite _ => []
  | .rdmaRead _ => []
  | .rdmaCompareAndSwap _ => []
  | .rdmaFetchAndAdd _ => []
  | .rdmaUnsupportedRequest _ => []
  | .claim _ _ => []
  | .heartbeat _ _ => []
  | .handover _ _ => []
  | .qcreate _ _ _ => []
  | .qdestroy _ _ => []
  | .qprio _ _ _ => []
  | .setlimit _ _ => []
  | .mreg _ _ => []
  | .update _ _ => []
  | .quiesce _ => []
  | .resume _ => []
  | .report _ _ => []
  | .status _ _ => []
  | .frestore _ _ _ _ => []
  | .fdiscard _ _ _ => []
  | .leaseLapse => []
  | .handoverLapse => []
  | .complexFailover _ => []
  | .queueWaitCycleSweep => []
  | .ualinkBringup _ _ => []
  | .ualinkRead _ => []
  | .ualinkWrite _ => []
  | .ualinkAtomic _ => []
  | .ualinkTimeout _ _ => []
  | .hostPortLinkFailure _ _ => []
  | .eventOpArrival _ => []
  | .nopOp => []
  | .yield => []
  | .brk _ => []
  | .trapOp _ => []
  | .eret => []
  | .hexit => []
  | .texit => []
  | .addOp _ => []
  | .subOp _ => []
  | .andOp _ => []
  | .orOp _ => []
  | .xorOp _ => []
  | .shl _ => []
  | .shr _ => []
  | .sar _ => []
  | .mulOp _ => []
  | .mulh _ => []
  | .mulhu _ => []
  | .divOp _ => []
  | .divu _ => []
  | .rem _ => []
  | .remu _ => []
  | .minOp _ => []
  | .maxOp _ => []
  | .minu _ => []
  | .maxu _ => []
  | .slt _ => []
  | .sltu _ => []
  | .clz f => mustZero (f.rb == 0)
  | .ctz f => mustZero (f.rb == 0)
  | .popc f => mustZero (f.rb == 0)
  | .addAs _ => []
  | .subAs _ => []
  | .andAs _ => []
  | .orAs _ => []
  | .xorAs _ => []
  | .shlAs _ => []
  | .shrAs _ => []
  | .sarAs _ => []
  | .mulAs _ => []
  | .mulhAs _ => []
  | .mulhuAs _ => []
  | .divAs _ => []
  | .divuAs _ => []
  | .remAs _ => []
  | .remuAs _ => []
  | .minAs _ => []
  | .maxAs _ => []
  | .minuAs _ => []
  | .maxuAs _ => []
  | .sltAs _ => []
  | .sltuAs _ => []
  | .clzAs f => mustZero (f.sb == 0)
  | .ctzAs f => mustZero (f.sb == 0)
  | .popcAs f => mustZero (f.sb == 0)
  | .addi _ => []
  | .andi _ => []
  | .ori _ => []
  | .xori _ => []
  | .shli f => mustZero ((f.imm.toNat >>> 6) % 128 == 0) ++ mustBe 2 (f.imm.toNat >>> 13 == 0)
  | .shri f => mustZero ((f.imm.toNat >>> 6) % 128 == 0) ++ mustBe 2 (f.imm.toNat >>> 13 == 1)
  | .sari f => mustZero ((f.imm.toNat >>> 6) % 128 == 0) ++ mustBe 2 (f.imm.toNat >>> 13 == 2)
  | .slti _ => []
  | .sltiu _ => []
  | .bfx f => mustBe 2 (f.imm.toNat >>> 13 == 0) ++ mustZero ((f.imm.toNat >>> 12) % 2 == 0) ++ mustBe 11 (f.imm.toNat % 64 + (f.imm.toNat >>> 6) % 64 + 1 ≤ 64)
  | .bfxs f => mustBe 2 (f.imm.toNat >>> 13 == 1) ++ mustZero ((f.imm.toNat >>> 12) % 2 == 0) ++ mustBe 11 (f.imm.toNat % 64 + (f.imm.toNat >>> 6) % 64 + 1 ≤ 64)
  | .bfi f => mustBe 2 (f.imm.toNat >>> 13 == 2) ++ mustZero ((f.imm.toNat >>> 12) % 2 == 0) ++ mustBe 11 (f.imm.toNat % 64 + (f.imm.toNat >>> 6) % 64 + 1 ≤ 64)
  | .lea f => mustBe 2 (f.imm.toNat >>> 14 == 0)
  | .leaG f => mustBe 2 (f.imm.toNat >>> 14 == 1)
  | .crd f => mustZero (f.ra == 0 && f.imm.toNat < 4096) ++ mustBe 10 (cregKnown v (f.imm.toNat % 4096))
  | .cwr f => mustZero (f.rd == 0 && f.imm.toNat < 4096) ++ mustBe 10 (cregKnown v (f.imm.toNat % 4096))
  | .beq _ => []
  | .bne _ => []
  | .blt _ => []
  | .bge _ => []
  | .bltu _ => []
  | .bgeu _ => []
  | .jal _ _ => []
  | .jalr _ => []
  | .loopOp f => mustZero (f.rb == 0) ++ mustBe 11 (f.off != 0 && f.off.toNat < 2 ^ 14)
  | .hstart _ => []
  | .hjoin f => mustZero (f.rd == 0 && f.rb == 0)
  | .hself _ => []
  | .gwork _ => []
  | .grank _ => []
  | .tid _ => []
  | .clk _ => []
  | .ldB _ => []
  | .ldBu _ => []
  | .ldH _ => []
  | .ldHu _ => []
  | .ldW _ => []
  | .ldWu _ => []
  | .ldD _ => []
  | .stB _ => []
  | .stH _ => []
  | .stW _ => []
  | .stD _ => []
  | .vld _ => []
  | .vst _ => []
  | .amoAdd _ => []
  | .amoAnd _ => []
  | .amoOr _ => []
  | .amoXor _ => []
  | .amoMin _ => []
  | .amoMax _ => []
  | .amoMinu _ => []
  | .amoMaxu _ => []
  | .amoSwap _ => []
  | .amocas _ => []
  | .tkwait _ => []
  | .fenceOp _ scope => mustBe 5 (scope.toNat ≤ 4)
  | .barArrive _ => []
  | .barWait stat => mustZero (!stat)
  | .barSync _ => []
  | .anop => []
  | .fadd f => afCodes f
  | .fsub f => afCodes f
  | .fmul f => afCodes f
  | .fma f => afCodes f
  | .fmin f => afCodes f
  | .fmax f => afCodes f
  | .fabs f => afCodes f ++ mustZero (f.sb == 0)
  | .fneg f => afCodes f ++ mustZero (f.sb == 0)
  | .fcvt f => mustBe 3 (f.t.toNat ≤ 6 && f.t2.toNat ≤ 6 && f.t != f.t2 && (f.t.toNat ≤ 2 || f.t2.toNat ≤ 2)) ++ mustZero (f.sb == 0)
  | .fcmp f => mustBe 3 (f.t.toNat ≤ 2)
  | .vadd f => tyIn f (· ≤ 8)
  | .vsub f => tyIn f (· ≤ 8)
  | .vmul f => tyIn f (· ≤ 8)
  | .vfma f => tyIn f isFT
  | .vfms f => tyIn f isFT
  | .vnfma f => tyIn f isFT
  | .vmin f => tyIn f (· ≤ 8)
  | .vmax f => tyIn f (· ≤ 8)
  | .vabs f => tyIn f (· ≤ 8) ++ mustZero (f.vb == 0)
  | .vneg f => tyIn f (· ≤ 8) ++ mustZero (f.vb == 0)
  | .vrcp f => tyIn f isFT ++ mustZero (f.vb == 0)
  | .vrsq f => tyIn f isFT ++ mustZero (f.vb == 0)
  | .vsqrt f => tyIn f isFT ++ mustZero (f.vb == 0)
  | .vexp2 f => tyIn f isFT ++ mustZero (f.vb == 0)
  | .vlog2 f => tyIn f isFT ++ mustZero (f.vb == 0)
  | .vsin f => tyIn f isFT ++ mustZero (f.vb == 0)
  | .vcos f => tyIn f isFT ++ mustZero (f.vb == 0)
  | .vtanh f => tyIn f isFT ++ mustZero (f.vb == 0)
  | .vcmp f => mustBe 2 (f.fn.toNat ≤ 7) ++ mustZero (f.vd.toNat < 8) ++ mustBe 9 (f.vd.toNat % 8 != 0) ++ mustBe 3 (f.ty.toNat == 6 || (f.ty.toNat ≤ 1 && f.fn.toNat ≤ 5))
  | .vsel f => mustBe 3 (f.ty == 0)
  | .vand f => mustBe 3 (f.ty == 0)
  | .vor f => mustBe 3 (f.ty == 0)
  | .vxor f => mustBe 3 (f.ty == 0)
  | .vnot f => mustBe 3 (f.ty == 0) ++ mustZero (f.vb == 0)
  | .vandn f => mustBe 3 (f.ty == 0)
  | .vshl f => tyIn f isIT
  | .vshr f => tyIn f isIT
  | .vsar f => tyIn f isIT
  | .vmulh f => tyIn f (fun t => t == 0 || t == 2 || t == 4)
  | .vmulhu f => tyIn f (fun t => t == 1 || t == 3 || t == 5)
  | .vadds f => tyIn f isIT
  | .vsubs f => tyIn f isIT
  | .vcvt f => mustBe 3 (f.fn.toNat ≤ 14 && f.ty.toNat ≤ 13 && f.fn != f.ty) ++ mustZero (f.vb.toNat < 8) ++ mustBe 11 (f.fn == 15 || f.ty == 15 || (f.vb.toNat % 8) * min (tyWidth f.fn.toNat) (tyWidth f.ty.toNat) < max (tyWidth f.fn.toNat) (tyWidth f.ty.toNat))
  | .vqnt f => mustBe 3 ((f.ty.toNat == 4 || f.ty.toNat == 5 || f.ty.toNat == 12 || f.ty.toNat == 13) && isFT f.fn.toNat)
  | .vdeq f => mustBe 3 ((f.ty.toNat == 4 || f.ty.toNat == 5 || f.ty.toNat == 12 || f.ty.toNat == 13) && isFT f.fn.toNat)
  | .vperm f => mustBe 3 (f.ty == 0)
  | .vpermb f => mustBe 3 (f.ty == 0)
  | .vnibLo f => tyIn f (fun t => t == 12 || t == 13) ++ mustZero (f.vb == 0)
  | .vnibHi f => tyIn f (fun t => t == 12 || t == 13) ++ mustZero (f.vb == 0)
  | .vzip f => tyIn f (· ≤ 14) ++ mustBe 11 (f.vd.toNat % 2 == 0)
  | .vunzip f => tyIn f (· ≤ 14) ++ mustBe 11 (f.vd.toNat % 2 == 0)
  | .vslideup f => mustBe 3 (f.ty == 0)
  | .vslidedn f => mustBe 3 (f.ty == 0)
  | .vbcast f => tyIn f (· ≤ 14) ++ mustZero (f.vb == 0)
  | .vext f => tyIn f (· ≤ 14) ++ mustZero (f.mm == 0)
  | .vins f => tyIn f (· ≤ 14)
  | .vredAdd f => tyIn f (· ≤ 8) ++ mustZero (f.vb == 0)
  | .vredMin f => tyIn f (· ≤ 8) ++ mustZero (f.vb == 0)
  | .vredMax f => tyIn f (· ≤ 8) ++ mustZero (f.vb == 0)
  | .vscanAdd f => tyIn f (· ≤ 8) ++ mustZero (f.vb == 0)
  | .vscanMin f => tyIn f (· ≤ 8) ++ mustZero (f.vb == 0)
  | .vscanMax f => tyIn f (· ≤ 8) ++ mustZero (f.vb == 0)
  | .vcompress f => mustBe 3 (f.ty == 0)
  | .vexpand f => mustBe 3 (f.ty == 0)
  | .viota f => mustBe 3 (f.ty == 0) ++ mustZero (f.vb == 0) ++ mustZero (f.va == 0)
  | .vclass f => tyIn f isFT ++ mustZero (f.vb == 0)
  | .mand f => mustBe 9 (f.md != 0) ++ mustZero (f.sreg == 0)
  | .mor f => mustBe 9 (f.md != 0) ++ mustZero (f.sreg == 0)
  | .mxor f => mustBe 9 (f.md != 0) ++ mustZero (f.sreg == 0)
  | .mnot f => mustBe 9 (f.md != 0) ++ mustZero (f.sreg == 0 && f.mb == 0)
  | .mandn f => mustBe 9 (f.md != 0) ++ mustZero (f.sreg == 0)
  | .mmov f => mustBe 9 (f.md != 0) ++ mustZero (f.sreg == 0 && f.mb == 0)
  | .mfroms f => mustBe 9 (f.md != 0) ++ mustZero (f.mb == 0 && f.ma == 0)
  | .mtos f => mustZero (f.mb == 0 && f.md == 0)
  | .mpop f => mustZero (f.mb == 0 && f.md == 0)
  | .mfirst f => mustZero (f.mb == 0 && f.md == 0)
  | .movi _ _ => []
  | .movhi _ _ => []
  | .sel f => exZero f true true true 31#9 0#32
  | .ldO f => lmCodes f [0, 1, 2, 3, 4, 5, 6] [0, 1]
  | .stO f => lmCodes f [0, 2, 4, 6] [0, 2]
  | .vldO f => lmCodes f [7] [0, 1]
  | .vstO f => lmCodes f [7] [0, 2]
  | .ldSnap f => memCodes f [0, 1, 2, 3, 4, 5, 6] [0, 1]
  | .vldSnap f => memCodes f [7] [0, 1]
  | .ldFe f => memCodes f [0, 1, 2, 3, 4, 5, 6] [0, 1]
  | .ldFeClr f => memCodes f [0, 1, 2, 3, 4, 5, 6] [0, 1]
  | .vldFe f => memCodes f [7] [0, 1]
  | .vldFeClr f => memCodes f [7] [0, 1]
  | .stFe f => memCodes f [0, 2, 4, 6] [0, 2]
  | .vstFe f => memCodes f [7] [0, 2]
  | .vldx f => memCodes f [7] [0, 1]
  | .vstx f => memCodes f [7] [0, 2]
  | .vlds f => memCodes f [7] [0, 1]
  | .vsts f => memCodes f [7] [0, 2]
  | .pref f => lmCodes f [0] [0] ++ mustZero (f.scope == 0) ++ mustBe 11 (f.rd.toNat ≤ 1)
  | .cacheClean f => memCodes f.m [0] [0] ++ mustZero (f.m.rc == 0) ++ mustZero (!f.icache)
  | .cacheInv f => memCodes f.m [0] [0] ++ mustZero (f.m.rc == 0)
  | .cacheFlush f => memCodes f.m [0] [0] ++ mustZero (f.m.rc == 0) ++ mustZero (!f.icache)
  | .amoSAdd f => memCodes f [4, 5, 6] [0, 1, 2, 3]
  | .amoSAnd f => memCodes f [4, 5, 6] [0, 1, 2, 3]
  | .amoSOr f => memCodes f [4, 5, 6] [0, 1, 2, 3]
  | .amoSXor f => memCodes f [4, 5, 6] [0, 1, 2, 3]
  | .amoSMin f => memCodes f [4, 5, 6] [0, 1, 2, 3]
  | .amoSMax f => memCodes f [4, 5, 6] [0, 1, 2, 3]
  | .amoSMinu f => memCodes f [4, 5, 6] [0, 1, 2, 3]
  | .amoSMaxu f => memCodes f [4, 5, 6] [0, 1, 2, 3]
  | .amoSSwap f => memCodes f [4, 5, 6] [0, 1, 2, 3]
  | .amocasS f => memCodes f [4, 5, 6] [0, 1, 2, 3]
  | .famoAddF32 f => memCodes f [5] [0, 1, 2, 3]
  | .famoAddBf16x2 f => memCodes f [5] [0, 1, 2, 3]
  | .vamoAdd f => memCodes f [7] [0, 1, 2, 3]
  | .vamoAnd f => memCodes f [7] [0, 1, 2, 3]
  | .vamoOr f => memCodes f [7] [0, 1, 2, 3]
  | .vamoXor f => memCodes f [7] [0, 1, 2, 3]
  | .vamoMin f => memCodes f [7] [0, 1, 2, 3]
  | .vamoMax f => memCodes f [7] [0, 1, 2, 3]
  | .vamoMinu f => memCodes f [7] [0, 1, 2, 3]
  | .vamoMaxu f => memCodes f [7] [0, 1, 2, 3]
  | .vamoSwap f => memCodes f [7] [0, 1, 2, 3]
  | .evsig f => exZero f true false true 0#9 65535#32 ++ mustBe 11 (parF f.par 15 0 != 0)
  | .evwait f => exZero f true false false 0#9 0#32
  | .evpost f => exZero f true false true 0#9 65535#32 ++ mustBe 11 (parF f.par 15 0 != 0)
  | .evq f => exZero f true false true 1#9 0#32 ++ mustBe 2 (f.fn9.toNat % 2 == 0)
  | .evqClr f => exZero f true false true 1#9 0#32 ++ mustBe 2 (f.fn9.toNat % 2 == 1)
  | .snap f => exZero f false false true 0#9 0#32
  | .snaprel f => exZero f true false true 0#9 0#32
  | .txbegin f => exZero f false false true 0#9 0#32
  | .txcommit f => exZero f false false true 0#9 0#32
  | .txabort f => exZero f false false false 0#9 0#32
  | .txstat f => exZero f false false true 3#9 0#32 ++ mustBe 2 (f.fn9.toNat % 4 != 3)
  | .spmap f => exZero f true true true 1#9 8191#32 ++ pageCount f ++ mustZero (f.fn9.toNat % 2 == 0 || f.rb == 0)
  | .spunmap f => exZero f true false true 0#9 8191#32 ++ pageCount f
  | .sppin f => exZero f true false true 0#9 8191#32 ++ pageCount f
  | .spunpin f => exZero f true false true 0#9 8191#32 ++ pageCount f
  | .spfmt f => exZero f false true false 0#9 1023#32 ++ spfmtCodes v f
  | .spmigRes f => exZero f true false true 3#9 8191#32 ++ pageCount f ++ mustBe 2 (f.fn9.toNat % 4 == 0)
  | .spmigPold f => exZero f true false true 3#9 8191#32 ++ pageCount f ++ mustBe 2 (f.fn9.toNat % 4 == 1)
  | .spmigHbm f => exZero f true true true 3#9 8191#32 ++ pageCount f ++ mustBe 2 (f.fn9.toNat % 4 == 2)
  | .mma f => exZero f true true true 504#9 4294967295#32 ++ matDims f true
  | .mmaMask f => exZero f true true true 505#9 4294967295#32 ++ matDims f true ++ mustBe 11 (f.rc.toNat % 2 == 0) ++ mustBe 2 (f.fn9.toNat % 2 == 0)
  | .mmaMaskFill f => exZero f true true true 505#9 4294967295#32 ++ matDims f true ++ mustBe 11 (f.rc.toNat % 2 == 0) ++ mustBe 2 (f.fn9.toNat % 2 == 1)
  | .mzero f => exZero f true false false 504#9 4294901760#32 ++ matDims f false
  | .mcvt f => exZero f true true false 504#9 4294901760#32 ++ matDims f false
  | .mtr f => exZero f true true false 504#9 4294901760#32 ++ matDims f false
  | .mwait f => exZero f false false false 0#9 0#32
  | .mscaleCol f => exZero f true true false 505#9 4294901760#32 ++ matDims f false ++ mustBe 2 (f.fn9.toNat % 2 == 0)
  | .mscaleRow f => exZero f true true false 505#9 4294901760#32 ++ matDims f false ++ mustBe 2 (f.fn9.toNat % 2 == 1)
  | .sbindIn f => exZero f true false true 3#9 15#32 ++ mustBe 11 (24 ≤ f.rc.toNat && 1 ≤ parF f.par 3 0 && parF f.par 3 0 ≤ 8) ++ mustBe 2 (f.fn9.toNat % 2 == 0)
  | .sbindOut f => exZero f true false true 1#9 15#32 ++ mustBe 11 (24 ≤ f.rc.toNat && 1 ≤ parF f.par 3 0 && parF f.par 3 0 ≤ 8) ++ mustBe 2 (f.fn9.toNat % 2 == 1)
  | .sgen f => exZero f true false true 7#9 4294967295#32 ++ mustBe 11 (24 ≤ f.rc.toNat && f.par != 0)
  | .sunbind f => exZero f false false true 504#9 0#32 ++ mustBe 11 (24 ≤ f.rc.toNat)
  | .sstat f => exZero f false true true 0#9 0#32 ++ mustBe 11 (24 ≤ f.rb.toNat)
  | .bcopy f => exZero f true true true 504#9 65535#32
  | .bcopyn f => exZero f true false true 504#9 65535#32
  | .bmcast f => exZero f true true true 504#9 65535#32
  | .bfill f => exZero f true true true 504#9 65535#32
  | .bmig f => exZero f true true true 504#9 65535#32
  | .bpoll f => exZero f true false true 0#9 0#32
  | .bwait f => exZero f true false false 0#9 0#32
  | .amsend f => exZero f true true true 505#9 131071#32 ++ mustZero (f.fn9.toNat % 2 == 1 || f.rc == 0)
  | .amreply f => exZero f false true true 505#9 255#32 ++ mustZero (f.fn9.toNat % 2 == 1 || f.rc == 0)
  | .amhinst f => exZero f true false true 1#9 255#32
  | .redsend f => exZero f true false true 505#9 1023#32 ++ mustBe 3 (parF f.par 9 8 != 3) ++ mustBe 11 (f.fn9.toNat % 2 == 0 || parF f.par 9 8 != 2)
  | .rtset f => exZero f true true true 0#9 255#32
  | .slotset f => exZero f true true true 0#9 255#32
  | .cfgtok f => exZero f false false true 0#9 65535#32
  | .stflush f => exZero f false false false 0#9 0#32
  | .mbpost f => exZero f true true true 0#9 0#32
  | .mbrd f => exZero f true false true 0#9 15#32 ++ mustBe 11 (parF f.par 3 0 ≤ 7 || parF f.par 3 0 == 15)
  | .mbclr f => exZero f true true true 0#9 2097151#32 ++ mustBe 11 (1 ≤ parF f.par 8 0 && parF f.par 8 0 ≤ 256 && 1 ≤ parF f.par 12 9 && parF f.par 12 9 ≤ 8 && parF f.par 20 13 != 0)
  | .steer f => exZero f true true true 505#9 255#32 ++ mustBe 2 (f.fn9.toNat % 2 == 0)
  | .steerRet f => exZero f true true true 505#9 0#32 ++ mustBe 2 (f.fn9.toNat % 2 == 1)
  | .mgrd f => exZero f false false true 0#9 0#32
  | .capclaim f => exZero f true true true 3#9 0#32 ++ mustBe 2 (f.fn9.toNat % 4 == 0)
  | .capclaimEnd f => exZero f true true true 3#9 0#32 ++ mustBe 2 (f.fn9.toNat % 4 == 1)
  | .capclaimSet f => exZero f true true true 3#9 0#32 ++ mustBe 2 (f.fn9.toNat % 4 == 2)
  | .tspawn f => exZero f true true true 255#9 2035711#32
  | .tdec f => exZero f true false true 0#9 4095#32 ++ mustBe 11 (parF f.par 11 0 != 0)
  | .tsetc f => exZero f true false true 1#9 4095#32 ++ mustBe 2 (f.fn9.toNat % 2 == 0)
  | .tsetcAdd f => exZero f true false true 1#9 4095#32 ++ mustBe 2 (f.fn9.toNat % 2 == 1)
  | .erd f => exZero f false false true 0#9 15#32 ++ mustBe 11 (parF f.par 3 0 ≤ 4)
  | .ctxrd f => exZero f true false true 0#9 65535#32 ++ ctxClass f
  | .ctxwr f => exZero f true false true 0#9 65535#32 ++ ctxClass f
  | .tfreeze f => exZero f true true true 1#9 0#32
  | .trestore f => exZero f true true true 0#9 0#32
  | .reservedEncoding _ => []
  | .instructionFetchFault _ _ _ => []
  | .reservedControlMessage _ => []
  | .memoryRequestArrival _ => []
  | .producerHoldArrival _ _ _ => []
  | .creditArrival _ _ _ => []
  | .slotTableCycle _ => []

end Sys2Proof
end

