-- ==== Sys2Proof/WellFormed.lean ====
section
/-! DEFINITION. Well-formedness: no operand field holds a reserved value (06_isa_formats.md R157, 21 R438). -/

namespace Sys2Proof

/-- An instruction none of whose operand fields is reserved on a tile of the given kind (`v`: V-tile). -/
def Instr.wf (v : Bool) (i : Instr) : Bool := (reservedCodes v i).isEmpty

end Sys2Proof
end

