-- ==== Sys2Proof/Decode.lean ====
section
/-! DEFINITION. From the 64 bits of a sheaf to its ops (06_isa_formats.md R143 to R157), total on any bits, a reserved
encoding named by its CODE; then the encoder from the same tables. -/

namespace Sys2Proof

/-- A sheaf (R143): a pair, a lone op, or one that holds a reserved encoding, with its CODE (R157, R432). -/
inductive Sheaf where
  | pair (c a : Instr)
  | lone (l : Instr)
  | reserved (code : Nat)
  deriving DecidableEq, Repr

/-- Field [hi:lo] of a 32-bit word. -/
def fld (w : BitVec 32) (lo n : Nat) : BitVec n := w.extractLsb' lo n

/-- An op that was recognised, with the codes of its must-be-zero bits; or the code of what was not. -/
abbrev RawOp := Except Nat (Instr × List Nat)

def ok (i : Instr) (z : Bool := true) : RawOp := .ok (i, mustZero z)

def fCR (w : BitVec 32) : CR := ⟨fld w 20 5, fld w 15 5, fld w 10 5⟩
def fCI (w : BitVec 32) : CI := ⟨fld w 20 5, fld w 15 5, fld w 0 15⟩
def fCM (w : BitVec 32) : CM := ⟨fld w 20 5, fld w 15 5, fld w 12 3, fld w 9 3, fld w 0 9⟩
def fCB (w : BitVec 32) : CB := ⟨fld w 20 5, fld w 15 5, fld w 0 15⟩
def fAS (w : BitVec 32) : AS := ⟨fld w 21 5, fld w 16 5, fld w 11 5⟩
def fAF (w : BitVec 32) : AF := ⟨fld w 21 5, fld w 16 5, fld w 11 5, fld w 7 3, fld w 4 3⟩
def fAV (w : BitVec 32) : AV := ⟨fld w 21 5, fld w 16 5, fld w 11 5, fld w 8 3, fld w 4 4⟩
def fAVF (w : BitVec 32) : AVF := ⟨fld w 21 5, fld w 16 5, fld w 11 5, fld w 8 3, fld w 4 4, fld w 0 4⟩
def fAM (w : BitVec 32) : AM := ⟨fld w 23 3, fld w 20 3, fld w 17 3, fld w 12 5⟩
def fLM (w x : BitVec 32) : LM := ⟨fld w 19 5, fld w 14 5, fld w 11 3, fld w 8 3, fld w 6 2, fld w 3 3, fld w 0 3, x⟩
def fMX (w x : BitVec 32) : MX :=
  ⟨fld w 19 5, fld w 14 5, fld w 9 5, fld x 29 3, fld x 26 3, fld x 24 2, fld x 21 3, fld x 18 3, fld x 0 18⟩
def fMXC (w x : BitVec 32) : MXC := ⟨fMX w x, (fld w 2 1) == 1, (fld w 3 1) == 1⟩
def fEX (w x : BitVec 32) : EX := ⟨fld w 19 5, fld w 14 5, fld w 9 5, fld w 0 9, x⟩

/-- The C-op in word 0 of a pair (R149, Table — C-slot opcode map). -/
def decodeC (w : BitVec 32) : RawOp :=
  let r0 : Bool := fld w 15 10 == 0
  match (fld w 25 6).toNat with
  | 0 => match (fld w 10 5).toNat with
    | 0 => ok .nopOp (r0 && fld w 0 10 == 0)
    | 1 => ok .yield (r0 && fld w 0 10 == 0)
    | 2 => ok (.brk (fld w 0 10)) r0
    | 3 => ok (.trapOp (fld w 0 10)) r0
    | 4 => ok .eret (r0 && fld w 0 10 == 0)
    | 5 => ok .hexit (r0 && fld w 0 10 == 0)
    | 6 => ok .texit (r0 && fld w 0 10 == 0)
    | _ => .error 2
  | 1 => match (fld w 0 6).toNat with
    | 0 => ok (.addOp (fCR w)) (fld w 6 4 == 0)
    | 1 => ok (.subOp (fCR w)) (fld w 6 4 == 0)
    | 2 => ok (.andOp (fCR w)) (fld w 6 4 == 0)
    | 3 => ok (.orOp (fCR w)) (fld w 6 4 == 0)
    | 4 => ok (.xorOp (fCR w)) (fld w 6 4 == 0)
    | 5 => ok (.shl (fCR w)) (fld w 6 4 == 0)
    | 6 => ok (.shr (fCR w)) (fld w 6 4 == 0)
    | 7 => ok (.sar (fCR w)) (fld w 6 4 == 0)
    | 8 => ok (.mulOp (fCR w)) (fld w 6 4 == 0)
    | 9 => ok (.mulh (fCR w)) (fld w 6 4 == 0)
    | 10 => ok (.mulhu (fCR w)) (fld w 6 4 == 0)
    | 11 => ok (.divOp (fCR w)) (fld w 6 4 == 0)
    | 12 => ok (.divu (fCR w)) (fld w 6 4 == 0)
    | 13 => ok (.rem (fCR w)) (fld w 6 4 == 0)
    | 14 => ok (.remu (fCR w)) (fld w 6 4 == 0)
    | 15 => ok (.minOp (fCR w)) (fld w 6 4 == 0)
    | 16 => ok (.maxOp (fCR w)) (fld w 6 4 == 0)
    | 17 => ok (.minu (fCR w)) (fld w 6 4 == 0)
    | 18 => ok (.maxu (fCR w)) (fld w 6 4 == 0)
    | 19 => ok (.slt (fCR w)) (fld w 6 4 == 0)
    | 20 => ok (.sltu (fCR w)) (fld w 6 4 == 0)
    | 21 => ok (.clz (fCR w)) (fld w 6 4 == 0)
    | 22 => ok (.ctz (fCR w)) (fld w 6 4 == 0)
    | 23 => ok (.popc (fCR w)) (fld w 6 4 == 0)
    | _ => .error 2
  | 2 => ok (.addi (fCI w))
  | 3 => ok (.andi (fCI w))
  | 4 => ok (.ori (fCI w))
  | 5 => ok (.xori (fCI w))
  | 6 => match (fld w 13 2).toNat with
    | 0 => ok (.shli (fCI w))
    | 1 => ok (.shri (fCI w))
    | 2 => ok (.sari (fCI w))
    | _ => .error 2
  | 7 => ok (.slti (fCI w))
  | 8 => ok (.sltiu (fCI w))
  | 9 => match (fld w 13 2).toNat with
    | 0 => ok (.bfx (fCI w))
    | 1 => ok (.bfxs (fCI w))
    | 2 => ok (.bfi (fCI w))
    | _ => .error 2
  | 10 => if fld w 14 1 == 0 then ok (.lea (fCI w)) else ok (.leaG (fCI w))
  | 11 => ok (.crd (fCI w))
  | 12 => ok (.cwr (fCI w))
  | 16 => ok (.beq (fCB w))
  | 17 => ok (.bne (fCB w))
  | 18 => ok (.blt (fCB w))
  | 19 => ok (.bge (fCB w))
  | 20 => ok (.bltu (fCB w))
  | 21 => ok (.bgeu (fCB w))
  | 24 => ok (.jal (fld w 20 5) (fld w 0 20))
  | 25 => ok (.jalr (fCI w))
  | 26 => ok (.loopOp (fCB w))
  | 27 => ok (.hstart (fCR w)) (fld w 0 10 == 0)
  | 28 => ok (.hjoin (fCR w)) (fld w 0 10 == 0)
  | 29 => match (fld w 10 5).toNat with
    | 0 => ok (.hself (fld w 20 5)) (fld w 15 5 == 0 && fld w 0 10 == 0)
    | 1 => ok (.gwork (fld w 20 5)) (fld w 15 5 == 0 && fld w 0 10 == 0)
    | 2 => ok (.grank (fld w 20 5)) (fld w 15 5 == 0 && fld w 0 10 == 0)
    | 3 => ok (.tid (fld w 20 5)) (fld w 15 5 == 0 && fld w 0 10 == 0)
    | 4 => ok (.clk (fld w 20 5)) (fld w 15 5 == 0 && fld w 0 10 == 0)
    | _ => .error 2
  | 32 => ok (.ldB (fCM w))
  | 33 => ok (.ldBu (fCM w))
  | 34 => ok (.ldH (fCM w))
  | 35 => ok (.ldHu (fCM w))
  | 36 => ok (.ldW (fCM w))
  | 37 => ok (.ldWu (fCM w))
  | 38 => ok (.ldD (fCM w))
  | 40 => ok (.stB (fCM w))
  | 41 => ok (.stH (fCM w))
  | 42 => ok (.stW (fCM w))
  | 43 => ok (.stD (fCM w))
  | 44 => ok (.vld (fCM w))
  | 45 => ok (.vst (fCM w))
  | 48 => match (fld w 0 6).toNat with
    | 0 => ok (.amoAdd (fCR w)) (fld w 6 4 == 0)
    | 1 => ok (.amoAnd (fCR w)) (fld w 6 4 == 0)
    | 2 => ok (.amoOr (fCR w)) (fld w 6 4 == 0)
    | 3 => ok (.amoXor (fCR w)) (fld w 6 4 == 0)
    | 4 => ok (.amoMin (fCR w)) (fld w 6 4 == 0)
    | 5 => ok (.amoMax (fCR w)) (fld w 6 4 == 0)
    | 6 => ok (.amoMinu (fCR w)) (fld w 6 4 == 0)
    | 7 => ok (.amoMaxu (fCR w)) (fld w 6 4 == 0)
    | 8 => ok (.amoSwap (fCR w)) (fld w 6 4 == 0)
    | _ => .error 2
  | 49 => ok (.amocas (fCR w)) (fld w 0 10 == 0)
  | 50 => ok (.tkwait (fld w 0 3)) (r0 && fld w 3 12 == 0)
  | 51 => ok (.fenceOp (fld w 3 6) (fld w 0 3)) (r0 && fld w 9 6 == 0)
  | 52 => match (fld w 10 5).toNat with
    | 0 => ok (.barArrive (fld w 0 1 == 1)) (r0 && fld w 1 9 == 0)
    | 1 => ok (.barWait (fld w 0 1 == 1)) (r0 && fld w 1 9 == 0)
    | 2 => ok (.barSync (fld w 0 1 == 1)) (r0 && fld w 1 9 == 0)
    | _ => .error 2
  | _ => .error 1

/-- The A-op in word 1 of a pair (R150, Table — A-slot opcode map). -/
noncomputable def decodeA (w : BitVec 32) : RawOp :=
  match (fld w 26 6).toNat with
  | 0 => ok .anop (fld w 0 26 == 0)
  | 1 => match (fld w 0 6).toNat with
    | 0 => ok (.addAs (fAS w)) (fld w 6 5 == 0)
    | 1 => ok (.subAs (fAS w)) (fld w 6 5 == 0)
    | 2 => ok (.andAs (fAS w)) (fld w 6 5 == 0)
    | 3 => ok (.orAs (fAS w)) (fld w 6 5 == 0)
    | 4 => ok (.xorAs (fAS w)) (fld w 6 5 == 0)
    | 5 => ok (.shlAs (fAS w)) (fld w 6 5 == 0)
    | 6 => ok (.shrAs (fAS w)) (fld w 6 5 == 0)
    | 7 => ok (.sarAs (fAS w)) (fld w 6 5 == 0)
    | 8 => ok (.mulAs (fAS w)) (fld w 6 5 == 0)
    | 9 => ok (.mulhAs (fAS w)) (fld w 6 5 == 0)
    | 10 => ok (.mulhuAs (fAS w)) (fld w 6 5 == 0)
    | 11 => ok (.divAs (fAS w)) (fld w 6 5 == 0)
    | 12 => ok (.divuAs (fAS w)) (fld w 6 5 == 0)
    | 13 => ok (.remAs (fAS w)) (fld w 6 5 == 0)
    | 14 => ok (.remuAs (fAS w)) (fld w 6 5 == 0)
    | 15 => ok (.minAs (fAS w)) (fld w 6 5 == 0)
    | 16 => ok (.maxAs (fAS w)) (fld w 6 5 == 0)
    | 17 => ok (.minuAs (fAS w)) (fld w 6 5 == 0)
    | 18 => ok (.maxuAs (fAS w)) (fld w 6 5 == 0)
    | 19 => ok (.sltAs (fAS w)) (fld w 6 5 == 0)
    | 20 => ok (.sltuAs (fAS w)) (fld w 6 5 == 0)
    | 21 => ok (.clzAs (fAS w)) (fld w 6 5 == 0)
    | 22 => ok (.ctzAs (fAS w)) (fld w 6 5 == 0)
    | 23 => ok (.popcAs (fAS w)) (fld w 6 5 == 0)
    | _ => .error 2
  | 2 => match (fld w 0 4).toNat with
    | 0 => ok (.fadd (fAF w)) (fld w 10 1 == 0)
    | 1 => ok (.fsub (fAF w)) (fld w 10 1 == 0)
    | 2 => ok (.fmul (fAF w)) (fld w 10 1 == 0)
    | 3 => ok (.fma (fAF w)) (fld w 10 1 == 0)
    | 4 => ok (.fmin (fAF w)) (fld w 10 1 == 0)
    | 5 => ok (.fmax (fAF w)) (fld w 10 1 == 0)
    | 6 => ok (.fabs (fAF w)) (fld w 10 1 == 0)
    | 7 => ok (.fneg (fAF w)) (fld w 10 1 == 0)
    | 8 => ok (.fcvt (fAF w)) (fld w 10 1 == 0)
    | 9 => ok (.fcmp (fAF w)) (fld w 10 1 == 0)
    | _ => .error 2
  | 4 => ok (.vadd (fAV w)) (fld w 0 4 == 0)
  | 5 => ok (.vsub (fAV w)) (fld w 0 4 == 0)
  | 6 => ok (.vmul (fAV w)) (fld w 0 4 == 0)
  | 7 => ok (.vfma (fAV w)) (fld w 0 4 == 0)
  | 8 => ok (.vfms (fAV w)) (fld w 0 4 == 0)
  | 9 => ok (.vnfma (fAV w)) (fld w 0 4 == 0)
  | 10 => ok (.vmin (fAV w)) (fld w 0 4 == 0)
  | 11 => ok (.vmax (fAV w)) (fld w 0 4 == 0)
  | 12 => match (fld w 0 4).toNat with
    | 0 => ok (.vabs (fAV w))
    | 1 => ok (.vneg (fAV w))
    | _ => .error 2
  | 13 => match (fld w 0 4).toNat with
    | 0 => ok (.vrcp (fAV w))
    | 1 => ok (.vrsq (fAV w))
    | 2 => ok (.vsqrt (fAV w))
    | 3 => ok (.vexp2 (fAV w))
    | 4 => ok (.vlog2 (fAV w))
    | 5 => ok (.vsin (fAV w))
    | 6 => ok (.vcos (fAV w))
    | 7 => ok (.vtanh (fAV w))
    | _ => .error 2
  | 14 => if (fld w 0 4).toNat ≤ 7 then ok (.vcmp (fAVF w)) else .error 2
  | 15 => ok (.vsel (fAV w)) (fld w 0 4 == 0)
  | 16 => match (fld w 0 4).toNat with
    | 0 => ok (.vand (fAV w))
    | 1 => ok (.vor (fAV w))
    | 2 => ok (.vxor (fAV w))
    | 3 => ok (.vnot (fAV w))
    | 4 => ok (.vandn (fAV w))
    | _ => .error 2
  | 17 => match (fld w 0 4).toNat with
    | 0 => ok (.vshl (fAV w))
    | 1 => ok (.vshr (fAV w))
    | 2 => ok (.vsar (fAV w))
    | _ => .error 2
  | 18 => match (fld w 0 4).toNat with
    | 0 => ok (.vmulh (fAV w))
    | 1 => ok (.vmulhu (fAV w))
    | _ => .error 2
  | 19 => match (fld w 0 4).toNat with
    | 0 => ok (.vadds (fAV w))
    | 1 => ok (.vsubs (fAV w))
    | _ => .error 2
  | 20 => ok (.vcvt (fAVF w))
  | 21 => ok (.vqnt (fAVF w))
  | 22 => ok (.vdeq (fAVF w))
  | 23 => match (fld w 0 4).toNat with
    | 0 => ok (.vperm (fAV w))
    | 1 => ok (.vpermb (fAV w))
    | 2 => ok (.vnibLo (fAV w))
    | 3 => ok (.vnibHi (fAV w))
    | 4 => ok (.vzip (fAV w))
    | 5 => ok (.vunzip (fAV w))
    | _ => .error 2
  | 24 => match (fld w 0 4).toNat with
    | 0 => ok (.vslideup (fAV w))
    | 1 => ok (.vslidedn (fAV w))
    | _ => .error 2
  | 25 => match (fld w 0 4).toNat with
    | 0 => ok (.vbcast (fAV w))
    | 1 => ok (.vext (fAV w))
    | 2 => ok (.vins (fAV w))
    | _ => .error 2
  | 26 => match (fld w 0 4).toNat with
    | 0 => ok (.vredAdd (fAV w))
    | 1 => ok (.vredMin (fAV w))
    | 2 => ok (.vredMax (fAV w))
    | _ => .error 2
  | 27 => match (fld w 0 4).toNat with
    | 0 => ok (.vscanAdd (fAV w))
    | 1 => ok (.vscanMin (fAV w))
    | 2 => ok (.vscanMax (fAV w))
    | _ => .error 2
  | 28 => match (fld w 0 4).toNat with
    | 0 => ok (.vcompress (fAV w))
    | 1 => ok (.vexpand (fAV w))
    | _ => .error 2
  | 29 => match (fld w 0 4).toNat with
    | 0 => ok (.viota (fAV w))
    | 1 => ok (.vclass (fAV w))
    | _ => .error 2
  | 32 => match (fld w 0 4).toNat with
    | 0 => ok (.mand (fAM w)) (fld w 4 8 == 0)
    | 1 => ok (.mor (fAM w)) (fld w 4 8 == 0)
    | 2 => ok (.mxor (fAM w)) (fld w 4 8 == 0)
    | 3 => ok (.mnot (fAM w)) (fld w 4 8 == 0)
    | 4 => ok (.mandn (fAM w)) (fld w 4 8 == 0)
    | 5 => ok (.mmov (fAM w)) (fld w 4 8 == 0)
    | 6 => ok (.mfroms (fAM w)) (fld w 4 8 == 0)
    | 7 => ok (.mtos (fAM w)) (fld w 4 8 == 0)
    | 8 => ok (.mpop (fAM w)) (fld w 4 8 == 0)
    | 9 => ok (.mfirst (fAM w)) (fld w 4 8 == 0)
    | _ => .error 2
  | _ => .error 1

/-- A lone L-op: word 0 `w`, word 1 `x` (R151, R152, Table — Lone opcode map). -/
noncomputable def decodeL (w x : BitVec 32) : RawOp :=
  match (fld w 24 7).toNat with
  | 0 => ok (.movi (fld w 19 5) x) (fld w 0 19 == 0)
  | 1 => ok (.movhi (fld w 19 5) x) (fld w 0 19 == 0)
  | 2 => ok (.sel (fEX w x))
  | 8 => ok (.ldO (fLM w x))
  | 9 => ok (.stO (fLM w x))
  | 10 => ok (.vldO (fLM w x))
  | 11 => ok (.vstO (fLM w x))
  | 12 => ok (.ldSnap (fMX w x)) (fld w 0 9 == 0)
  | 13 => ok (.vldSnap (fMX w x)) (fld w 0 9 == 0)
  | 14 => if fld w 0 1 == 0 then ok (.ldFe (fMX w x)) (fld w 1 8 == 0) else ok (.ldFeClr (fMX w x)) (fld w 1 8 == 0)
  | 15 => ok (.stFe (fMX w x)) (fld w 0 9 == 0)
  | 16 => if fld w 0 1 == 0 then ok (.vldFe (fMX w x)) (fld w 1 8 == 0) else ok (.vldFeClr (fMX w x)) (fld w 1 8 == 0)
  | 17 => ok (.vstFe (fMX w x)) (fld w 0 9 == 0)
  | 18 => ok (.vldx (fMX w x)) (fld w 0 9 == 0)
  | 19 => ok (.vstx (fMX w x)) (fld w 0 9 == 0)
  | 20 => ok (.vlds (fMX w x)) (fld w 0 9 == 0)
  | 21 => ok (.vsts (fMX w x)) (fld w 0 9 == 0)
  | 22 => ok (.pref (fLM w x))
  | 23 => match (fld w 0 2).toNat with
    | 0 => ok (.cacheClean (fMXC w x)) (fld w 4 5 == 0)
    | 1 => ok (.cacheInv (fMXC w x)) (fld w 4 5 == 0)
    | 2 => ok (.cacheFlush (fMXC w x)) (fld w 4 5 == 0)
    | _ => .error 2
  | 24 => match (fld w 0 9).toNat with
    | 0 => ok (.amoSAdd (fMX w x))
    | 1 => ok (.amoSAnd (fMX w x))
    | 2 => ok (.amoSOr (fMX w x))
    | 3 => ok (.amoSXor (fMX w x))
    | 4 => ok (.amoSMin (fMX w x))
    | 5 => ok (.amoSMax (fMX w x))
    | 6 => ok (.amoSMinu (fMX w x))
    | 7 => ok (.amoSMaxu (fMX w x))
    | 8 => ok (.amoSSwap (fMX w x))
    | _ => .error 2
  | 25 => ok (.amocasS (fMX w x)) (fld w 0 9 == 0)
  | 26 => match (fld w 0 9).toNat with
    | 0 => ok (.famoAddF32 (fMX w x))
    | 1 => ok (.famoAddBf16x2 (fMX w x))
    | _ => .error 2
  | 27 => match (fld w 0 9).toNat with
    | 0 => ok (.vamoAdd (fMX w x))
    | 1 => ok (.vamoAnd (fMX w x))
    | 2 => ok (.vamoOr (fMX w x))
    | 3 => ok (.vamoXor (fMX w x))
    | 4 => ok (.vamoMin (fMX w x))
    | 5 => ok (.vamoMax (fMX w x))
    | 6 => ok (.vamoMinu (fMX w x))
    | 7 => ok (.vamoMaxu (fMX w x))
    | 8 => ok (.vamoSwap (fMX w x))
    | _ => .error 2
  | 32 => ok (.evsig (fEX w x))
  | 33 => ok (.evwait (fEX w x))
  | 34 => ok (.evpost (fEX w x))
  | 35 => match (fld w 0 1).toNat with
    | 0 => ok (.evq (fEX w x))
    | 1 => ok (.evqClr (fEX w x))
    | _ => .error 2
  | 36 => ok (.snap (fEX w x))
  | 37 => ok (.snaprel (fEX w x))
  | 38 => ok (.txbegin (fEX w x))
  | 39 => ok (.txcommit (fEX w x))
  | 40 => ok (.txabort (fEX w x))
  | 41 => ok (.txstat (fEX w x))
  | 48 => ok (.spmap (fEX w x))
  | 49 => ok (.spunmap (fEX w x))
  | 50 => ok (.sppin (fEX w x))
  | 51 => ok (.spunpin (fEX w x))
  | 52 => ok (.spfmt (fEX w x))
  | 53 => match (fld w 0 2).toNat with
    | 0 => ok (.spmigRes (fEX w x))
    | 1 => ok (.spmigPold (fEX w x))
    | 2 => ok (.spmigHbm (fEX w x))
    | _ => .error 2
  | 56 => ok (.mma (fEX w x))
  | 57 => match (fld w 0 1).toNat with
    | 0 => ok (.mmaMask (fEX w x))
    | 1 => ok (.mmaMaskFill (fEX w x))
    | _ => .error 2
  | 58 => ok (.mzero (fEX w x))
  | 59 => ok (.mcvt (fEX w x))
  | 60 => ok (.mtr (fEX w x))
  | 61 => ok (.mwait (fEX w x))
  | 62 => match (fld w 0 1).toNat with
    | 0 => ok (.mscaleCol (fEX w x))
    | 1 => ok (.mscaleRow (fEX w x))
    | _ => .error 2
  | 64 => match (fld w 0 1).toNat with
    | 0 => ok (.sbindIn (fEX w x))
    | 1 => ok (.sbindOut (fEX w x))
    | _ => .error 2
  | 65 => ok (.sgen (fEX w x))
  | 66 => ok (.sunbind (fEX w x))
  | 67 => ok (.sstat (fEX w x))
  | 72 => ok (.bcopy (fEX w x))
  | 73 => ok (.bcopyn (fEX w x))
  | 74 => ok (.bmcast (fEX w x))
  | 75 => ok (.bfill (fEX w x))
  | 76 => ok (.bmig (fEX w x))
  | 77 => ok (.bpoll (fEX w x))
  | 78 => ok (.bwait (fEX w x))
  | 80 => ok (.amsend (fEX w x))
  | 81 => ok (.amreply (fEX w x))
  | 82 => ok (.amhinst (fEX w x))
  | 83 => ok (.redsend (fEX w x))
  | 84 => ok (.rtset (fEX w x))
  | 85 => ok (.slotset (fEX w x))
  | 86 => ok (.cfgtok (fEX w x))
  | 87 => ok (.stflush (fEX w x))
  | 88 => ok (.mbpost (fEX w x))
  | 89 => ok (.mbrd (fEX w x))
  | 90 => ok (.mbclr (fEX w x))
  | 91 => match (fld w 0 1).toNat with
    | 0 => ok (.steer (fEX w x))
    | 1 => ok (.steerRet (fEX w x))
    | _ => .error 2
  | 92 => ok (.mgrd (fEX w x))
  | 93 => match (fld w 0 2).toNat with
    | 0 => ok (.capclaim (fEX w x))
    | 1 => ok (.capclaimEnd (fEX w x))
    | 2 => ok (.capclaimSet (fEX w x))
    | _ => .error 2
  | 96 => ok (.tspawn (fEX w x))
  | 97 => ok (.tdec (fEX w x))
  | 98 => match (fld w 0 1).toNat with
    | 0 => ok (.tsetc (fEX w x))
    | 1 => ok (.tsetcAdd (fEX w x))
    | _ => .error 2
  | 99 => ok (.erd (fEX w x))
  | 100 => ok (.ctxrd (fEX w x))
  | 101 => ok (.ctxwr (fEX w x))
  | 102 => ok (.tfreeze (fEX w x))
  | 103 => ok (.trestore (fEX w x))
  | _ => .error 1

/-- The lowest of a list of CODEs (R433). -/
def lowest : List Nat → Option Nat
  | [] => none
  | c :: cs => some ((lowest cs).elim c (min c))

/-- Destination registers as (file, number): file 0 s, 1 v, 2 m (R145, R446). -/
def dests (i : Instr) : List (Nat × Nat) :=
  match i with
  | .addOp f => [(0, f.rd.toNat)]
  | .subOp f => [(0, f.rd.toNat)]
  | .andOp f => [(0, f.rd.toNat)]
  | .orOp f => [(0, f.rd.toNat)]
  | .xorOp f => [(0, f.rd.toNat)]
  | .shl f => [(0, f.rd.toNat)]
  | .shr f => [(0, f.rd.toNat)]
  | .sar f => [(0, f.rd.toNat)]
  | .mulOp f => [(0, f.rd.toNat)]
  | .mulh f => [(0, f.rd.toNat)]
  | .mulhu f => [(0, f.rd.toNat)]
  | .divOp f => [(0, f.rd.toNat)]
  | .divu f => [(0, f.rd.toNat)]
  | .rem f => [(0, f.rd.toNat)]
  | .remu f => [(0, f.rd.toNat)]
  | .minOp f => [(0, f.rd.toNat)]
  | .maxOp f => [(0, f.rd.toNat)]
  | .minu f => [(0, f.rd.toNat)]
  | .maxu f => [(0, f.rd.toNat)]
  | .slt f => [(0, f.rd.toNat)]
  | .sltu f => [(0, f.rd.toNat)]
  | .clz f => [(0, f.rd.toNat)]
  | .ctz f => [(0, f.rd.toNat)]
  | .popc f => [(0, f.rd.toNat)]
  | .addAs f => [(0, f.sd.toNat)]
  | .subAs f => [(0, f.sd.toNat)]
  | .andAs f => [(0, f.sd.toNat)]
  | .orAs f => [(0, f.sd.toNat)]
  | .xorAs f => [(0, f.sd.toNat)]
  | .shlAs f => [(0, f.sd.toNat)]
  | .shrAs f => [(0, f.sd.toNat)]
  | .sarAs f => [(0, f.sd.toNat)]
  | .mulAs f => [(0, f.sd.toNat)]
  | .mulhAs f => [(0, f.sd.toNat)]
  | .mulhuAs f => [(0, f.sd.toNat)]
  | .divAs f => [(0, f.sd.toNat)]
  | .divuAs f => [(0, f.sd.toNat)]
  | .remAs f => [(0, f.sd.toNat)]
  | .remuAs f => [(0, f.sd.toNat)]
  | .minAs f => [(0, f.sd.toNat)]
  | .maxAs f => [(0, f.sd.toNat)]
  | .minuAs f => [(0, f.sd.toNat)]
  | .maxuAs f => [(0, f.sd.toNat)]
  | .sltAs f => [(0, f.sd.toNat)]
  | .sltuAs f => [(0, f.sd.toNat)]
  | .clzAs f => [(0, f.sd.toNat)]
  | .ctzAs f => [(0, f.sd.toNat)]
  | .popcAs f => [(0, f.sd.toNat)]
  | .addi f => [(0, f.rd.toNat)]
  | .andi f => [(0, f.rd.toNat)]
  | .ori f => [(0, f.rd.toNat)]
  | .xori f => [(0, f.rd.toNat)]
  | .shli f => [(0, f.rd.toNat)]
  | .shri f => [(0, f.rd.toNat)]
  | .sari f => [(0, f.rd.toNat)]
  | .slti f => [(0, f.rd.toNat)]
  | .sltiu f => [(0, f.rd.toNat)]
  | .bfx f => [(0, f.rd.toNat)]
  | .bfxs f => [(0, f.rd.toNat)]
  | .bfi f => [(0, f.rd.toNat)]
  | .lea f => [(0, f.rd.toNat)]
  | .leaG f => [(0, f.rd.toNat)]
  | .crd f => [(0, f.rd.toNat)]
  | .jal rd _ => [(0, rd.toNat)]
  | .jalr f => [(0, f.rd.toNat)]
  | .hstart f => [(0, f.rd.toNat)]
  | .hself rd => [(0, rd.toNat)]
  | .gwork rd => [(0, rd.toNat)]
  | .grank rd => [(0, rd.toNat)]
  | .tid rd => [(0, rd.toNat)]
  | .clk rd => [(0, rd.toNat)]
  | .ldB f => [(0, f.rd.toNat)]
  | .ldBu f => [(0, f.rd.toNat)]
  | .ldH f => [(0, f.rd.toNat)]
  | .ldHu f => [(0, f.rd.toNat)]
  | .ldW f => [(0, f.rd.toNat)]
  | .ldWu f => [(0, f.rd.toNat)]
  | .ldD f => [(0, f.rd.toNat)]
  | .vld f => [(1, f.rd.toNat)]
  | .amoAdd f => [(0, f.rd.toNat)]
  | .amoAnd f => [(0, f.rd.toNat)]
  | .amoOr f => [(0, f.rd.toNat)]
  | .amoXor f => [(0, f.rd.toNat)]
  | .amoMin f => [(0, f.rd.toNat)]
  | .amoMax f => [(0, f.rd.toNat)]
  | .amoMinu f => [(0, f.rd.toNat)]
  | .amoMaxu f => [(0, f.rd.toNat)]
  | .amoSwap f => [(0, f.rd.toNat)]
  | .amocas f => [(0, f.rd.toNat)]
  | .fadd f => [(0, f.sd.toNat)]
  | .fsub f => [(0, f.sd.toNat)]
  | .fmul f => [(0, f.sd.toNat)]
  | .fma f => [(0, f.sd.toNat)]
  | .fmin f => [(0, f.sd.toNat)]
  | .fmax f => [(0, f.sd.toNat)]
  | .fabs f => [(0, f.sd.toNat)]
  | .fneg f => [(0, f.sd.toNat)]
  | .fcvt f => [(0, f.sd.toNat)]
  | .fcmp f => [(0, f.sd.toNat)]
  | .vadd f => [(1, f.vd.toNat)]
  | .vsub f => [(1, f.vd.toNat)]
  | .vmul f => [(1, f.vd.toNat)]
  | .vfma f => [(1, f.vd.toNat)]
  | .vfms f => [(1, f.vd.toNat)]
  | .vnfma f => [(1, f.vd.toNat)]
  | .vmin f => [(1, f.vd.toNat)]
  | .vmax f => [(1, f.vd.toNat)]
  | .vabs f => [(1, f.vd.toNat)]
  | .vneg f => [(1, f.vd.toNat)]
  | .vrcp f => [(1, f.vd.toNat)]
  | .vrsq f => [(1, f.vd.toNat)]
  | .vsqrt f => [(1, f.vd.toNat)]
  | .vexp2 f => [(1, f.vd.toNat)]
  | .vlog2 f => [(1, f.vd.toNat)]
  | .vsin f => [(1, f.vd.toNat)]
  | .vcos f => [(1, f.vd.toNat)]
  | .vtanh f => [(1, f.vd.toNat)]
  | .vcmp f => [(2, f.vd.toNat % 8)]
  | .vsel f => [(1, f.vd.toNat)]
  | .vand f => [(1, f.vd.toNat)]
  | .vor f => [(1, f.vd.toNat)]
  | .vxor f => [(1, f.vd.toNat)]
  | .vnot f => [(1, f.vd.toNat)]
  | .vandn f => [(1, f.vd.toNat)]
  | .vshl f => [(1, f.vd.toNat)]
  | .vshr f => [(1, f.vd.toNat)]
  | .vsar f => [(1, f.vd.toNat)]
  | .vmulh f => [(1, f.vd.toNat)]
  | .vmulhu f => [(1, f.vd.toNat)]
  | .vadds f => [(1, f.vd.toNat)]
  | .vsubs f => [(1, f.vd.toNat)]
  | .vcvt f => [(1, f.vd.toNat)]
  | .vqnt f => [(1, f.vd.toNat)]
  | .vdeq f => [(1, f.vd.toNat)]
  | .vperm f => [(1, f.vd.toNat)]
  | .vpermb f => [(1, f.vd.toNat)]
  | .vnibLo f => [(1, f.vd.toNat)]
  | .vnibHi f => [(1, f.vd.toNat)]
  | .vzip f => [(1, f.vd.toNat), (1, f.vd.toNat + 1)]
  | .vunzip f => [(1, f.vd.toNat), (1, f.vd.toNat + 1)]
  | .vslideup f => [(1, f.vd.toNat)]
  | .vslidedn f => [(1, f.vd.toNat)]
  | .vbcast f => [(1, f.vd.toNat)]
  | .vext f => [(0, f.vd.toNat)]
  | .vins f => [(1, f.vd.toNat)]
  | .vredAdd f => [(0, f.vd.toNat)]
  | .vredMin f => [(0, f.vd.toNat)]
  | .vredMax f => [(0, f.vd.toNat)]
  | .vscanAdd f => [(1, f.vd.toNat)]
  | .vscanMin f => [(1, f.vd.toNat)]
  | .vscanMax f => [(1, f.vd.toNat)]
  | .vcompress f => [(1, f.vd.toNat)]
  | .vexpand f => [(1, f.vd.toNat)]
  | .viota f => [(1, f.vd.toNat)]
  | .vclass f => [(1, f.vd.toNat)]
  | .mand f => [(2, f.md.toNat)]
  | .mor f => [(2, f.md.toNat)]
  | .mxor f => [(2, f.md.toNat)]
  | .mnot f => [(2, f.md.toNat)]
  | .mandn f => [(2, f.md.toNat)]
  | .mmov f => [(2, f.md.toNat)]
  | .mfroms f => [(2, f.md.toNat)]
  | .mtos f => [(0, f.sreg.toNat)]
  | .mpop f => [(0, f.sreg.toNat)]
  | .mfirst f => [(0, f.sreg.toNat)]
  | _ => []

/-- The two ops name one destination register, both s0 apart (R145). -/
def sameDest (c a : Instr) : Bool := (dests c).any (fun d => d != (0, 0) && (dests a).contains d)

/-- The sheaf whose word 0 is `w` and word 1 is `x`, on a tile of the given kind; the CODE of a reserved one is
the lowest of its offending fields (R433). Noncomputable only because Lean's compiler cannot build a value of an
inductive with more than 244 constructors; the kernel evaluates it. -/
noncomputable def decodeSheaf (v : Bool) (w x : BitVec 32) : Sheaf :=
  if fld w 31 1 == 0 then
    match decodeC w, decodeA x with
    | .ok (c, zc), .ok (a, za) =>
      match lowest (zc ++ reservedCodes v c ++ za ++ reservedCodes v a ++ mustBe 8 (!sameDest c a)) with
      | some code => .reserved code
      | none => .pair c a
    | .error e, .ok (a, za) => .reserved ((lowest (e :: za ++ reservedCodes v a)).getD e)
    | .ok (c, zc), .error e => .reserved ((lowest (e :: zc ++ reservedCodes v c)).getD e)
    | .error e, .error e' => .reserved (min e e')
  else
    match decodeL w x with
    | .ok (l, z) =>
      match lowest (z ++ reservedCodes v l) with
      | some code => .reserved code
      | none => .lone l
    | .error e => .reserved e

/-- The op a table word stands for: a lone op, or the op of a pair whose other op is nop or anop (R161). -/
noncomputable def decodeTableWord (nbits w : Nat) : Option Instr :=
  let b : BitVec 64 := BitVec.ofNat 64 (w % 2 ^ nbits)
  match decodeSheaf false (b.extractLsb' 0 32) (b.extractLsb' 32 32) with
  | .lone l => some l
  | .pair c a => if a == .anop then some c else if c == .nopOp then some a else some c
  | .reserved _ => none

/-! ### The encoder -/

def eCR (maj : BitVec 6) (f : CR) (fn : BitVec 6) : BitVec 32 := 0#1 ++ maj ++ f.rd ++ f.ra ++ f.rb ++ 0#4 ++ fn
def eCI (maj : BitVec 6) (f : CI) : BitVec 32 := 0#1 ++ maj ++ f.rd ++ f.ra ++ f.imm
def eCM (maj : BitVec 6) (f : CM) : BitVec 32 := 0#1 ++ maj ++ f.rd ++ f.ra ++ f.kw ++ f.kp ++ f.off
def eCB (maj : BitVec 6) (f : CB) : BitVec 32 := 0#1 ++ maj ++ f.ra ++ f.rb ++ f.off
def eCS (maj : BitVec 6) (rd : BitVec 5) (fn : BitVec 5) (low : BitVec 10) : BitVec 32 := 0#1 ++ maj ++ rd ++ 0#5 ++ fn ++ low
def eAS (maj : BitVec 6) (f : AS) (fn : BitVec 6) : BitVec 32 := maj ++ f.sd ++ f.sa ++ f.sb ++ 0#5 ++ fn
def eAF (f : AF) (fn : BitVec 4) : BitVec 32 := 2#6 ++ f.sd ++ f.sa ++ f.sb ++ 0#1 ++ f.t2 ++ f.t ++ fn
def eAV (maj : BitVec 6) (f : AV) (fn : BitVec 4) : BitVec 32 := maj ++ f.vd ++ f.va ++ f.vb ++ f.mm ++ f.ty ++ fn
def eAVF (maj : BitVec 6) (f : AVF) : BitVec 32 := maj ++ f.vd ++ f.va ++ f.vb ++ f.mm ++ f.ty ++ f.fn
def eAM (f : AM) (fn : BitVec 4) : BitVec 32 := 0x20#6 ++ f.md ++ f.ma ++ f.mb ++ f.sreg ++ 0#8 ++ fn
def eLM (maj : BitVec 7) (f : LM) : BitVec 64 :=
  f.off ++ (1#1 ++ maj ++ f.rd ++ f.ra ++ f.kw ++ f.kp ++ f.ord ++ f.scope ++ f.size)
def eMX (maj : BitVec 7) (f : MX) (fn : BitVec 9) : BitVec 64 :=
  (f.kw ++ f.kp ++ f.ord ++ f.scope ++ f.size ++ f.off) ++ (1#1 ++ maj ++ f.ra ++ f.rb ++ f.rc ++ fn)
def eMXC (f : MXC) (fn : BitVec 2) : BitVec 64 :=
  eMX 0x17#7 f.m (0#5 ++ (if f.icache then 1#1 else 0#1) ++ (if f.port then 1#1 else 0#1) ++ fn)
def eEX (maj : BitVec 7) (f : EX) : BitVec 64 := f.par ++ (1#1 ++ maj ++ f.ra ++ f.rb ++ f.rc ++ f.fn9)
def eLI (maj : BitVec 7) (rd : BitVec 5) (imm : BitVec 32) : BitVec 64 := imm ++ (1#1 ++ maj ++ rd ++ 0#19)

/-- A C-op alone: anop in word 1 (R161). -/
def alone (w : BitVec 32) : BitVec 64 := 0#32 ++ w

/-- An A-op alone: nop in word 0 (R161). -/
def aloneA (w : BitVec 32) : BitVec 64 := w ++ 0#32

/-- The sheaf that holds an instruction alone (R161), word 0 in the low half; none for an event, which has no words. -/
def encode (i : Instr) : Option (BitVec 64) :=
  match i with
  | .nopOp => some (alone (eCS 0#6 0#5 0#5 0#10))
  | .yield => some (alone (eCS 0#6 0#5 1#5 0#10))
  | .brk code => some (alone (eCS 0#6 0#5 2#5 code))
  | .trapOp code => some (alone (eCS 0#6 0#5 3#5 code))
  | .eret => some (alone (eCS 0#6 0#5 4#5 0#10))
  | .hexit => some (alone (eCS 0#6 0#5 5#5 0#10))
  | .texit => some (alone (eCS 0#6 0#5 6#5 0#10))
  | .addOp f => some (alone (eCR 0x1#6 f 0#6))
  | .subOp f => some (alone (eCR 0x1#6 f 1#6))
  | .andOp f => some (alone (eCR 0x1#6 f 2#6))
  | .orOp f => some (alone (eCR 0x1#6 f 3#6))
  | .xorOp f => some (alone (eCR 0x1#6 f 4#6))
  | .shl f => some (alone (eCR 0x1#6 f 5#6))
  | .shr f => some (alone (eCR 0x1#6 f 6#6))
  | .sar f => some (alone (eCR 0x1#6 f 7#6))
  | .mulOp f => some (alone (eCR 0x1#6 f 8#6))
  | .mulh f => some (alone (eCR 0x1#6 f 9#6))
  | .mulhu f => some (alone (eCR 0x1#6 f 10#6))
  | .divOp f => some (alone (eCR 0x1#6 f 11#6))
  | .divu f => some (alone (eCR 0x1#6 f 12#6))
  | .rem f => some (alone (eCR 0x1#6 f 13#6))
  | .remu f => some (alone (eCR 0x1#6 f 14#6))
  | .minOp f => some (alone (eCR 0x1#6 f 15#6))
  | .maxOp f => some (alone (eCR 0x1#6 f 16#6))
  | .minu f => some (alone (eCR 0x1#6 f 17#6))
  | .maxu f => some (alone (eCR 0x1#6 f 18#6))
  | .slt f => some (alone (eCR 0x1#6 f 19#6))
  | .sltu f => some (alone (eCR 0x1#6 f 20#6))
  | .clz f => some (alone (eCR 0x1#6 f 21#6))
  | .ctz f => some (alone (eCR 0x1#6 f 22#6))
  | .popc f => some (alone (eCR 0x1#6 f 23#6))
  | .addAs f => some (aloneA (eAS 0x1#6 f 0#6))
  | .subAs f => some (aloneA (eAS 0x1#6 f 1#6))
  | .andAs f => some (aloneA (eAS 0x1#6 f 2#6))
  | .orAs f => some (aloneA (eAS 0x1#6 f 3#6))
  | .xorAs f => some (aloneA (eAS 0x1#6 f 4#6))
  | .shlAs f => some (aloneA (eAS 0x1#6 f 5#6))
  | .shrAs f => some (aloneA (eAS 0x1#6 f 6#6))
  | .sarAs f => some (aloneA (eAS 0x1#6 f 7#6))
  | .mulAs f => some (aloneA (eAS 0x1#6 f 8#6))
  | .mulhAs f => some (aloneA (eAS 0x1#6 f 9#6))
  | .mulhuAs f => some (aloneA (eAS 0x1#6 f 10#6))
  | .divAs f => some (aloneA (eAS 0x1#6 f 11#6))
  | .divuAs f => some (aloneA (eAS 0x1#6 f 12#6))
  | .remAs f => some (aloneA (eAS 0x1#6 f 13#6))
  | .remuAs f => some (aloneA (eAS 0x1#6 f 14#6))
  | .minAs f => some (aloneA (eAS 0x1#6 f 15#6))
  | .maxAs f => some (aloneA (eAS 0x1#6 f 16#6))
  | .minuAs f => some (aloneA (eAS 0x1#6 f 17#6))
  | .maxuAs f => some (aloneA (eAS 0x1#6 f 18#6))
  | .sltAs f => some (aloneA (eAS 0x1#6 f 19#6))
  | .sltuAs f => some (aloneA (eAS 0x1#6 f 20#6))
  | .clzAs f => some (aloneA (eAS 0x1#6 f 21#6))
  | .ctzAs f => some (aloneA (eAS 0x1#6 f 22#6))
  | .popcAs f => some (aloneA (eAS 0x1#6 f 23#6))
  | .addi f => some (alone (eCI 0x2#6 f))
  | .andi f => some (alone (eCI 0x3#6 f))
  | .ori f => some (alone (eCI 0x4#6 f))
  | .xori f => some (alone (eCI 0x5#6 f))
  | .shli f => some (alone (eCI 0x6#6 f))
  | .shri f => some (alone (eCI 0x6#6 f))
  | .sari f => some (alone (eCI 0x6#6 f))
  | .slti f => some (alone (eCI 0x7#6 f))
  | .sltiu f => some (alone (eCI 0x8#6 f))
  | .bfx f => some (alone (eCI 0x9#6 f))
  | .bfxs f => some (alone (eCI 0x9#6 f))
  | .bfi f => some (alone (eCI 0x9#6 f))
  | .lea f => some (alone (eCI 0xA#6 f))
  | .leaG f => some (alone (eCI 0xA#6 f))
  | .crd f => some (alone (eCI 0xB#6 f))
  | .cwr f => some (alone (eCI 0xC#6 f))
  | .beq f => some (alone (eCB 0x10#6 f))
  | .bne f => some (alone (eCB 0x11#6 f))
  | .blt f => some (alone (eCB 0x12#6 f))
  | .bge f => some (alone (eCB 0x13#6 f))
  | .bltu f => some (alone (eCB 0x14#6 f))
  | .bgeu f => some (alone (eCB 0x15#6 f))
  | .jal rd off => some (alone (0#1 ++ 0x18#6 ++ rd ++ off))
  | .jalr f => some (alone (eCI 0x19#6 f))
  | .loopOp f => some (alone (eCB 0x1A#6 f))
  | .hstart f => some (alone (eCR 0x1B#6 f 0#6))
  | .hjoin f => some (alone (eCR 0x1C#6 f 0#6))
  | .hself rd => some (alone (eCS 0x1D#6 rd 0#5 0#10))
  | .gwork rd => some (alone (eCS 0x1D#6 rd 1#5 0#10))
  | .grank rd => some (alone (eCS 0x1D#6 rd 2#5 0#10))
  | .tid rd => some (alone (eCS 0x1D#6 rd 3#5 0#10))
  | .clk rd => some (alone (eCS 0x1D#6 rd 4#5 0#10))
  | .ldB f => some (alone (eCM 0x20#6 f))
  | .ldBu f => some (alone (eCM 0x21#6 f))
  | .ldH f => some (alone (eCM 0x22#6 f))
  | .ldHu f => some (alone (eCM 0x23#6 f))
  | .ldW f => some (alone (eCM 0x24#6 f))
  | .ldWu f => some (alone (eCM 0x25#6 f))
  | .ldD f => some (alone (eCM 0x26#6 f))
  | .stB f => some (alone (eCM 0x28#6 f))
  | .stH f => some (alone (eCM 0x29#6 f))
  | .stW f => some (alone (eCM 0x2A#6 f))
  | .stD f => some (alone (eCM 0x2B#6 f))
  | .vld f => some (alone (eCM 0x2C#6 f))
  | .vst f => some (alone (eCM 0x2D#6 f))
  | .amoAdd f => some (alone (eCR 0x30#6 f 0#6))
  | .amoAnd f => some (alone (eCR 0x30#6 f 1#6))
  | .amoOr f => some (alone (eCR 0x30#6 f 2#6))
  | .amoXor f => some (alone (eCR 0x30#6 f 3#6))
  | .amoMin f => some (alone (eCR 0x30#6 f 4#6))
  | .amoMax f => some (alone (eCR 0x30#6 f 5#6))
  | .amoMinu f => some (alone (eCR 0x30#6 f 6#6))
  | .amoMaxu f => some (alone (eCR 0x30#6 f 7#6))
  | .amoSwap f => some (alone (eCR 0x30#6 f 8#6))
  | .amocas f => some (alone (eCR 0x31#6 f 0#6))
  | .tkwait kn => some (alone (eCS 0x32#6 0#5 0#5 (0#7 ++ kn)))
  | .fenceOp mask scope => some (alone (0#1 ++ 0x33#6 ++ 0#5 ++ 0#5 ++ 0#6 ++ mask ++ scope))
  | .barArrive stat => some (alone (eCS 0x34#6 0#5 0#5 (0#9 ++ (if stat then 1#1 else 0#1))))
  | .barWait stat => some (alone (eCS 0x34#6 0#5 1#5 (0#9 ++ (if stat then 1#1 else 0#1))))
  | .barSync stat => some (alone (eCS 0x34#6 0#5 2#5 (0#9 ++ (if stat then 1#1 else 0#1))))
  | .anop => some (aloneA 0#32)
  | .fadd f => some (aloneA (eAF f 0#4))
  | .fsub f => some (aloneA (eAF f 1#4))
  | .fmul f => some (aloneA (eAF f 2#4))
  | .fma f => some (aloneA (eAF f 3#4))
  | .fmin f => some (aloneA (eAF f 4#4))
  | .fmax f => some (aloneA (eAF f 5#4))
  | .fabs f => some (aloneA (eAF f 6#4))
  | .fneg f => some (aloneA (eAF f 7#4))
  | .fcvt f => some (aloneA (eAF f 8#4))
  | .fcmp f => some (aloneA (eAF f 9#4))
  | .vadd f => some (aloneA (eAV 0x4#6 f 0#4))
  | .vsub f => some (aloneA (eAV 0x5#6 f 0#4))
  | .vmul f => some (aloneA (eAV 0x6#6 f 0#4))
  | .vfma f => some (aloneA (eAV 0x7#6 f 0#4))
  | .vfms f => some (aloneA (eAV 0x8#6 f 0#4))
  | .vnfma f => some (aloneA (eAV 0x9#6 f 0#4))
  | .vmin f => some (aloneA (eAV 0xA#6 f 0#4))
  | .vmax f => some (aloneA (eAV 0xB#6 f 0#4))
  | .vabs f => some (aloneA (eAV 0xC#6 f 0#4))
  | .vneg f => some (aloneA (eAV 0xC#6 f 1#4))
  | .vrcp f => some (aloneA (eAV 0xD#6 f 0#4))
  | .vrsq f => some (aloneA (eAV 0xD#6 f 1#4))
  | .vsqrt f => some (aloneA (eAV 0xD#6 f 2#4))
  | .vexp2 f => some (aloneA (eAV 0xD#6 f 3#4))
  | .vlog2 f => some (aloneA (eAV 0xD#6 f 4#4))
  | .vsin f => some (aloneA (eAV 0xD#6 f 5#4))
  | .vcos f => some (aloneA (eAV 0xD#6 f 6#4))
  | .vtanh f => some (aloneA (eAV 0xD#6 f 7#4))
  | .vcmp f => some (aloneA (eAVF 0xE#6 f))
  | .vsel f => some (aloneA (eAV 0xF#6 f 0#4))
  | .vand f => some (aloneA (eAV 0x10#6 f 0#4))
  | .vor f => some (aloneA (eAV 0x10#6 f 1#4))
  | .vxor f => some (aloneA (eAV 0x10#6 f 2#4))
  | .vnot f => some (aloneA (eAV 0x10#6 f 3#4))
  | .vandn f => some (aloneA (eAV 0x10#6 f 4#4))
  | .vshl f => some (aloneA (eAV 0x11#6 f 0#4))
  | .vshr f => some (aloneA (eAV 0x11#6 f 1#4))
  | .vsar f => some (aloneA (eAV 0x11#6 f 2#4))
  | .vmulh f => some (aloneA (eAV 0x12#6 f 0#4))
  | .vmulhu f => some (aloneA (eAV 0x12#6 f 1#4))
  | .vadds f => some (aloneA (eAV 0x13#6 f 0#4))
  | .vsubs f => some (aloneA (eAV 0x13#6 f 1#4))
  | .vcvt f => some (aloneA (eAVF 0x14#6 f))
  | .vqnt f => some (aloneA (eAVF 0x15#6 f))
  | .vdeq f => some (aloneA (eAVF 0x16#6 f))
  | .vperm f => some (aloneA (eAV 0x17#6 f 0#4))
  | .vpermb f => some (aloneA (eAV 0x17#6 f 1#4))
  | .vnibLo f => some (aloneA (eAV 0x17#6 f 2#4))
  | .vnibHi f => some (aloneA (eAV 0x17#6 f 3#4))
  | .vzip f => some (aloneA (eAV 0x17#6 f 4#4))
  | .vunzip f => some (aloneA (eAV 0x17#6 f 5#4))
  | .vslideup f => some (aloneA (eAV 0x18#6 f 0#4))
  | .vslidedn f => some (aloneA (eAV 0x18#6 f 1#4))
  | .vbcast f => some (aloneA (eAV 0x19#6 f 0#4))
  | .vext f => some (aloneA (eAV 0x19#6 f 1#4))
  | .vins f => some (aloneA (eAV 0x19#6 f 2#4))
  | .vredAdd f => some (aloneA (eAV 0x1A#6 f 0#4))
  | .vredMin f => some (aloneA (eAV 0x1A#6 f 1#4))
  | .vredMax f => some (aloneA (eAV 0x1A#6 f 2#4))
  | .vscanAdd f => some (aloneA (eAV 0x1B#6 f 0#4))
  | .vscanMin f => some (aloneA (eAV 0x1B#6 f 1#4))
  | .vscanMax f => some (aloneA (eAV 0x1B#6 f 2#4))
  | .vcompress f => some (aloneA (eAV 0x1C#6 f 0#4))
  | .vexpand f => some (aloneA (eAV 0x1C#6 f 1#4))
  | .viota f => some (aloneA (eAV 0x1D#6 f 0#4))
  | .vclass f => some (aloneA (eAV 0x1D#6 f 1#4))
  | .mand f => some (aloneA (eAM f 0#4))
  | .mor f => some (aloneA (eAM f 1#4))
  | .mxor f => some (aloneA (eAM f 2#4))
  | .mnot f => some (aloneA (eAM f 3#4))
  | .mandn f => some (aloneA (eAM f 4#4))
  | .mmov f => some (aloneA (eAM f 5#4))
  | .mfroms f => some (aloneA (eAM f 6#4))
  | .mtos f => some (aloneA (eAM f 7#4))
  | .mpop f => some (aloneA (eAM f 8#4))
  | .mfirst f => some (aloneA (eAM f 9#4))
  | .movi rd imm => some (eLI 0x0#7 rd imm)
  | .movhi rd imm => some (eLI 0x1#7 rd imm)
  | .sel f => some (eEX 0x2#7 f)
  | .ldO f => some (eLM 0x8#7 f)
  | .stO f => some (eLM 0x9#7 f)
  | .vldO f => some (eLM 0xA#7 f)
  | .vstO f => some (eLM 0xB#7 f)
  | .ldSnap f => some (eMX 0xC#7 f 0#9)
  | .vldSnap f => some (eMX 0xD#7 f 0#9)
  | .ldFe f => some (eMX 0xE#7 f 0#9)
  | .ldFeClr f => some (eMX 0xE#7 f 1#9)
  | .vldFe f => some (eMX 0x10#7 f 0#9)
  | .vldFeClr f => some (eMX 0x10#7 f 1#9)
  | .stFe f => some (eMX 0xF#7 f 0#9)
  | .vstFe f => some (eMX 0x11#7 f 0#9)
  | .vldx f => some (eMX 0x12#7 f 0#9)
  | .vstx f => some (eMX 0x13#7 f 0#9)
  | .vlds f => some (eMX 0x14#7 f 0#9)
  | .vsts f => some (eMX 0x15#7 f 0#9)
  | .pref f => some (eLM 0x16#7 f)
  | .cacheClean f => some (eMXC f 0#2)
  | .cacheInv f => some (eMXC f 1#2)
  | .cacheFlush f => some (eMXC f 2#2)
  | .amoSAdd f => some (eMX 0x18#7 f 0#9)
  | .amoSAnd f => some (eMX 0x18#7 f 1#9)
  | .amoSOr f => some (eMX 0x18#7 f 2#9)
  | .amoSXor f => some (eMX 0x18#7 f 3#9)
  | .amoSMin f => some (eMX 0x18#7 f 4#9)
  | .amoSMax f => some (eMX 0x18#7 f 5#9)
  | .amoSMinu f => some (eMX 0x18#7 f 6#9)
  | .amoSMaxu f => some (eMX 0x18#7 f 7#9)
  | .amoSSwap f => some (eMX 0x18#7 f 8#9)
  | .amocasS f => some (eMX 0x19#7 f 0#9)
  | .famoAddF32 f => some (eMX 0x1A#7 f 0#9)
  | .famoAddBf16x2 f => some (eMX 0x1A#7 f 1#9)
  | .vamoAdd f => some (eMX 0x1B#7 f 0#9)
  | .vamoAnd f => some (eMX 0x1B#7 f 1#9)
  | .vamoOr f => some (eMX 0x1B#7 f 2#9)
  | .vamoXor f => some (eMX 0x1B#7 f 3#9)
  | .vamoMin f => some (eMX 0x1B#7 f 4#9)
  | .vamoMax f => some (eMX 0x1B#7 f 5#9)
  | .vamoMinu f => some (eMX 0x1B#7 f 6#9)
  | .vamoMaxu f => some (eMX 0x1B#7 f 7#9)
  | .vamoSwap f => some (eMX 0x1B#7 f 8#9)
  | .evsig f => some (eEX 0x20#7 f)
  | .evwait f => some (eEX 0x21#7 f)
  | .evpost f => some (eEX 0x22#7 f)
  | .evq f => some (eEX 0x23#7 f)
  | .evqClr f => some (eEX 0x23#7 f)
  | .snap f => some (eEX 0x24#7 f)
  | .snaprel f => some (eEX 0x25#7 f)
  | .txbegin f => some (eEX 0x26#7 f)
  | .txcommit f => some (eEX 0x27#7 f)
  | .txabort f => some (eEX 0x28#7 f)
  | .txstat f => some (eEX 0x29#7 f)
  | .spmap f => some (eEX 0x30#7 f)
  | .spunmap f => some (eEX 0x31#7 f)
  | .sppin f => some (eEX 0x32#7 f)
  | .spunpin f => some (eEX 0x33#7 f)
  | .spfmt f => some (eEX 0x34#7 f)
  | .spmigRes f => some (eEX 0x35#7 f)
  | .spmigPold f => some (eEX 0x35#7 f)
  | .spmigHbm f => some (eEX 0x35#7 f)
  | .mma f => some (eEX 0x38#7 f)
  | .mmaMask f => some (eEX 0x39#7 f)
  | .mmaMaskFill f => some (eEX 0x39#7 f)
  | .mzero f => some (eEX 0x3A#7 f)
  | .mcvt f => some (eEX 0x3B#7 f)
  | .mtr f => some (eEX 0x3C#7 f)
  | .mwait f => some (eEX 0x3D#7 f)
  | .mscaleCol f => some (eEX 0x3E#7 f)
  | .mscaleRow f => some (eEX 0x3E#7 f)
  | .sbindIn f => some (eEX 0x40#7 f)
  | .sbindOut f => some (eEX 0x40#7 f)
  | .sgen f => some (eEX 0x41#7 f)
  | .sunbind f => some (eEX 0x42#7 f)
  | .sstat f => some (eEX 0x43#7 f)
  | .bcopy f => some (eEX 0x48#7 f)
  | .bcopyn f => some (eEX 0x49#7 f)
  | .bmcast f => some (eEX 0x4A#7 f)
  | .bfill f => some (eEX 0x4B#7 f)
  | .bmig f => some (eEX 0x4C#7 f)
  | .bpoll f => some (eEX 0x4D#7 f)
  | .bwait f => some (eEX 0x4E#7 f)
  | .amsend f => some (eEX 0x50#7 f)
  | .amreply f => some (eEX 0x51#7 f)
  | .amhinst f => some (eEX 0x52#7 f)
  | .redsend f => some (eEX 0x53#7 f)
  | .rtset f => some (eEX 0x54#7 f)
  | .slotset f => some (eEX 0x55#7 f)
  | .cfgtok f => some (eEX 0x56#7 f)
  | .stflush f => some (eEX 0x57#7 f)
  | .mbpost f => some (eEX 0x58#7 f)
  | .mbrd f => some (eEX 0x59#7 f)
  | .mbclr f => some (eEX 0x5A#7 f)
  | .steer f => some (eEX 0x5B#7 f)
  | .steerRet f => some (eEX 0x5B#7 f)
  | .mgrd f => some (eEX 0x5C#7 f)
  | .capclaim f => some (eEX 0x5D#7 f)
  | .capclaimEnd f => some (eEX 0x5D#7 f)
  | .capclaimSet f => some (eEX 0x5D#7 f)
  | .tspawn f => some (eEX 0x60#7 f)
  | .tdec f => some (eEX 0x61#7 f)
  | .tsetc f => some (eEX 0x62#7 f)
  | .tsetcAdd f => some (eEX 0x62#7 f)
  | .erd f => some (eEX 0x63#7 f)
  | .ctxrd f => some (eEX 0x64#7 f)
  | .ctxwr f => some (eEX 0x65#7 f)
  | .tfreeze f => some (eEX 0x66#7 f)
  | .trestore f => some (eEX 0x67#7 f)
  | _ => none

end Sys2Proof
end

