-- ==== Sys2Proof/Config.lean ====
section
/-! DEFINITION. What an implementation fixes and the free values: every constant here has no body, so nothing can be
proved of its value and every statement holds whatever it is. Those of one argument `n` are applied to State's counter
`fc` (log 1), which every step advances. -/

namespace Sys2Proof.Config

/-- Which pending act of the agenda the next step performs (R93, R346; log 1). -/
opaque freeChoice : Nat → Nat

/-- After how many turns of free choice a turn is a fair one (R53; log 1). -/
opaque patience : Nat

/-- Which tile that has a Ready context issues next (R34; log 2). -/
opaque freeTurn : Nat → Nat

/-- The cycles that pass in a step beyond the fewest it can take (R3, R80, R248; log 3). -/
opaque freeStall : Nat → Nat

/-- Whether a translation a TLB may still hold is used (R85, R86, R447; log 12); the second argument is the page. -/
opaque tlbHeld : Nat → Nat → Bool

/-- Which entry of a group of differing entries is used (R83; log 12). -/
opaque groupEntry : Nat → Nat → Nat

/-- Whether an instruction-cache line or a remote line is still held (R78, R109; log 13). -/
opaque lineHeld : Nat → Nat → Bool

/-- Whether a write to a granule, by its key, is from now on visible to the reads of a path, without a fence (R97; log 53). -/
opaque nowSeen : Nat → Nat → Nat → Bool

/-- Whether the overflow handler refuses a new sharer of a line (R459; log 14). -/
opaque handlerRefuses : Nat → Nat → Bool

/-- A choice among equals that the spec leaves open (log 20). -/
opaque freePick : Nat → Nat

/-- A byte whose content is not fixed (R89; log 20); the second argument tells bytes apart. -/
opaque freeByte : Nat → Nat → Byte

/-- Energy measured for a tile, in microjoules, at its update of the counters (R191; log 10). -/
opaque energy : Nat → Nat

/-- SHA-384 of a byte string (R386, R389, R398; log 8). -/
opaque sha384 : List Byte → BitVec 384

/-- ECDSA P-384 verification: public key, digest, r, s (R383, R389; log 8). -/
opaque ecdsaVerify : BitVec 768 → BitVec 384 → BitVec 384 → BitVec 384 → Bool

/-- ECDSA signature of a digest by the device key (R390; log 8). -/
opaque deviceSign : BitVec 384 → BitVec 768

/-- The DER certificate of the identity key (R390; log 8). -/
opaque deviceCert : List Byte

/-- The e8m0 code stored for a value that the format has no code or rounding for: its sign, significand and exponent, an infinity with significand 0 and
exponent 1 (R124, R138; log 47). -/
opaque e8m0Code : Bool → Nat → Int → Byte

/-- A nonce or a random remote key drawn by the part (R376, R383; log 8). -/
opaque nonce : Nat → BitVec 256

/-- The public key the root of trust holds in fuses (R389; log 8). -/
opaque vendorKey : BitVec 768

/-- The certificate chain check of a CLAIM (R383; log 8): chain and public key. -/
opaque chainValid : List Byte → BitVec 768 → Bool

/-- What a register holds after the restore of a core-state segment that no freeze of the task has written, by a free counter value (R399; log 7). -/
opaque scanBits : Nat → Nat → Nat

/-- The bytes of segment `k` of an image written at a free counter value (R399; log 7). -/
opaque imageByte : Nat → Nat → Nat → Byte

/-- The length of segment `k` of an image (R398, R399; log 7). -/
opaque imageLen : Nat → Nat → Nat

/-- The scan-map digest of a tile of the revision and kind (R398; log 7). -/
opaque scanMap : Bool → BitVec 384

/-- The code addresses of handlers 240 to 255 that firmware installs, per die (R305; log 6). -/
opaque firmwareHandler : Nat → Word

/-- The firmware address space of a die, in GVROOT's layout (R487; log 6). -/
opaque firmwareSpace : Nat → Word

/-- The first byte of the payload-slot area of a die (R305; log 11). -/
opaque payloadArea : Nat → Word

/-- The image area that firmware reserves for a die (R423; log 7). -/
opaque imageArea : Nat → Word

/-- How many preserved versions a die's version store holds (R115, R462; log 6). -/
opaque versionStore : Nat → Nat

/-- The digest of the key of the host at the far end of a queue pair over which no control message has come (R385; log 18). -/
opaque qpHost : Nat → BitVec 384

/-- The wire-level answer code of a refused RDMA request (R376; log 18). -/
opaque nakCode : Nat → Nat

end Sys2Proof.Config
end

