-- ==== Sys2Proof/Machine/Maps.lean ====
section
/-! DEFINITION. Finite maps from natural numbers as lists of pairs in one canonical form: keys strictly rising, and no
entry that holds the map's default value. -/

namespace Sys2Proof

/-- Pairs of a key and a value, keys rising. -/
abbrev SMap (α : Type) := List (Nat × α)

/-- The entry of a key. -/
def SMap.find {α : Type} : SMap α → Nat → Option α
  | [], _ => none
  | (k, v) :: m, i => if i = k then some v else if i < k then none else SMap.find m i

/-- What a key reads as: its entry, else the default. -/
def SMap.get {α : Type} (d : α) (m : SMap α) (i : Nat) : α := (m.find i).getD d

/-- The map with an entry put in. -/
def SMap.put {α : Type} : SMap α → Nat → α → SMap α
  | [], i, v => [(i, v)]
  | (k, w) :: m, i, v => if i = k then (i, v) :: m else if i < k then (i, v) :: (k, w) :: m else (k, w) :: SMap.put m i v

/-- The map with a key's entry taken out. -/
def SMap.del {α : Type} : SMap α → Nat → SMap α
  | [], _ => []
  | (k, w) :: m, i => if i = k then m else if i < k then (k, w) :: m else (k, w) :: SMap.del m i

/-- The map in which a key reads as a value; the default value is never listed. -/
def SMap.set {α : Type} [DecidableEq α] (d : α) (m : SMap α) (i : Nat) (v : α) : SMap α :=
  if v = d then m.del i else m.put i v

/-- Keys strictly rising from `lo` on, and no entry equal to the default. -/
def SMap.wfFrom {α : Type} [DecidableEq α] (d : α) : Nat → SMap α → Bool
  | _, [] => true
  | lo, (k, v) :: m => decide (lo ≤ k) && decide (v ≠ d) && SMap.wfFrom d (k + 1) m

/-- The canonical form. -/
def SMap.wf {α : Type} [DecidableEq α] (d : α) (m : SMap α) : Bool := SMap.wfFrom d 0 m

end Sys2Proof
end

