-- ==== Sys2Proof/Machine/State.lean ====
section
/-! DEFINITION. The state of the package as plain data: every piece of state the spec names (INVENTORY.md, "State"),
the faults and refusals of the model, and the state after package reset. -/

namespace Sys2Proof.Machine

/-- Why the machine stops; raised by `step` alone. -/
inductive Fault where
  /-- A stage of measured boot failed its signature check: the package runs nothing (14 R389). Safe: no claim is made of a package that did not boot. -/
  | bootStopped
  /-- The main input is off: no die but I/O die 0 is powered (01 R27). Safe: no claim is made of an unpowered package. -/
  | unpowered
  deriving DecidableEq, Repr

/-- Why an instruction has no meaning in the model; raised by `exec`. -/
inductive Refusal where
  /-- The instruction is not modelled; raised by an arm of Dispatch.lean. Safe: nothing can be proved of it. -/
  | notModelled (mnemonic : String)
  deriving DecidableEq, Repr

/-- What a Structural wait waits for: the stop of a tile that faulted; results of `s` registers (06 R148); a store of the agent to a line
that its home holds, or any; the overflow handler of some lines (04 R108); the paths of a fence (04 R98); a strip to be fetched, or written
(10 R291, R292); a stream unit (R290); a place in the matrix queue (R277); transfers (R297); the page-ins of the tile (08 R236), or the write-outs of an `spmig` (R242); a bank at rest
(08 R243); a granule permit of an edge (11 R335); the configuration of a load; the answer to another freeze; the energy of a restore (15 R403);
the confirmations of a TLBINV (03 R86); lines that another commit holds (04 R121); the overflow handler's record of a sharer (R108); the
answers of the dies to a hold (R114) or to a commit (R120); a place in the router's injection queue (12 R355); the
other op of its sheaf. -/
inductive Busy where
  | frozen
  | result (rs : List Nat)
  | line (n : Nat)
  | stores
  | handler (lines : List Nat)
  | fence (mask scope : Nat)
  | strip (r : Nat)
  | push (r : Nat)
  | units
  | matrix
  | transfers
  | pageIns
  | pageOuts
  | bank (buf bank : Nat)
  | permits (i : Nat)
  | config
  | asker (t : Nat)
  | restore (task : Nat)
  | tlbinv (asid : Nat)
  | reserved (lines : List Nat)
  | sharer (line sharer : Nat)
  | hold
  | commit
  | router
  | pair
  deriving DecidableEq, Repr

/-- A full-empty read that has issued (08 R207): its clear qualifier, granules, address, destination register, size code (7 a vector), ordering,
and whether it is a decoding access, which decodes by the format and the scale records it finds when it is performed (03 R67). -/
structure FeRead where
  clr : Bool
  win : Nat
  off : Nat
  len : Nat
  addr : Word
  rc : Nat
  size : Nat
  ord : Nat := 0
  scope : Nat := 0
  dec : Bool := false
  deriving DecidableEq, Repr

/-- A wait condition of Table — Wait conditions (02 R32). -/
inductive Wait where
  | token (k : Nat)
  | tokenFull (k : Nat)
  | event (name : BitVec 16)
  | fullEmpty (r : FeRead)
  | residence (win page : Nat)
  | barrier
  | join (h : Nat)
  | matrix
  | transfer (q : Nat)
  | retire
  | structural (b : Busy)
  deriving DecidableEq, Repr

/-- A context state of Table — Context states (02 R30); a held context keeps the wait it was in. -/
inductive CtxSt where
  | free
  | ready
  | waiting (w : Wait)
  | held (w : Option Wait)
  | done
  deriving DecidableEq, Repr

/-- A trap condition met: the step of R434 at which it is taken, CAUSE, CODE and TADDR (21 R432, R434);
`table` is the physical address of a poisoned page-table line that ended a walk (22 R448). -/
structure Trap where
  step : Nat
  cause : BitVec 16
  code : BitVec 10
  addr : Word
  table : Option Nat := none
  deriving DecidableEq, Repr

/-- A generator level (10 R287). -/
structure Level where
  count : Nat := 1
  stride : Word := 0
  deriving DecidableEq, Repr

/-- A strip of a stream (10 R288, R291): its lanes, the lanes' poison addresses, its mark, and the check it failed. -/
structure Strip where
  data : VReg := 0
  pois : SMap Word := []
  mark : BitVec 8 := 0
  err : Option Trap := none
  deriving DecidableEq, Repr

/-- A store stream port (03 R87): the lowest and highest global byte address stored since it was opened. -/
abbrev Port := Option (Nat × Nat)

/-- A stream register of a context (10 R290 to R295). `queue` holds the strips fetched and not popped, or pushed and not
written; `moved` counts strips popped or pushed; `reached` strips fetched or written; `hand` tells one made with handler rights;
`dead` one whose write met a fault (22 R454); `closing` is the operation of its `sunbind`, kept in the register too; `writes` the ops of strips that their homes hold; `sent` the granules of the
strip in writing that have left over a stream edge (11 R335); `began` tells that the unit has started on its next strip and waits (08 R243). -/
structure Binding where
  bound : Bool := false
  out : Bool := false
  fe : Bool := false
  base : Word := 0
  levels : List Level := []
  queue : List Strip := []
  moved : Nat := 0
  reached : Nat := 0
  exh : Bool := false
  last : BitVec 8 := 0
  port : Port := none
  hand : Bool := false
  dead : Bool := false
  closing : Option Nat := none
  writes : List Nat := []
  sent : Nat := 0
  began : Bool := false
  deriving DecidableEq, Repr

/-- A line of a write set: its bytes and which of them are held (04 R119). -/
structure TxLine where
  data : BitVec 256 := 0
  mask : BitVec 32 := 0
  deriving DecidableEq, Repr

/-- The transaction of a context (08 R232 to R236, 21 R442): txstat's state, start and commit stamps, write set by line number; of a commit that
every home has granted the stamp and the lines installed (04 R120). -/
structure Tx where
  state : Nat := 0
  start : Nat := 0
  commit : Nat := 0
  lines : SMap TxLine := []
  granted : Option Nat := none
  done : List Nat := []
  deriving DecidableEq, Repr

/-- A context of a control core, or the awn core (02 R29, 10 R305). `creg` holds the context's control registers by number
(07 R166); `sPois` and `vPois` the kept addresses of poisoned registers, lane l of v register r under 64 r + l (20 R421);
`pend` the s registers whose result a later sheaf waits for, each with the number of the op that gives it (06 R148); `binds` the bindings of v registers, and under 32 + op those that
`sunbind` has ended and whose strips are still being written; `edgeSent` the granules of a waiting store that have left over stream edges
(11 R335); `prog` what a load or store that waits for a page has read of its pieces, or that it has written them (02 R33). -/
structure Ctx where
  st : CtxSt := .free
  pc : Word := 0
  s : SMap Word := []
  v : SMap VReg := []
  m : SMap (BitVec 64) := []
  k : SMap Nat := []
  sPois : SMap Word := []
  vPois : SMap Word := []
  creg : SMap Word := []
  levels : SMap Level := []
  binds : SMap Binding := []
  tx : Tx := {}
  port : Port := none
  feTaken : SMap (BitVec 128) := []
  fePois : SMap Bool := []
  pend : List (Nat × Nat) := []
  yieldUntil : Nat := 0
  edgeSent : Nat := 0
  prog : List (List (Byte × Bool)) := []
  deriving DecidableEq, Repr

/-- Where an outstanding op writes: an s register, or the lanes of a v register, with poison (06 R147); `late` an s register whose readers wait
for the result (06 R148). -/
inductive Dst where
  | late (r : Nat) (v : Word)
  | none
  | s (r : Nat) (v : Word) (pois : Option Word)
  | v (r : Nat) (v : VReg) (pois : SMap Word)
  deriving DecidableEq, Repr

/-- An op that has issued and not completed (04 R94 to R96). `need` counts the requests of a store that its lines' homes still hold;
`part` tells the writes of one strip of a stream or of the merge unit, which end with the last request. -/
structure Op where
  agent : Agent
  path : Nat
  kw : Nat
  dst : Dst := .none
  need : Nat := 0
  part : Bool := false
  deriving DecidableEq, Repr

/-- A page or frame of 2,048 bytes with its 128 full-empty bits and poison marks (03 R63, R76, 20 R421). -/
structure Page where
  bytes : BitVec 16384 := 0
  full : BitVec 128 := 0
  pois : BitVec 128 := 0
  deriving DecidableEq, Repr

/-- A page-table leaf as a walk finds it (03 R82): the entry and its level. -/
structure Leaf where
  entry : Word
  level : Nat
  deriving DecidableEq, Repr

/-- A page-in in progress (03 R69): window, page, destination frame, the victim being written out, whether an access has abandoned that (R72); of an HBM source its address-space identifier and virtual address with the translation made
at its start (22 R452), and whether a TLBINV has removed that (03 R86). -/
structure PageIn where
  win : Nat
  page : Nat
  frame : Nat
  victim : Option (Bool × Nat) := none
  abandoned : Bool := false
  tr : Option (Nat × Nat × Leaf) := none
  cut : Bool := false
  pin : Bool := false
  deriving DecidableEq, Repr

/-- The write-outs of an `spmig` in progress (08 R242): the context, the pc of its sheaf, and of each page whether an access has abandoned its
write-out (03 R72). -/
structure PageOuts where
  ctx : Nat
  pc : Word
  pages : List (Nat × Bool)
  deriving DecidableEq, Repr

/-- A matrix op held by the sequencer (10 R276 to R285): kind 0 mma, 1 mma.mask, 2 mma.mask.fill, 3 mzero, 4 mcvt, 5 mtr,
6 mscale.col, 7 mscale.row; the operands' addresses (`a` A, `w` W, the destination or the scale vector, `c` C or the source, `msk` the
mask block); the bank formats at issue; the next step; the mask of the block in progress and its poison. -/
structure MatOp where
  op : Nat
  kind : Nat
  ctx : Nat
  a : Word := 0
  w : Word := 0
  c : Word := 0
  msk : Word := 0
  mb : Nat
  nb : Nat
  k : Nat := 0
  fmtA : Word := 0
  fmtW : Word := 0
  step : Nat := 0
  mask : List Bool := []
  maskPois : Bool := false
  sent : Nat := 0
  deriving DecidableEq, Repr

/-- A translation a TLB may hold (03 R85): address-space identifier, the 4 KiB page number looked up, and the leaf, whose whole page it serves. -/
structure TlbEnt where
  asid : Nat
  vpn : Nat
  leaf : Leaf
  deriving DecidableEq, Repr

/-- A destination of a transfer: its address; for `bmcast` the rank of its entry (0xFFFF: global); the bank formats of its tile that
decide a conversion. -/
structure XDst where
  addr : Word
  rank : Option Nat := none
  fmts : SMap Word := []
  deriving DecidableEq, Repr

/-- A block transfer in flight (10 R296 to R303): kind 0 bcopy, 1 bcopyn, 2 bmcast, 3 bfill, 4 bmig, 5 the copy of a COPY packet, of
queue `q` and packet `task`. The rows of `row` source bytes each, the bank formats of the source tile at issue, the source bytes of an overlapping copy
(22 R464), none for one that could not be read then; then how far it has come: destination, row and offset of the next chunk, the chunk read and not
written with the format it is decoded by, the bytes written; `kept` the translations that its checks found and that no TLBINV has removed since
(22 R449); `fin` the status of one whose completion record is written but held at its home (04 R108). -/
structure Xfer where
  op : Nat
  q : Nat
  task : Nat
  agent : Agent
  hand : Bool := false
  kind : Nat
  tag : Nat := 0
  root : Word := 0
  ring : Word := 0
  size : Nat := 0
  src : Word := 0
  fmts : SMap Word := []
  dsts : List XDst := []
  row : Nat := 0
  rows : Nat := 1
  planes : Nat := 1
  sRow : Word := 0
  dRow : Word := 0
  sPlane : Word := 0
  dPlane : Word := 0
  pat : Word := 0
  whole : Option (List (List (Option (Byte × Bool)))) := none
  checked : Bool := false
  dst : Nat := 0
  pos : Nat := 0
  off : Nat := 0
  held : List (Byte × Bool) := []
  done : Nat := 0
  pois : Bool := false
  conv : Bool := false
  port : Port := none
  sent : Nat := 0
  tile0 : Nat := 0
  tile1 : Nat := 0
  kept : List TlbEnt := []
  cv : Option Word := none
  fin : Option Nat := none
  deriving DecidableEq, Repr

/-- An error record (20 R429, Table — Error record); `time` is its detection where that precedes the writing. -/
structure ErrRec where
  cls : Nat
  reach : Nat
  cause : BitVec 16 := 0
  code : BitVec 10 := 0
  tile : Nat := 0xFFFF
  task : Nat := 0xFFFFFFFF
  tag : Nat := 0
  addr : Word := 0
  pc : Word := 0
  stop : Nat := 0
  image : Word := 0
  detail : List (Nat × Nat × Nat) := []
  time : Option Nat := none
  deriving DecidableEq, Repr

/-- The freeze of a tile (15 R394 to R399): the stopping point, how far it has come, the image address asked for, the lean
form, the agent that waits for its status, its status register and the number it waits under, whether a fault on the awn core froze that core too, and the
error record of the fault that the freeze follows, with the faulting context, while it is still to be written (20 R425). -/
structure Freeze where
  stop : Nat
  stopped : Bool := false
  dike : Bool := false
  imaged : Bool := false
  image : Option Word := none
  root : Word := 0
  lean : Bool := true
  asker : Option (Agent × Nat × Nat) := none
  awn : Bool := false
  fault : Bool := false
  report : Option (Nat × ErrRec) := none
  deriving DecidableEq, Repr

/-- A partial sum of an adder (12 R356): its key, and the contribution of each input port. -/
structure Partial where
  cls : Nat
  coll : Nat
  step : Nat
  ports : SMap Packet := []
  deriving DecidableEq, Repr

/-- A statistics merge node (12 R358): sums, ports seen, tokens summed, the time of the first token, and the launch of the last. -/
structure StatNode where
  counts : List Nat := []
  ports : SMap Nat := []
  tokens : Nat := 0
  tree : Nat := 0
  since : Nat := 0
  open_ : Bool := false
  launch : Option Nat := none
  deriving DecidableEq, Repr

/-- A mailbox slot of a V-tile with its merge state (10 R312, R313, R315); `writes` the ops of written strips that their homes may still hold; `sent` the
granules of a strip in writing that have left over a stream edge (11 R334); `src` the
tile that posted last (13 R362). -/
structure MbSlot where
  depth : Nat := 0
  entries : List (BitVec 32 × Nat) := []
  seq : Nat := 0
  src : Nat := 0
  posted : Bool := false
  base : Word := 0
  strips : Nat := 0
  rows : List (Nat × Nat × BitVec 32 × VReg × Bool) := []
  written : List Nat := []
  writes : List (Nat × Nat) := []
  sent : SMap Nat := []
  returned : Bool := false
  deriving DecidableEq, Repr

/-- A held claim of a capacity entry (10 R317): sequence number, and the request. -/
structure Claim where
  seq : Nat
  msg : CapMsg
  deriving DecidableEq, Repr

/-- A capacity-table entry (10 R316). -/
structure CapEnt where
  cap : Nat := 0
  srcs : Nat := 0
  unordered : Bool := false
  granted : Nat := 0
  ends : Nat := 0
  held : List Claim := []
  decided : Bool := false
  deriving DecidableEq, Repr

/-- By whom a granule was written: the access path, the agent that issued the op, and the task it works for (04 R96, R97). -/
structure Writer where
  path : Nat
  agent : Agent
  task : Option Nat
  deriving DecidableEq, Repr

/-- Writes of one agent on one path to a 16-byte granule that reads of other paths may not see yet (04 R97): the paths that see them, and the bytes
with poison that the granule had before. -/
structure Unseen where
  writer : Writer
  seen : List Nat
  old : List (Byte × Bool)
  deriving DecidableEq, Repr

/-- A tile's state outside its contexts. `pe` holds the scale and zero-point registers of the matrix array by column, d in [15:0], z in [23:16]
(10 R279); `c0` holds the granules that wait to enter a circuit, `link` the class-0 flits at the router's inputs with
input port and slot, `makers` the producer of the token on each full granule by page key * 128 + granule (02 R55) and
`makersS` those of the staged task, `tokens` the configuration tokens that have reached it, by load and port (12 R347, 02 R51), `turns` the packets that wait at its inputs, in the order
in which they came to wait: input port, class and the ports they leave by (02 R53); `ask` the `tfreeze` on its way to it (15 R394); `unseen`, by page key * 128 + granule, the writes that some paths may not see
yet (04 R97). Page tables, homes and ages are kept by page key (window * 8192 + page), frames by
frame key (buffer * 2048 + frame). -/
structure Tile where
  run : Option Nat := none
  staged : Option Nat := none
  rank : Nat := 0
  stagedRank : Nat := 0
  spt : SMap Word := []
  sptS : SMap Word := []
  home : SMap Word := []
  homeS : SMap Word := []
  lru : List (Bool × Nat) := []
  frames : SMap Page := []
  unseen : SMap Unseen := []
  pageIns : List PageIn := []
  outs : Option PageOuts := none
  bfmt : SMap Word := []
  mq : List MatOp := []
  pe : SMap (BitVec 32) := []
  stats : SMap Nat := []
  last : Nat := 10
  lastIssue : Nat := 0
  energyRun : Nat := 0
  energyAll : Nat := 0
  energyAt : Nat := 0
  frec0 : Word := 0
  frec1 : Word := 0
  frec2 : Word := 0
  frec3 : Word := 0
  frecTime : Nat := 0
  frz : Option Freeze := none
  ask : Option Freeze := none
  handlers : SMap Word := []
  outq : List (Agent × Nat × Packet) := []
  awnQ : List (Packet × Option Nat) := []
  msg : Option (Packet × Option Nat) := none
  msgSpace : Word := 0
  msgTask : Option Nat := none
  makers : SMap (Nat × Nat) := []
  makersS : SMap (Nat × Nat) := []
  slots : SMap Bool := []
  rtCur : SMap Word := []
  rtNext : SMap Word := []
  slCur : SMap Word := []
  slNext : SMap Word := []
  load : Nat := 0
  cfgWait : Option (Agent × Nat × Nat) := none
  c0 : List EdgeGranule := []
  link : List (Nat × Nat × EdgeGranule) := []
  tokens : List (Nat × Nat) := []
  turns : List (Nat × Nat × List Nat) := []
  credits : SMap Nat := []
  discards : Nat := 0
  discardRec : Option Nat := none
  adder : List Partial := []
  seen : SMap (List (Nat × Nat × Nat × Nat)) := []
  statNodes : SMap StatNode := []
  statRecs : SMap Nat := []
  mbox : SMap MbSlot := []
  mergePort : Port := none
  caps : SMap CapEnt := []
  contained : Bool := false
  ovfFailed : Bool := false
  deriving DecidableEq, Repr

/-- A destination of a page fetch: task, tile, page key and frame; `gone` where its task has been displaced (11 R331). -/
structure FetchDst where
  task : Nat
  tile : Nat
  key : Nat
  frame : Nat
  gone : Bool := false
  deriving DecidableEq, Repr

/-- A page fetch request of the dispatcher (11 R330): address-space root, source address, destinations; `started` keeps the translation, which a
TLBINV has removed since where `cut` is set (22 R449); `queued` is the cycle in which it was queued (16 R410). -/
structure Fetch where
  root : Word
  src : Nat
  dsts : List FetchDst
  started : Option Leaf := none
  cut : Bool := false
  queued : Nat := 0
  deriving DecidableEq, Repr

/-- A waiter of an event entry (11 R338): a context, or the WAIT packet of a command queue. -/
inductive Waiter where
  | ctx (a : Agent)
  | queue (q : Nat)
  deriving DecidableEq, Repr

/-- An event-table entry (08 R225): state 0 Idle, 1 Pending, 2 Fired; eight hardware slots; the spillway's blocks in
chain order, each its slot and the waiters it holds; waiters held for want of a Granary slot (23 R472). -/
structure Event where
  count : Nat := 0
  state : Nat := 0
  slots : List Waiter := []
  blocks : List (Nat × List Waiter) := []
  parked : List Waiter := []
  deriving DecidableEq, Repr

/-- What the dispatcher keeps for a task beside its record (11 R335, 15 R400, 10 R296): tiles by rank; ranks that have retired; by rank the
image's address, its address space and its entry + 1 in `images`; whether the dispatcher restores it of its own (24 R484); time of
entry to Running, cycles run before it, and by rank those that its domain was clocked (15 R398), the effective priority kept since (02 R46); a base priority that waits (02 R47); transfers; by edge
permits spent, granules not cleared, held by a dike, closed; the task it has asked to pre-empt; its snapshot; energy; the edges whose
region is to be poisoned as its pages come to a tile (23 R470); its launch, and the number of its run, which no
other has (02 R55). -/
structure Task where
  tiles : List Nat := []
  retired : List Nat := []
  images : SMap Word := []
  roots : SMap Word := []
  imageId : SMap Nat := []
  faulted : Bool := false
  auto : Bool := false
  started : Nat := 0
  ran : Nat := 0
  clocked : SMap Nat := []
  eff : Nat := 0
  newPrio : Option Nat := none
  nextQ : Nat := 0
  qStat : SMap Nat := []
  permits : SMap Nat := []
  forwarded : SMap Nat := []
  held : SMap Bool := []
  closed : SMap Bool := []
  preempt : Option Nat := none
  stamp : Option Nat := none
  energy : Nat := 0
  arrived : List Nat := []
  bad : List Nat := []
  units : SMap Nat := []
  owner : Option Nat := none
  serial : Nat := 0
  deriving DecidableEq, Repr

/-- A tile die: its control registers by number, and the state of its dispatcher, event table, polder and memory port. `fresh` is the
lowest Granary slot never used and `freed` the freed ones in order (11 R320); `blocks` the STATE of slots that hold blocks (11 R324, R338). `taken`
keeps the last 64 packets handed from each queue (23 R480); `contained` the contained units: 4 the memory port, 0 to 3 the Levee edges,
16 + tile an adder; `lost` the class-0 flits that each has discarded (20 R426), of a router under 256 + tile; `waves` the routers that have taken on each load under way
(11 R336); `slotAt` the cycle of the slot counter that comes next (12 R347). -/
structure Die where
  creg : SMap Word := []
  drlFail : Bool := false
  drlBad : Bool := false
  vc : SMap Nat := []
  batches : List Batch := []
  fresh : Nat := 0
  freed : List Nat := []
  blocks : SMap Nat := []
  fetchQ : List Fetch := []
  events : SMap Event := []
  polder : SMap Page := []
  polderUsed : SMap Bool := []
  load : Nat := 0
  taken : SMap (List Nat) := []
  portCur : SMap Word := []
  portNext : SMap Word := []
  portLast : Nat := 0
  portWait : SMap Nat := []
  contained : SMap Nat := []
  lost : SMap Nat := []
  waves : SMap (List Nat) := []
  slotAt : Nat := 0
  deriving DecidableEq, Repr

/-- A home line's directory entry (04 R107, R108): the home slice's tile, the sharers its pointers name, OVF, the overflow handler's
table entry, and whether that reads poisoned (22 R460). A sharer below 4,096 is a tile's L1, 4,096 + d the L2 of die d. -/
structure DirEnt where
  home : Nat := 0
  ptrs : List Nat := []
  ovf : Bool := false
  table : List Nat := []
  bad : Bool := false
  deriving DecidableEq, Repr

/-- A preserved version of a line (04 R115): stamp, content, poison. -/
structure Version where
  stamp : Nat
  data : BitVec 256
  pois : Bool
  deriving DecidableEq, Repr

/-- A versioned line: the in-place stamp and the older versions, newest first (04 R112 to R117). -/
structure LineVer where
  stamp : Nat := 0
  older : List Version := []
  deriving DecidableEq, Repr

/-- Who holds a live stamp (04 R117): a `snap` of a task, a snapshot task, or the transaction of a context. -/
inductive StampOwner where
  | snap (task : Nat)
  | task (task : Nat)
  | tx (a : Agent)
  deriving DecidableEq, Repr

/-- A cached line: its bytes, the byte-dirty mask of a line of another package (04 R109), its poison; for the L2 copy of a line of another die
the own tiles whose L1s hold it (R107) and the slice that holds it (03 R79). -/
structure RemLine where
  data : BitVec 256 := 0
  dirty : BitVec 32 := 0
  pois : Bool := false
  tiles : List Nat := []
  slice : Nat := 0
  deriving DecidableEq, Repr

/-- A write or atomic that waits at its home for the overflow handler (04 R108) or a commit (R121), with the op that it is part of, and the
address-space identifier, virtual address and translation, and whether a TLBINV has removed that (03 R86). -/
structure HeldReq where
  req : MemReq
  op : Option Nat
  tr : Option (Nat × Nat × Leaf) := none
  cut : Bool := false
  deriving DecidableEq, Repr

/-- A command queue (14 R377 to R380, 20 R429): the read index, and up to where packets have been read; the packets read and not
complete, and of each 1 started, 2 complete; parked WAIT packets with their events. -/
structure Queue where
  desc : QueueDesc
  base : Word
  size : Nat
  prio : Nat
  read : Nat := 0
  write : Nat := 0
  isErr : Bool := false
  stopped : Bool := false
  errW : Nat := 0
  dropped : Nat := 0
  pkts : SMap (BitVec 1024) := []
  status : SMap Nat := []
  parked : List (Nat × Nat) := []
  deriving DecidableEq, Repr

/-- A registered memory region (14 R376). -/
structure Region where
  desc : RegionDesc
  key : Nat
  deriving DecidableEq, Repr

/-- A reply to a host or peer: queue pair, tag, status and data; of a control message its type (14 R386). -/
structure Reply where
  qp : Nat
  tag : Nat
  status : Nat
  data : List Byte := []
  type : Nat := 0
  deriving DecidableEq, Repr

/-- A launch the command complex watches (02 R55 to R57): its queue and packet, and those of its tasks that have not retired; the messages sent and received
for it, by the key of the context or awn core (2^20 + d the dispatcher of die d); the balances by the key of the producing context, its
task's serial * 4096 + rank * 16 + context, and the tile at which each of those ranks stands or stood last; its last sweep, with the tiles found
idle with a balance or quiescent, and those that are stuck. -/
structure Launch where
  queue : Nat
  idx : Nat
  tasks : List Nat
  sent : SMap Nat := []
  recv : SMap Nat := []
  bal : SMap Int := []
  homes : SMap Nat := []
  sweeps : Nat := 0
  idle : Bool := false
  lastSent : Nat := 0
  lastRecv : Nat := 0
  states : List Nat := []
  stuck : List Nat := []
  ended : Bool := false
  deriving DecidableEq, Repr

/-- Ownership (14 R383 to R387). -/
structure Owner where
  digest : Option (BitVec 384) := none
  nonce : BitVec 256 := 0
  beatMs : Nat := 100
  beatAt : Nat := 0
  heir : Option (BitVec 384) := none
  heirAt : Nat := 0
  quiesced : Bool := false
  deriving DecidableEq, Repr

/-- The command complexes (14 R388, 23 R480): which is active (0 A, 1 B), whether each runs, the mirrored state-table version; `pause` is since when the
active has stopped reading for an update, and that update's message (14 R388). -/
structure Complex where
  active : Nat := 0
  failedA : Bool := false
  failedB : Bool := false
  version : Nat := 1
  missed : Nat := 0
  pause : Option (Nat × Msg) := none
  deriving DecidableEq, Repr

/-- The package's place in its pod (14 R391). -/
structure Ualink where
  pkg : Nat := 0
  pod : List Nat := []
  up : Bool := false
  failed : SMap Bool := []
  deriving DecidableEq, Repr

/-- An image (15 R398, R399): the task and rank, the tile frozen, its bytes as written, and the domain it holds: contexts, outstanding
ops, tile state, transfers; `moved` is what a `bmig` made of it (10 R303): die, page table, places of its pages. -/
structure Image where
  task : Nat
  rank : Nat
  from_ : Nat
  bytes : List Byte
  ctxs : SMap Ctx
  ops : SMap Op
  tile : Tile
  xfers : List Xfer
  moved : Option (Nat × SMap Word × SMap Word) := none
  deriving DecidableEq, Repr

/-- What became of the op just performed: it ran, it trapped at a step of R434, or it waits (21 R436; the model's own). -/
inductive Fate where
  | ran
  | trapped (step : Nat)
  | waits
  deriving DecidableEq, Repr

/-- The package. Contexts are kept under tile * 16 + context; tasks and records under die * 65536 + slot; memory under the
40-bit physical address, another package's memory under 2^48 + package * 2^44 + address. `tlb` keeps the entries of a TLB under its number
(`TlbUse`), the newest first; `unseen`, by physical address / 16, the writes to memory of this package that some paths may not see yet (04 R97). The last group, from `agenda` on, is the model's own (log 1): `rounds` counts turns, `lastAgent` is the key of the agent that a fair turn let issue last, `cycle` lists
the ordered acts done in cycle `cycleAt` (log 46). -/
structure State where
  ctxs : SMap Ctx
  tiles : SMap Tile
  dies : SMap Die
  mem : List Host.Cell
  pois : SMap Bool
  unseen : SMap Unseen
  vers : SMap LineVer
  live : List (Nat × StampOwner)
  revoked : List Nat
  tlb : SMap (List TlbEnt)
  icache : SMap (BitVec 256)
  rem : SMap RemLine
  dirs : SMap DirEnt
  heldReqs : List HeldReq
  l1 : SMap RemLine
  holds : SMap (Nat × Bool)
  reserved : SMap Nat
  errs : List ErrRec
  recs : SMap (BitVec 2048)
  tasks : SMap Task
  ops : SMap Op
  nextOp : Nat
  xfers : List Xfer
  budget : Int
  limit : Nat
  power : Nat
  refillAt : Nat
  owner : Owner
  queues : SMap Queue
  regions : SMap Region
  qps : SMap Nat
  hosts : SMap (BitVec 384)
  launches : SMap Launch
  cx : Complex
  mr : SMap (BitVec 384)
  bootFailed : Bool
  mainUp : Bool
  standbyUp : Bool
  ua : Ualink
  replies : List Reply
  outbox : List Packet
  mgmt : List ErrRec
  images : SMap Image
  waitCycle : List (List Nat)
  sweepAt : Nat
  time : Nat
  agenda : List Instr
  fc : Nat
  rounds : Nat
  lastAgent : Nat
  cycleAt : Nat
  cycle : List (Nat × Nat × Nat)
  cur : Agent
  latch : Option Ctx
  popped : List Nat
  npc : Option Word
  fate : Fate
  deriving DecidableEq, Repr

/-- The package right after reset (00 R7, 01 R19, R22; 02 R30; 11 R339): every map empty, so that each register reads its
default; the account at its cap of 10,000 x P; the first refill pending on the agenda (log 1). -/
def State.reset : State where
  ctxs := []
  tiles := []
  dies := []
  mem := []
  pois := []
  unseen := []
  vers := []
  live := []
  revoked := []
  tlb := []
  icache := []
  rem := []
  dirs := []
  heldReqs := []
  l1 := []
  holds := []
  reserved := []
  errs := []
  recs := []
  tasks := []
  ops := []
  nextOp := 0
  xfers := []
  budget := 50000000
  limit := 5000
  power := 5000
  refillAt := 3600
  owner := {}
  queues := []
  regions := []
  qps := []
  hosts := []
  launches := []
  cx := {}
  mr := []
  bootFailed := false
  mainUp := true
  standbyUp := true
  ua := {}
  replies := []
  outbox := []
  mgmt := []
  images := []
  waitCycle := []
  sweepAt := 0
  time := 0
  agenda := [.energyRefill]
  fc := 0
  rounds := 0
  lastAgent := 0
  cycleAt := 0
  cycle := []
  cur := ⟨0, 0⟩
  latch := none
  popped := []
  npc := none
  fate := .ran

end Sys2Proof.Machine
end

