-- ==== Sys2Proof/Machine/Base.lean ====
section
/-! DEFINITION. Access to the parts of State, bit fields of words, bytes of memory, page-table walks. -/

namespace Sys2Proof

/-- The agent is an awn core (07 R181). -/
def Agent.isAwn (a : Agent) : Bool := a.ctx == 15

end Sys2Proof

namespace Sys2Proof.Machine

/-! ### Words and bytes -/

/-- Field [hi:lo] of a word, as a number. -/
def bits (w : Word) (hi lo : Nat) : Nat := (w.toNat >>> lo) % 2 ^ (hi + 1 - lo)

/-- A word with field [hi:lo] replaced by the low bits of `v`. -/
def putBits (w : Word) (hi lo v : Nat) : Word :=
  let m : Word := BitVec.ofNat 64 ((2 ^ (hi + 1 - lo) - 1) <<< lo)
  (w &&& ~~~m) ||| (BitVec.ofNat 64 (v <<< lo) &&& m)

/-- Sign extension to a doubleword. -/
def sx {n : Nat} (x : BitVec n) : Word := x.signExtend 64

/-- A word of a number. -/
def wd (n : Nat) : Word := BitVec.ofNat 64 n

/-- 1 for true, 0 for false. -/
def b2n (b : Bool) : Nat := if b then 1 else 0

/-- The number that bytes denote, least significant first (00 R2). -/
def leNat : List Byte → Nat
  | [] => 0
  | b :: bs => b.toNat + 256 * leNat bs

/-- The `n` low bytes of a number, least significant first. -/
def leBytes : Nat → Nat → List Byte
  | 0, _ => []
  | n + 1, x => BitVec.ofNat 8 x :: leBytes n (x / 256)

/-- Ceiling of a quotient. -/
def ceilDiv (a b : Nat) : Nat := (a + b - 1) / b

/-! ### Parts of the state -/

/-- The key of a context. -/
def akey (a : Agent) : Nat := a.tile * 16 + a.ctx

/-- The key of a page: window code 0 A, 1 W, 2 C, and page. -/
def pkey (win page : Nat) : Nat := win * 8192 + page

def State.ctx (s : State) (a : Agent) : Ctx := s.ctxs.get {} (akey a)
def State.setCtx (s : State) (a : Agent) (c : Ctx) : State := { s with ctxs := s.ctxs.set {} (akey a) c }
def State.tile (s : State) (t : Nat) : Tile := s.tiles.get {} t
def State.setTile (s : State) (t : Nat) (x : Tile) : State := { s with tiles := s.tiles.set {} t x }
def State.die (s : State) (d : Nat) : Die := s.dies.get {} d
def State.setDie (s : State) (d : Nat) (x : Die) : State := { s with dies := s.dies.set {} d x }
def State.task (s : State) (k : Nat) : Task := s.tasks.get {} k
def State.setTask (s : State) (k : Nat) (x : Task) : State := { s with tasks := s.tasks.set {} k x }
def State.queue (s : State) (q : Nat) : Option Queue := s.queues.find q
def State.setQueue (s : State) (q : Nat) (x : Queue) : State := { s with queues := s.queues.put q x }

/-- The executing context. -/
def State.me (s : State) : Ctx := s.ctx s.cur
def State.setMe (s : State) (c : Ctx) : State := s.setCtx s.cur c

/-- The executing context as it stood before the sheaf in issue (00 R5). -/
def State.src (s : State) : Ctx := s.latch.getD s.me

/-- Put an act on the agenda (log 1). -/
def State.post (s : State) (i : Instr) : State := { s with agenda := s.agenda ++ [i] }

/-- Put an act back at the head of the agenda: it still waits, ahead of later ones of its lane (log 1). -/
def State.again (s : State) (i : Instr) : State := { s with agenda := i :: s.agenda }

/-- The die of a package tile (01 R13). -/
def dieOf (t : Nat) : Nat := t / 160

/-- Tile identifiers 0 to 15 of every die are V-tiles (01 R13). -/
def isV (t : Nat) : Bool := t % 160 < 16

/-- Edge of a matrix block (10, "The matrix engine"). -/
def blockEdge (t : Nat) : Nat := if isV t then 8 else 32

/-- A window's buffer of a tile: banks, frames per bank, and pages of the window (03 R58, R63, R64). -/
def banks (v : Bool) (buf : Nat) : Nat := if buf = 0 then (if v then 64 else 32) else if buf = 1 then (if v then 16 else 48) else 16
def framesPerBank (v : Bool) (buf : Nat) : Nat := if buf = 1 && !v then 32 else 8
def frameCount (v : Bool) (buf : Nat) : Nat := banks v buf * framesPerBank v buf
def windowPages (v : Bool) (buf : Nat) : Nat := 4 * frameCount v buf

/-- The window of address bits [63:57] (03 Table — Address windows): scratchpad A, W, C as 0, 1, 2; private 3; global 4. -/
def windowOf (a : Word) : Option Nat :=
  let w := bits a 63 57
  if w = 0x40 then some 0 else if w = 0x41 then some 1 else if w = 0x42 then some 2
  else if w = 0x48 then some 3 else if w = 0 then some 4 else none

/-- The window offset, bits [56:0]. -/
def offset (a : Word) : Nat := a.toNat % 2 ^ 57

/-- The physical bank that serves a virtual page (03 R64). -/
def bankOfPage (v : Bool) (buf page : Nat) : Nat := page / framesPerBank v buf % banks v buf

/-! ### Control registers -/

/-- A context's control register by number; all reset to 0 (07 R166). -/
def Ctx.cr (c : Ctx) (n : Nat) : Word := c.creg.get 0 n
def Ctx.setCr (c : Ctx) (n : Nat) (w : Word) : Ctx := { c with creg := c.creg.set 0 n w }

/-- TSTAT.HM and TSTAT.TXO (07 Table — TSTAT). -/
def Ctx.hm (c : Ctx) : Bool := (c.cr 1).getLsbD 0
def Ctx.txo (c : Ctx) : Bool := (c.cr 1).getLsbD 1
def Ctx.setHm (c : Ctx) (b : Bool) : Ctx := c.setCr 1 (putBits (c.cr 1) 0 0 (b2n b))
def Ctx.setTxo (c : Ctx) (b : Bool) : Ctx := c.setCr 1 (putBits (c.cr 1) 1 1 (b2n b))

/-- The reset value of a die register (07 Table — Control registers). -/
def dieReset (n : Nat) : Word :=
  if n = 0x200 then 244 else if n = 0x201 then 4 else if n = 0x203 then 6 else if n = 0x20D then 0x0000000A00000000 else 0
def Die.cr (d : Die) (n : Nat) : Word := d.creg.get (dieReset n) n
def Die.setCr (d : Die) (n : Nat) (w : Word) : Die := { d with creg := d.creg.set (dieReset n) n w }

/-- The reset value of a BFMT register: TY 7 in A and W banks, 6 in C banks (03 Table — BFMT). -/
def bfmtReset (buf : Nat) : Word := if buf = 2 then 6 else 7
def Tile.fmt (t : Tile) (buf bank : Nat) : Word := t.bfmt.get (bfmtReset buf) (buf * 64 + bank)
def Tile.setFmt (t : Tile) (buf bank : Nat) (w : Word) : Tile :=
  { t with bfmt := t.bfmt.set (bfmtReset buf) (buf * 64 + bank) w }

/-- Fields of a BFMT value (03 Table — BFMT). -/
def fmtTy (w : Word) : Nat := bits w 3 0
def fmtZp (w : Word) : Bool := w.getLsbD 4
def fmtGsz (w : Word) : Nat := bits w 9 8
def fmtSc (w : Word) : Bool := w.getLsbD 12
def fmtSbank (w : Word) : Nat := bits w 23 16

/-- A page-table entry of the scratchpad (03 Table — Scratchpad page table entry). -/
def loc (e : Word) : Nat := bits e 63 62
def pinned (e : Word) : Bool := e.getLsbD 61
def dirty (e : Word) : Bool := e.getLsbD 60
def place (e : Word) : Nat := bits e 47 0
def mkSpte (l : Nat) (pin dty : Bool) (pl : Nat) : Word :=
  BitVec.ofNat 64 (l * 2 ^ 62 + b2n pin * 2 ^ 61 + b2n dty * 2 ^ 60 + pl % 2 ^ 48)

/-! ### Records of tasks (11 Table — Task record) -/

/-- The record in a Granary slot, slots keyed die * 65536 + slot. -/
def State.record (s : State) (k : Nat) : BitVec 2048 := s.recs.get 0 k
def State.setRecord (s : State) (k : Nat) (r : BitVec 2048) : State := { s with recs := s.recs.set 0 k r }

/-- Doubleword n of a record. -/
def recD (r : BitVec 2048) (n : Nat) : Word := r.extractLsb' (64 * n) 64

/-- A record with doubleword n replaced. -/
def setRecD (r : BitVec 2048) (n : Nat) (w : Word) : BitVec 2048 :=
  (r &&& ~~~(((BitVec.allOnes 64).setWidth 2048) <<< (64 * n))) ||| ((w.setWidth 2048) <<< (64 * n))

/-- Field [hi:lo] of doubleword n. -/
def recF (r : BitVec 2048) (n hi lo : Nat) : Nat := bits (recD r n) hi lo
def setRecF (r : BitVec 2048) (n hi lo v : Nat) : BitVec 2048 := setRecD r n (putBits (recD r n) hi lo v)

def recState (r : BitVec 2048) : Nat := recF r 1 63 60
def recGw (r : BitVec 2048) : Nat := recF r 1 59 55
def recGh (r : BitVec 2048) : Nat := recF r 1 54 51
def recPrio (r : BitVec 2048) : Nat := recF r 1 50 48
def recSnap (r : BitVec 2048) : Bool := recF r 1 47 47 == 1
def recKindV (r : BitVec 2048) : Bool := recF r 1 46 46 == 1
def recPwsize (r : BitVec 2048) : Nat := recF r 1 45 42
def recCnt (r : BitVec 2048) : Nat := recF r 1 35 24
def recWork (r : BitVec 2048) : Nat := recF r 1 16 0
def recWdog (r : BitVec 2048) : Nat := recF r 2 63 32
def recEest (r : BitVec 2048) : Nat := recF r 2 31 0
def recRoot (r : BitVec 2048) : Word := recD r 3
def recPwbase (r : BitVec 2048) : Word := recD r 4
def recThvec (r : BitVec 2048) : Word := recD r 5
def recQv (r : BitVec 2048) : Bool := recF r 7 27 27 == 1
def recQueue (r : BitVec 2048) : Nat := recF r 7 26 17
def recEvv (r : BitVec 2048) : Bool := recF r 7 16 16 == 1
def recEvdone (r : BitVec 2048) : Nat := recF r 7 15 0
def recLoad (r : BitVec 2048) : Nat := recF r 7 47 32
def recStree (r : BitVec 2048) : Nat := recF r 7 63 48

/-- The task in the running slot of a tile, and its record; all zeros when the slot is empty. -/
def State.runRec (s : State) (t : Nat) : BitVec 2048 :=
  match (s.tile t).run with
  | some k => s.record k
  | none => 0

/-- A task's identifier (11 R318): package, die, slot. -/
def State.tid (s : State) (k : Nat) : Nat := s.ua.pkg * 2 ^ 20 + k

/-- The ranks of a task's gang. -/
def recRanks (r : BitVec 2048) : Nat := recGw r * recGh r

/-! ### Bytes of memory -/

/-- The canonical form of the memory: addresses strictly rising, and no entry equal to 0, what an unlisted address reads as (log 5). -/
def Memory.wf (m : List Host.Cell) : Bool := SMap.wf 0 m

def State.memByte (s : State) (a : Nat) : Byte := SMap.get 0 s.mem a
def State.memSet (s : State) (a : Nat) (b : Byte) : State := { s with mem := SMap.set 0 s.mem a b }

/-- `n` bytes from physical address `a`. -/
def State.memRead (s : State) : Nat → Nat → List Byte
  | _, 0 => []
  | a, n + 1 => s.memByte a :: s.memRead (a + 1) n

/-- Bytes written from physical address `a` on. -/
def State.memWrite (s : State) : Nat → List Byte → State
  | _, [] => s
  | a, b :: bs => (s.memSet a b).memWrite (a + 1) bs

/-- The poison mark of the 32-byte line that holds a physical address (20 R421). -/
def State.linePois (s : State) (a : Nat) : Bool := s.pois.get false (a / 32)
def State.setLinePois (s : State) (a : Nat) (b : Bool) : State := { s with pois := s.pois.set false (a / 32) b }

/-- Write bytes that lie in one line, with poison: a write of the whole line clears its mark, a part leaves it (20 R421),
and poisoned bytes set it (20 R422). -/
def State.lineWrite (s : State) (a : Nat) (bs : List Byte) (p : Bool) : State :=
  let s := s.memWrite a bs
  if p then s.setLinePois a true else if bs.length = 32 then s.setLinePois a false else s

/-! ### What the reads of a path see (04 R97) -/

/-- Granules of 16 bytes that n bytes from o on touch. -/
def granules (o n : Nat) : List Nat := (List.range ((o + n + 15) / 16 - o / 16)).map (· + o / 16)

/-- A granule is about to be written: what it has is kept for the paths that may not see the write yet; of one that is no access of a task's nothing is. -/
def hideGran (m : SMap Unseen) (w : Option Writer) (g : Nat) (old : List (Byte × Bool)) : SMap Unseen :=
  match w with
  | none => m.del g
  | some w =>
    match m.find g with
    | some e => if e.writer = w && e.seen = [w.path] then m else m.put g ⟨w, [w.path], old⟩
    | none => m.put g ⟨w, [w.path], old⟩

/-- Bytes from byte `o` on, where they stand in granules by number, as the reads of a path see them. -/
def asSeen (m : SMap Unseen) (path o : Nat) (bs : List (Byte × Bool)) : List (Byte × Bool) :=
  if m.isEmpty then bs
  else bs.zipIdx.map (fun b => match m.find ((o + b.2) / 16) with
    | some e => if e.seen.contains path then b.1 else (e.old[(o + b.2) % 16]?).getD b.1
    | none => b.1)

/-- Writes become visible to the reads of more paths; one that all see is kept no more. -/
def showTo (m : SMap Unseen) (more : Nat → Unseen → Nat → Bool) : SMap Unseen :=
  (m.map (fun e => (e.1, { e.2 with seen := (List.range 6).filter (fun p => e.2.seen.contains p || more e.1 e.2 p) }))).filter
    (fun e => decide (e.2.seen.length < 6))

/-- Writes to memory and to the scratchpads become visible to the reads of more paths. -/
def State.showAll (s : State) (more : Nat → Unseen → Nat → Bool) : State :=
  (s.tiles.filter (fun e => !e.2.unseen.isEmpty)).foldl (fun s e => s.setTile e.1 { e.2 with unseen := showTo e.2.unseen more })
    { s with unseen := showTo s.unseen more }

/-- A fence of an agent over the paths of a mask: its writes on them are visible on each of them (04 R97, R98). -/
def State.showFenced (s : State) (a : Agent) (mask : Nat) : State :=
  s.showAll (fun _ e p => e.writer.agent == a && mask.testBit e.writer.path && mask.testBit p)

/-- The writes of a task that has retired are visible on every path (04 R97). -/
def State.showTask (s : State) (k : Nat) : State := s.showAll (fun _ e _ => e.writer.task == some k)

/-- The writes of a tile's agents are visible on every path as the tile is frozen (log 53). -/
def State.showTile (s : State) (t : Nat) : State := s.showAll (fun _ e _ => e.writer.agent.tile == t)

/-- Which writes become visible without a fence is open (04 R97: log 53). -/
def State.showSome (s : State) : State := s.showAll (fun g _ p => Config.nowSeen s.fc g p)

/-- The granules of memory that n bytes are about to be written to. -/
def State.hideMem (s : State) (w : Option Writer) (pa n : Nat) : State :=
  { s with unseen := (granules pa n).foldl (fun m g => hideGran m w g ((s.memRead (16 * g) 16).map (fun b => (b, s.linePois (16 * g))))) s.unseen }

/-- The home die of a local physical address (03 R79). -/
def homeDie (pa : Nat) : Nat := pa / 2 ^ 36 % 16

/-- The slice that R79 names for a line of a page: its hash, or HTILE. -/
def sliceOf (pa : Nat) (leaf : Word) : Nat :=
  if leaf.getLsbD 55 then bits leaf 63 56 else ((pa / 32 % 2048) ^^^ (pa / 65536 % 2048)) % 160

/-- The home slice of a line as a package tile (03 R79). -/
def homeTile (pa : Nat) (leaf : Word) : Nat := homeDie pa * 160 + sliceOf pa leaf

/-! ### Page-table walks (03 R81 to R83, 22 R447, R448) -/

/-- Why a walk ended: CODE of cause 0x3005, and the poisoned table line. -/
structure WalkErr where
  code : BitVec 10
  table : Option Nat := none
  deriving DecidableEq, Repr

/-- The doubleword at a physical address. -/
def State.mem64 (s : State) (a : Nat) : Word := wd (leNat (s.memRead a 8))

/-- The bytes of a page of leaf size SZ. -/
def leafSize (sz : Nat) : Nat :=
  if sz = 0 then 2 ^ 12 else if sz = 1 then 2 ^ 16 else if sz = 2 then 2 ^ 21 else if sz = 3 then 2 ^ 26 else 2 ^ 30

/-- The level at which a leaf of size SZ is legal. -/
def leafLevel (sz : Nat) : Nat := if sz ≤ 1 then 0 else if sz ≤ 3 then 1 else 2

/-- The index of the entry that a walk reads at a level for index `idx` of the table at `tab` (03 R83): `idx`, unless it lies in an aligned
group that holds a leaf of 64 KiB (level 0, 16 entries) or of 64 MiB (level 1, 32 entries) and whose entries differ; then one of the group's, which is
not fixed (log 12). -/
def State.groupPick (s : State) (tab idx va lvl : Nat) : Nat :=
  let n := if lvl = 0 then 16 else 32
  let g := (List.range n).map (fun i => s.mem64 (tab + 8 * (idx / n * n + i)))
  let big (e : Word) : Bool := e.getLsbD 0 && e.getLsbD 1 && bits e 11 9 == 2 * lvl + 1
  if lvl ≤ 1 && g.any big && g.any (fun e => e != g.headD 0) then idx / n * n + Config.groupEntry s.fc va % n else idx

/-- Tests of a leaf entry at a level. -/
def leafCheck (e : Word) (lvl : Nat) : Except WalkErr Leaf :=
  let bad : WalkErr := ⟨BitVec.ofNat 10 lvl, none⟩
  if !e.getLsbD 0 then .error bad
  else if bits e 11 9 > 4 || leafLevel (bits e 11 9) != lvl then .error bad
  else if e.getLsbD 44 then .error bad
  else if e.getLsbD 55 && bits e 63 56 ≥ 160 then .error bad
  else if !e.getLsbD 7 && bits e 43 40 != 0 then .error bad
  else if e.getLsbD 6 && e.getLsbD 7 then .error ⟨BitVec.ofNat 10 (256 + lvl), none⟩
  else .ok ⟨e, lvl⟩

/-- One level of the walk: the table at `tab`, levels `lvl` down to 0. A non-leaf entry whose PPN gives PA[43:40] ≠ 0 names no local table:
the walk ends in a translation fault at its level (DESIGN CHOICE, log 12: R83 names that fault for a leaf only). -/
def State.walkAt (s : State) (va : Nat) : Nat → Nat → Except WalkErr Leaf
  | tab, lvl =>
    let idx := s.groupPick tab (va / 2 ^ (12 + 9 * lvl) % 512) va lvl
    let a := tab + 8 * idx
    let bad : WalkErr := ⟨BitVec.ofNat 10 lvl, none⟩
    if s.linePois a then .error ⟨BitVec.ofNat 10 lvl, some (a / 32 * 32)⟩
    else
      let e := s.mem64 a
      if !e.getLsbD 0 then .error bad
      else if e.getLsbD 1 then leafCheck e lvl
      else if bits e 63 44 != 0 || bits e 11 2 != 0 || bits e 43 40 != 0 then .error bad
      else
        match lvl with
        | 0 => .error bad
        | l + 1 => s.walkAt va (bits e 43 12 * 4096) l

/-- A walk from the root that GVROOT names (03 R81); a root page number with PA[43:40] ≠ 0 ends it at level 4 (DESIGN CHOICE, log 12). -/
def State.walk (s : State) (root : Word) (va : Nat) : Except WalkErr Leaf :=
  if bits root 43 40 != 0 then .error ⟨4, none⟩ else s.walkAt va (bits root 43 12 * 4096) 4

/-- The leaves of an address space below a table: the first virtual address of each entry, its size, and the leaf. -/
def State.leavesAt (s : State) : Nat → Nat → Nat → List (Nat × Nat × Leaf)
  | tab, va, lvl =>
    let span := 2 ^ (12 + 9 * lvl)
    (List.range 512).flatMap (fun i =>
      let e := s.mem64 (tab + 8 * i)
      let v := va + i * span
      if !e.getLsbD 0 || s.linePois (tab + 8 * i) then []
      else if e.getLsbD 1 then
        match leafCheck e lvl with
        | .ok l => [(v, span, l)]
        | .error _ => []
      else match lvl with
        | 0 => []
        | n + 1 => s.leavesAt (bits e 43 12 * 4096) v n)

/-- The identifier of an address space, GVROOT [63:48]. -/
def asidOf (root : Word) : Nat := bits root 63 48

/-- The bytes of a leaf's page. -/
def Leaf.size (l : Leaf) : Nat := leafSize (bits l.entry 11 9)

/-- Whose TLBs an access looks its page up in (03 R85): the data TLB of a tile for its contexts and awn core, its instruction TLB, the L2 TLB of
its cluster for its engines and the dispatcher's prefetch; the last-level TLB of a die alone, for the command processors and the host (log 12). -/
inductive TlbUse where
  | data (t : Nat)
  | instr (t : Nat)
  | engine (t : Nat)
  | die (d : Nat)
  deriving DecidableEq, Repr

/-- The TLBs of a use, nearest first, by number, with their capacities (01 R14, R15, 03 R85): a tile's data TLB t, its instruction TLB 4096 + t,
the L2 TLB 8192 + c of cluster c (eight tiles), the last-level TLB 12288 + d of die d. -/
def TlbUse.levels : TlbUse → List (Nat × Nat)
  | .data t => [(t, 64), (8192 + t / 8, 2048), (12288 + dieOf t, 6144)]
  | .instr t => [(4096 + t, 32), (8192 + t / 8, 2048), (12288 + dieOf t, 6144)]
  | .engine t => [(8192 + t / 8, 2048), (12288 + dieOf t, 6144)]
  | .die d => [(12288 + d, 6144)]

/-- An entry translates an address of an address space: the identifier is its, and its page, of whatever size, holds the address. -/
def TlbEnt.serves (e : TlbEnt) (asid va : Nat) : Bool := e.asid == asid && e.vpn * 4096 / e.leaf.size == va / e.leaf.size

/-- The entry that the TLBs of a use hold for an address. -/
def State.tlbFind (s : State) (u : TlbUse) (root : Word) (va : Nat) : Option TlbEnt :=
  u.levels.findSome? (fun l => (s.tlb.get [] l.1).find? (fun e => e.serves (asidOf root) va))

/-- The translation an access uses: one that its TLBs may still hold, or a new walk (03 R85, R86; log 12). -/
def State.translate (s : State) (u : TlbUse) (root : Word) (va : Nat) : Except WalkErr Leaf :=
  match s.tlbFind u root va with
  | none => s.walk root va
  | some e =>
    match s.walk root va with
    | .ok l => if l = e.leaf then .ok l else if Config.tlbHeld s.fc (va / 4096) then .ok e.leaf else .ok l
    | .error x => if Config.tlbHeld s.fc (va / 4096) then .ok e.leaf else .error x

/-- A TLB of `cap` entries takes one: the entries for the same page give way, and in a full TLB another, which the spec does not name (log 12). -/
def tlbPut (n cap va : Nat) (e : TlbEnt) (l : List TlbEnt) : List TlbEnt :=
  if l.contains e then l
  else
    let rest := l.filter (fun x => !x.serves e.asid va)
    e :: (if rest.length < cap then rest else rest.eraseIdx (Config.freePick n % cap))

/-- A translation that was used may stay in the TLBs of its use (03 R85). -/
def State.noteTlb (s : State) (u : TlbUse) (root : Word) (va : Nat) (l : Leaf) : State :=
  { s with tlb := u.levels.foldl (fun m x => m.set [] x.1 (tlbPut s.fc x.2 va ⟨asidOf root, va / 4096, l⟩ (m.get [] x.1))) s.tlb }

/-- Attributes of a leaf (03 Table — Page table entry). -/
def Leaf.nc (l : Leaf) : Bool := l.entry.getLsbD 8
def Leaf.isRem (l : Leaf) : Bool := l.entry.getLsbD 7
def Leaf.ver (l : Leaf) : Bool := l.entry.getLsbD 6
def Leaf.us (l : Leaf) : Bool := l.entry.getLsbD 5

/-- The physical address of a virtual one; a page of another package has the key of its memory. PPN bits below the page's size are ignored
(DESIGN CHOICE, log 12: R82 does not say whether they must be zero). -/
def Leaf.pa (l : Leaf) (va : Nat) : Nat :=
  let p := bits l.entry 43 12 * 4096 / l.size * l.size + va % l.size
  if l.isRem then 2 ^ 48 + bits l.entry 54 45 * 2 ^ 44 + p else p

/-- A key that names memory of this package. -/
def localPa (pa : Nat) : Bool := pa < 2 ^ 48

/-- The UALink port by which a die's traffic to a remote address leaves has failed (12 R346, 14 R391, 23 R482). -/
def State.uaDown (s : State) (d pa : Nat) : Bool :=
  !localPa pa && s.ua.failed.get false (8 * (if d % 4 < 2 then 0 else 1) + (pa - 2 ^ 48) / 2 ^ 44 % 8)

/-- Bytes within a line read at their owner by a die: poisoned ones of no fixed value after a failed transaction (23 R482), or an error response to a
read of a poisoned line of another package (20 R422; log 14). -/
def State.remRead (s : State) (d pa n : Nat) : List (Byte × Bool) :=
  if s.uaDown d pa || (!localPa pa && s.linePois pa) then (List.range n).map (fun i => (Config.freeByte s.fc i, true))
  else (s.memRead pa n).map (fun b => (b, s.linePois pa))

/-- Bytes within a line written at their owner by a die, with poison; a failed write is lost (23 R482). -/
def State.remWrite (s : State) (d pa : Nat) (bs : List Byte) (p : Bool) : State := if s.uaDown d pa then s else s.lineWrite pa bs p

/-- The memory port of the die that homes a local address is contained: device writes there are refused (20 R426). -/
def State.portShut (s : State) (pa : Nat) : Bool := localPa pa && (s.die (homeDie pa)).contained.get 0 4 != 0

/-- The permission an access of a kind (1 load, 2 store, 4 fetch, 8 atomic) lacks, as CODE of cause 0x3006 (21 R432). -/
def Leaf.refuse (l : Leaf) (kind : Nat) (handler : Bool) : Option (BitVec 10) :=
  let e := l.entry
  let perm := if kind = 1 then e.getLsbD 2 else if kind = 2 then e.getLsbD 3 else if kind = 4 then e.getLsbD 4
    else e.getLsbD 2 && e.getLsbD 3
  if !handler && !e.getLsbD 5 then some (BitVec.ofNat 10 (16 + kind)) else if !perm then some (BitVec.ofNat 10 kind) else none

end Sys2Proof.Machine
end

