-- ==== Sys2Proof/Machine/Versions.lean ====
section
/-! DEFINITION. Writes at the home of a line: directory entries, commit stamps, preserved versions and their reclamation
(04_consistency.md R107, R112 to R117, 22 R462, R463). -/

namespace Sys2Proof.Machine

def State.dir (s : State) (line : Nat) : DirEnt := s.dirs.get {} line
def State.setDir (s : State) (line : Nat) (e : DirEnt) : State := { s with dirs := s.dirs.set {} line e }

/-! ### Versions (04 R112 to R117, 22 R462, R463) -/

def State.ver (s : State) (line : Nat) : LineVer := s.vers.get {} line
def State.setVer (s : State) (line : Nat) (v : LineVer) : State := { s with vers := s.vers.set {} line v }

/-- The oldest live stamp of the package. -/
def State.oldestLive (s : State) : Option Nat := (s.live.map (·.1)).min?

/-- A hold is set at the homes (04 R114): some snapshot is being taken and has not failed. -/
def State.anyHold (s : State) : Bool := s.holds.any (fun h => !h.2.2)

/-- The oldest stamp that a read may still name: a live one, or one that a snapshot being taken may yet get (04 R114). -/
def State.oldestNeeded (s : State) : Option Nat :=
  let taking : List Nat := (s.holds.filter (fun h => !h.2.2)).map (fun h => h.2.1 - 16)
  (s.live.map (·.1) ++ taking).min?

/-- The newest live stamp of the package. -/
def State.newestLive (s : State) : Option Nat := (s.live.map (·.1)).max?

/-- The older versions that stay: up to and with the newest whose stamp is at most `tmin`. -/
def keepFrom (tmin : Nat) : List Version → List Version
  | [] => []
  | v :: vs => if v.stamp ≤ tmin then [v] else v :: keepFrom tmin vs

/-- The older versions the Gleaner may not reclaim (04 R114, R117). -/
def State.reclaimed (s : State) (v : LineVer) : List Version :=
  match s.oldestNeeded with
  | none => []
  | some t => if v.stamp ≤ t then [] else keepFrom t v.older

/-- The Gleaner revokes live stamps, with one error record each, written as the step ends (22 R463). -/
def State.revoke (s : State) (p : Nat → Bool) (line : Nat) : State :=
  let gone := s.live.filter (fun l => p l.1)
  { s with live := s.live.filter (fun l => !p l.1), revoked := (gone.map (·.1) ++ s.revoked).dedup,
           errs := s.errs ++ gone.map (fun l => { cls := 2, reach := 2, cause := 0x6002, addr := wd l.1, detail := [(64, 8, line * 32)] }) }

/-- With no live stamp left to revoke, every pending snapshot fails: its `snap` writes all ones (22 R462). -/
def State.failHolds (s : State) : State := { s with holds := s.holds.map (fun h => (h.1, (h.2.1, true))) }

/-- The preserved versions of the lines a die homes. -/
def State.storeUsed (s : State) (d : Nat) : Nat :=
  (s.vers.filter (fun e => homeDie (e.1 * 32) == d)).foldl (fun n e => n + e.2.older.length) 0

/-- Reclamation over all lines of a die. -/
def State.reclaimDie (s : State) (d : Nat) : State :=
  { s with vers := s.vers.map (fun e => if homeDie (e.1 * 32) == d then (e.1, { e.2 with older := s.reclaimed e.2 }) else e) }

/-- The die's version store has no free line: the oldest live stamp is revoked, again until one is free; with none left, a pending snapshot fails
(22 R462). -/
def State.makeRoom (s : State) (d line : Nat) : Nat → State
  | 0 => s
  | n + 1 =>
    if s.storeUsed d < Config.versionStore d then s
    else match s.oldestLive with
      | none => s.failHolds
      | some t => ((s.revoke (· == t) line).reclaimDie d).makeRoom d line n

/-- The in-place content of a line: its bytes and poison. -/
def State.lineNow (s : State) (line : Nat) : List Byte × Bool := (s.memRead (line * 32) 32, s.linePois (line * 32))

/-- A line with three older versions loses its oldest, and the live stamps that needed it are revoked (22 R462). -/
def State.trimVersions (s : State) (line : Nat) (v : LineVer) (older : List Version) : State :=
  if older.length ≥ 3 then
    let v2 := ((older[older.length - 2]?).map (·.stamp)).getD 0
    (s.setVer line { v with older := older.dropLast }).revoke (fun t => t < v2) line
  else s

/-- A home performs a write to a versioned line: the in-place version is preserved where a hold is set or its stamp is at most NS, and the line
takes a new commit stamp (04 R112, R115; 22 R462). The cycle of that stamp passes, so that a write this one precedes has a later stamp (R113). -/
def State.stampLine (s : State) (line stamp : Nat) : State :=
  let d := homeDie (line * 32)
  let v := s.ver line
  let past (s : State) : State := { s with time := max s.time (stamp + 1) }
  if s.anyHold || (v.stamp ≤ ((s.die d).cr 0x207).toNat && !s.live.isEmpty) then
    let older := s.reclaimed v
    let s := s.setVer line { v with older := older }
    let s := s.trimVersions line v older
    let s := s.makeRoom d line (s.live.length + 1)
    let now := s.lineNow line
    let keep : Version := ⟨v.stamp, BitVec.ofNat 256 (leNat now.1), now.2⟩
    if s.storeUsed d < Config.versionStore d then past (s.setVer line { stamp := stamp, older := keep :: (s.ver line).older })
    else past (s.setVer line { stamp := stamp, older := s.reclaimed (s.ver line) })
  else past (s.setVer line { stamp := stamp, older := s.reclaimed v })

/-- The commit stamp of the next write to a line: the time base, past the line's last stamp (04 R112). -/
def State.nextStamp (s : State) (line : Nat) : Nat := max s.time ((s.ver line).stamp + 1)

/-- The roots of the address spaces that task records and command queues name. -/
def State.knownRoots (s : State) : List Word := (s.recs.map (fun e => recRoot e.2) ++ s.queues.map (fun e => e.2.desc.gvroot)).dedup

/-- A line of a page with VER = 1 (04 R112), for a write that names it by its physical address alone: it carries a stamp, or an address space maps
it so. -/
def State.versioned (s : State) (pa : Nat) : Bool :=
  (s.vers.find (pa / 32)).isSome || s.knownRoots.any (fun r => (s.leavesAt (bits r 43 12 * 4096) 0 4).any (fun x =>
    x.2.2.ver && !x.2.2.isRem && decide (x.2.2.pa x.1 ≤ pa) && decide (pa < x.2.2.pa x.1 + x.2.1)))

/-- By whom the writes of an op are made (04 R96, R97); those of the merge unit, as agent 14, no context issues. -/
def State.writerOf (s : State) (op : Option Nat) : Option Writer :=
  match op.bind s.ops.find with
  | some o => if o.agent.ctx = 14 then none else some ⟨o.path, o.agent, (s.tile o.agent.tile).run⟩
  | none => none

/-- A home performs a write of someone within one line. -/
def State.homeWrite (s : State) (w : Option Writer) (pa : Nat) (bs : List Byte) (p ver : Bool) : State :=
  let s := if ver then s.stampLine (pa / 32) (s.nextStamp (pa / 32)) else s
  (s.hideMem w pa bs.length).lineWrite pa bs p

/-! ### Levee messages (04 R102 to R107) -/

/-- The key of a die's copy, in its L2, of a line that is homed elsewhere. -/
def remKey (d pa : Nat) : Nat := d * 2 ^ 60 + pa / 32

/-- The clock test of a batch at a die (04 R105). -/
def Die.batchOk (x : Die) (b : Batch) : Bool :=
  b.vc[b.src]?.getD 0 == x.vc.get 0 b.src + 1 && (List.range 16).all (fun j => j == b.src || decide (b.vc[j]?.getD 0 ≤ x.vc.get 0 j))

/-- The L1s of some tiles lose a line. -/
def State.dropL1s (s : State) (ts : List Nat) (line : Nat) : State :=
  { s with l1 := ts.foldl (fun m t => m.del (t * 2 ^ 60 + line)) s.l1 }

/-- The copy of a line in a die's L2 is invalidated, and those in the L1s that it tracks (04 R107). -/
def State.dropCopy (s : State) (d line : Nat) : State :=
  let key := remKey d (32 * line)
  let s := s.dropL1s (((s.rem.find key).map (·.tiles)).getD []) line
  { s with rem := s.rem.del key }

/-- A batch is applied at a die: its clock, and the invalidations for the copies in the die's L2. -/
def State.applyBatch (s : State) (d : Nat) (b : Batch) : State :=
  let x := s.die d
  b.inv.foldl (fun s line => s.dropCopy d line) (s.setDie d { x with vc := x.vc.set 0 b.src (x.vc.get 0 b.src + 1) })

/-- Waiting batches are applied in their order of arrival for as long as one passes the test. -/
def State.applyBatches (s : State) (d : Nat) : Nat → State
  | 0 => s
  | n + 1 =>
    let x := s.die d
    match x.batches.findIdx? x.batchOk with
    | none => s
    | some i =>
      match x.batches[i]? with
      | some b => ((s.setDie d { x with batches := x.batches.eraseIdx i }).applyBatch d b).applyBatches d n
      | none => s

/-- A batch or clock notice arrives at a die: it waits in the Levee edge until it passes the clock test, and those behind it (04 R105). -/
def State.takeBatch (s : State) (d : Nat) (b : Batch) : State :=
  let x := s.die d
  (s.setDie d { x with batches := x.batches ++ [b] }).applyBatches d (x.batches.length + 1)

/-- A vector clock as a list. -/
def Die.clock (x : Die) : List Nat := (List.range 16).map (fun j => x.vc.get 0 j)

/-- The batches on their way to a die, and not later than a clock, arrive: what a message stamped with that clock waits for (04 R105). -/
def State.catchUp (s : State) (d : Nat) (clock : List Nat) : State :=
  let due (i : Instr) : Bool := match i with
    | .leveeBatchArrival e b => e == d && b.vc.zipIdx.all (fun v => decide (v.1 ≤ (clock[v.2]?).getD 0))
    | _ => false
  let mine := s.agenda.filter due
  mine.foldl (fun s i => match i with
    | .leveeBatchArrival _ b => s.takeBatch d b
    | _ => s) { s with agenda := s.agenda.filter (fun i => !due i) }

/-- A message of die d reaches die h within the present step: h has applied every batch that the message's clock names (04 R105; log 14). -/
def State.crossTo (s : State) (d h : Nat) : State := if d = h then s else s.catchUp h (s.die d).clock

/-- Every other die has applied the batches that a die's clock names. -/
def State.crossAll (s : State) (d : Nat) : State := (List.range 16).foldl (fun s e => s.crossTo d e) s

/-- A die sends a batch: its own clock counts, and the batch, or a clock notice of its stamp, goes to every other die; `inv d` are the lines whose
copies in die d it invalidates. `now` is the die at which it arrives within the step. -/
def State.sendBatch (s : State) (d : Nat) (inv : Nat → List Nat) (now : Option Nat) : State :=
  let x := s.die d
  let x := { x with vc := x.vc.set 0 d (x.vc.get 0 d + 1) }
  let b (e : Nat) : Batch := { src := d, vc := x.clock, inv := inv e }
  let s := ((List.range 16).filter (fun e => e != d && some e != now)).foldl (fun s e => s.post (.leveeBatchArrival e (b e))) (s.setDie d x)
  match now with
  | some e => s.takeBatch e (b e)
  | none => s

/-- The dies other than a line's home that hold a copy of it. -/
def State.farSharers (s : State) (pa : Nat) : List Nat :=
  let e := s.dir (pa / 32)
  ((e.ptrs ++ e.table).filterMap (fun h => if 4096 ≤ h && h - 4096 != homeDie pa then some (h - 4096) else none))

/-- The home die's batch for a write by die d: the invalidations of far sharers, and the acknowledgement to another die. -/
def State.homeBatch (s : State) (d pa : Nat) (far : List Nat) : State :=
  let h := homeDie pa
  if d = h && far.isEmpty then s
  else (if d = h then s else s.crossTo h d).sendBatch h (fun e => if far.contains e then [pa / 32] else []) (if d = h then none else some d)

/-- The batch that carries a write of die d to another home, which applies it once it has passed the clock test. -/
def State.dataBatch (s : State) (d pa : Nat) : State :=
  if d = homeDie pa then s else (s.crossTo d (homeDie pa)).sendBatch d (fun _ => []) (some (homeDie pa))

/-- The tiles of the home die whose L1s hold a line. -/
def State.nearSharers (s : State) (pa : Nat) : List Nat := ((s.dir (pa / 32)).ptrs ++ (s.dir (pa / 32)).table).filter (· < 4096)

/-- The sharers of a line are invalidated for a write of die d: those of the home die at once (04 R103), another die's copy as the home's batch is
applied there (R105). -/
def State.invalidateSharers (s : State) (d pa : Nat) : State :=
  ((s.dropL1s (s.nearSharers pa) (pa / 32)).setDir (pa / 32) {}).homeBatch d pa (s.farSharers pa)

/-- A write of someone by a unit of die d performed at its home. -/
def State.performWrite (s : State) (w : Option Writer) (d pa : Nat) (bs : List Byte) (p ver : Bool) : State :=
  (s.homeWrite w pa bs p ver).invalidateSharers d pa

/-- A line's home lets no write or atomic be performed: its overflow handler has to invalidate sharers first (04 R108), or a commit holds it (R121). -/
def State.lineShut (s : State) (line : Nat) : Bool := (s.dir line).ovf || (s.reserved.find line).isSome

/-- The overflow handler of a line is asked to invalidate its sharers (04 R108). -/
def State.askHandler (s : State) (line : Nat) : State :=
  if !(s.dir line).ovf || s.agenda.contains (.overflowHandlerReport line false) then s else s.post (.overflowHandlerReport line false)

/-- A write or atomic waits at its home, and the op that it is part of with it. -/
def State.holdReq (s : State) (r : MemReq) (op : Option Nat) (tr : Option (Nat × Nat × Leaf) := none) : State :=
  let s := { s with heldReqs := s.heldReqs ++ [HeldReq.mk r op tr false] }
  let s := match op with
    | some id => { s with ops := match s.ops.find id with
        | some o => s.ops.put id { o with need := o.need + 1 }
        | none => s.ops }
    | none => s
  s.askHandler (r.pa / 32)

/-- A write reaches the home of its line: it is performed, or waits there (04 R102, R108, R121). -/
def State.arriveWrite (s : State) (r : MemReq) (op : Option Nat) (tr : Option (Nat × Nat × Leaf) := none) : State :=
  let d := dieOf r.agent.tile
  let s := s.dataBatch d r.pa
  if s.lineShut (r.pa / 32) then s.holdReq r op tr else s.performWrite (s.writerOf op) d r.pa r.data r.poisoned r.ver

/-- A unit of a die that is no context and no awn core. -/
def unitOf (d : Nat) : Agent := ⟨160 * d, 31⟩

/-- Bytes within a line written through a leaf for the device's own bookkeeping: at the home of a local line, sharers invalidated, or at the owner of a
remote one. -/
def State.leafWrite (s : State) (d : Nat) (l : Leaf) (pa : Nat) (bs : List Byte) (p : Bool) : State :=
  if localPa pa then s.arriveWrite { kind := 0, agent := unitOf d, pa := pa, data := bs, poisoned := p, ver := l.ver } none else s.remWrite d pa bs p

/-- Bytes written within a page, a line at a time, by the device's own bookkeeping on the die that homes them. -/
def State.linesWrite (s : State) (l : Leaf) : Nat → Nat → List Byte → State
  | 0, _, _ => s
  | n + 1, pa, bs =>
    let k := 32 - pa % 32
    if bs.isEmpty then s else (s.leafWrite (homeDie pa) l pa (bs.take k) false).linesWrite l n (pa + k) (bs.drop k)
def State.pageWrite (s : State) (l : Leaf) (pa : Nat) (bs : List Byte) : State := s.linesWrite l (bs.length / 32 + 2) pa bs

end Sys2Proof.Machine
end

