-- ==== Sys2Proof/Machine/Records.lean ====
section
/-! DEFINITION. The device's own bookkeeping in memory: error records and their queues (20 R428, R429), the dirty-range log (03 R88, R89). -/

namespace Sys2Proof.Machine

/-! ### Error records (20 R428, R429, R488) -/

/-- The 128 bytes of an error record. -/
def ErrRec.bytes (r : ErrRec) (time dropped w : Nat) : List Byte :=
  let base := leBytes 1 r.cls ++ leBytes 1 r.reach ++ leBytes 2 r.cause.toNat ++ leBytes 2 r.code.toNat ++ leBytes 2 r.tile ++
    leBytes 4 r.task ++ leBytes 4 r.tag ++ leBytes 8 r.addr.toNat ++ leBytes 8 r.pc.toNat ++ leBytes 8 (r.time.getD time) ++
    leBytes 8 r.stop ++ leBytes 8 r.image.toNat ++ leBytes 4 dropped ++ leBytes 4 w
  let det := r.detail.foldl (fun (acc : Nat) (d : Nat × Nat × Nat) => acc + (d.2.2 % 2 ^ (8 * d.2.1)) * 2 ^ (8 * (d.1 - 64))) 0
  base ++ leBytes 64 det

/-- Write bytes through an address space for the device's own bookkeeping: whole pages walked, no port (03 R87); each line at its home, with a
commit stamp on a page with VER = 1 (04 R112). -/
def State.putGlobal (s : State) (root : Word) (va : Nat) (bs : List Byte) : Option State :=
  match s.walk root va, s.walk root (va + (bs.length - 1)) with
  | .ok l, .ok l' =>
    if (l.refuse 2 true).isSome || (l'.refuse 2 true).isSome then none
    else
      let n := min bs.length (4096 - va % 4096)
      some ((s.pageWrite l (l.pa va) (bs.take n)).pageWrite l' (l'.pa (va + n)) (bs.drop n))
  | _, _ => none

/-- Read bytes through an address space for the device's own bookkeeping, within one page. -/
def State.getGlobal (s : State) (root : Word) (va n : Nat) : Option (List Byte) :=
  match s.walk root va with
  | .ok l => if (l.refuse 1 true).isSome then none else some (s.memRead (l.pa va) n)
  | .error _ => none

/-- The error record of a poisoned page-table line that ended a walk (22 R448). -/
def WalkErr.record (w : WalkErr) : Option ErrRec :=
  w.table.map (fun a => { cls := 4, reach := 1, cause := 0x3005, code := w.code, addr := wd a })

/-- The records of the walks of a byte range that end at poisoned lines (22 R448). -/
def State.badTables (s : State) (root : Word) (va n : Nat) : List ErrRec :=
  ([va, va + (n - 1)].filterMap (fun v => match s.walk root v with
    | .error w => w.record
    | .ok _ => none)).dedup

/-- The error queue of a queue. -/
def State.errQueueOf (s : State) (q : Nat) : Option Nat :=
  match s.queue q with
  | some x => if (s.queue x.desc.errq).isSome then some x.desc.errq else none
  | none => none

/-- Records of an error queue that its reader has not yet read (20 R429). -/
def State.errUsed (s : State) (x : Queue) : Nat :=
  match s.getGlobal x.desc.gvroot (x.desc.widx.toNat + 4) 4 with
  | some bs => (x.errW + 2 ^ 32 - leNat bs) % 2 ^ 32
  | none => 0

/-- Records for the management port alone. -/
def State.toMgmt (s : State) (rs : List ErrRec) : State := { s with mgmt := s.mgmt ++ rs }

/-- Write a record to an error queue: at ring base + (w mod size) x 128, then w + 1 to the write-index word (20 R429). The record of a poisoned table
line that ends a walk made for it goes to the management port (DESIGN CHOICE, log 48). -/
def State.toErrQueue (s : State) (e : Nat) (r : ErrRec) : State :=
  match s.queue e with
  | none => s.toMgmt [r]
  | some x =>
    let root := x.desc.gvroot
    let s := s.toMgmt (s.badTables root x.desc.widx.toNat 8)
    if s.errUsed x = x.size then s.setQueue e { x with dropped := x.dropped + 1 }
    else
      let at_ := x.base.toNat + x.errW % x.size * 128
      match s.putGlobal root at_ (r.bytes s.time x.dropped x.errW) with
      | none => s.toMgmt (s.badTables root at_ 128 ++ [r])
      | some s =>
        let w := (x.errW + 1) % 2 ^ 32
        let s := (s.putGlobal root x.desc.widx.toNat (leBytes 4 w)).getD s
        s.setQueue e { x with errW := w, dropped := 0 }

/-- Report a detected error (20 R428): to the error queue of the task's or packet's queue (`q`), else of queue 0, else to the
management port; classes Task fault, Containment and Progress are logged on the management port as well. -/
def State.report (s : State) (q : Option Nat) (r : ErrRec) : State :=
  let s := if r.cls = 1 || r.cls = 5 || r.cls = 6 then { s with mgmt := s.mgmt ++ [r] } else s
  match s.errQueueOf (q.getD 0) with
  | some e => s.toErrQueue e r
  | none => if r.cls = 1 || r.cls = 5 || r.cls = 6 then s else { s with mgmt := s.mgmt ++ [r] }

/-- The Poison records of a byte range that bookkeeping could not reach (22 R448). -/
def State.reportTables (s : State) (root : Word) (va n : Nat) : State := (s.badTables root va n).foldl (fun s r => s.report none r) s

/-- The records of this step's revocations (22 R463) are written as it ends. -/
def State.flushErrs (s : State) : State := s.errs.foldl (fun s r => s.report none r) { s with errs := [] }

/-- A record that names a task goes to the error queue of the task's QUEUE (20 R428). -/
def State.reportTask (s : State) (k : Nat) (r : ErrRec) : State :=
  s.report (some (recQueue (s.record k))) { r with task := s.tid k }

/-! ### The dirty-range log (03 R88, R89) -/

/-- A port with n bytes stored from a global virtual address (03 R87). -/
def portAdd (p : Port) (va n : Nat) : Port :=
  match p with
  | none => some (va, va + n - 1)
  | some (lo, hi) => some (min lo va, max hi (va + n - 1))

/-- The 32 bytes of a log record. -/
def drlRecord (lo hi asid path tid : Nat) : List Byte :=
  leBytes 8 lo ++ leBytes 8 hi ++ leBytes 2 asid ++ leBytes 1 path ++ leBytes 1 0 ++ leBytes 4 tid ++ leBytes 8 0

/-- A closing port that recorded a store appends its record to a die's log, or DRLOVF is set (03 R88, R89): the ring is full, or
the record's address fails translation or WR permission in the die's firmware address space; the first such failure since DRLOVF
was last cleared is reported. After software has broken R89, what is written is not fixed (log 20). -/
def State.drlAppend (s : State) (d : Nat) (p : Port) (asid path tid : Nat) : State :=
  match p with
  | none => s
  | some (lo, hi) =>
    let x := s.die d
    let head := bits (x.cr 0x204) 31 0
    let tail := bits (x.cr 0x205) 31 0
    let size := 2 ^ bits (x.cr 0x203) 4 0
    let ovf (x : Die) : Die := x.setCr 0x206 1
    if (head + 2 ^ 32 - tail) % 2 ^ 32 = size then s.setDie d (ovf x)
    else
      let va := bits (x.cr 0x202) 56 12 * 4096 + head % size * 32
      let root := Config.firmwareSpace d
      let rec_ := drlRecord lo hi asid path tid
      let bs := if x.drlBad then (List.range 32).map (Config.freeByte s.fc) else rec_
      let fail (cause : BitVec 16) (code : BitVec 10) : State :=
        let s := s.setDie d (ovf { x with drlFail := true })
        if x.drlFail then s else s.report none { cls := 2, reach := 4, cause := cause, code := code, addr := wd va }
      match s.walk root va with
      | .error w => (fail 0x3005 w.code).reportTables root va 32
      | .ok l =>
        match l.refuse 2 true with
        | some c => fail 0x3006 c
        | none => if s.portShut (l.pa va) then fail 0x8001 0 else (s.pageWrite l (l.pa va) bs).setDie d (((s.pageWrite l (l.pa va) bs).die d).setCr 0x204 (wd ((head + 1) % 2 ^ 32)))

end Sys2Proof.Machine
end

