-- ==== Sys2Proof/Machine/Ops.lean ====
section
/-! DEFINITION. The named operations over contexts: outcomes of an op, waiting, taking a trap and returning from it, freeze on
fault, registers with poison and stream pops, tokens, outstanding ops. -/

namespace Sys2Proof.Machine

/-- Why an op does not run: it meets a trap condition, or a wait condition (with the state its partial work leaves). -/
inductive Stop where
  | trap (t : Trap)
  | wait (w : Wait) (s : State)
  deriving Repr

/-- The result of an op, or why it does not run. -/
abbrev Run (α : Type) := Except Stop α

/-- A trap condition at a step of R434. -/
def raise {α : Type} (step : Nat) (cause : BitVec 16) (code : Nat) (addr : Word) : Run α :=
  .error (.trap ⟨step, cause, BitVec.ofNat 10 code, addr, none⟩)

/-- The condition must hold, else the trap is met. -/
def need (b : Bool) (step : Nat) (cause : BitVec 16) (code : Nat) (addr : Word) : Run Unit :=
  if b then .ok () else raise step cause code addr

/-! ### Acts of one cycle -/

/-- The act or op with an order `(class, resource, rank)` is performed: where one of the same resource with a higher rank has been performed in this
cycle, the present one belongs to the next (06 R168, 10 R312, R317, 11 R325, R337, R340, 13 R368, R371, 14 R383, R384; log 46). -/
def State.inCycle (s : State) (o : Option (Nat × Nat × Nat)) : State :=
  match o with
  | none => s
  | some o =>
    let done := if s.cycleAt = s.time then s.cycle else []
    if done.any (fun d => d.1 == o.1 && d.2.1 == o.2.1 && decide (o.2.2 < d.2.2)) then { s with time := s.time + 1, cycleAt := s.time + 1, cycle := [o] }
    else { s with cycleAt := s.time, cycle := o :: done }

/-! ### Freeze requests and faults -/

/-- The clocks of a tile's freeze domain have stopped (15 R394): its stopping point has come. -/
def State.stoppedTile (s : State) (t : Nat) : Bool :=
  match (s.tile t).frz with
  | some g => g.stopped || decide (g.stop ≤ s.time)
  | none => false

/-- The awn core of a tile has stopped with a fault of its own (15 R393, 20 R426). -/
def State.awnStopped (s : State) (t : Nat) : Bool :=
  match (s.tile t).frz with
  | some g => g.awn
  | none => false

/-- The clock of an agent has stopped: of a frozen domain, or of an awn core that faulted; a context of an image has none (15 R393). -/
def State.agentStopped (s : State) (a : Agent) : Bool :=
  decide (2560 ≤ a.tile) || (if a.isAwn then s.awnStopped a.tile else s.stoppedTile a.tile)

/-- Of two faults of one cycle a lower-numbered context's takes precedence, the awn core's, as number 15, over every context's (20 R425). -/
def outranks (ctx old : Nat) : Bool := old != 15 && (ctx == 15 || decide (ctx < old))

/-- The record that a freeze is to write: the first detected, or of the same cycle the one that takes precedence (20 R425). -/
def firstFault (old new : Option (Nat × ErrRec)) : Option (Nat × ErrRec) :=
  match old, new with
  | some o, some n => if o.2.time == n.2.time && outranks n.1 o.1 then some n else some o
  | none, n => n
  | o, none => o

/-- A freeze request reaches a tile (15 R394): the stopping point is FREEZE_LAG = 6 cycles later; a second request moves nothing. -/
def State.freezeTile (s : State) (t : Nat) (f : Freeze) : State :=
  let x := s.tile t
  match x.frz with
  | some g => s.setTile t { x with frz := some { g with fault := g.fault || f.fault, awn := g.awn || f.awn, report := firstFault g.report f.report } }
  | none => (s.setTile t { x with frz := some { f with stop := s.time + 6 } }).post (.freezeStoppingPoint t)

/-- The other tiles of the gang that runs on a tile receive the freeze too (02 R43, 15 R395). -/
def State.freezeGang (s : State) (t : Nat) : State :=
  match (s.tile t).run with
  | none => s
  | some k => ((s.task k).tiles.filter (· != t)).foldl (fun s t' => s.post (.freezeRequestArrival t' none)) s

/-- The fault registers of a tile take a fault (20 R424, R425): the first detected stays; of the same cycle the one that takes precedence;
every other before the stopping point sets MORE. -/
def Tile.takeFault (x : Tile) (ctx : Nat) (t : Trap) (pc : Word) (time stop : Nat) : Tile :=
  let valid := x.frec0.getLsbD 63
  let word (more : Bool) : Word :=
    wd (2 ^ 63 + b2n more * 2 ^ 62 + ctx * 2 ^ 58 + t.code.toNat * 2 ^ 16 + t.cause.toNat)
  if !valid then
    { x with frec0 := word false, frec1 := pc &&& ~~~7, frec2 := t.addr, frec3 := wd stop, frecTime := time }
  else if x.frecTime = time && outranks ctx (bits x.frec0 61 58) then
    { x with frec0 := word true, frec1 := pc &&& ~~~7, frec2 := t.addr }
  else if time < x.frec3.toNat then { x with frec0 := x.frec0 ||| wd (2 ^ 62) }
  else x

/-- Where the dispatcher writes the image of a tile's task: a place of its own for each slot and tile in the die's image area (20 R423; log 7). -/
def State.imageAt (s : State) (t : Nat) : Word :=
  Config.imageArea (dieOf t) + wd (((((s.tile t).run).getD 0) % 65536 * 160 + t % 160) * 0x500000)

/-- The error record of the fault that a tile's freeze follows is written, with the address of the image where there will be one (20 R423, R425, R429). -/
def State.writeFault (s : State) (t : Nat) : State :=
  let x := s.tile t
  match x.frz with
  | some g =>
    match g.report with
    | some (_, r) =>
      let s := s.setTile t { x with frz := some { g with report := none } }
      match x.run with
      | some k => s.reportTask k { r with image := g.image.getD (s.imageAt t) }
      | none => s.report none r
    | none => s
  | none => s

/-- A task fault freezes its tile, with the detection as the request (20 R423): the fault registers and an error record take
it, and every rank of the gang is frozen. An awn core that faults stops too (15 R393). Of the faults of one freeze one is recorded; the record is written
at the stopping point, or at once where that has passed. -/
def State.faultTile (s : State) (tile ctx : Nat) (t : Trap) (pc : Word) : State :=
  let old := (s.tile tile).frz
  let stop := (old.map (·.stop)).getD (s.time + 6)
  let late := s.stoppedTile tile
  let r : ErrRec := { cls := 1, reach := 3, cause := t.cause, code := t.code, tile := tile, addr := t.addr, pc := pc,
                      stop := stop, time := some s.time }
  let first := !((old.map (·.fault)).getD false) || ((old.bind (·.report)).isSome)
  let s := s.setTile tile ((s.tile tile).takeFault ctx t pc s.time stop)
  let s := s.freezeTile tile { stop := stop, image := none, lean := true, awn := ctx == 15, fault := true, report := if first then some (ctx, r) else none }
  let s := s.freezeGang tile
  if late then s.writeFault tile else s

/-- A page-table line whose poison ended a walk is reported (22 R448). -/
def State.reportTable (s : State) (t : Trap) : State :=
  match t.table with
  | some a => s.report none { cls := 4, reach := 1, cause := t.cause, code := t.code, addr := wd a }
  | none => s

/-- The Poison record of a failed walk (22 R448). -/
def State.reportWalk (s : State) (w : WalkErr) : State :=
  match w.record with
  | some r => s.report none r
  | none => s

/-! ### Waiting, trapping, returning -/

/-- A context whose sheaf waits gives back the strips that the sheaf's reads popped and the results it wrote to stream and v registers: they
belong to its next issue (09 R247, R249, 10 R291, R292). -/
def Ctx.undo (c old : Ctx) : Ctx := { c with binds := old.binds, v := old.v, vPois := old.vPois }

/-- The executing context, which stood as `old` before its sheaf, waits under a condition of R32 until an act finds it cleared; a full-empty wait is
ended by the fill itself (03 R77). -/
def State.waitFrom (s : State) (old : Ctx) (w : Wait) : State :=
  let s' := s.setMe { s.me.undo old with st := .waiting w }
  match w with
  | .fullEmpty _ => s'
  | _ => s'.post (.contextWaitClear s.cur)

/-- The executing context waits as it stands. -/
def State.waitOn (s : State) (w : Wait) : State := s.waitFrom s.me w

/-- A wait that ends: a Waiting context is Ready, a Held one keeps no wait (02 R30, R32). -/
def Ctx.unwait (c : Ctx) : Ctx :=
  match c.st with
  | .waiting _ => { c with st := .ready }
  | .held _ => { c with st := .held none }
  | _ => c

/-- THVEC of the task on a tile, bits [2:0] zero (07 Table — Trap address registers). -/
def State.thvec (s : State) (t : Nat) : Word := recThvec (s.runRec t) &&& ~~~7

/-- A context that takes a trap (07 R183): TPC, TADDR, TCAUSE and TSTAT.HM are written and the pc is the handler's address. -/
def Ctx.trapEntry (c : Ctx) (t : Trap) (vec : Word) : Ctx :=
  let c := ((c.setCr 4 (c.pc &&& ~~~7)).setCr 3 t.addr).setCr 2 (wd (t.code.toNat * 2 ^ 16 + t.cause.toNat))
  { c.setHm true with pc := vec, prog := [] }

/-- The trap becomes a task fault: handler mode, THVEC = 0, or the awn core (07 R183, R165, 20 R418). -/
def State.isTaskFault (s : State) : Bool := s.cur.isAwn || s.me.hm || s.thvec s.cur.tile == 0

/-- TAKING A TRAP, once for every cause (07 R183): entry to the task's handler, or freeze on fault; the faulting context then
issues nothing before the stopping point. -/
def State.takeTrap (s : State) (t : Trap) : State :=
  let s := s.reportTable t
  if s.isTaskFault then (s.faultTile s.cur.tile s.cur.ctx t s.me.pc).waitOn (.structural .frozen)
  else s.setMe (s.me.trapEntry t (s.thvec s.cur.tile))

/-- THE RETURN FROM A TRAP (07 R184): HM is cleared and the context continues at TPC. -/
def State.trapReturn (s : State) : State := { s.setMe (s.me.setHm false) with npc := some (s.me.cr 4 &&& ~~~7) }

/-- The outcome of an op: always a next state; a trap is taken from the state before the op (06 R146); a wait keeps what the op has done
meanwhile (page-ins, granules taken), but no strip popped or pushed. -/
def settle (s : State) (r : Run State) : Host.Outcome State Fault Refusal :=
  match r with
  | .ok s' => .next { s' with fate := .ran }
  | .error (.trap t) => .next { s.takeTrap t with fate := .trapped t.step }
  | .error (.wait w s') => .next { s'.waitFrom s.me w with fate := .waits }

/-! ### Who may issue, and privilege -/

/-- The executing context has handler rights (07 R165): handler mode, or the awn core. -/
def State.handler (s : State) : Bool := s.cur.isAwn || s.me.hm

/-- An op that needs handler mode (21 R434 step 4). -/
def needHandler (s : State) : Run Unit := need s.handler 4 0x2001 0 0

/-- An op the awn core may not issue (21 R432: CODE 0). -/
def notAwn (s : State) : Run Unit := need (!s.cur.isAwn) 4 0x2002 0 0

/-- An op only context 0 may issue: CODE 0 for the awn core, 1 for a helper. -/
def onlyCtx0 (s : State) : Run Unit := need (s.cur.ctx == 0) 4 0x2002 (if s.cur.isAwn then 0 else 1) 0

/-! ### s registers -/

/-- s[r] as the sheaf's sources read it; s0 reads 0 (06 R153). -/
def State.rs (s : State) (r : BitVec 5) : Word := if r = 0 then 0 else s.src.s.get 0 r.toNat

/-- The first poisoned register of a list of source registers traps with 0x5001 at step 5 (20 R422). -/
def poisonedS (c : Ctx) : List (BitVec 5) → Run Unit
  | [] => .ok ()
  | r :: rs =>
    match c.sPois.find r.toNat with
    | some a => raise 5 0x5001 0 a
    | none => poisonedS c rs

/-- A result of s[r] is still to come (06 R148). -/
def Ctx.pends (c : Ctx) (r : Nat) : Bool := c.pend.any (fun p => p.1 == r)

/-- Source s registers of an op: a result not yet there makes the sheaf wait (06 R148); poison traps. -/
def useS (s : State) (rs : List (BitVec 5)) : Run Unit :=
  if rs.any (fun r => s.src.pends r.toNat) then .error (.wait (.structural (.result (rs.map (·.toNat)))) s) else poisonedS s.src rs

/-- A context with s[r] written: s0 discards (06 R153), the register's poison is cleared (20 R421). The result of an earlier op that was
still to come precedes this one and is written no more (06 R148). -/
def Ctx.putS (c : Ctx) (r : Nat) (w : Word) : Ctx :=
  if r = 0 then c else { c with s := c.s.set 0 r w, sPois := c.sPois.del r, pend := c.pend.filter (fun p => p.1 != r) }

/-- s[r] takes the result of op `id` later; a later sheaf that reads it waits (06 R148). -/
def Ctx.pendOn (c : Ctx) (r id : Nat) : Ctx :=
  if r = 0 then c else { c with pend := (r, id) :: c.pend.filter (fun p => p.1 != r) }

/-- The result of op `id` for s[r] arrives: it is written unless a younger op's result has taken its place. -/
def Ctx.putResult (c : Ctx) (r id : Nat) (w : Word) : Ctx := if c.pend.contains (r, id) then c.putS r w else c

/-- s[r] of the executing context written. -/
def State.ws (s : State) (r : BitVec 5) (w : Word) : State := s.setMe (s.me.putS r.toNat w)

/-- The executing agent's s[r] takes a result later: a number is drawn for it. -/
def State.awaitResult (s : State) (r : BitVec 5) : State := { s.setMe (s.me.pendOn r.toNat s.nextOp) with nextOp := s.nextOp + 1 }

/-- A result that an agent awaits under a number arrives. -/
def State.giveResult (s : State) (a : Agent) (r id : Nat) (w : Word) : State := s.setCtx a ((s.ctx a).putResult r id w)

/-! ### m registers -/

/-- m[r] as the sheaf's sources read it; m0 reads all ones (06 R153). -/
def State.rmask (s : State) (r : BitVec 3) : BitVec 64 := if r = 0 then BitVec.allOnes 64 else s.src.m.get 0 r.toNat
def State.wmask (s : State) (r : BitVec 3) (w : BitVec 64) : State :=
  if r = 0 then s else s.setMe { s.me with m := s.me.m.set 0 r.toNat w }

/-! ### v registers and streams -/

/-- Lane i of a v register (02 R28). -/
def lane (v : VReg) (i : Nat) : BitVec 32 := v.extractLsb' (32 * i) 32

/-- A v register from its 64 lanes. -/
def vOfLanes (f : Nat → BitVec 32) : VReg :=
  BitVec.ofNat 2048 ((List.range 64).foldl (fun (acc : Nat) i => acc + (f i).toNat * 2 ^ (32 * i)) 0)

/-- The binding of a v register. -/
def Ctx.bind (c : Ctx) (r : Nat) : Binding := c.binds.get {} r
def Ctx.setBind (c : Ctx) (r : Nat) (b : Binding) : Ctx := { c with binds := c.binds.set {} r b }

/-- v[r] as the sheaf's sources read it. -/
def State.rv (s : State) (r : BitVec 5) : VReg := s.src.v.get 0 r.toNat

/-- How many strips a binding produces (10 R287). -/
def Binding.total (b : Binding) : Nat := b.levels.foldl (fun acc l => acc * l.count) 1

/-- The digit of level l of strip t. -/
def digit (ls : List Level) (t : Nat) : Nat → Nat
  | 0 => t % (ls.headD {}).count
  | l + 1 => digit ls.tail (t / (ls.headD {}).count) l

/-- The address of strip t (10 R287). -/
def Binding.addr (b : Binding) (t : Nat) : Word :=
  (List.range b.levels.length).foldl (fun (a : Word) l => a + wd (digit b.levels t l) * ((b.levels[l]?).getD {}).stride) b.base

/-- The end-of-dimension mark of strip t (10 R288). -/
def Binding.markOf (b : Binding) (t : Nat) : BitVec 8 :=
  let ends (l : Nat) : Bool := digit b.levels t l + 1 == ((b.levels[l]?).getD {}).count
  BitVec.ofNat 8 ((List.range b.levels.length).foldl
    (fun (acc : Nat) l => acc + b2n ((List.range (l + 1)).all ends) * 2 ^ l) 0)

/-- Poison addresses of the lanes of a strip, kept for a v register. -/
def lanePois (r : Nat) (p : SMap Word) (m : SMap Word) : SMap Word :=
  (List.range 64).foldl (fun m l =>
    match p.find l with
    | some a => m.put (64 * r + l) a
    | none => m.del (64 * r + l)) m

/-- A context whose v[r] holds a strip. -/
def Ctx.putV (c : Ctx) (r : Nat) (v : VReg) (p : SMap Word) : Ctx :=
  { c with v := c.v.set 0 r v, vPois := lanePois r p c.vPois }

/-- A sheaf's read of a bound register pops one strip, once per sheaf (09 R247, 10 R291). -/
def popStrip (s : State) (r : Nat) : Run State :=
  let b := s.me.bind r
  if !b.bound || b.out || s.popped.contains r then .ok s
  else
    let put (b' : Binding) (st : Strip) : State :=
      let f (c : Ctx) : Ctx := (c.putV r st.data st.pois).setBind r b'
      let s := s.setMe (f s.me)
      { s with latch := s.latch.map f, popped := r :: s.popped }
    match b.queue with
    | [] => if b.moved ≥ b.total then .ok (put { b with exh := true } {}) else .error (.wait (.structural (.strip r)) s)
    | st :: q =>
      if st.err.isSome then .ok s
      else .ok ((put { b with queue := q, moved := b.moved + 1, last := st.mark } st).post (.streamStripFetch s.cur r))

/-- A strip that failed its check gives the sheaf that would pop it the strip's cause, at step 8 (10 R291, 21 R444). -/
def stripsOk (s : State) (rs : List (BitVec 5)) : Run Unit :=
  let bad (r : BitVec 5) : Option Trap :=
    let b := s.me.bind r.toNat
    if b.bound && !b.out && !s.popped.contains r.toNat && b.moved < b.total then (b.queue.head?).bind (·.err) else none
  match rs.findSome? bad with
  | some t => .error (.trap { t with step := 8 })
  | none => .ok ()

/-- The first poisoned lane of a v register traps with 0x5001, active or not (20 R422). -/
def poisonedV (c : Ctx) : List (BitVec 5) → Run Unit
  | [] => .ok ()
  | r :: rs =>
    match (List.range 64).findSome? (fun l => c.vPois.find (64 * r.toNat + l)) with
    | some a => raise 5 0x5001 0 a
    | none => poisonedV c rs

/-- Source v registers of an op: an output-bound one traps with the binding cause at step 6 (09 R247). Poison is tested before, on
the register's content, which for an input-bound register is the strip popped; `stripsOk` follows once step 7 is passed. -/
def useV (s : State) (rs : List (BitVec 5)) : Run State := do
  poisonedV s.src (rs.filter (fun r => !(s.src.bind r.toNat).bound || (s.src.bind r.toNat).out))
  let s ← rs.foldlM (fun s r => popStrip s r.toNat) s
  poisonedV s.src (rs.filter (fun r => s.popped.contains r.toNat))
  (match rs.find? (fun r => (s.src.bind r.toNat).bound && (s.src.bind r.toNat).out) with
   | some r => raise 6 0x7003 r.toNat 0
   | none => .ok ())
  .ok s

/-- The binding test of a destination v register (09 R247): bound for input traps; bound for output traps with a mask, or where
the op reads vd. -/
def destV (s : State) (r : BitVec 5) (masked readsVd : Bool) : Run Unit :=
  let b := s.src.bind r.toNat
  need (!(b.bound && (!b.out || masked || readsVd))) 6 0x7003 r.toNat 0

/-! ### Tokens and outstanding ops (04 R94, R95) -/

/-- k[r]; k0 counts nothing. -/
def Ctx.kc (c : Ctx) (k : Nat) : Nat := if k = 0 then 0 else c.k.get 0 k

/-- An op waits until the register its kp names is drained, and while the register its kw names is full. -/
def useTok (s : State) (kw kp : BitVec 3) : Run Unit :=
  if s.src.kc kp.toNat ≠ 0 then .error (.wait (.token kp.toNat) s)
  else if s.src.kc kw.toNat ≥ 63 then .error (.wait (.tokenFull kw.toNat) s) else .ok ()

/-- The path of the executing agent's own accesses (04 R96): 0 of a context, 4 of the awn core. -/
def State.path (s : State) : Nat := if s.cur.isAwn then 4 else 0

/-- An op issues: it is outstanding, and its token register counts it. -/
def State.issueOp (s : State) (path : Nat) (kw : BitVec 3) (dst : Dst) : State :=
  let o : Op := { agent := s.cur, path := path, kw := kw.toNat, dst := dst }
  let c := s.me
  let c := if kw = 0 then c else { c with k := c.k.set 0 kw.toNat (c.k.get 0 kw.toNat + 1) }
  { s.setMe c with ops := s.ops.put s.nextOp o, nextOp := s.nextOp + 1 }

/-- An op that issues with its completion pending. -/
def State.issuePost (s : State) (path : Nat) (kw : BitVec 3) (dst : Dst) : State :=
  (s.issueOp path kw dst).post (.operationCompletion s.nextOp)

/-- The writes of one strip become an op of an agent, which `shutPart` ends. -/
def State.openPart (s : State) (a : Agent) (path : Nat) : State :=
  { s with ops := s.ops.put s.nextOp { agent := a, path := path, kw := 0, part := true }, nextOp := s.nextOp + 1 }

/-- The writes of a strip have reached their homes: the op is over unless one of them is held there (04 R108). -/
def State.shutPart (s : State) (id : Nat) : State :=
  match s.ops.find id with
  | some o => if o.need = 0 then { s with ops := s.ops.del id } else s
  | none => s

/-- A destination is written (06 R147). All the lanes of a v register are written at once, so that an early read finds the old ones or the new
ones (log 4). -/
def Ctx.putDst (c : Ctx) : Dst → Ctx
  | .none => c
  | .late r v => c.putS r v
  | .s r v p =>
    let c := c.putS r v
    if r = 0 then c else match p with
      | some a => { c with sPois := c.sPois.put r a }
      | none => c
  | .v r v p => c.putV r v p

/-- The destination of op `id` is written at its completion. The registers that wait for results of other ops go on waiting, but an earlier op's result
for the register written comes too late (06 R147, R148). -/
def Ctx.land (c : Ctx) (id : Nat) : Dst → Ctx
  | .late r v => c.putResult r id v
  | .s r v p => { c.putDst (.s r v p) with pend := c.pend.filter (fun q => q.1 != r || decide (id < q.2)) }
  | d => { c.putDst d with pend := c.pend }

/-- An outstanding op completes: its destination is written and its token register loses one (04 R94). -/
def State.completeOp (s : State) (id : Nat) : State :=
  match s.ops.find id with
  | none => s
  | some o =>
    let c := (s.ctx o.agent).land id o.dst
    let c := if o.kw = 0 then c else { c with k := c.k.set 0 o.kw (c.k.get 0 o.kw - 1) }
    { s.setCtx o.agent c with ops := s.ops.del id }

/-- The ops of a context outstanding on a path of a mask (04 R96). -/
def State.pathBusy (s : State) (a : Agent) (mask : Nat) : Bool :=
  s.ops.any (fun p => p.2.agent == a && mask.testBit p.2.path)

/-! ### The task and its address space -/

/-- PWBASE, PWSIZE and GVROOT of the executing agent's task; for the awn core the space of its handler (03 R487). -/
def State.root (s : State) (a : Agent) : Word :=
  if a.isAwn then (s.tile a.tile).msgSpace else recRoot (s.runRec a.tile)

/-- The record key of the task an agent works for: the tile's running slot. -/
def State.taskOf (s : State) (a : Agent) : Option Nat := (s.tile a.tile).run

/-- The size of a private area (03 R61). -/
def areaSize (r : BitVec 2048) : Nat := 2 ^ (16 + recPwsize r)

/-- A private address's global alias for a context (03 R61, R62). -/
def privAlias (r : BitVec 2048) (ctx : Nat) (off : Nat) : Word := recPwbase r + wd (ctx * areaSize r + off)

/-- The context that engine faults of a context reach: EFAULT and EFADDR take the fault, or MORE is set (22 R454). -/
def Ctx.takeEfault (c : Ctx) (path : Nat) (t : Trap) : Ctx :=
  if (c.cr 6).getLsbD 63 then c.setCr 6 (c.cr 6 ||| wd (2 ^ 62))
  else (c.setCr 6 (wd (2 ^ 63 + path * 2 ^ 59 + t.code.toNat * 2 ^ 16 + t.cause.toNat))).setCr 7 t.addr

/-- An engine fault of an op a context issued (22 R454), with its error record of class Engine fault. -/
def State.engineFault (s : State) (a : Agent) (path : Nat) (t : Trap) : State :=
  let s := s.reportTable t
  let s := s.setCtx a ((s.ctx a).takeEfault path t)
  let r : ErrRec := { cls := 2, reach := 1, cause := t.cause, code := t.code, tile := a.tile, addr := t.addr }
  match s.taskOf a with
  | some k => s.reportTask k r
  | none => s.report none r

end Sys2Proof.Machine
end

