-- ==== Sys2Proof/Machine/Caches.lean ====
section
/-! DEFINITION. The polder (03 R75) and the caches (R78): the L1 of a tile, the L2 copies that a die keeps of the lines of other dies and packages, the
directory's sharers (04 R107, R108), write-backs and invalidations (R109 to R111). -/

namespace Sys2Proof.Machine

/-! ### Words of bits and bytes -/

/-- Bit i of a vector set to b. -/
def setBit {w : Nat} (x : BitVec w) (i : Nat) (b : Bool) : BitVec w :=
  if b then x ||| (BitVec.ofNat w (2 ^ i)) else x &&& ~~~(BitVec.ofNat w (2 ^ i))

/-- A vector with the `8 n` bits from bit `8 o` replaced by bytes. -/
def patch {w : Nat} (x : BitVec w) (o : Nat) (bs : List Byte) : BitVec w :=
  (x &&& ~~~(BitVec.ofNat w ((2 ^ (8 * bs.length) - 1) * 2 ^ (8 * o)))) ||| BitVec.ofNat w (leNat bs * 2 ^ (8 * o))

/-! ### The polder (03 R75) -/

/-- The ways per slice that POLDW gives. -/
def Die.poldw (d : Die) : Nat := min 8 (bits (d.cr 0x201) 3 0)

/-- A way of a slice holds a polder page; its 16 slots follow one another. -/
def Die.wayUsed (d : Die) (slice way : Nat) : Bool := d.polderUsed.any (fun e => e.1 / 16 == slice * 8 + way)

/-- A way serves as polder: POLDW gives it, or it keeps the role until it holds no page. -/
def Die.polderWay (d : Die) (slice way : Nat) : Bool := decide (way < d.poldw) || d.wayUsed slice way

/-- The free polder slot taken next: the lowest (log 20). -/
def Die.freeSlot (d : Die) : Option Nat :=
  (List.range (160 * 128)).find? (fun k => !(d.polderUsed.get false k) && (decide (k % 128 < 16 * d.poldw) || d.wayUsed (k / 128) (k % 128 / 16)))

/-- The ways past POLDW that still hold pages. -/
def Die.oldWays (d : Die) : List Nat := ((d.polderUsed.map (fun e => e.1 / 16)).dedup).filter (fun w => !decide (w % 8 < d.poldw))

/-- The slots of all polder ways. -/
def Die.slotCount (d : Die) : Nat := 160 * 16 * d.poldw + 16 * d.oldWays.length

/-- The pool has `n` free slots. -/
def Die.hasSlots (d : Die) (n : Nat) : Bool := decide (d.polderUsed.length + n ≤ d.slotCount)

/-- The poison marks of a page at the grain of a polder slot, whose lines are two granules (20 R421). -/
def Page.widen (p : Page) : Page :=
  { p with pois := (List.range 128).foldl (fun m g => setBit m g (p.pois.getLsbD (g / 2 * 2) || p.pois.getLsbD (g / 2 * 2 + 1))) p.pois }

/-- A slot takes a page. -/
def Die.putSlot (d : Die) (k : Nat) (p : Page) : Die :=
  { d with polder := d.polder.set {} k p.widen, polderUsed := d.polderUsed.set false k true }

/-- A slot is free again. -/
def Die.dropSlot (d : Die) (k : Nat) : Die := { d with polder := d.polder.del k, polderUsed := d.polderUsed.del k }

/-! ### Places in a cache -/

/-- A cache takes a line in a set of `ways` ways, of which `mine` tells the keys: where all are in use one of the others leaves, which one the
spec does not name (log 13). -/
def cachePut {α : Type} (n ways : Nat) (mine : Nat × α → Bool) (key : Nat) (x : α) (m : SMap α) : SMap α × Option (Nat × α) :=
  let others := m.filter (fun e => mine e && e.1 != key)
  if others.length < ways then (m.put key x, none)
  else match others[Config.freePick n % others.length]? with
    | some e => ((m.del e.1).put key x, some e)
    | none => (m, none)

/-- The key of a tile's copy of a line, in its L1 or its instruction cache. -/
def tileKey (t pa : Nat) : Nat := t * 2 ^ 60 + pa / 32

/-- Two keys are of one cache of a tile and one of its 256 sets: the low bits of the line number (DESIGN CHOICE, log 13: R78 names no index). -/
def sameSet (k j : Nat) : Bool := k / 2 ^ 60 == j / 2 ^ 60 && k % 256 == j % 256

/-- A copy lies in a set of a slice of the L2 of a key's die: one of 1,024, by the low bits of the line number (log 13). -/
def inL2Set (key slice : Nat) (e : Nat × RemLine) : Bool := e.1 / 2 ^ 60 == key / 2 ^ 60 && e.2.slice == slice && e.1 % 1024 == key % 1024

/-- The ways of a slice that hold lines: those that do not serve as polder (03 R75, R78). -/
def State.l2Ways (s : State) (d slice : Nat) : Nat := 16 - ((List.range 8).filter (fun w => (s.die d).polderWay slice w)).length

/-- A tile's L1 of 8 ways takes a line (03 R78). -/
def State.putL1 (s : State) (t pa : Nat) (l : RemLine) : State :=
  { s with l1 := (cachePut s.fc 8 (fun e => sameSet (tileKey t pa) e.1) (tileKey t pa) l s.l1).1 }

/-- The instruction cache of a tile, of 4 ways, takes a line (03 R78). -/
def State.putI (s : State) (t pa : Nat) (x : BitVec 256) : State :=
  { s with icache := (cachePut s.fc 4 (fun e => sameSet (tileKey t pa) e.1) (tileKey t pa) x s.icache).1 }

/-! ### Copies in a die's L2 -/

/-- Byte i of a copy is written to its line, if it is dirty. -/
def State.putDirty (s : State) (line : Nat) (l : RemLine) (i : Nat) : State :=
  if l.dirty.getLsbD i then s.memSet (line + i) (l.data.extractLsb' (8 * i) 8) else s

/-- The dirty bytes of a copy go to the owning package (04 R109), poison with them (20 R421, R422); a write-back that fails is lost (23 R482). -/
def State.writeBack (s : State) (key : Nat) (l : RemLine) : State :=
  let pa := key % 2 ^ 60 * 32
  if s.uaDown (key / 2 ^ 60) pa || l.dirty == 0 then s
  else
    let s := (List.range 32).foldl (fun s i => s.putDirty pa l i) s
    if l.pois then s.setLinePois pa true else if l.dirty = BitVec.allOnes 32 then s.setLinePois pa false else s

/-- A die's L2 takes a copy of a line; the one that leaves its set is written back (04 R110). -/
def State.setRem (s : State) (key : Nat) (l : RemLine) : State :=
  let r := cachePut s.fc (s.l2Ways (key / 2 ^ 60) l.slice) (inL2Set key l.slice) key l s.rem
  match r.2 with
  | some e => { s with rem := r.1 }.writeBack e.1 e.2
  | none => { s with rem := r.1 }

/-- A set whose ways have gone to the polder holds no more lines than are left to it: others leave, written back (03 R75, R78, 04 R110). -/
def State.trimSet (s : State) (key slice : Nat) : Nat → State
  | 0 => s
  | n + 1 =>
    let held := s.rem.filter (inL2Set key slice)
    if held.length ≤ s.l2Ways (key / 2 ^ 60) slice then s
    else match held[Config.freePick s.fc % held.length]? with
      | some e => ({ s with rem := s.rem.del e.1 }.writeBack e.1 e.2).trimSet key slice n
      | none => s

/-- Every set of a die's L2 is trimmed. -/
def State.trimL2 (s : State) (d : Nat) : State :=
  (s.rem.filter (fun e => e.1 / 2 ^ 60 == d)).foldl (fun s e => s.trimSet e.1 e.2.slice 16) s

/-- A die's L2 no longer holds a copy. -/
def State.delRem (s : State) (key : Nat) : State := { s with rem := s.rem.del key }

/-- The copy of a line leaves a die's L2, with its dirty bytes written back. -/
def State.dropRem (s : State) (d pa : Nat) : State :=
  match s.rem.find (remKey d pa) with
  | some l => (s.writeBack (remKey d pa) l).delRem (remKey d pa)
  | none => s

/-- A new copy of a remote line is read from its owner. -/
def State.fillRem (s : State) (d pa : Nat) (leaf : Word) : State × RemLine :=
  let bs := s.remRead d (pa / 32 * 32) 32
  let l : RemLine := { data := BitVec.ofNat 256 (leNat (bs.map (·.1))), pois := bs.any (·.2), slice := sliceOf pa leaf }
  (s.setRem (remKey d pa) l, l)

/-- The copy of a remote line that an access of a die finds: the one held, or a new fill; a copy may be evicted, written back first. -/
def State.remLine (s : State) (d pa : Nat) (leaf : Word) : State × RemLine :=
  match s.rem.find (remKey d pa) with
  | none => s.fillRem d pa leaf
  | some l => if Config.lineHeld s.fc (remKey d pa) then (s, l) else (s.writeBack (remKey d pa) l).fillRem d pa leaf

/-- A copy with bytes written: poisoned bytes set its mark, and a write of the whole line clears it (20 R421, R422). -/
def RemLine.store (l : RemLine) (pa : Nat) (bs : List Byte) (dty p : Bool) : RemLine :=
  { l with data := patch l.data (pa % 32) bs, pois := p || (l.pois && bs.length != 32),
           dirty := if dty then l.dirty ||| BitVec.ofNat 32 ((2 ^ bs.length - 1) * 2 ^ (pa % 32)) else l.dirty }

/-- Bytes within a remote line written in the copy of a die's L2 (04 Table — Completion points). -/
def State.l2Store (s : State) (d pa : Nat) (leaf : Word) (bs : List Byte) (p : Bool) : State :=
  let x := s.remLine d pa leaf
  x.1.setRem (remKey d pa) (x.2.store pa bs true p)

/-- A store of a tile to a remote line, cacheable: made in the local L2 copy (04 Table — Completion points) and written through its own L1 copy
(03 R78); another tile's L1 copy stays as it is (R109). -/
def State.remStore (s : State) (t pa : Nat) (leaf : Word) (bs : List Byte) (p : Bool) : State :=
  let s := s.l2Store (dieOf t) pa leaf bs p
  match s.l1.find (tileKey t pa) with
  | some l => { s with l1 := s.l1.put (tileKey t pa) (l.store pa bs false p) }
  | none => s

/-- The copy of a remote line that a tile's access through its L1 finds: the L1's while it is held, else a fill from the L2. -/
def State.remL1 (s : State) (t pa : Nat) (leaf : Word) : State × RemLine :=
  let fill (s : State) : State × RemLine :=
    let x := s.remLine (dieOf t) pa leaf
    (x.1.putL1 t pa { x.2 with dirty := 0 }, x.2)
  match s.l1.find (tileKey t pa) with
  | none => fill s
  | some l => if Config.lineHeld s.fc (tileKey t pa) then (s, l) else fill s

/-- What a die wrote to a remote line is at its owner, and neither its L2 nor the tile's L1 keeps a copy, before an access of the tile that goes to the
owner (04 R92, R106, R111). -/
def State.bypass (s : State) (t pa : Nat) : State :=
  let s := s.dropRem (dieOf t) pa
  { s with l1 := s.l1.del (tileKey t pa) }

/-- A key of a die's L2 names a line of another package. -/
def isRemKey (d key : Nat) : Bool := key / 2 ^ 60 == d && decide (2 ^ 43 ≤ key % 2 ^ 60)

/-- Every dirty remote byte of a die is written back (04 R110). -/
def State.podRelease (s : State) (d : Nat) : State :=
  let mine := s.rem.filter (fun e => isRemKey d e.1)
  let s := mine.foldl (fun s e => s.writeBack e.1 e.2) s
  { s with rem := s.rem.map (fun e => if isRemKey d e.1 then (e.1, { e.2 with dirty := 0 }) else e) }

/-- Every clean remote line in the L2 of a tile's die and in the tile's L1 is invalidated (04 R111). -/
def State.podAcquire (s : State) (t : Nat) : State :=
  { s with rem := s.rem.filter (fun e => !(isRemKey (dieOf t) e.1 && e.2.dirty == 0)), l1 := s.l1.filter (fun e => !isRemKey t e.1) }

/-- The instruction cache and the L1 of a tile are empty (15 R397). -/
def State.emptyCaches (s : State) (t : Nat) : State :=
  let other {α : Type} (m : SMap α) : SMap α := m.filter (fun e => e.1 / 2 ^ 60 != t)
  { s with icache := other s.icache, l1 := other s.l1,
           dirs := s.dirs.map (fun e => (e.1, { e.2 with ptrs := e.2.ptrs.filter (· != t), table := e.2.table.filter (· != t) })) }

/-! ### Sharers (04 R107, R108, 22 R459, R460) -/

/-- The overflow handler of a line's home tile has failed: the tile's awn core is frozen on fault, or the table entry reads poisoned; and from then
on (22 R460). -/
def State.handlerFailed (s : State) (t line : Nat) : Bool := s.awnStopped t || (s.tile t).ovfFailed || (s.dir line).bad

/-- The sharer a fill by a tile of a line makes: its L1 on the home die, else its die's L2. -/
def sharerOf (tile pa : Nat) : Nat := if dieOf tile = homeDie pa then tile else 4096 + dieOf tile

/-- A fill by a sharer: a pointer, or a post to the overflow handler of the home (04 R107, R108). -/
def State.addSharer (s : State) (line home h : Nat) : State :=
  let e := s.dir line
  if e.ptrs.contains h || e.table.contains h then s
  else if e.ptrs.length < 4 then s.setDir line { e with home := home, ptrs := e.ptrs ++ [h] }
  else if s.agenda.contains (.directoryOverflow line h) then s
  else s.post (.directoryOverflow line h)

/-- What becomes of a fill: the requester may keep the line, gets it without keeping it (22 R459, R460), or waits for the handler (04 R108). -/
inductive Fill where
  | kept
  | once
  | waits
  deriving DecidableEq, Repr

/-- A sharer requests a line of its home (04 R107, R108): with four pointers in use the overflow handler records it first, unless it refuses or has
failed. -/
def State.askFill (s : State) (line home h : Nat) : State × Fill :=
  let e := s.dir line
  if e.ptrs.contains h || e.table.contains h || e.ptrs.length < 4 then (s.addSharer line home h, .kept)
  else if s.handlerFailed e.home line then (s.addSharer line home h, .once)
  else if Config.handlerRefuses s.fc line then (s, .once)
  else (s.addSharer line home h, .waits)

/-- Data of a line goes from its home to another die: a message of the home die's batch (04 R105). -/
def State.fillBatch (s : State) (d pa : Nat) : State :=
  if d = homeDie pa then s else (s.crossTo (homeDie pa) d).sendBatch (homeDie pa) (fun _ => []) (some d)

/-- The line of a physical address at its home, as a copy. -/
def State.homeCopy (s : State) (pa : Nat) (leaf : Word) : RemLine :=
  { data := BitVec.ofNat 256 (leNat (s.memRead (pa / 32 * 32) 32)), pois := s.linePois pa, slice := sliceOf pa leaf }

/-- The L2 copy of a line of another die is held. -/
def State.peerHeld (s : State) (d pa : Nat) : Option RemLine :=
  match s.rem.find (remKey d pa) with
  | some l => if Config.lineHeld s.fc (remKey d pa) then some l else none
  | none => none

/-- A cacheable read of a line of this package by a tile: `keep` where its L1 takes the line (engines and the instruction cache read through the L2).
On the home die the L1 is the sharer; on another die its L2 is, which notes the L1s of its own tiles (04 R107). What the line reads as, or none where the
fill waits for the overflow handler: the copy of the die's L2, or (some none) what the home holds. -/
def State.readLine (s : State) (t pa : Nat) (leaf : Word) (keep : Bool) : State × Option (Option RemLine) :=
  let d := dieOf t
  let h := sharerOf t pa
  let note (l : RemLine) : RemLine := if keep && !l.tiles.contains t then { l with tiles := t :: l.tiles } else l
  let mine (s : State) : State := if keep then s.putL1 t pa {} else s
  if d = homeDie pa then
    if !keep then (s, some none)
    else match s.askFill (pa / 32) (homeTile pa leaf) h with
      | (s, .waits) => (s, none)
      | (s, .once) => (s, some none)
      | (s, .kept) => (mine s, some none)
  else match s.peerHeld d pa with
    | some l => (mine (s.setRem (remKey d pa) (note l)), some (some l))
    | none =>
      match s.askFill (pa / 32) (homeTile pa leaf) h with
      | (s, .waits) => (s, none)
      | (s, .once) => (s.fillBatch d pa, some none)
      | (s, .kept) => (mine ((s.fillBatch d pa).setRem (remKey d pa) (note (s.homeCopy pa leaf))), some none)

/-- Bytes of a copy, with its poison (20 R421). -/
def RemLine.bytes (l : RemLine) (o n : Nat) : List (Byte × Bool) :=
  (List.range n).map (fun i => (l.data.extractLsb' (8 * (o + i)) 8, l.pois))

end Sys2Proof.Machine
end

