-- ==== Sys2Proof/Machine/Reads.lean ====
section
/-! DEFINITION. Reads of lines of memory: versions and snapshots (04 R114 to R119, 08 R209), reads at the home, through a die's L2 and at the owner
(04 R102 to R111), and the reads and writes of a die's units. -/

namespace Sys2Proof.Machine

/-! ### Versions and views -/

/-- The newest version of a line with stamp at most `t` (04 R116). -/
def State.versionAt (s : State) (line t : Nat) : Option (List Byte × Bool) :=
  let v := s.ver line
  if v.stamp ≤ t then some (s.lineNow line)
  else (v.older.find? (fun o => o.stamp ≤ t)).map (fun o => (leBytes 32 o.data.toNat, o.pois))

/-- For whom an access is made: the agent, its address space, whether it has handler rights, whether an engine makes it, and the translations that the
engine has kept from its checks (22 R449); `path` is the access path (04 R96). -/
structure Who where
  agent : Agent
  root : Word
  hand : Bool
  engine : Bool
  path : Nat
  kept : List TlbEnt := []
  deriving DecidableEq, Repr

/-- The TLBs of an access (03 R85). -/
def Who.tlb (w : Who) : TlbUse := if w.engine then .engine w.agent.tile else .data w.agent.tile

/-- The translation an access uses: the one kept from its check, or that of its TLBs (03 R85, 22 R449). -/
def State.translateFor (s : State) (w : Who) (va : Nat) : Except WalkErr Leaf :=
  match w.kept.find? (fun e => e.serves (asidOf w.root) va) with
  | some e => .ok e.leaf
  | none => s.translate w.tlb w.root va

/-- Which version a load sees: the in-place one; as of a stamp a task owns; the write set first, then the start stamp; as of a stamp
that a snapshot load names. -/
inductive View where
  | now
  | snap (t : Nat) (o : StampOwner)
  | tx (c : Ctx) (o : StampOwner)
  | at (t : Int)
  deriving Repr

/-- What a snapshot task sees; any other reads in place (04 R118). -/
def State.viewOf (s : State) (k : Nat) : View :=
  match (s.task k).stamp with
  | some st => if recSnap (s.record k) then .snap st (.task k) else .now
  | none => .now

/-- The view of an engine or a context's path-0 load made for the task that runs on a tile (04 R118). -/
def State.taskView (s : State) (t : Nat) : View :=
  match (s.tile t).run with
  | none => .now
  | some k => s.viewOf k

/-- The view of a context's path-0 loads (04 R118, R119, 21 R443); the awn core reads in place. -/
def State.view (s : State) (a : Agent) : View :=
  if a.isAwn then .now
  else if (s.ctx a).txo then .tx (s.ctx a) (.tx a) else s.taskView a.tile

/-- A line as of a stamp that must be live for its owner (22 R463, 04 R116). -/
def State.lineOf (s : State) (line t : Nat) (o : StampOwner) (a : Word) : Run (List Byte × Bool) :=
  if !s.live.contains (t, o) then raise 7 0x6002 0 a
  else match s.versionAt line t with
    | some x => .ok x
    | none => raise 7 0x6002 0 a

/-- A stamp that a snapshot load names is stale: below 0, below the oldest live stamp, or revoked (08 R209, 22 R463). -/
def State.stale (s : State) (t : Int) : Bool :=
  decide (t < 0) || (match s.oldestLive with
    | some o => decide (t < (o : Int))
    | none => false) || (s.revoked.contains t.toNat && !s.live.any (·.1 == t.toNat))

/-- A line as of the stamp of a snapshot load (08 R209): a stamp past the time base less 16 is a future one; a stale one, or one for which no version
is left, a stale one. -/
def State.lineSnap (s : State) (line : Nat) (t : Int) (a : Word) : Run (List Byte × Bool) :=
  if t > (s.time : Int) - 16 then raise 7 0x6001 0 a
  else if s.stale t then raise 7 0x6002 0 a
  else match s.versionAt line t.toNat with
    | some x => .ok x
    | none => raise 7 0x6002 0 a

/-- `n` bytes of line content from byte o. -/
def sub (x : List Byte × Bool) (o n : Nat) : List (Byte × Bool) := ((x.1.drop o).take n).map (fun b => (b, x.2))

/-- A line is held by a commit of another agent (04 R121). -/
def State.heldByCommit (s : State) (a : Agent) (line : Nat) : Bool :=
  match s.reserved.find line with
  | some k => k != akey a
  | none => false

/-- The write set of a transaction holds every byte of a piece (04 R119). -/
def Ctx.inSet (c : Ctx) (pa n : Nat) : Bool :=
  (List.range n).all (fun i => (c.tx.lines.get {} (pa / 32)).mask.getLsbD (pa % 32 + i))

/-- The stamp tests of `n` bytes of a versioned page under a view (21 R434 step 7g). -/
def State.stampTest (s : State) (v : View) (pa n : Nat) (a : Word) : Run Unit :=
  let ok (x : Run (List Byte × Bool)) : Run Unit := x.map (fun _ => ())
  match v with
  | .now => .ok ()
  | .snap t o => ok (s.lineOf (pa / 32) t o a)
  | .at t => ok (s.lineSnap (pa / 32) t a)
  | .tx c o => if c.inSet pa n then .ok () else ok (s.lineOf (pa / 32) c.tx.start o a)

/-! ### Reads -/

/-- The bytes of a line of a versioned page as of a stamp, read at its home (04 R116), the stamp first tested (22 R463); a line that a commit holds
makes the read wait (R121). -/
def readVersion (s : State) (w : Who) (pa n : Nat) (x : Run (List Byte × Bool)) : Run (State × List (Byte × Bool)) := do
  let x ← x
  if s.heldByCommit w.agent (pa / 32) then .error (.wait (.structural (.reserved [pa / 32])) s)
  else .ok (s.fillBatch (dieOf w.agent.tile) pa, sub x (pa % 32) n)

/-- The bytes of a piece of a line of another package: through the L1 and the L2 of the tile's die (04 R109), an engine's through the L2; `pod` at its
owner (R111). -/
def readRemote (s : State) (w : Who) (pod : Bool) (l : Leaf) (pa n : Nat) : State × List (Byte × Bool) :=
  let d := dieOf w.agent.tile
  if l.nc then (s, s.remRead d pa n)
  else if pod then
    let s := s.bypass w.agent.tile pa
    (s, s.remRead d pa n)
  else
    let x := if w.engine then s.remLine d pa l.entry else s.remL1 w.agent.tile pa l.entry
    (x.1, x.2.bytes (pa % 32) n)

/-- The bytes of a piece of a line of this package, in place, as the path of the access sees them (04 R97); a copy that is older shows what it has. -/
def readHome (s : State) (w : Who) (l : Leaf) (pa n : Nat) : Run (State × List (Byte × Bool)) :=
  let here := (s.memRead pa n).map (fun b => (b, s.linePois pa))
  let seen := asSeen s.unseen w.path pa here
  if l.nc then .ok (s.fillBatch (dieOf w.agent.tile) pa, seen)
  else match s.readLine w.agent.tile pa l.entry (!w.engine) with
    | (s, none) => .error (.wait (.structural (.sharer (pa / 32) (sharerOf w.agent.tile pa))) s)
    | (s, some none) => .ok (s, seen)
    | (s, some (some c)) => .ok (s, if c.bytes (pa % 32) n = here then seen else c.bytes (pa % 32) n)

/-- The bytes of a piece of a line of this package under a view (04 R116 to R119). -/
def readLocal (s : State) (w : Who) (v : View) (l : Leaf) (pa n : Nat) (a : Word) : Run (State × List (Byte × Bool)) :=
  match (if l.ver then v else .now) with
  | .now => readHome s w l pa n
  | .snap t o => readVersion s w pa n (s.lineOf (pa / 32) t o a)
  | .at t => readVersion s w pa n (s.lineSnap (pa / 32) t a)
  | .tx c o =>
    let e := c.tx.lines.get {} (pa / 32)
    let setByte (i : Nat) : Byte × Bool := (e.data.extractLsb' (8 * i) 8, false)
    let idx := (List.range n).map (· + pa % 32)
    if c.inSet pa n then .ok (s, idx.map setByte)
    else do
      let x ← readVersion s w pa n (s.lineOf (pa / 32) c.tx.start o a)
      .ok (x.1, idx.map (fun i => if e.mask.getLsbD i then setByte i else (x.2[i - pa % 32]?).getD (0, false)))

/-! ### Units of a die -/

/-- A unit of a die that reads for a task, on path 5: it keeps no L1. -/
def unitWho (d : Nat) : Who := ⟨unitOf d, 0, true, true, 5, []⟩

/-- Bytes within a line read by a unit of a die: a remote line through its L2, a line of another die through the L2 that shares it (04 R104, R107, R109). -/
def State.unitRead (s : State) (d : Nat) (v : View) (l : Leaf) (pa n : Nat) (a : Word) : Run (State × List (Byte × Bool)) :=
  if l.isRem then .ok (readRemote s (unitWho d) false l pa n) else readLocal s (unitWho d) v l pa n a

/-- `k` whole lines read by a unit of a die. -/
def State.unitLines (s : State) (d : Nat) (v : View) (l : Leaf) (a : Word) : Nat → Nat → Run (State × List (Byte × Bool))
  | 0, _ => .ok (s, [])
  | k + 1, pa => do
    let (s, b) ← s.unitRead d v l pa 32 a
    let (s, bs) ← s.unitLines d v l a k (pa + 32)
    .ok (s, b ++ bs)

/-- Bytes within a line written by a unit of a die: at the home of a line of the package, in the die's L2 copy of a remote one. `op` is the op that the
write is part of, `tr` what it was translated from. -/
def State.unitWrite (s : State) (op : Option Nat) (tr : Option (Nat × Nat × Leaf)) (d : Nat) (l : Leaf) (pa : Nat) (bs : List Byte) (p : Bool) : State :=
  if l.isRem then (if l.nc then s.remWrite d pa bs p else s.l2Store d pa l.entry bs p)
  else s.arriveWrite { kind := 0, agent := unitOf d, pa := pa, data := bs, poisoned := p, ver := l.ver } op tr

/-- A page of 2,048 bytes as read from memory: every granule full (03 R71, R74). -/
def Page.ofBytes (bs : List (Byte × Bool)) : Page :=
  { bytes := BitVec.ofNat 16384 (leNat (bs.map (·.1))), full := BitVec.allOnes 128,
    pois := (List.range 128).foldl (fun m g => if ((bs[16 * g]?).map (·.2)).getD false then setBit m g true else m) 0 }

end Sys2Proof.Machine
end

