-- ==== Sys2Proof/Machine/Scratch.lean ====
section
/-! DEFINITION. The scratchpad: frames, page tables, page-ins and write-outs, full-empty bits, outbound pages of
stream edges (03_memory_hierarchy.md R63 to R77, 11_dispatch_graphs.md R334, R335). -/

namespace Sys2Proof.Machine

/-! ### Pages -/

/-- `n` bytes of a page from byte `o`, each with the poison mark of its granule. -/
def Page.read (p : Page) : Nat → Nat → List (Byte × Bool)
  | _, 0 => []
  | o, n + 1 => (p.bytes.extractLsb' (8 * o) 8, p.pois.getLsbD (o / 16)) :: p.read (o + 1) n

/-- Bytes written into a page: the marks of granules written whole are cleared, of poisoned bytes set (20 R421, R422). -/
def Page.write (p : Page) (o : Nat) (bs : List (Byte × Bool)) : Page :=
  let g0 := o / 16
  let g1 := (o + bs.length + 15) / 16
  let pois := (List.range (g1 - g0)).foldl (fun m i =>
    let g := g0 + i
    let mine := (List.range bs.length).filter (fun j => (o + j) / 16 == g)
    if mine.any (fun j => ((bs[j]?).getD (0, false)).2) then setBit m g true
    else if mine.length = 16 then setBit m g false else m) p.pois
  { p with bytes := patch p.bytes o (bs.map (·.1)), pois := pois }

/-- Full-empty bits of some granules set. -/
def Page.setFull (p : Page) (gs : List Nat) (b : Bool) : Page := { p with full := gs.foldl (fun m g => setBit m g b) p.full }

/-! ### The page table of the running slot -/

def Tile.spte (t : Tile) (key : Nat) : Word := t.spt.get 0 key
/-- A page-table entry is written; a page that changes its place is seen alike on every path. -/
def Tile.setSpte (t : Tile) (key : Nat) (e : Word) : Tile :=
  { t with spt := t.spt.set 0 key e,
           unseen := if loc e = loc (t.spte key) && place e = place (t.spte key) then t.unseen else t.unseen.filter (fun u => u.1 / 128 != key) }
def Tile.frame (t : Tile) (buf f : Nat) : Page := t.frames.get {} (buf * 2048 + f)
def Tile.setFrame (t : Tile) (buf f : Nat) (p : Page) : Tile := { t with frames := t.frames.set {} (buf * 2048 + f) p }

/-- A page was accessed: it is the last of the ages, and a write-out of it is abandoned (03 R70, R72). -/
def Tile.touch (t : Tile) (key : Nat) : Tile :=
  { t with lru := t.lru.filter (· != (false, key)) ++ [(false, key)],
           pageIns := t.pageIns.map (fun p => if p.victim == some (false, key) then { p with abandoned := true } else p),
           outs := t.outs.map (fun o => { o with pages := o.pages.map (fun p => if p.1 == key then (key, true) else p) }) }

/-- The page at a resident key. -/
def Tile.page (t : Tile) (key : Nat) : Page := t.frame (key / 8192) (place (t.spte key))
def Tile.setPage (t : Tile) (key : Nat) (p : Page) : Tile := t.setFrame (key / 8192) (place (t.spte key)) p

/-- The granules of a resident page that n bytes are about to be written to (04 R97). -/
def Tile.hide (t : Tile) (w : Option Writer) (key o n : Nat) : Tile :=
  { t with unseen := (granules o n).foldl (fun m g => hideGran m w (key * 128 + g) ((t.page key).read (16 * g) 16)) t.unseen }

/-- Bytes of a resident page as the reads of a path see them (04 R97). -/
def Tile.readAs (t : Tile) (path key o n : Nat) : List (Byte × Bool) := asSeen t.unseen path (key * 2048 + o) ((t.page key).read o n)

/-- A tile whose frames hold what the reads of a path see (04 R97). -/
def Tile.seenBy (t : Tile) (path : Nat) : Tile :=
  t.unseen.foldl (fun x e =>
    if e.2.seen.contains path then x else x.setPage (e.1 / 128) ((x.page (e.1 / 128)).write (16 * (e.1 % 128)) e.2.old)) t

/-- Bytes of a resident page written by someone, DIRTY set; `fill` sets the granules full (03 R76). -/
def Tile.spWrite (t : Tile) (w : Option Writer) (key o : Nat) (bs : List (Byte × Bool)) (fill : Bool) : Tile :=
  let t := t.hide w key o bs.length
  let p := (t.page key).write o bs
  let p := if fill then p.setFull (granules o bs.length) true else p
  let t := (t.setPage key p).touch key
  let e := t.spte key
  t.setSpte key (mkSpte (loc e) (pinned e) true (place e))

/-! ### Frames and victims (03 R70, R71) -/

/-- The frames of a buffer that are in use: resident pages of both tables, page-ins under way, and footprint fetches. -/
def State.usedFrames (s : State) (t buf : Nat) : List Nat :=
  let x := s.tile t
  let inTab (m : SMap Word) : List Nat := (m.filter (fun e => e.1 / 8192 == buf && loc e.2 == 1)).map (fun e => place e.2)
  inTab x.spt ++ inTab x.sptS ++ (x.pageIns.filter (fun p => p.win == buf)).map (·.frame) ++
    ((s.die (dieOf t)).fetchQ.flatMap (fun f => (f.dsts.filter (fun d => d.tile == t && d.key / 8192 == buf)).map (·.frame)))

/-- Frames of one bank. -/
def bankFrames (v : Bool) (buf bank : Nat) : List Nat := (List.range (framesPerBank v buf)).map (· + bank * framesPerBank v buf)

/-- The `spmig` whose write-outs are under way on a tile: its context still stands at its sheaf. -/
def State.openOuts (s : State) (t : Nat) : Option PageOuts :=
  (s.tile t).outs.filter (fun o => (s.ctx ⟨t, o.ctx⟩).pc == o.pc && (s.ctx ⟨t, o.ctx⟩).st != .free && (s.ctx ⟨t, o.ctx⟩).st != .done)

/-- Resident unpinned pages of the running table in a bank, least recently accessed first; none that a write-out is under way for. -/
def State.victims (s : State) (t buf bank : Nat) : List Nat :=
  let x := s.tile t
  let ok (e : Nat × Word) : Bool := e.1 / 8192 == buf && loc e.2 == 1 && !pinned e.2 &&
    place e.2 / framesPerBank (isV t) buf == bank && !(x.pageIns.any (fun p => p.victim == some (false, e.1))) &&
    !(s.openOuts t).any (fun o => o.pages.any (·.1 == e.1))
  let keys := (x.spt.filter ok).map (·.1)
  keys.filter (fun k => !x.lru.contains (false, k)) ++ (x.lru.filterMap (fun e => if !e.1 && keys.contains e.2 then some e.2 else none))

/-- Every granule of a page is full, or the page lies in W, which has no bits. -/
def Tile.allFull (t : Tile) (key : Nat) : Bool := key / 8192 == 1 || (t.page key).full == BitVec.allOnes 128

/-- The classes 2, 3 and 4 of R70. -/
def Tile.victimClass (t : Tile) (key : Nat) : Nat := if !dirty (t.spte key) then 2 else if t.allFull key then 3 else 4

/-- The root of the address space whose task owns the running table. -/
def State.tileRoot (s : State) (t : Nat) : Word := recRoot (s.runRec t)

/-- The backing address that a LOC 3 place names. -/
def backing (pl : Nat) : Nat := pl % 2 ^ 46 * 2048

/-- The bytes of a page, by lines of 32 with their poison (20 R421). -/
def Page.line (p : Page) (i : Nat) : List Byte × Bool :=
  ((List.range 32).map (fun j => p.bytes.extractLsb' (8 * (32 * i + j)) 8), p.pois.getLsbD (2 * i) || p.pois.getLsbD (2 * i + 1))

/-- A write-out of a page to a backing address, if its translation and WR permission hold (22 R453, R458), with handler rights where the op that moves
it has them (07 R165), through a port of its own (03 R87); poison goes with the bytes. -/
def State.pageOut (s : State) (t : Nat) (p : Page) (va : Nat) (hand : Bool) : Except Trap State :=
  let root := s.tileRoot t
  match s.translate (.engine t) root va with
  | .error w => .error ⟨8, 0x3005, w.code, wd va, w.table⟩
  | .ok l =>
    match l.refuse 2 hand with
    | some c => .error ⟨8, 0x3006, c, wd va, none⟩
    | none =>
      let s := (s.noteTlb (.engine t) root va l).drlAppend (dieOf t) (portAdd none va 2048) (asidOf root) 5 (((s.tile t).run.map s.tid).getD 0xFFFFFFFF)
      .ok ((List.range 64).foldl (fun (s : State) i =>
        s.unitWrite none (some (asidOf root, va, l)) (dieOf t) l (l.pa va + 32 * i) (p.line i).1 (p.line i).2) s)

/-- A write-out of a resident page. -/
def State.outToBacking (s : State) (t key va : Nat) : Except Trap State := s.pageOut t ((s.tile t).page key) va false

/-- Where an evicted page goes (03 R71): its own slot; a clean page from backing back to it; a free slot, its own from then on;
a dirty page whose granules are all full to its backing; nowhere. A clean page from backing of which a clearing read has emptied granules goes to a free
slot, since only full granules need no storage outside the polder (DESIGN CHOICE, log 49: R71 names no place for it). The new page-table place, with its
LOC. -/
def State.evictTo (s : State) (t key : Nat) : Option (Nat × Nat) :=
  let x := s.tile t
  let h := x.home.get 0 key
  if loc h = 2 then some (2, place h)
  else if loc h = 3 && !dirty (x.spte key) && x.allFull key then some (3, place h)
  else match (s.die (dieOf t)).freeSlot with
    | some k => some (2, k)
    | none => if loc h = 3 && x.allFull key then some (3, place h) else none

/-- The write-out of a resident page of the running table, which leaves its frame; none where it can be written nowhere, or where the translation or
permission of its backing fails (22 R453). -/
def State.evict (s : State) (t key : Nat) : Option State :=
  let x := s.tile t
  match s.evictTo t key with
  | none => none
  | some (2, k) =>
    let d := (s.die (dieOf t)).putSlot k (x.page key)
    let x := { (x.setSpte key (mkSpte 2 false false k)) with home := x.home.del key, lru := x.lru.filter (· != (false, key)) }
    some ((s.setTile t x).setDie (dieOf t) d)
  | some (_, pl) =>
    let s' := if dirty (x.spte key) then (s.outToBacking t key (backing pl)).toOption else some s
    s'.map (fun s => s.setTile t
      { (x.setSpte key (mkSpte 3 false false pl)) with home := x.home.del key, lru := x.lru.filter (· != (false, key)) })

/-- The frame for a page-in and its victim (03 R70): a free frame; else the first of the lowest class that can be written out (22 R453). -/
def State.chooseFrame (s : State) (t buf bank : Nat) : Option (Nat × Option Nat) :=
  let used := s.usedFrames t buf
  match (bankFrames (isV t) buf bank).find? (fun f => !used.contains f) with
  | some f => some (f, none)
  | none =>
    let x := s.tile t
    let vs := (s.victims t buf bank).filter (fun k => (s.evict t k).isSome)
    let pick := (vs.find? (fun k => x.victimClass k == 2)).or ((vs.find? (fun k => x.victimClass k == 3)).or vs.head?)
    pick.map (fun k => (place (x.spte k), some k))

/-- A frame of a bank for a page, an occupant written out (03 R70, R71). -/
def State.takeFrame (s : State) (t buf bank : Nat) : Option (State × Nat) :=
  match s.chooseFrame t buf bank with
  | none => none
  | some (f, none) => some (s, f)
  | some (f, some k) => (s.evict t k).map (fun s => (s, f))

/-! ### Page-ins (03 R69) -/

/-- The lines that a page-in reads as of a stamp of the running task have a version for it (04 R118, 22 R463). -/
def State.sourceOk (s : State) (t : Nat) (l : Leaf) (pa : Nat) (a : Word) : Run Unit :=
  if l.isRem || !l.ver then .ok () else (List.range 64).forM (fun i => s.stampTest (s.taskView t) (pa + 32 * i) 32 a)

/-- A page-in starts: a frame is chosen, an HBM source is translated once (22 R452). Two accesses share one page-in. A page-in that
finds no frame raises the capacity fault, at step 8 (22 R451). -/
def State.startPageIn (s : State) (t win page : Nat) (pin : Bool) (addr : Word) : Except Trap State :=
  let key := pkey win page
  let x := s.tile t
  if x.pageIns.any (fun p => p.win == win && p.page == page) then
    .ok (if pin then s.setTile t { x with pageIns := x.pageIns.map (fun p =>
      if p.win == win && p.page == page then { p with pin := true } else p) } else s)
  else
    let e := x.spte key
    match s.chooseFrame t win (bankOfPage (isV t) win page) with
    | none => .error ⟨8, 0x4002, BitVec.ofNat 10 win, addr, none⟩
    | some (f, v) =>
      let go (s : State) (tr : Option (Nat × Nat × Leaf)) : State :=
        let pi : PageIn := { win := win, page := page, frame := f, victim := v.map (fun k => (false, k)), tr := tr, pin := pin }
        (s.setTile t { x with pageIns := x.pageIns ++ [pi] }).post (.pageInComplete t win page)
      if loc e = 3 then
        let root := s.tileRoot t
        let va := backing (place e)
        match s.translate (.engine t) root va with
        | .error w => .error ⟨8, 0x3005, w.code, addr, w.table⟩
        | .ok l =>
          match l.refuse 1 false, s.sourceOk t l (l.pa va) addr with
          | some c, _ => .error ⟨8, 0x3006, c, addr, none⟩
          | none, .error (.trap x) => .error { x with step := 8 }
          | none, _ => .ok (go (s.noteTlb (.engine t) root va l) (some (asidOf root, va, l)))
      else .ok (go s none)

/-- The page a page-in brings: a polder page with its bits, or backing bytes with every granule full (03 R71, R74), poison with it; of a versioned
page as of the view's stamp (04 R118). -/
def State.sourcePage (s : State) (t : Nat) (v : View) (e : Word) (src : Option (Nat × Leaf)) (a : Word) : Run (State × Page) :=
  match src with
  | none => .ok (s, if loc e = 2 then (s.die (dieOf t)).polder.get {} (place e) else {})
  | some (va, l) => (s.unitLines (dieOf t) v l a 64 (l.pa va)).map (fun x => (x.1, Page.ofBytes x.2))

/-- The fill of a chosen frame: LOC = 1, DIRTY = 0, the place it was filled from kept (03 R69, R71). -/
def State.fillPage (s : State) (t key frame : Nat) (pin : Bool) (p : Page) : State :=
  let x := s.tile t
  let e := x.spte key
  let x := x.setFrame (key / 8192) frame p
  let x := { (x.setSpte key (mkSpte 1 pin false frame)) with home := x.home.set 0 key e }
  s.setTile t (x.touch key)

/-- A page-in of which the frame is free reads its source and fills it; a line that the overflow handler or a commit holds keeps it waiting (04 R108,
R121), and one whose stamp has been revoked drops it: its access meets the fault again (22 R463). -/
def State.bringIn (s : State) (t : Nat) (p : PageIn) : State :=
  let key := pkey p.win p.page
  let done (s : State) : State := s.setTile t { s.tile t with pageIns := (s.tile t).pageIns.filter (fun q => !(q.win == p.win && q.page == p.page)) }
  match s.sourcePage t (s.taskView t) ((s.tile t).spte key) (p.tr.map (·.2)) 0 with
  | .ok (s, pg) => (done s).fillPage t key p.frame p.pin pg
  | .error (.wait _ s) =>
    (s.setTile t { s.tile t with pageIns := (s.tile t).pageIns.map (fun q => if q.win == p.win && q.page == p.page then { q with victim := none } else q) }).post
      (.pageInComplete t p.win p.page)
  | .error (.trap _) => done s

/-- A page-in completes: the victim is written out, unless an access abandoned that (03 R72), and the page copied in. A page-in
whose victim is lost takes the next (22 R453); one that finds none is dropped, and its access, issued again, meets the fault of R451. -/
def State.finishPageIn (s : State) (t win page : Nat) : State :=
  let x := s.tile t
  match x.pageIns.find? (fun p => p.win == win && p.page == page) with
  | none => s
  | some p =>
    let rest := x.pageIns.filter (fun q => !(q.win == win && q.page == page))
    let drop := s.setTile t { x with pageIns := rest }
    if loc (x.spte (pkey win page)) < 2 then drop
    else
      let again : State :=
        match drop.chooseFrame t win (bankOfPage (isV t) win page) with
        | none => drop
        | some (f, v) =>
          (drop.setTile t { x with pageIns := rest ++ [{ p with frame := f, victim := v.map (fun k => (false, k)), abandoned := false }] }).post
            (.pageInComplete t win page)
      if p.abandoned then again
      else match p.victim with
        | none => s.bringIn t p
        | some (_, k) =>
          if loc (x.spte k) != 1 then s.bringIn t p
          else if pinned (x.spte k) then again
          else match s.evict t k with
            | none => again
            | some s => s.bringIn t p

/-! ### Stream edges (11 R334, R335) -/

/-- Fields of a stream edge entry (11 Table — Stream edge entry). -/
def recEdge (r : BitVec 2048) (i : Nat) : Word := recD r (28 + i)
def edgeV (e : Word) : Bool := e.getLsbD 63
def edgeConsumes (e : Word) : Bool := e.getLsbD 62
def edgePeer (e : Word) : Nat := bits e 61 32
def edgeWin (e : Word) : Nat := bits e 31 30
def edgeOff (e : Word) : Nat := bits e 29 17
def edgePages (e : Word) : Nat := bits e 16 4

/-- The pages of a region, as keys. -/
def regionKeys (e : Word) : List Nat := (List.range (edgePages e)).map (fun i => pkey (edgeWin e) (edgeOff e + i))

/-- Every empty granule of a page becomes full and poisoned; how many they are (23 R470). -/
def Page.fillPoison (p : Page) : Page × Nat :=
  let gs := (List.range 128).filter (fun i => !p.full.getLsbD i)
  ({ p with full := BitVec.allOnes 128, pois := gs.foldl (fun m i => setBit m i true) p.pois }, gs.length)

/-- A page of a tile's frames replaced, its entry marked dirty; every path sees it alike. -/
def Tile.putRegion (x : Tile) (running : Bool) (key : Nat) (e : Word) (p : Page) : Tile :=
  let e' := mkSpte (loc e) (pinned e) true (place e)
  let x := { x.setFrame (key / 8192) (place e) p with unseen := x.unseen.filter (fun u => !running || u.1 / 128 != key) }
  if running then (x.setSpte key e').touch key else { x with sptS := x.sptS.set 0 key e' }

/-- The pages of a list that a table of a tile has in frames and in the polder filled with poison; how many granules are. -/
def State.poisonPages (s : State) (t : Nat) (running : Bool) (spt : SMap Word) (keys : List Nat) : State × Nat :=
  keys.foldl (fun (s, n) key =>
    let e := spt.get 0 key
    if loc e = 1 then
      let (p, m) := ((s.tile t).frame (key / 8192) (place e)).fillPoison
      (s.setTile t ((s.tile t).putRegion running key e p), n + m)
    else if loc e = 2 then
      let (p, m) := ((s.die (dieOf t)).polder.get {} (place e)).fillPoison
      (s.setDie (dieOf t) ((s.die (dieOf t)).putSlot (place e) p), n + m)
    else (s, n)) (s, 0)

/-- The pages of a task whose empty granules are to be poisoned as they come to a tile (23 R470). -/
def State.badKeys (s : State) (k : Nat) : List Nat := (s.task k).bad.flatMap (fun j => regionKeys (recEdge (s.record k) j))

/-- The edge of a record whose region in a role holds a page. -/
def edgeAt (r : BitVec 2048) (consumes : Bool) (win page : Nat) : Option Nat :=
  (List.range 4).find? (fun i =>
    let e := recEdge r i
    edgeV e && edgeConsumes e == consumes && edgeWin e == win && edgeOff e ≤ page && page < edgeOff e + edgePages e)

/-- A page of the running task that is outbound. -/
def State.outbound (s : State) (t win page : Nat) : Option Nat :=
  if (s.tile t).run.isSome then edgeAt (s.runRec t) false win page else none

/-- Permits a producer's edge has left (11 R335): 128 per page less those spent; none while the consumer's dike holds it (15 R396). A closed
edge takes none (23 R470). -/
def State.permitsLeft (s : State) (k i : Nat) : Nat :=
  let x := s.task k
  if x.closed.get false i then 2 ^ 32 else if x.held.get false i then 0 else 128 * edgePages (recEdge (s.record k) i) - x.permits.get 0 i

/-- A change of a launch, where there is one. -/
def State.onLaunch (s : State) (id : Option Nat) (f : Launch → Launch) : State :=
  match id with
  | none => s
  | some i => match s.launches.find i with
    | none => s
    | some l => { s with launches := s.launches.put i (f l) }

/-- The launch that an agent works for (02 R55): its task's, or that of the message its awn core handles (log 38). -/
def State.launchOf (s : State) (a : Agent) : Option Nat :=
  if a.isAwn then (s.tile a.tile).msg.bind (fun m => m.1.launch) else (s.tile a.tile).run.bind (fun k => (s.task k).owner)

/-- Messages sent, and received, by the unit of a key; tokens added to a balance (02 R55). -/
def Launch.send (l : Launch) (key n : Nat) : Launch := { l with sent := l.sent.set 0 key (l.sent.get 0 key + n) }
def Launch.receive (l : Launch) (key n : Nat) : Launch := { l with recv := l.recv.set 0 key (l.recv.get 0 key + n) }
def Launch.credit (l : Launch) (key : Nat) (n : Int) : Launch := { l with bal := l.bal.set 0 key (l.bal.get 0 key + n) }

/-- The launch and key under which an agent's tokens are counted (02 R55). -/
def State.makerOf (s : State) (a : Agent) : Option (Nat × Nat) :=
  (s.tile a.tile).run.bind (fun k => (s.task k).owner.map (fun id => (id, (s.task k).serial * 4096 + (s.tile a.tile).rank * 16 + a.ctx)))

/-- The balance of a token's producer changes. -/
def State.balance (s : State) (m : Option (Nat × Nat)) (n : Int) : State := s.onLaunch (m.map (·.1)) (fun l => l.credit ((m.map (·.2)).getD 0) n)

/-- How many configuration tokens stand at an input of a router before what reaches it now (02 R51). -/
def Tile.behindOf (x : Tile) (port : Nat) : Nat := (x.tokens.filter (fun k => k.2 == port)).length

/-- A slot table cycle is pending for a die; where none was, the slot counter goes on from this cycle (12 R347). -/
def State.postSlots (s : State) (d : Nat) : State :=
  if s.agenda.contains (.slotTableCycle d) then s
  else (s.setDie d { s.die d with slotAt := max (s.die d).slotAt s.time }).post (.slotTableCycle d)

/-- A granule leaves for the consumer: one permit is spent (11 R335), and the flit waits at the tile for a slot of its circuit (12 R348). On
a closed edge it is discarded (23 R470). -/
def State.sendGranule (s : State) (a : Agent) (g : EdgeGranule) : State :=
  let k := g.task
  let i := g.edge
  let x := s.task k
  if x.closed.get false i then s else
  let s := s.setTask k { x with permits := x.permits.set 0 i (x.permits.get 0 i + 1), forwarded := x.forwarded.set 0 i (x.forwarded.get 0 i + 1) }
  let m := s.makerOf a
  let s := s.balance m 1
  let t := s.tile a.tile
  (s.setTile a.tile { t with c0 := t.c0 ++ [{ g with maker := m, behind := t.behindOf 0 }] }).postSlots (dieOf a.tile)

/-- The producer's edge that matches a consumer's edge (11 R322). -/
def State.peerEdge (s : State) (k i : Nat) : Option (Nat × Nat) :=
  let e := recEdge (s.record k) i
  let p := edgePeer e % 2 ^ 20
  ((List.range 4).find? (fun j =>
    let f := recEdge (s.record p) j
    edgeV f && edgeConsumes f != edgeConsumes e && edgePeer f == s.tid k && edgeWin f == edgeWin e && edgePages f == edgePages e)).map (fun j => (p, j))

/-- The producer's edge whose granules a page of the running task holds, where it lies in an inbound region. -/
def State.fedBy (s : State) (t key : Nat) : Option (Nat × Nat) :=
  (s.tile t).run.bind (fun k => (edgeAt (s.record k) true (key / 8192) (key % 8192)).bind (fun i => s.peerEdge k i))

/-- The token of a granule that a clearing read has emptied is acknowledged (02 R55): by a permit that goes back to the producer of an inbound
region (11 R335), else at once. -/
def State.ackToken (s : State) (t key g : Nat) : State :=
  let m := (s.tile t).makers.find (key * 128 + g)
  let s := s.setTile t { s.tile t with makers := (s.tile t).makers.del (key * 128 + g) }
  match s.fedBy t key with
  | some (p, j) => s.post (.permitReturn p ⟨j, m⟩)
  | none => s.balance m (-1)

/-- A clearing read of granules of a page empties them. -/
def State.clearGranules (s : State) (t key : Nat) (gs : List Nat) : State :=
  let x := s.tile t
  gs.foldl (fun s g => s.ackToken t key g) (s.setTile t ((x.setPage key ((x.page key).setFull gs false)).touch key))

/-- A full-empty store of an agent produces a token on each empty granule that it fills (02 R55; log 38). -/
def State.produce (s : State) (a : Agent) (gs : List (Nat × Nat)) : State :=
  gs.foldl (fun s g =>
    match s.makerOf a with
    | some m => if ((s.tile a.tile).page g.1).full.getLsbD g.2 then s
      else (s.balance (some m) 1).setTile a.tile { s.tile a.tile with makers := (s.tile a.tile).makers.put (g.1 * 128 + g.2) m }
    | none => s) s

end Sys2Proof.Machine
end

