-- ==== Sys2Proof/Machine/Memory.lean ====
section
/-! DEFINITION. Memory accesses: checks, loads and stores of byte ranges (03 R58 to R62, 04 R90 to R121, 08 R196, R198). -/

namespace Sys2Proof.Machine

/-! ### Stores that wait at their homes (04 R108, R121) -/

/-- A write of a context to its line's home, for an op: performed, or held there with the op and what it was translated from. -/
def State.homeStore (s : State) (a : Agent) (id pa : Nat) (bs : List Byte) (p ver : Bool) (tr : Option (Nat × Nat × Leaf)) : State :=
  s.arriveWrite { kind := 0, agent := a, pa := pa, data := bs, poisoned := p, ver := ver } (some id) tr

/-! ### Checks (08 R196, 21 R434 step 7) -/

/-- The executing agent. -/
def State.who (s : State) : Who := ⟨s.cur, s.root s.cur, s.handler, false, s.path, []⟩

/-- Where bytes lie: global memory under a leaf, a scratchpad page, or an outbound page of a stream edge. -/
inductive Place where
  | glob (va : Nat) (l : Leaf)
  | sp (win page off : Nat)
  | edge (i win page off : Nat)
  deriving DecidableEq, Repr

/-- Translation and permission of a global address (step 7f); `a` is the address as the op formed it. -/
def checkGlobal (s : State) (w : Who) (a : Word) (va kind : Nat) : Run Place :=
  match s.translateFor w va with
  | .error e => .error (.trap ⟨7, 0x3005, e.code, a, e.table⟩)
  | .ok l =>
    match l.refuse kind w.hand with
    | some c => .error (.trap ⟨7, 0x3006, c, a, none⟩)
    | none => .ok (.glob va l)

/-- The checks of `n` bytes at `a`, which do not pass a 32-byte boundary (steps 7b to 7f), of an op that formed the address `ea`, which TADDR reports
(21 R432). `fe` asks for windows A and C. -/
def checkBytes (s : State) (w : Who) (ea a : Word) (n kind : Nat) (fe : Bool) : Run Place :=
  let v := isV w.agent.tile
  let off := offset a
  match windowOf a with
  | none => raise 7 0x3003 0 ea
  | some 4 => do
    need (!fe) 7 0x7005 0 ea
    checkGlobal s w ea off kind
  | some 3 => do
    need (off + n ≤ areaSize (s.runRec w.agent.tile)) 7 0x3003 1 ea
    need (!w.agent.isAwn) 7 0x3004 0 ea
    need (!fe) 7 0x7005 0 ea
    checkGlobal s w ea (offset (privAlias (s.runRec w.agent.tile) w.agent.ctx off)) kind
  | some win => do
    need (off + n ≤ windowPages v win * 2048) 7 0x3003 1 ea
    need (!(fe && win == 1)) 7 0x7005 0 ea
    let page := off / 2048
    let x := s.tile w.agent.tile
    if x.run.isNone then raise 7 0x4001 win ea
    else if loc (x.spte (pkey win page)) ≠ 0 then .ok (.sp win page (off % 2048))
    else match (if kind = 2 then s.outbound w.agent.tile win page else none) with
      | some i => .ok (.edge i win page (off % 2048))
      | none => raise 7 0x4001 win ea

/-- The checks of a piece that is an address of its own. -/
def checkPiece (s : State) (w : Who) (a : Word) (n kind : Nat) (fe : Bool) : Run Place := checkBytes s w a a n kind fe

/-- A byte range as pieces that do not pass a 32-byte boundary. -/
def pieces : Nat → Word → Nat → List (Word × Nat)
  | 0, _, _ => []
  | fuel + 1, a, n =>
    if n = 0 then []
    else
      let k := min n (32 - a.toNat % 32)
      (a, k) :: pieces fuel (a + wd k) (n - k)

/-- A range as pieces. -/
def cut (a : Word) (n : Nat) : List (Word × Nat) := pieces (n / 32 + 2) a n

/-- All pieces of an access at address `ea` checked, in order. -/
def checkAt (s : State) (w : Who) (ea : Word) (kind : Nat) (fe : Bool) (ps : List (Word × Nat)) : Run (List Place) :=
  ps.mapM (fun p => checkBytes s w ea p.1 p.2 kind fe)

/-- All pieces checked, in order, of an access at the address of the first. -/
def checkAll (s : State) (w : Who) (kind : Nat) (fe : Bool) (ps : List (Word × Nat)) : Run (List Place) :=
  checkAt s w ((ps.headD (0, 0)).1) kind fe ps

/-- The stamp tests of a checked piece under a view (21 R434 step 7g). -/
def viewTest (s : State) (v : View) (ea : Word) (n : Nat) (p : Place) : Run Unit :=
  match p with
  | .glob va l => if l.ver && !l.isRem then s.stampTest v (l.pa va) n ea else .ok ()
  | _ => .ok ()

/-- The stamp tests of checked pieces, in order. -/
def viewTests (s : State) (v : View) (ea : Word) (ps : List ((Word × Nat) × Place)) : Run Unit := ps.forM (fun p => viewTest s v ea p.1.2 p.2)

/-- Alignment (step 7a), CODE its base-2 logarithm. -/
def aligned (a : Word) (n : Nat) : Run Unit := need (a.toNat % n == 0) 7 0x3002 n.log2 a

/-- The scratchpad pages of places that no frame holds start their page-ins, and the context waits (02 R33, 22 R450, R451). -/
def reside (s : State) (t : Nat) (pl : List Place) (a : Word) : Run Unit :=
  let absent := pl.filterMap (fun p => match p with
    | .sp win page _ => if loc ((s.tile t).spte (pkey win page)) = 1 then none else some (win, page)
    | _ => none)
  match absent.dedup with
  | [] => .ok ()
  | (w, p) :: rest =>
    match ((w, p) :: rest).foldlM (fun s q => s.startPageIn t q.1 q.2 false a) s with
    | .error t => .error (.trap t)
    | .ok s' => .error (.wait (.residence w p) s')

/-! ### Loads -/

/-- The bytes of a piece of global memory under a view; the state keeps the fill (04 R102 to R111, R116 to R119). A load waits for a store of
its agent to the line that the home still holds (R92). -/
def readGlobal (s : State) (w : Who) (v : View) (pod : Bool) (a : Word) (va : Nat) (l : Leaf) (n : Nat) :
    Run (State × List (Byte × Bool)) :=
  let pa := l.pa va
  let s := s.noteTlb w.tlb w.root va l
  if s.heldReqs.any (fun h => h.req.agent == w.agent && h.req.pa / 32 == pa / 32) then .error (.wait (.structural (.line (pa / 32))) s)
  else if l.isRem then .ok (readRemote s w pod l pa n)
  else readLocal s w v l pa n a

/-- The bytes of a checked place. -/
def readPlace (s : State) (w : Who) (v : View) (pod : Bool) (a : Word) (n : Nat) (p : Place) : Run (State × List (Byte × Bool)) :=
  match p with
  | .glob va l => readGlobal s w v pod a va l n
  | .sp win page off =>
    let x := s.tile w.agent.tile
    .ok (s.setTile w.agent.tile (x.touch (pkey win page)), x.readAs w.path (pkey win page) off n)
  | .edge .. => .ok (s, [])

/-- The bytes of checked places in order. -/
def readAll (s : State) (w : Who) (v : View) (pod : Bool) :
    List ((Word × Nat) × Place) → Run (State × List (Byte × Bool))
  | [] => .ok (s, [])
  | (p, pl) :: rest => do
    let (s, b) ← readPlace s w v pod p.1 p.2 pl
    let (s, bs) ← readAll s w v pod rest
    .ok (s, b ++ bs)

/-- The executing context has performed some pieces of its access, with the bytes read. -/
def State.setProg (s : State) (got : List (List (Byte × Bool))) : State := s.setMe { s.me with prog := got }

/-- The pieces of a load of the executing context are read one after another, each page brought in when its turn comes (02 R33); `got` is what earlier
ones gave. A wait keeps that, and the load goes on from there when it issues again. `a` is the address of the op; of an op with several each piece is
one. -/
def loadRest (s : State) (v : View) (pod : Bool) (a : Option Word) (got : List (List (Byte × Bool))) :
    List ((Word × Nat) × Place) → Run (State × List (List (Byte × Bool)))
  | [] => .ok (s, got)
  | x :: rest =>
    let ea := a.getD x.1.1
    match (do reside s s.cur.tile [x.2] ea; readPlace s s.who v pod ea x.1.2 x.2) with
    | .ok (s, b) => loadRest s v pod a (got ++ [b]) rest
    | .error (.wait w s) => .error (.wait w (s.setProg got))
    | .error e => .error e

/-- Checked pieces of the executing context's load are read. -/
def loadChecked (s : State) (v : View) (pod : Bool) (a : Option Word) (ps : List ((Word × Nat) × Place)) : Run (State × List (Byte × Bool)) :=
  (loadRest s v pod a s.me.prog (ps.drop s.me.prog.length)).map (fun x => (x.1.setProg [], x.2.flatten))

/-- Checked pieces that a store of the executing context reads before it writes (scale records); what they gave is kept ahead of what it writes. -/
def loadAhead (s : State) (ps : List ((Word × Nat) × Place)) (a : Word) : Run (State × List (List (Byte × Bool))) :=
  loadRest s .now false (some a) (s.me.prog.take ps.length) (ps.drop s.me.prog.length)

/-- A load of a list of pieces on path 0: all checks, then the bytes, piece by piece (08 R196, R198). -/
def loadPieces (s : State) (v : View) (kind : Nat) (fe pod : Bool) (ps : List (Word × Nat)) (a : Word) :
    Run (State × List (Byte × Bool)) := do
  let pl ← checkAt s s.who a kind fe ps
  viewTests s v a (ps.zip pl)
  loadChecked s v pod (some a) (ps.zip pl)

/-! ### Stores -/

/-- A store to a versioned page in an open transaction enters the write set; a 257th line loses it; a lost one discards (04 R119, 21 R442). -/
def Ctx.txStore (c : Ctx) (line o : Nat) (bs : List Byte) : Ctx :=
  if c.tx.state = 5 then c
  else
    let fresh := (c.tx.lines.find line).isNone
    if fresh && c.tx.lines.length ≥ 256 then { c with tx := { c.tx with state := 5, lines := [] } }
    else
      let e := c.tx.lines.get {} line
      let e' : TxLine := { data := patch e.data o bs, mask := e.mask ||| BitVec.ofNat 32 ((2 ^ bs.length - 1) * 2 ^ o) }
      { c with tx := { c.tx with lines := c.tx.lines.put line e' } }

/-- Bytes stored to a checked global place by an agent, for an op (04 R102, R109, R112, R119). -/
def writeGlobal (s : State) (w : Who) (ctx0 : Bool) (id va : Nat) (l : Leaf) (bs : List (Byte × Bool)) : State :=
  let pa := l.pa va
  let s := s.noteTlb w.tlb w.root va l
  let raw := bs.map (·.1)
  if l.isRem then
    if l.nc then s.remWrite (dieOf w.agent.tile) pa raw (bs.any (·.2))
    else if w.engine then s.l2Store (dieOf w.agent.tile) pa l.entry raw (bs.any (·.2))
    else s.remStore w.agent.tile pa l.entry raw (bs.any (·.2))
  else if ctx0 && l.ver && (s.ctx w.agent).txo then
    s.setCtx w.agent ((s.ctx w.agent).txStore (pa / 32) (pa % 32) raw)
  else s.homeStore w.agent id pa raw (bs.any (·.2)) l.ver (some (asidOf w.root, va, l))

/-- The granules that bytes written to an outbound page of edge i make (11 R334). -/
def edgeGranules (k i page off : Nat) (bs : List (Byte × Bool)) : List EdgeGranule :=
  (granules off bs.length).map (fun g =>
    let mine := (List.range bs.length).filter (fun j => (off + j) / 16 == g)
    let data := mine.foldl (fun (acc : Nat) j => acc + ((bs[j]?).getD (0, false)).1.toNat * 2 ^ (8 * ((off + j) % 16))) 0
    let mask := mine.foldl (fun (acc : Nat) j => acc + 2 ^ ((off + j) % 16)) 0
    { task := k, edge := i, gran := page * 128 + g, data := BitVec.ofNat 128 data, mask := BitVec.ofNat 16 mask,
      poisoned := mine.any (fun j => ((bs[j]?).getD (0, false)).2) })

/-- The granules for stream edges among bytes stored to checked places, in order. -/
def placeGranules (k : Nat) : List ((Word × Nat) × Place) → List (Byte × Bool) → List EdgeGranule
  | [], _ => []
  | (p, pl) :: rest, bs =>
    (match pl with
     | .edge i _ page off => edgeGranules k i page off (bs.take p.2)
     | _ => []) ++ placeGranules k rest (bs.drop p.2)

/-- Granules leave one after another for as long as their edges have permits (11 R335): how many have left, and the edge that has none. -/
def State.sendEdges (s : State) (a : Agent) : Nat → List EdgeGranule → State × Nat × Option Nat
  | n, [] => (s, n, none)
  | n, g :: gs => if s.permitsLeft g.task g.edge = 0 then (s, n, some g.edge) else (s.sendGranule a g).sendEdges a (n + 1) gs

/-- The granules of a write of which `done` have left go on leaving. -/
def State.sendRest (s : State) (a : Agent) (done : Nat) (gs : List EdgeGranule) : State × Nat × Option Nat :=
  if gs.isEmpty then (s, 0, none) else s.sendEdges a done (gs.drop done)

/-- The granules of checked places in scratchpad windows, by page key and number in the page, each once. -/
def stripGranules (ps : List ((Word × Nat) × Place)) : List (Nat × Nat) :=
  (ps.flatMap (fun p => match p.2 with
    | .sp win page off => (granules off p.1.2).map (fun g => (pkey win page, g))
    | _ => [])).dedup

/-- By whom an access writes (04 R96, R97): an engine for the agent that issued its op; path 6 stands for the merge unit, which no context has issued. -/
def State.writer (s : State) (w : Who) (id : Nat) : Option Writer :=
  if w.path ≥ 6 then none
  else
    let a := if w.engine then ((s.ops.find id).map (·.agent)).getD w.agent else w.agent
    some ⟨w.path, a, (s.tile a.tile).run⟩

/-- Bytes stored to a checked place; those of an outbound page have left (`sendRest`). `fill` sets full-empty bits (03 R76). -/
def writePlace (s : State) (w : Who) (ctx0 fill : Bool) (id : Nat) (bs : List (Byte × Bool)) (p : Place) : State :=
  match p with
  | .glob va l => writeGlobal s w ctx0 id va l bs
  | .sp win page off => s.setTile w.agent.tile ((s.tile w.agent.tile).spWrite (s.writer w id) (pkey win page) off bs fill)
  | .edge .. => s

/-- Bytes stored to checked places in order. -/
def writeAll (s : State) (w : Who) (ctx0 fill : Bool) (id : Nat) : List ((Word × Nat) × Place) → List (Byte × Bool) → State
  | [], _ => s
  | (p, pl) :: rest, bs =>
    writeAll (writePlace s w ctx0 fill id (bs.take p.2) pl) w ctx0 fill id rest (bs.drop p.2)

/-- The pieces of a store that lie in scratchpad pages, each with its bytes and whether it sets full-empty bits; and those of memory. -/
def spChunks (fill : Bool) : List ((Word × Nat) × Place) → List (Byte × Bool) → List (((Word × Nat) × Place) × List (Byte × Bool) × Bool)
  | [], _ => []
  | (p, pl) :: rest, bs => (match pl with
    | .sp .. => [((p, pl), bs.take p.2, fill)]
    | _ => []) ++ spChunks fill rest (bs.drop p.2)
def globChunks : List ((Word × Nat) × Place) → List (Byte × Bool) → List (Place × List (Byte × Bool))
  | [], _ => []
  | (p, pl) :: rest, bs => (match pl with
    | .glob .. => [(pl, bs.take p.2)]
    | _ => []) ++ globChunks rest (bs.drop p.2)

/-- The scratchpad pieces of a store of the executing context are written one after another, each page brought in when its turn comes (02 R33); `n` are
written. A full-empty store produces tokens (02 R55). A wait keeps `pre`, what the op has read, and how many are written, and the store goes on from there. -/
def storeSp (s : State) (tok : Bool) (a : Option Word) (pre : List (List (Byte × Bool))) (n : Nat) : List (((Word × Nat) × Place) × List (Byte × Bool) × Bool) → Run State
  | [] => .ok (s.setProg (pre ++ List.replicate n []))
  | (x, bs, fill) :: rest =>
    match reside s s.cur.tile [x.2] (a.getD x.1.1) with
    | .ok _ =>
      let s := if tok then s.produce s.cur (stripGranules [x]) else s
      storeSp (writePlace s s.who true fill 0 bs x.2) tok a pre (n + 1) rest
    | .error (.wait w s) => .error (.wait w (s.setProg (pre ++ List.replicate n [])))
    | .error e => .error e

/-- A port with the global bytes of places (03 R87). -/
def portOf (p : Port) (pl : List ((Word × Nat) × Place)) : Port :=
  pl.foldl (fun p x => match x.2 with
    | .glob va _ => portAdd p va x.1.2
    | _ => p) p

/-- The granules for stream edges of a store of the executing context leave (11 R335): it waits while an edge has no permit, and goes on from
there when it issues again. -/
def sendMine (s : State) (gs : List EdgeGranule) : Run State :=
  match s.sendRest s.cur s.me.edgeSent gs with
  | (s, n, some i) => .error (.wait (.structural (.permits i)) (s.setMe { s.me with edgeSent := n }))
  | (s, _, none) => .ok (if gs.isEmpty then s else s.setMe { s.me with edgeSent := 0 })

/-- A store whose scratchpad pieces are written issues: the pieces of `ps` and `qs` that lie in memory take their bytes, of `bs` and `cs`; the op
completes with the last of its writes (08 R196, R198, 04 R94). The bytes enter the context's port as they are stored; those of an open transaction
too, so that one that aborts leaves them in the range (DESIGN CHOICE, log 50: R87 does not say when such a store enters it). -/
def putPieces (s : State) (kw : BitVec 3) (ps qs : List ((Word × Nat) × Place)) (bs cs : List (Byte × Bool)) : State :=
  let w := s.who
  let id := s.nextOp
  let s := s.issueOp s.path kw .none
  let s := s.setMe { s.me with port := portOf s.me.port (ps ++ qs), prog := [] }
  let s := (globChunks ps bs ++ globChunks qs cs).foldl (fun s x => writePlace s w true false id x.2 x.1) s
  if ((s.ops.find id).map (·.need)).getD 0 = 0 then s.post (.operationCompletion id) else s

/-- A store of checked pieces on path 0 under an op that has not issued, with further pieces `qs` (scale records), which touch no full-empty bit, behind
them: the scratchpad pieces, the granules for stream edges, then the op issues with the rest. `pre` is what the op has read before. -/
def storeChecked (s : State) (fill : Bool) (kw : BitVec 3) (pre : List (List (Byte × Bool))) (ps qs : List ((Word × Nat) × Place)) (a : Option Word)
    (bs cs : List (Byte × Bool)) : Run State := do
  let n := s.me.prog.length - pre.length
  let s ← storeSp s fill a pre n ((spChunks (fill || s.cur.isAwn) ps bs ++ spChunks false qs cs).drop n)
  let k := ((s.tile s.cur.tile).run).getD 0
  let s ← sendMine s (placeGranules k ps bs ++ placeGranules k qs cs)
  .ok (putPieces s kw ps qs bs cs)

/-- A store of a list of pieces on path 0, `qs` behind them: all checks, then the writes. -/
def storePieces (s : State) (fe fill : Bool) (kw : BitVec 3) (ps qs : List (Word × Nat)) (a : Word) (bs cs : List (Byte × Bool)) : Run State := do
  let pl ← checkAt s s.who a 2 fe ps
  let ql ← checkAt s s.who a 2 false qs
  storeChecked s fill kw [] (ps.zip pl) (qs.zip ql) (some a) bs cs

end Sys2Proof.Machine
end

