-- ==== Sys2Proof/Machine/Formats.lean ====
section
/-! DEFINITION. Number formats (05_number_formats.md): exact values, decoding, Round, exact sums, conversion, quantisation, the
special functions, and the event each result counts. -/

namespace Sys2Proof.Machine

/-! ### Exact values -/

/-- A value held exactly: NaN, an infinity, or (-1)^neg x m x 2^e; a zero keeps its sign (05 R124, R127). -/
inductive Num where
  | nan
  | inf (neg : Bool)
  | fin (neg : Bool) (m : Nat) (e : Int)
  deriving DecidableEq, Repr

def Num.zero : Num := .fin false 0 0
def Num.ofInt (x : Int) : Num := .fin (decide (x < 0)) x.natAbs 0

def Num.isNan : Num → Bool
  | .nan => true
  | _ => false
def Num.isInf : Num → Bool
  | .inf _ => true
  | _ => false
def Num.isFin (x : Num) : Bool := !x.isNan && !x.isInf
def Num.isZero : Num → Bool
  | .fin _ m _ => m == 0
  | _ => false
def Num.isNeg : Num → Bool
  | .nan => false
  | .inf n => n
  | .fin n _ _ => n

def Num.neg : Num → Num
  | .nan => .nan
  | .inf n => .inf (!n)
  | .fin n m e => .fin (!n) m e

/-- The exact product; a zero times an infinity is NaN (05 R134). -/
def Num.mul : Num → Num → Num
  | .nan, _ => .nan
  | _, .nan => .nan
  | .inf a, .inf b => .inf (a != b)
  | .inf a, .fin b m _ => if m = 0 then .nan else .inf (a != b)
  | .fin a m _, .inf b => if m = 0 then .nan else .inf (a != b)
  | .fin a m e, .fin b m' e' => .fin (a != b) (m * m') (e + e')

/-- The signed significand of a finite value at exponent `e0`, at most its own. -/
def Num.at (e0 : Int) : Num → Int
  | .fin n m e => (if n then -1 else 1) * (m * 2 ^ (e - e0).toNat : Nat)
  | _ => 0

/-- The least exponent of the finite values of a list. -/
def minExp (xs : List Num) : Int :=
  xs.foldl (fun acc x => match x with
    | .fin _ m e => if m = 0 then acc else min acc e
    | _ => acc) 0

/-- ExactSum (05 R134): NaN for a NaN term or both infinities; an infinity; else the exact sum, a zero sum being -0 only when every
term is -0. -/
def exactSum (xs : List Num) : Num :=
  if xs.any Num.isNan || (xs.contains (.inf true) && xs.contains (.inf false)) then .nan
  else if xs.contains (.inf true) then .inf true
  else if xs.contains (.inf false) then .inf false
  else
    let e0 := minExp xs
    let t := (xs.map (Num.at e0)).foldl (· + ·) 0
    if t = 0 then .fin (!xs.isEmpty && xs.all (fun x => x.isZero && x.isNeg)) 0 0
    else .fin (decide (t < 0)) t.natAbs e0

/-- Comparison of values that are not NaN: less than, -0 equal to +0. -/
def Num.lt (x y : Num) : Bool :=
  match x, y with
  | .inf a, .inf b => a && !b
  | .inf a, _ => a
  | _, .inf b => !b
  | x, y => let e0 := minExp [x, y]; decide (x.at e0 < y.at e0)

/-- Order with -0 below +0, as fmin and fmax take it (07 Table — Scalar floating-point operations). -/
def Num.below (x y : Num) : Bool := x.lt y || (x.isZero && y.isZero && x.isNeg && !y.isNeg)

/-! ### Formats -/

/-- A floating format (05 Table — Floating-point parameters): significand bits, emin, exponent bits, largest finite encoding,
whether it has infinities, canonical NaN. -/
structure FloatFmt where
  p : Nat
  emin : Int
  ebits : Nat
  maxBits : Nat
  hasInf : Bool
  nan : Nat
  deriving DecidableEq, Repr

def f32 : FloatFmt := ⟨24, -126, 8, 0x7F7FFFFF, true, 0x7FC00000⟩
def bf16 : FloatFmt := ⟨8, -126, 8, 0x7F7F, true, 0x7FC0⟩
def f16 : FloatFmt := ⟨11, -14, 5, 0x7BFF, true, 0x7E00⟩
def e4m3 : FloatFmt := ⟨4, -6, 4, 0x7E, false, 0x7F⟩
def e5m2 : FloatFmt := ⟨3, -14, 5, 0x7B, true, 0x7E⟩
def e2m1 : FloatFmt := ⟨2, 0, 2, 0x7, false, 0x0⟩

/-- The floating format of a type code (06 Table — Type codes). -/
def floatOf (ty : Nat) : Option FloatFmt :=
  if ty = 6 then some f32 else if ty = 7 then some bf16 else if ty = 8 then some f16 else if ty = 9 then some e4m3
  else if ty = 10 then some e5m2 else if ty = 11 then some e2m1 else none

/-- A signed integer type. -/
def tySigned (ty : Nat) : Bool := ty % 2 = 0 && (ty ≤ 5 || ty == 12)

/-- Range of an integer type. -/
def tyMin (ty : Nat) : Int := if tySigned ty then -(2 ^ (tyWidth ty - 1) : Nat) else 0
def tyMax (ty : Nat) : Int := if tySigned ty then (2 ^ (tyWidth ty - 1) : Nat) - 1 else (2 ^ tyWidth ty : Nat) - 1

/-- The integer that w bits denote. -/
def intOf (signed : Bool) (w x : Nat) : Int := if signed && x ≥ 2 ^ (w - 1) then (x : Int) - (2 ^ w : Nat) else x

/-- The w low bits of an integer. -/
def bitsOfInt (w : Nat) (x : Int) : Nat := (x % (2 ^ w : Nat)).toNat

/-- The exact value of the bits of a floating format (05 R124). -/
def FloatFmt.decode (f : FloatFmt) (x : Nat) : Num :=
  let fb := f.p - 1
  let neg := (x >>> (fb + f.ebits)) % 2 == 1
  let e := (x >>> fb) % 2 ^ f.ebits
  let frac := x % 2 ^ fb
  let mag := x % 2 ^ (fb + f.ebits)
  if mag > f.maxBits then (if f.hasInf && frac = 0 then .inf neg else .nan)
  else if e = 0 then .fin neg frac (f.emin - fb)
  else .fin neg (2 ^ fb + frac) (f.emin - fb + (e - 1 : Int))

/-- The exact value of an element of a type (05 R123, R124). -/
def decodeTy (ty x : Nat) : Num :=
  match floatOf ty with
  | some f => f.decode x
  | none => if ty = 14 then (if x = 255 then .nan else .fin false 1 ((x : Int) - 127)) else .ofInt (intOf (tySigned ty) (tyWidth ty) x)

/-! ### Rounding (05 R127 to R129) -/

/-- RoundToInt of num / den under a mode: 0 RNE, 1 RTZ, 2 RUP, 3 RDN, for a value of sign neg. -/
def roundRat (neg : Bool) (num den rm : Nat) : Nat :=
  let q := num / den
  let r := num % den
  if r = 0 then q
  else if rm = 0 then (if 2 * r > den || (2 * r = den && q % 2 = 1) then q + 1 else q)
  else if rm = 1 then q
  else if rm = 2 then (if neg then q else q + 1)
  else (if neg then q + 1 else q)

/-- Bits of the magnitude n x 2^(e - p + 1), where n is below 2^(p-1) only at e = emin. -/
def FloatFmt.mag (f : FloatFmt) (n : Nat) (e : Int) : Nat :=
  let n' := if n ≥ 2 ^ f.p then n / 2 else n
  let e' := if n ≥ 2 ^ f.p then e + 1 else e
  if n' < 2 ^ (f.p - 1) then n' else (e' - f.emin + 1).toNat * 2 ^ (f.p - 1) + (n' - 2 ^ (f.p - 1))

/-- The bits of a sign and a magnitude. -/
def FloatFmt.signed (f : FloatFmt) (neg : Bool) (m : Nat) : Nat := b2n neg * 2 ^ (f.p - 1 + f.ebits) + m

/-- The infinity encoding. -/
def FloatFmt.infMag (f : FloatFmt) : Nat := (2 ^ f.ebits - 1) * 2 ^ (f.p - 1)

/-- Round of the exact positive quotient num / den x 2^e with a sign: the bits, and whether the result is the largest finite value
in place of a larger one (05 R127, R128). -/
def FloatFmt.roundQuot (f : FloatFmt) (neg : Bool) (num den : Nat) (e : Int) (rm : Nat) (e4ns : Bool) : Nat × Bool :=
  let lg0 : Int := (num.log2 : Int) - den.log2
  let lg : Int := if (if lg0 ≥ 0 then num < den * 2 ^ lg0.toNat else num * 2 ^ (-lg0).toNat < den) then lg0 - 1 else lg0
  let ex := max (lg + e) f.emin
  let sh := e - (ex - f.p + 1)
  let n := if sh ≥ 0 then roundRat neg (num * 2 ^ sh.toNat) den rm else roundRat neg num (den * 2 ^ (-sh).toNat) rm
  let m := f.mag n ex
  if m > f.maxBits then
    let toward := rm == 0 || (rm == 2 && !neg) || (rm == 3 && neg)
    if f = e4m3 && e4ns && toward then (f.nan, false)
    else if f.hasInf && toward then (f.signed neg f.infMag, false)
    else (f.signed neg f.maxBits, true)
  else (f.signed neg m, false)

/-- Round(x, F, rm) (05 R127): the bits and whether they saturate. A NaN into e2m1 gives +0 (05 R128). -/
def FloatFmt.round (f : FloatFmt) (x : Num) (rm : Nat) (e4ns : Bool) : Nat × Bool :=
  match x with
  | .nan => (f.nan, false)
  | .inf n => if f.hasInf then (f.signed n f.infMag, false) else if f = e4m3 && e4ns then (f.nan, false) else (f.signed n f.maxBits, false)
  | .fin n m e => if m = 0 then (f.signed n 0, false) else f.roundQuot n m 1 e rm e4ns

/-- The integer nearest an exact value under a mode, before saturation. -/
def Num.toInt (x : Num) (rm : Nat) : Int :=
  match x with
  | .fin n m e =>
    let k := if e ≥ 0 then m * 2 ^ e.toNat else roundRat n m (2 ^ (-e).toNat) rm
    if n then -(k : Int) else k
  | _ => 0

/-! ### Events (05 Table — Conversion events): 0 NANS, 1 CLAMPS, 2 OVFINF, 3 SATS, 4 FLUSHES -/

/-- The event of a floating result: inputs, exact value is not zero, result, and whether it saturated. -/
def floatEvent (ins : List Num) (nonzero : Bool) (r : Num) (sat : Bool) : Option Nat :=
  if r.isNan then (if ins.any Num.isNan then none else some 0)
  else if r.isFin && ins.any (fun x => !x.isFin) then some 1
  else if r.isInf then (if ins.all Num.isFin then some 2 else none)
  else if sat then some 3
  else if r.isZero && nonzero then some 4 else none

/-- A value rounded into a format with the event it counts. -/
def FloatFmt.result (f : FloatFmt) (ins : List Num) (x : Num) (rm : Nat) (e4ns : Bool) : Nat × Option Nat :=
  let (b, sat) := f.round x rm e4ns
  (b, floatEvent ins (x.isFin && !x.isZero) (f.decode b) sat)

/-- A value converted to an integer type (05 R129) with its event. -/
def toIntTy (x : Num) (w rm : Nat) (lo hi : Int) : Nat × Option Nat :=
  match x with
  | .nan => (0, some 1)
  | .inf n => (bitsOfInt w (if n then lo else hi), some 1)
  | x =>
    let k := x.toInt rm
    if k < lo then (bitsOfInt w lo, some 3) else if k > hi then (bitsOfInt w hi, some 3)
    else (bitsOfInt w k, if k = 0 && !x.isZero then some 4 else none)

/-- The e8m0 code of a value: Round with one significand bit, NaN 0xFF (05 R124, R127). The format has no zero, no sign and no infinity: the code of a
value that rounds to none of its powers of two is free (DESIGN CHOICE, log 47). -/
def toE8m0 (x : Num) (rm : Nat) : Nat :=
  match x with
  | .nan => 255
  | .inf n => (Config.e8m0Code n 0 1).toNat
  | .fin n m e =>
    let b := max (-127) ((m.log2 : Int) + e)
    let k := if e ≥ b then m * 2 ^ (e - b).toNat else roundRat n m (2 ^ (b - e).toNat) rm
    let c := b + 127 + (k.log2 : Int)
    if n || m = 0 || k = 0 || decide (c > 254) then (Config.e8m0Code n m e).toNat else c.toNat

/-- Convert an exact value into type T (05 R127 to R129, 09 R260). -/
def convertTo (x : Num) (ty rm : Nat) (e4ns : Bool) : Nat × Option Nat :=
  if ty = 14 then (toE8m0 x rm, floatEvent [x] (x.isFin && !x.isZero) (if toE8m0 x rm = 255 then .nan else .fin false 1 ((toE8m0 x rm : Int) - 127)) false)
  else match floatOf ty with
  | some f => f.result [x] x rm e4ns
  | none => toIntTy x (tyWidth ty) rm (tyMin ty) (tyMax ty)

/-! ### Block and group formats (05 R130, R131) -/

/-- Floor of the base-2 logarithm of a positive finite value. -/
def Num.floorLog2 : Num → Int
  | .fin _ m e => (m.log2 : Int) + e
  | _ => 0

/-- The larger magnitude of two finite values. -/
def Num.absMax (x y : Num) : Num :=
  let a (z : Num) : Num := match z with
    | .fin _ m e => .fin false m e
    | z => z
  if (a x).lt (a y) then a y else a x

/-- MxBlock: the e8m0 scale, the elements, and the event of each (05 R130). -/
def mxBlock (xs : List Num) (rm : Nat) : Nat × List (Nat × Option Nat) :=
  if xs.any (fun x => !x.isFin) then (255, xs.map (fun x => (0, if x.isNan then none else some 0)))
  else
    let a := xs.foldl Num.absMax .zero
    let x : Int := if a.isZero then -127 else max (-127) (min 127 (a.floorLog2 - 2))
    let scale (v : Num) : Num := match v with
      | .fin n m e => .fin n m (e - x)
      | v => v
    ((x + 127).toNat, xs.map (fun v => e2m1.result [v] (scale v) rm false))

/-- The zero point that the byte of a record denotes for a type (05 R131). -/
def zeroPoint (ty z : Nat) : Int := intOf (tySigned ty) 8 (z % 256)

/-- QuantG: the stored integer and its event (05 R131). An infinite x with a finite d that is not 0 counts SATS (DESIGN CHOICE, log 47: R131 and R139
name two counters for it). -/
def quantG (x d : Num) (z : Int) (ty rm : Nat) : Int × Option Nat :=
  match x, d with
  | .nan, _ => (z, some 1)
  | _, .nan => (z, some 1)
  | _, .inf _ => (z, some 1)
  | .inf n, .fin dn dm _ =>
    if dm = 0 then (z, some 1) else (if n != dn then tyMin ty else tyMax ty, some 3)
  | .fin n m e, .fin dn dm de =>
    if dm = 0 then (z, some 1)
    else
      let neg := n != dn
      let k := if e ≥ de then roundRat neg (m * 2 ^ (e - de).toNat) dm rm else roundRat neg m (dm * 2 ^ (de - e).toNat) rm
      let q : Int := (if neg then -(k : Int) else k) + z
      if q < tyMin ty then (tyMin ty, some 3) else if q > tyMax ty then (tyMax ty, some 3)
      else (q, if k = 0 && m != 0 then some 4 else none)

/-- DeqG: d x (q - z), exactly (05 R131). -/
def deqG (q : Int) (d : Num) (z : Int) : Num := d.mul (.ofInt (q - z))

/-! ### Special functions (09 R254), by fixed-point arithmetic of 800 fraction bits (log 9) -/

/-- Fraction bits of the fixed-point numbers below. -/
def fixBits : Nat := 800

/-- ln 2 with 800 fraction bits. -/
def ln2Fix : Nat := 0xb17217f7d1cf79abc9e3b39803f2f6af40f343267298b62d8a0d175b8baafa2be7b876206debac98559552fb4afa1b10ed2eae35c138214427573b291169b8253e96ca16224ae8c51acbda11317c387eb9ea9bc3b136603b256fa0ec7657f74b72ce87b1

/-- pi with 1,100 fraction bits. -/
def piFix : Nat := 0x3243f6a8885a308d313198a2e03707344a4093822299f31d0082efa98ec4e6c89452821e638d01377be5466cf34e90c6cc0ac29b7c97c50dd3f84d5b5b54709179216d5d98979fb1bd1310ba698dfb5ac2ffd72dbd01adfb7b8e1afed6a267e96ba7c9045f12c7f9924a19947b3916cf70801f2e2858efc16636920d871574e69a458fea3f4933d7e0d9

/-- The sum of x^n / n! for the n from i on, given the term of i, in steps of `st` with signs alternating for `alt`. -/
def taylor (x2 : Nat) (alt : Bool) (st : Nat) : Nat → Nat → Int → Int
  | 0, _, _ => 0
  | fuel + 1, i, t =>
    let d := if st = 1 then i + 1 else (i + 1) * (i + 2)
    let t' : Int := t * x2 / (2 ^ fixBits : Nat) / d
    t + taylor x2 alt st fuel (i + st) (if alt then -t' else t')

/-- e^x for 0 <= x < 1, fixed. -/
def expFix (x : Nat) : Nat := (taylor x false 1 200 0 (2 ^ fixBits : Nat)).toNat

/-- 2^x for a fixed fraction 0 <= x < 1. -/
def exp2Fix (x : Nat) : Nat := expFix (x * ln2Fix / 2 ^ fixBits)

/-- The sum of z^(2n+1) / (2n+1). -/
def atanhSum (z2 : Nat) : Nat → Nat → Nat → Nat
  | 0, _, _ => 0
  | fuel + 1, i, t => t / i + atanhSum z2 fuel (i + 2) (t * z2 / 2 ^ fixBits)

/-- ln y for 1 <= y < 2, fixed. -/
def lnFix (y : Nat) : Nat :=
  let one := 2 ^ fixBits
  let z := (y - one) * one / (y + one)
  2 * atanhSum (z * z / one) 270 1 z

/-- A positive value m x 2^e in fixed point, rounded down. -/
def toFix (m : Nat) (e : Int) (b : Nat) : Nat :=
  if e + b ≥ 0 then m * 2 ^ (e + b).toNat else m / 2 ^ (-(e + b)).toNat

/-- The value of a fixed-point integer. -/
def ofFix (x : Int) : Num := .fin (decide (x < 0)) x.natAbs (-(fixBits : Int))

/-- sin and cos of a finite value, sine of a quadrant-shifted argument. -/
def sinFix (neg : Bool) (m : Nat) (e : Int) (quad : Nat) : Num :=
  let x := toFix m e 1100
  let k := (2 * x + piFix / 2) / piFix
  let r : Int := ((x : Int) - k * piFix / 2) / (2 ^ 300 : Nat)
  let r2 := (r * r / (2 ^ fixBits : Nat)).toNat
  let s := taylor r2 true 2 120 1 r
  let c := taylor r2 true 2 120 0 (2 ^ fixBits : Nat)
  let q := (k + quad) % 4
  let v : Int := if q = 0 then s else if q = 1 then c else if q = 2 then -s else -c
  ofFix (if neg && quad = 0 then -v else v)

/-- 2^x for a finite value. -/
def exp2Num (neg : Bool) (m : Nat) (e : Int) : Num :=
  if (m.log2 : Int) + e > 12 then .fin false 1 (if neg then -5000 else 5000)
  else
    let x : Int := (if neg then -1 else 1) * (toFix m e fixBits : Int)
    let k := x / (2 ^ fixBits : Nat)
    let f := (x % (2 ^ fixBits : Nat)).toNat
    if f = 0 then .fin false 1 k else .fin false (exp2Fix f) (k - fixBits)

/-- log2 of a positive finite value. -/
def log2Num (m : Nat) (e : Int) : Num :=
  let k : Int := (m.log2 : Int) + e
  if m = 2 ^ m.log2 then .ofInt k
  else ofFix (k * (2 ^ fixBits : Nat) + (lnFix (toFix m (-(m.log2 : Int)) fixBits) * 2 ^ fixBits / ln2Fix : Nat))

/-- tanh of a finite value of magnitude m x 2^e. -/
def tanhNum (neg : Bool) (m : Nat) (e : Int) : Num :=
  let one := 2 ^ fixBits
  let v : Nat :=
    if (m.log2 : Int) + e > 7 then one - 1
    else
      let x2 := 2 * toFix m e fixBits
      let k := x2 / ln2Fix
      let ex := expFix (x2 - k * ln2Fix) * 2 ^ k
      one - 2 * one * one / (ex + one)
  ofFix (if neg then -(v : Int) else v)

/-- Integer square root with a sticky bit below: 2 isqrt(n), plus 1 where n is no square. -/
def sqrtSticky (n : Nat) : Nat := 2 * n.sqrt + (if n.sqrt * n.sqrt = n then 0 else 1)

/-- sqrt of a positive finite value, with a sticky bit. -/
def sqrtNum (m : Nat) (e : Int) : Num :=
  let odd := e % 2 != 0
  let m' := if odd then 2 * m else m
  let e' := if odd then e - 1 else e
  .fin false (sqrtSticky (m' * 2 ^ 200)) (e' / 2 - 101)

/-- 1 / sqrt of a positive finite value, with a sticky bit: sqrt of the quotient 2^(2k) / m. -/
def rsqNum (m : Nat) (e : Int) : Num :=
  let odd := e % 2 != 0
  let m' := if odd then 2 * m else m
  let e' := if odd then e - 1 else e
  let q := 2 ^ 400 / m'
  let s := q.sqrt
  .fin false (2 * s + (if s * s * m' = 2 ^ 400 then 0 else 1)) (-(e' / 2) - 201)

/-- The special functions by fn4 of major 0x0D (09 R254): bits and saturation of f(x) in format F. -/
def specialFn (fn : Nat) (f : FloatFmt) (x : Num) (rm : Nat) : Nat × Option Nat :=
  let out (v : Num) (nz : Bool) : Nat × Option Nat :=
    let (b, sat) := f.round v rm false
    (b, floatEvent [x] nz (f.decode b) sat)
  let num (v : Num) : Nat × Option Nat := out v (v.isFin && !v.isZero)
  match x with
  | .nan => num .nan
  | .inf n =>
    match fn with
    | 0 => num (.fin n 0 0)
    | 1 => num (if n then .nan else .zero)
    | 2 => num (if n then .nan else .inf false)
    | 3 => num (if n then .zero else .inf false)
    | 4 => num (if n then .nan else .inf false)
    | 7 => num (.fin n 1 0)
    | _ => num .nan
  | .fin n m e =>
    if m = 0 then
      match fn with
      | 0 => num (.inf n)
      | 1 => num (.inf n)
      | 3 => num (.fin false 1 0)
      | 4 => num (.inf true)
      | 6 => num (.fin false 1 0)
      | _ => num (.fin n 0 0)
    else
      match fn with
      | 0 =>
        let (b, sat) := f.roundQuot n 1 m (-e) rm false
        (b, floatEvent [x] true (f.decode b) sat)
      | 1 => num (if n then .nan else rsqNum m e)
      | 2 => num (if n then .nan else sqrtNum m e)
      | 3 => num (exp2Num n m e)
      | 4 => num (if n then .nan else log2Num m e)
      | 5 => num (sinFix n m e 0)
      | 6 => num (sinFix n m e 1)
      | _ => num (tanhNum n m e)

end Sys2Proof.Machine
end

