-- ==== Sys2Proof/Machine/Flags.lean ====
section
/-! DEFINITION. The converters' statistics counters, which replace exception flags (05 R125, R139), and FPCTL. -/

namespace Sys2Proof.Machine

/-- Counter `ev` of converter `conv` (0 vector unit, 1 matrix engine, 2 block-transfer engine) of a tile. -/
def Tile.stat (t : Tile) (conv ev : Nat) : Nat := t.stats.get 0 (conv * 8 + ev)

/-- A counter adds n, saturating at 0xFFFF_FFFF (05 R139). -/
def Tile.count (t : Tile) (conv ev n : Nat) : Tile :=
  { t with stats := t.stats.set 0 (conv * 8 + ev) (min 0xFFFFFFFF (t.stat conv ev + n)) }

/-- The events of some results counted on a converter. -/
def Tile.countAll (t : Tile) (conv : Nat) (evs : List (Option Nat)) : Tile :=
  (List.range 5).foldl (fun t ev =>
    let n := (evs.filter (· == some ev)).length
    if n = 0 then t else t.count conv ev n) t

/-- The events of the executing tile's vector unit. -/
def State.countV (s : State) (evs : List (Option Nat)) : State :=
  if evs.all (·.isNone) then s else s.setTile s.cur.tile ((s.tile s.cur.tile).countAll 0 evs)

/-- FPCTL.RM and FPCTL.E4NS as the sheaf's ops read them (05 Table — FPCTL). -/
def State.rm (s : State) : Nat := bits (s.src.cr 0) 1 0
def State.e4ns (s : State) : Bool := (s.src.cr 0).getLsbD 2

end Sys2Proof.Machine
end

