-- ==== Sys2Proof/Machine/Operands.lean ====
section
/-! DEFINITION. Operand forms: extended immediates, effective addresses, element access in registers, sizes of scalar accesses. -/

namespace Sys2Proof.Machine

/-- CI forms: s[ra] and the immediate (07 Table — ALU encodings). -/
def sextI (f : CI) : Word := sx f.imm
def zextI (f : CI) : Word := f.imm.setWidth 64

/-- Effective addresses (08 R194). -/
def eaCM (f : CM) (unit : Nat) (s : State) : Word := s.rs f.ra + sx f.off * wd unit
def eaLM (f : LM) (s : State) : Word := s.rs f.ra + sx f.off
def eaMX (f : MX) (s : State) : Word := s.rs f.ra + sx f.off

/-- Target of a branch or jump: pc + 8 x the signed sheaf count (06 R143). -/
def target {n : Nat} (pc : Word) (off : BitVec n) : Word := pc + 8 * sx off

/-- Bytes of a scalar access by size code (08 Table — Scalar load and store mnemonics). -/
def sizeBytes (size : Nat) : Nat := if size ≤ 1 then 1 else if size ≤ 3 then 2 else if size ≤ 5 then 4 else if size = 6 then 8 else 256

/-- A loaded value extended by its size code: even codes sign-extended, odd zero-extended. -/
def shape (size x : Nat) : Word :=
  let w := 8 * sizeBytes size
  if size % 2 = 0 then wd (bitsOfInt 64 (intOf true w (x % 2 ^ w))) else wd x

/-- Element e of width w of a register (09 R244). -/
def elem (v : VReg) (w e : Nat) : Nat := (v.toNat >>> (w * e)) % 2 ^ w

/-- How many elements of width w a register holds. -/
def elems (w : Nat) : Nat := 2048 / w

/-- A register from elements of width w. -/
def ofElems (w : Nat) (f : Nat → Nat) : VReg :=
  BitVec.ofNat 2048 ((List.range (2048 / w)).foldl (fun (acc : Nat) e => acc + (f e % 2 ^ w) * 2 ^ (w * e)) 0)

/-- The lane that holds element e of width w. -/
def laneOf (w e : Nat) : Nat := e * w / 32

/-- The bank format of a scratchpad page of the running task (03 R64, R67). -/
def State.pageFmt (s : State) (t win page : Nat) : Word := (s.tile t).fmt win (bankOfPage (isV t) win page)

/-- Whether a place lies in a bank with GSZ ≠ 0. -/
def State.grouped (s : State) (t : Nat) (p : Place) : Bool :=
  match p with
  | .sp win page _ => fmtGsz (s.pageFmt t win page) != 0
  | .edge _ win page _ => fmtGsz (s.pageFmt t win page) != 0
  | .glob .. => false

/-- The check of a strip of a stream at its address (10 R290 to R292): every byte under the kind, then a plain bank. -/
def checkStrip (s : State) (w : Who) (kind : Nat) (fe : Bool) (a : Word) : Run (List Place) := do
  let pl ← checkAll s w kind fe (cut a 256)
  need (!(pl.any (s.grouped w.agent.tile))) 7 0x7004 5 a
  .ok pl

/-- v[r] of the executing context written, in the lanes of `m` (09 R245); a register bound for output pushes a strip instead
(10 R292): four strips that wait to be written make the sheaf wait, and an address that fails its check traps, at step 8. -/
def State.wv (s : State) (r : BitVec 5) (v : VReg) (m : BitVec 64) : Run State :=
  let b := s.me.bind r.toNat
  if b.bound then
    if b.moved ≥ b.total || b.dead then .ok (s.setMe (s.me.setBind r.toNat { b with exh := true }))
    else if b.queue.length ≥ 4 then .error (.wait (.structural (.push r.toNat)) s)
    else
      match checkStrip s ⟨s.cur, s.root s.cur, b.hand, true, 3, []⟩ 2 false (b.addr b.moved) with
      | .error (.trap t) => .error (.trap { t with step := 8 })
      | .error (.wait w x) => .error (.wait w x)
      | .ok _ =>
        let st : Strip := { data := v, mark := b.markOf b.moved }
        .ok ((s.setMe (s.me.setBind r.toNat { b with queue := b.queue ++ [st], moved := b.moved + 1, last := st.mark })).post
          (.streamStripWrite s.cur r.toNat))
  else
    let old := s.me.v.get 0 r.toNat
    let w := vOfLanes (fun i => if m.getLsbD i then lane v i else lane old i)
    let p := (List.range 64).foldl (fun p l => if m.getLsbD l then p.del (64 * r.toNat + l) else p) s.me.vPois
    .ok (s.setMe { s.me with v := s.me.v.set 0 r.toNat (if m = BitVec.allOnes 64 then v else w), vPois := p })

/-- Parameter fields of an engine op: common fn9 (10 Table — Engine fn9). -/
def kwX (f : EX) : BitVec 3 := f.fn9.extractLsb' 6 3
def kpX (f : EX) : BitVec 3 := f.fn9.extractLsb' 3 3
def flX (f : EX) : Bool := f.fn9.getLsbD 0

end Sys2Proof.Machine
end

