-- ==== Sys2Proof/Machine/Snapshots.lean ====
section
/-! DEFINITION. Snapshots and transactions: `snap`, `snaprel` and the transaction ops but `txcommit` (04 R114 to R119, 08 R230 to R235,
22 R461 to R463). -/

namespace Sys2Proof.Machine

/-! ### The Gleaner (04 R114, R117) -/

/-- Each die sets NS to the newest live stamp (04 R114 step 3). -/
def State.setNs (s : State) : State :=
  match s.newestLive with
  | none => s
  | some t => (List.range 16).foldl (fun s d => s.setDie d ((s.die d).setCr 0x207 (wd t))) s

/-- A stamp is taken and becomes live for an owner: T = t - 16 (04 R114); none when 1,024 are live. -/
def State.takeStamp (s : State) (o : StampOwner) : Option (State × Nat) :=
  if s.live.length ≥ 1024 then none
  else
    let s := { s with time := max s.time 16 }
    let t := s.time - 16
    some (({ s with live := s.live ++ [(t, o)] }).setNs, t)

/-- The Gleaner reclaims what no live stamp needs (04 R117). -/
def State.reclaimAll (s : State) : State :=
  { s with vers := s.vers.map (fun e => (e.1, { e.2 with older := s.reclaimed e.2 })) }

/-- One live stamp of an owner is released. -/
def State.dropLive (s : State) (t : Nat) (o : StampOwner) : State :=
  ({ s with live := s.live.erase (t, o) }).reclaimAll

/-- The task that owns an agent's snapshots (08 R230): of a context, the running task; of the awn core, the task of the handler's
launch; a number that names none otherwise. -/
def State.snapOwner (s : State) (a : Agent) : StampOwner :=
  .snap (((if a.isAwn then (s.tile a.tile).msgTask else s.taskOf a)).getD (2 ^ 32 - 1))

/-- The key of the hold of a context's snapshot, and of a snapshot task's. -/
def holdKey (a : Agent) : Nat := akey a
def taskHoldKey (k : Nat) : Nat := 2 ^ 32 + k

/-- The holds of a snapshot end. -/
def State.dropHold (s : State) (k : Nat) : State := { s with holds := s.holds.del k }

/-- The time base at which every die has acknowledged a hold, no earlier than 16 (04 R114 step 2): 24 cycles after it was asked for, the least that
the crossing of a Levee takes (R113; DESIGN CHOICE, log 29). -/
def holdAt (since : Nat) : Nat := max 16 (since + 24)

/-- A snapshot in its steps (04 R114): the hold is asked for and the owner waits (none); once every die has acknowledged it the stamp is taken. A
full Gleaner, or a hold that failed (22 R462), gives no stamp (some none). -/
def State.snapStep (s : State) (key : Nat) (o : StampOwner) : State × Option (Option Nat) :=
  match s.holds.find key with
  | none => if s.live.length ≥ 1024 then (s, some none) else ({ s with holds := s.holds.put key (s.time, false) }, none)
  | some (since, failed) =>
    if failed then (s.dropHold key, some none)
    else if s.time < holdAt since then (s, none)
    else match s.takeStamp o with
      | none => (s.dropHold key, some none)
      | some (s, t) => (s.dropHold key, some (some t))

/-- `snap` (08 R230, 04 R114). -/
def execSnap (f : EX) (s : State) : Host.Outcome State Fault Refusal :=
  settle s (match s.snapStep (holdKey s.cur) (s.snapOwner s.cur) with
    | (s, none) => .error (.wait (.structural .hold) s)
    | (s, some none) => .ok (s.ws f.rc (BitVec.allOnes 64))
    | (s, some (some t)) => .ok (s.ws f.rc (wd t)))

/-- `snaprel` (08 R231). -/
def execSnaprel (f : EX) (s : State) : Host.Outcome State Fault Refusal :=
  settle s (do
    useS s [f.ra]
    let t := (s.rs f.ra).toNat
    let o := s.snapOwner s.cur
    if s.live.contains (t, o) then .ok ((s.dropLive t o).ws f.rc 0) else .ok (s.ws f.rc 5))

/-! ### Transactions -/

/-- The transaction of a context ends: TXO is cleared, the start stamp is no longer live. A transaction lost to capacity keeps
state 5, but for an `hexit` (08 R234, R235, 21 R440, R442). `keep` keeps the write set's lines, which `txstat` counts. -/
def State.endTx (s : State) (a : Agent) (code commit : Nat) (keep : Bool) : State :=
  let c := s.ctx a
  if !c.txo then s
  else
    let x : Tx := { state := if c.tx.state = 5 && code != 6 then 5 else code, start := c.tx.start, commit := commit, lines := if keep then c.tx.lines else [] }
    (s.setCtx a ({ c with tx := x }.setTxo false)).dropLive c.tx.start (.tx a)

/-- An open transaction is aborted with a state code: 4 `txabort`, 6 `hexit` (08 R234, R235, 07 R180). -/
def State.abortTx (s : State) (a : Agent) (code : Nat) : State := s.endTx a code (s.ctx a).tx.commit false

/-- `txbegin` (08 R232). -/
def execTxbegin (f : EX) (s : State) : Host.Outcome State Fault Refusal :=
  settle s (do
    notAwn s
    need (!s.me.txo) 6 0x6004 0 0
    match s.snapStep (holdKey s.cur) (.tx s.cur) with
    | (s, none) => .error (.wait (.structural .hold) s)
    | (s, some none) => .ok (s.ws f.rc (BitVec.allOnes 64))
    | (s, some (some t)) =>
      let c := s.me
      .ok ((s.setMe ({ c with tx := { state := 1, start := t, commit := c.tx.commit, lines := [] } }.setTxo true)).ws f.rc (wd t)))

/-- `txabort` (08 R234). -/
def execTxabort (_f : EX) (s : State) : Host.Outcome State Fault Refusal :=
  settle s (do
    notAwn s
    .ok (s.abortTx s.cur 4))

/-- `txstat` (08 R235). A context that has begun no transaction since it started finds 0 as start stamp (DESIGN CHOICE, log 29: R235 gives 0 for the
commit stamp alone). -/
def execTxstat (f : EX) (s : State) : Host.Outcome State Fault Refusal :=
  settle s (do
    notAwn s
    let x := s.me.tx
    let v := match f.fn9.toNat % 4 with
      | 0 => wd (x.state + 16 * x.lines.length)
      | 1 => wd x.start
      | _ => wd x.commit
    .ok (s.ws f.rc v))

end Sys2Proof.Machine
end

