-- ==== Sys2Proof/Machine/Control.lean ====
section
/-! DEFINITION. Branches, jumps, hardware loops, helpers, identity reads and system operations (07_isa_scalar_control.md R177
to R185, 21 R440). The pc itself moves in Step.lean: an op that transfers control names the next sheaf in `npc`. -/

namespace Sys2Proof.Machine

/-! ### Branches and jumps (R177) -/

/-- Control continues at an address. -/
def State.goto (s : State) (a : Word) : State := { s with npc := some a }

/-- A conditional branch. -/
def branch (f : CB) (rel : Word → Word → Bool) (s : State) : Run State := do
  useS s [f.ra, f.rb]
  .ok (if rel (s.rs f.ra) (s.rs f.rb) then s.goto (target s.me.pc f.off) else s)

/-- `beq`. -/
def execBeq (f : CB) (s : State) : Host.Outcome State Fault Refusal := settle s (branch f (· == ·) s)
/-- `bne`. -/
def execBne (f : CB) (s : State) : Host.Outcome State Fault Refusal := settle s (branch f (· != ·) s)
/-- `blt`: signed. -/
def execBlt (f : CB) (s : State) : Host.Outcome State Fault Refusal := settle s (branch f (fun a b => a.slt b) s)
/-- `bge`: signed. -/
def execBge (f : CB) (s : State) : Host.Outcome State Fault Refusal := settle s (branch f (fun a b => !a.slt b) s)
/-- `bltu`. -/
def execBltu (f : CB) (s : State) : Host.Outcome State Fault Refusal := settle s (branch f (fun a b => a.ult b) s)
/-- `bgeu`. -/
def execBgeu (f : CB) (s : State) : Host.Outcome State Fault Refusal := settle s (branch f (fun a b => !a.ult b) s)

/-- `jal`. -/
def execJal (rd : BitVec 5) (off : BitVec 20) (s : State) : Host.Outcome State Fault Refusal :=
  settle s (.ok ((s.ws rd (s.me.pc + 8)).goto (target s.me.pc off)))

/-- `jalr`: the target comes from s[ra] before the op's own write; a misaligned one traps with 0x3001 at step 6. -/
def execJalr (f : CI) (s : State) : Host.Outcome State Fault Refusal :=
  settle s (do
    useS s [f.ra]
    let t := s.rs f.ra + 8 * sx f.imm
    need (t &&& 7 == 0) 6 0x3001 0 t
    .ok ((s.ws f.rd (s.me.pc + 8)).goto t))

/-! ### Hardware loops (R178) -/

/-- LDEP, and the numbers of LCNT, LBEG and LEND of a level. -/
def Ctx.ldep (c : Ctx) : Nat := bits (c.cr 0x20) 2 0
def lcnt (n : Nat) : Nat := 0x21 + 3 * n
def lbeg (n : Nat) : Nat := 0x22 + 3 * n
def lend (n : Nat) : Nat := 0x23 + 3 * n

/-- A loop level is pushed. -/
def Ctx.pushLoop (c : Ctx) (cnt beg fin : Word) : Ctx :=
  let l := c.ldep
  (((c.setCr 0x20 (wd (l + 1))).setCr (lcnt l) cnt).setCr (lbeg l) beg).setCr (lend l) fin

/-- `loop` (R178): a count of 0 skips the body; four active levels trap with 0x7002. -/
def execLoopOp (f : CB) (s : State) : Host.Outcome State Fault Refusal :=
  settle s (do
    useS s [f.ra]
    let n := wd f.off.toNat
    let pc := s.me.pc
    if s.rs f.ra = 0 then .ok (s.goto (pc + 8 * (n + 1)))
    else do
      need (s.me.ldep < 4) 6 0x7002 0 0
      .ok (s.setMe (s.me.pushLoop (s.rs f.ra) (pc + 8) (pc + 8 * n))))

/-- The end test after a sheaf at `a` that transfers no control (R178): the context and the next sheaf. -/
def Ctx.loopEnd (a : Word) : Nat → Ctx → Ctx × Word
  | 0, c => (c, a + 8)
  | fuel + 1, c =>
    let l := c.ldep - 1
    if c.ldep = 0 || c.cr (lend l) != a then (c, a + 8)
    else
      let n := c.cr (lcnt l) - 1
      let c := c.setCr (lcnt l) n
      if n ≠ 0 then (c, c.cr (lbeg l)) else Ctx.loopEnd a fuel (c.setCr 0x20 (wd l))

/-! ### Helpers (R179, R180) -/

/-- The lowest-numbered Free helper. -/
def State.freeHelper (s : State) : Option Nat :=
  ((List.range 10).map (· + 1)).find? (fun h => (s.ctx ⟨s.cur.tile, h⟩).st == .free)

/-- The start of a helper (R179). -/
def Ctx.startHelper (c : Ctx) (pc arg : Word) (pwsize : Nat) : Ctx :=
  let c := ((c.putS 1 arg).putS 30 (0x9000000000000000 + wd (2 ^ (16 + pwsize)))).putS 31 0
  { ((c.setCr 0 0).setCr 0x20 0).setCr 1 0 with pc := pc, st := .ready, tx := {}, prog := [], edgeSent := 0 }

/-- `hstart` (R179, R440). -/
def execHstart (f : CR) (s : State) : Host.Outcome State Fault Refusal :=
  settle s (do
    onlyCtx0 s
    useS s [f.ra, f.rb]
    need (s.rs f.ra &&& 7 == 0) 6 0x3001 0 (s.rs f.ra)
    match s.freeHelper with
    | none => .ok (s.ws f.rd 0)
    | some h =>
      let a : Agent := ⟨s.cur.tile, h⟩
      let c := (s.ctx a).startHelper (s.rs f.ra) (s.rs f.rb) (recPwsize (s.runRec s.cur.tile))
      .ok ((s.setCtx a c).ws f.rd (wd h)))

/-- `hjoin` (R180, R440). -/
def execHjoin (f : CR) (s : State) : Host.Outcome State Fault Refusal :=
  settle s (do
    onlyCtx0 s
    useS s [f.ra]
    let h := (s.rs f.ra).toNat
    need (1 ≤ h && h ≤ 10) 6 0x7001 1 0
    let a : Agent := ⟨s.cur.tile, h⟩
    match (s.ctx a).st with
    | .free => .ok s
    | .done => .ok (s.setCtx a { s.ctx a with st := .free })
    | _ => .error (.wait (.join h) s))

/-- The first token register that is not drained. -/
def Ctx.undrained (c : Ctx) : Option Nat := ((List.range 7).map (· + 1)).find? (fun k => c.k.get 0 k != 0)

/-- `hexit` (R180): the helper's tokens drain, its open transaction is aborted, and it is Done. -/
def execHexit (s : State) : Host.Outcome State Fault Refusal :=
  settle s (do
    need (!s.cur.isAwn) 4 0x2002 0 0
    need (s.cur.ctx != 0) 4 0x2002 2 0
    match s.me.undrained with
    | some k => .error (.wait (.token k) s)
    | none =>
      let s := s.abortTx s.cur 6
      .ok (s.setMe { s.me with st := .done }))

/-- A helper of a tile is Ready, Waiting or Held. -/
def State.helpersBusy (s : State) (t : Nat) : Bool :=
  ((List.range 10).map (· + 1)).any (fun h => (s.ctx ⟨t, h⟩).st != .free && (s.ctx ⟨t, h⟩).st != .done)

/-- `texit` (R185): after the Retire wait, context 0 waits for its task's retirement (02 R39). -/
def execTexit (s : State) : Host.Outcome State Fault Refusal :=
  settle s (do
    onlyCtx0 s
    if s.helpersBusy s.cur.tile then .error (.wait .retire s)
    else .ok (((s.setMe { s.me with st := .waiting .retire }).goto s.me.pc).post (.taskRetirement s.cur.tile)))

/-! ### Identity reads (R181) -/

/-- `hself`. -/
def execHself (rd : BitVec 5) (s : State) : Host.Outcome State Fault Refusal := settle s (.ok (s.ws rd (wd s.cur.ctx)))

/-- `gwork`: the rank's next unit (02 R44); on the awn core all ones. -/
def execGwork (rd : BitVec 5) (s : State) : Host.Outcome State Fault Refusal :=
  settle s (match s.taskOf s.cur with
    | none => .ok (s.ws rd (BitVec.allOnes 64))
    | some k =>
      let r := s.record k
      let rank := (s.tile s.cur.tile).rank
      let x := s.task k
      let u := rank + recRanks r * x.units.get 0 rank
      if s.cur.isAwn || u ≥ recWork r then .ok (s.ws rd (BitVec.allOnes 64))
      else .ok ((s.setTask k { x with units := x.units.set 0 rank (x.units.get 0 rank + 1) }).ws rd (wd u)))

/-- `grank`. -/
def execGrank (rd : BitVec 5) (s : State) : Host.Outcome State Fault Refusal :=
  let r := s.runRec s.cur.tile
  settle s (.ok (s.ws rd (wd ((s.tile s.cur.tile).rank + recRanks r * 2 ^ 16 + recGw r * 2 ^ 32 + recGh r * 2 ^ 40))))

/-- `tid`; with an empty running slot the identifier reads all ones. -/
def execTid (rd : BitVec 5) (s : State) : Host.Outcome State Fault Refusal :=
  let id := match s.taskOf s.cur with
    | some k => s.tid k
    | none => 2 ^ 30 - 1
  settle s (.ok (s.ws rd (wd (id + s.cur.tile * 2 ^ 32))))

/-- `clk`. -/
def execClk (rd : BitVec 5) (s : State) : Host.Outcome State Fault Refusal := settle s (.ok (s.ws rd (wd s.time)))

/-! ### System operations (R182 to R184) -/

/-- `nop`. -/
def execNopOp (s : State) : Host.Outcome State Fault Refusal := settle s (.ok s)

/-- `yield` (R182): out of issue for the 16 cycles after its own, which the choice of the context (`State.pickCtx`) honours while another is Ready. -/
def execYield (s : State) : Host.Outcome State Fault Refusal :=
  settle s (.ok ((s.setMe { s.me with yieldUntil := s.time + 17 }).post (.yieldExpiry s.cur)))

/-- The 16 cycles of a `yield` end (R182). -/
def execYieldExpiry (a : Agent) (s : State) : Host.Outcome State Fault Refusal :=
  let c := s.ctx a
  if s.time < c.yieldUntil then .next (s.post (.yieldExpiry a)) else .next (s.setCtx a { c with yieldUntil := 0 })

/-- `brk` (R183): the requested trap, at step 6. -/
def execBrk (code : BitVec 10) (s : State) : Host.Outcome State Fault Refusal := settle s (raise 6 1 code.toNat 0)
/-- `trap` (R183). -/
def execTrapOp (code : BitVec 10) (s : State) : Host.Outcome State Fault Refusal := settle s (raise 6 2 code.toNat 0)

/-- The task identifier that a record of the awn core or a merge unit carries (03 R88). -/
def State.slotTid (s : State) (t : Nat) : Nat :=
  match (s.tile t).run with
  | some k => s.tid k
  | none => 2 ^ 32 - 1

/-- The port of an agent closes, its record going to the die's log, and reopens empty (03 R88). -/
def State.closePort (s : State) (a : Agent) : State :=
  let c := s.ctx a
  let s := s.drlAppend (dieOf a.tile) c.port (asidOf (s.root a)) (if a.isAwn then 4 else 0) (s.slotTid a.tile)
  s.setCtx a { s.ctx a with port := none }

/-- A handler ends (10 R305, 03 R88): the awn core's port closes, its payload slot is freed, and the next message may start. -/
def State.endHandler (s : State) (t : Nat) : State :=
  let s := s.closePort ⟨t, 15⟩
  let s := s.setCtx ⟨t, 15⟩ { s.ctx ⟨t, 15⟩ with st := .free }
  let x := s.tile t
  let slots := match x.msg with
    | some (_, some k) => x.slots.del k
    | _ => x.slots
  (s.setTile t { x with msg := none, msgTask := none, slots := slots }).post (.handlerStart t)

/-- `eret` (R184); on the awn core it ends the handler (10 R305). -/
def execEret (s : State) : Host.Outcome State Fault Refusal :=
  settle s (do
    needHandler s
    .ok (if s.cur.isAwn then s.endHandler s.cur.tile else s.trapReturn))

end Sys2Proof.Machine
end

