-- ==== Sys2Proof/Machine/EventTable.lean ====
section
/-! DEFINITION. Granary slots (11 R318, R320), the event table with its spillway (08 R225 to R229, 11 R337, R338, 23 R472), and the
event ops. -/

namespace Sys2Proof.Machine

/-! ### Granary slots -/

/-- The STATE of a slot (11 Table — Task record): 0 where nothing is held; blocks carry theirs beside the slot. -/
def State.slotState (s : State) (k : Nat) : Nat :=
  match (s.die (k / 65536)).blocks.find (k % 65536) with
  | some b => b
  | none => recState (s.record k)

/-- A slot from the head of a die's free list: slots never used come first, ascending, then freed ones (11 R320). -/
def State.allocSlot (s : State) (d : Nat) : Option (State × Nat) :=
  let x := s.die d
  if x.fresh < 65536 then some (s.setDie d { x with fresh := x.fresh + 1 }, d * 65536 + x.fresh)
  else match x.freed with
    | [] => none
    | k :: ks => some (s.setDie d { x with freed := ks }, d * 65536 + k)

/-- How many slots a die has free. -/
def Die.freeSlots (d : Die) : Nat := (65536 - d.fresh) + d.freed.length

def State.event (s : State) (name : Nat) : Event := (s.die (name / 4096)).events.get {} (name % 4096)
def State.setEvent (s : State) (name : Nat) (e : Event) : State :=
  let d := s.die (name / 4096)
  s.setDie (name / 4096) { d with events := d.events.set {} (name % 4096) e }

/-- A slot becomes a block of a STATE (11 R324, R338). -/
def State.setBlock (s : State) (k st : Nat) : State :=
  let d := s.die (k / 65536)
  s.setDie (k / 65536) { d with blocks := d.blocks.put (k % 65536) st }

/-- The waiters in the spillway of an entry, in chain order. -/
def Event.spill (e : Event) : List Waiter := e.blocks.flatMap (·.2)

/-- A waiter word (11 R338). -/
def waiterWord : Waiter → Nat
  | .ctx a => a.tile % 4096 * 16 + a.ctx
  | .queue q => 2 ^ 30 + q % 1024

/-- The bytes of a spillway block: the next block's slot, the number of waiters, and their words (11 R338). -/
def blockBytes (next : Option Nat) (ws : List Waiter) : BitVec 2048 :=
  let link := match next with
    | some k => k % 65536 + 2 ^ 23
    | none => 0
  BitVec.ofNat 2048 (link + ws.length * 2 ^ 32 + (ws.zipIdx.map (fun w => waiterWord w.1 * 2 ^ (64 + 32 * w.2))).sum)

/-- The blocks of a chain as their slots hold them. -/
def State.writeChain (s : State) : List (Nat × List Waiter) → State
  | [] => s
  | b :: rest => (s.setRecord b.1 (blockBytes (rest.head?.map (·.1)) b.2)).writeChain rest

/-- An entry changed, its blocks with it. -/
def State.putEvent (s : State) (name : Nat) (e : Event) : State := (s.setEvent name e).writeChain e.blocks

/-- Every spillway block as its slot holds it. -/
def State.writeChains (s : State) : State :=
  s.dies.foldl (fun s d => d.2.events.foldl (fun (s : State) e => s.writeChain e.2.blocks) s) s

/-- A waiter of an entry whose hardware slots are full goes to the spillway: into the last block, or a new one; without a slot
for that it is held, with condition 4 (11 R338, 23 R472). -/
def State.spillWaiter (s : State) (name : Nat) (w : Waiter) : State :=
  let e := s.event name
  if !e.parked.isEmpty then s.setEvent name { e with parked := e.parked ++ [w] }
  else
    let fresh : State := match s.allocSlot (name / 4096) with
      | none =>
        let kind := match w with
          | .ctx _ => 0
          | .queue _ => 1
        (s.setEvent name { e with parked := [w] }).report none { cls := 6, reach := 1, detail := [(64, 1, 4), (68, 2, name), (70, 1, kind)] }
      | some (s, k) => (s.setBlock k 10).putEvent name { e with blocks := e.blocks ++ [(k, [w])] }
    match e.blocks.getLast? with
    | some (k, ws) => if ws.length < 62 then s.putEvent name { e with blocks := e.blocks.dropLast ++ [(k, ws ++ [w])] } else fresh
    | none => fresh

/-- A waiter is placed: a free hardware slot, else the spillway (08 R229). -/
def State.placeWaiter (s : State) (name : Nat) (w : Waiter) : State :=
  let e := s.event name
  if e.slots.length < 8 then s.setEvent name { e with slots := e.slots ++ [w] } else s.spillWaiter name w

/-- Waiters held for want of a slot are placed once one is free, the lowest entry first (23 R472; log 20). -/
def State.placeParked (s : State) (d : Nat) : State :=
  match (s.die d).events.find? (fun e => !e.2.parked.isEmpty) with
  | none => s
  | some (i, e) =>
    let name := d * 4096 + i
    let s := s.setEvent name { e with parked := [] }
    e.parked.foldl (fun s w => s.spillWaiter name w) s

/-- A slot is freed: it goes to the tail of the free list (11 R320). -/
def State.freeSlot (s : State) (k : Nat) : State :=
  let d := s.die (k / 65536)
  let s := s.setDie (k / 65536) { d with freed := d.freed ++ [k % 65536], blocks := d.blocks.del (k % 65536) }
  ({ s.setRecord k 0 with tasks := s.tasks.del k }).placeParked (k / 65536)

/-! ### Events -/

/-- A waiter of an event is released: a context whose clock runs is Ready at once, so that waiters are released in order (08 R229); the queue's first WAIT packet parked on the event completes (14 R380). -/
def State.release (s : State) (name : Nat) (w : Waiter) : State :=
  match w with
  | .ctx a => if s.agentStopped a then s else s.setCtx a (s.ctx a).unwait
  | .queue q =>
    match s.queue q with
    | some x =>
      match x.parked.find? (fun p => p.2 == name) with
      | some (i, _) => (s.setQueue q { x with parked := x.parked.erase (i, name) }).post (.packetCompletion q i)
      | none => s
    | none => s

/-- An entry fires: every waiter is released, slots first, and its blocks are freed (08 R229, 11 R338). -/
def State.fire (s : State) (name : Nat) : State :=
  let e := s.event name
  let s := s.setEvent name { count := 0, state := 2 }
  let s := (e.slots ++ e.spill ++ e.parked).foldl (fun s w => s.release name w) s
  e.blocks.foldl (fun s b => s.freeSlot b.1) s

/-- `evpost` n (08 R226): the new state and the status. -/
def State.eventPost (s : State) (name n : Nat) : State × Nat :=
  let e := s.event name
  let c := if e.state = 1 then e.count + n else n
  if c > 65535 then (s, 3) else (s.setEvent name { e with state := 1, count := c }, 0)

/-- `evsig` n (08 R226). -/
def State.eventSig (s : State) (name n : Nat) : State × Nat :=
  let e := s.event name
  if e.state = 0 then (s.fire name, 0)
  else if e.state = 2 then (s, 0)
  else if n > e.count then (s, 3)
  else if n = e.count then (s.fire name, 0)
  else (s.setEvent name { e with count := e.count - n }, 0)

/-- `evq.clr` (08 R226): Idle with count 0, waiters keep waiting. -/
def State.eventClear (s : State) (name : Nat) : State := s.setEvent name { s.event name with state := 0, count := 0 }

/-- What `evq` reads (08 R227). -/
def Event.value (e : Event) : Word :=
  wd (e.count + e.state * 2 ^ 16 + e.slots.length * 2 ^ 18 + b2n (!e.spill.isEmpty || !e.parked.isEmpty) * 2 ^ 22)

/-- One op of another unit at an event table (11 R337): op 0 evpost, 1 evsig, 2 evq.clr. -/
def State.eventOp (s : State) (op name n : Nat) : State :=
  if op = 0 then (s.eventPost name n).1 else if op = 1 then (s.eventSig name n).1 else s.eventClear name

/-- EVENT_OP_ARRIVAL (11 R337): an event op of a command packet, a retirement or another unit reaches its table. -/
def execEventOpArrival (e : EventOp) (s : State) : Host.Outcome State Fault Refusal :=
  .next (s.eventOp e.op e.name.toNat e.amount)

/-- The launch counts an event post (02 R55), which is sent and received within its step. -/
def State.countEvent (s : State) : State := s.onLaunch (s.launchOf s.cur) (fun l => (l.send (akey s.cur) 1).receive (akey s.cur) 1)

/-- The event name of an op (08 R227). -/
def evName (f : EX) (s : State) : Nat := (s.rs f.ra).toNat % 65536

/-! ### Fences (04 R98) -/

/-- The path mask of a fence; 0 names every path. -/
def fenceMask (m : Nat) : Nat := if m = 0 then 63 else m

/-- Page-ins and prefetches outstanding for the running task of a tile, on every tile of its gang (04 R98, 02 R43). -/
def State.pageInsBusy (s : State) (t : Nat) : Bool :=
  match (s.tile t).run with
  | none => !(s.tile t).pageIns.isEmpty
  | some k => (t :: (s.task k).tiles).any (fun u => !(s.tile u).pageIns.isEmpty) ||
      (s.die (dieOf t)).fetchQ.any (fun f => f.dsts.any (fun d => d.task == k && !d.gone))

/-- A scope includes a tile of the package, seen from another (04 R91). -/
def scopeHas (scope t u : Nat) : Bool := t == u || decide (3 ≤ scope) || (scope == 2 && dieOf t == dieOf u)

/-- A mailbox post of an agent to a home V-tile within a scope is still to be placed (13 R363). -/
def State.postsBusy (s : State) (a : Agent) (scope : Nat) : Bool :=
  let mine (p : Packet) : Bool := p.poster == some a && scopeHas scope a.tile p.dest
  s.agenda.any (fun i => match i with
    | .routerPacketArrival _ _ p => mine p
    | .awnMessageArrival _ p => mine p
    | .mailboxPostArrival _ p => mine p
    | _ => false) || s.tiles.any (fun e => e.2.awnQ.any (fun q => mine q.1) || e.2.outq.any (fun q => mine q.2.2))

/-- What a fence waits for: an op of the context on a path of the mask outstanding, a store held at its home, a mailbox post to be placed, or a
page-in. -/
def State.fenceBusy (s : State) (a : Agent) (mask scope : Nat) : Bool :=
  s.pathBusy a mask || (mask.testBit 0 && s.heldReqs.any (fun h => h.req.agent == a)) || (mask.testBit 4 && s.postsBusy a scope) ||
    (mask.testBit 5 && s.pageInsBusy a.tile)

/-- The writes of a tile's die are performed at a scope (04 R91, R105): at package scope every other die has applied the invalidations that the
die knows of; at pod scope its dirty remote bytes are with their owners (R110). -/
def State.performAt (s : State) (t scope : Nat) : State :=
  let s := if scope ≥ 3 then s.crossAll (dieOf t) else s
  if scope = 4 then s.podRelease (dieOf t) else s

/-- The effect of a fence: the wait, its writes performed at its scope and seen on every path of its mask, and at pod scope the invalidation of an acquire (04 R98). -/
def fence (s : State) (mask scope : Nat) : Run State :=
  if s.fenceBusy s.cur (fenceMask mask) scope then .error (.wait (.structural (.fence (fenceMask mask) scope)) s)
  else
    let s := (s.performAt s.cur.tile scope).showFenced s.cur (fenceMask mask)
    .ok (if scope = 4 then s.podAcquire s.cur.tile else s)

/-! ### The event ops (08 R226 to R229, 21 R441) -/

/-- `evpost` (R226). -/
def execEvpost (f : EX) (s : State) : Host.Outcome State Fault Refusal :=
  settle s (do
    useS s [f.ra]
    let (s', st) := s.eventPost (evName f s) (parF f.par 15 0)
    .ok (s'.countEvent.ws f.rc (wd st)))

/-- `evsig` (R226, R228): a fence at pkg scope over every path, then the signal. -/
def execEvsig (f : EX) (s : State) : Host.Outcome State Fault Refusal :=
  settle s (do
    useS s [f.ra]
    let s ← fence s 63 3
    let (s', st) := s.eventSig (evName f s) (parF f.par 15 0)
    .ok (s'.countEvent.ws f.rc (wd st)))

/-- `evwait` (R229): completes on a Fired entry; else the context is placed as a waiter and waits after the sheaf. -/
def execEvwait (f : EX) (s : State) : Host.Outcome State Fault Refusal :=
  settle s (do
    notAwn s
    useS s [f.ra]
    let n := evName f s
    if (s.event n).state = 2 then .ok s
    else .ok ((s.placeWaiter n (.ctx s.cur)).waitOn (.event (BitVec.ofNat 16 n))))

/-- `evq` (R227). -/
def execEvq (f : EX) (s : State) : Host.Outcome State Fault Refusal :=
  settle s (do
    useS s [f.ra]
    .ok (s.ws f.rc (s.event (evName f s)).value))

/-- `evq.clr` (R226, R227): the value before the clear is read. -/
def execEvqClr (f : EX) (s : State) : Host.Outcome State Fault Refusal :=
  settle s (do
    notAwn s
    useS s [f.ra]
    let n := evName f s
    .ok ((s.eventClear n).ws f.rc (s.event n).value))

end Sys2Proof.Machine
end

