-- ==== Sys2Proof/Machine/Banks.lean ====
section
/-! DEFINITION. Elements of typed banks: virtual banks, scale records, decoding and encoding of elements (03 R63 to R67, 05 R130, R131,
R137, 08 R202), the converters' count tokens (05 R140). -/

namespace Sys2Proof.Machine

/-- Base address of a scratchpad window (03 Table — Address windows). -/
def winBase (win : Nat) : Word := wd (0x8000000000000000 + win * 0x0200000000000000)

/-- Bytes of a bank. -/
def bankBytes (v : Bool) (win : Nat) : Nat := framesPerBank v win * 2048

/-- The format of the bank that serves a window offset. -/
def State.fmtAt (s : State) (t win off : Nat) : Word := s.pageFmt t win (off / 2048)

/-- Elements of a group: 32, 64 or 128 (03 R65). -/
def groupLen (fmt : Word) : Nat := 16 * 2 ^ fmtGsz fmt

/-- Bytes of a scale record (03 Table — Legal bank formats). -/
def recSize (fmt : Word) : Nat := if fmtTy fmt = 11 then 1 else if fmtZp fmt then 4 else 2

/-- The window offset of the scale record of group g of the virtual bank that holds an offset (05 R137). -/
def scaleOff (v : Bool) (win off : Nat) (fmt : Word) (g : Nat) : Nat :=
  let vb := off / bankBytes v win
  (fmtSbank fmt + vb / banks v win * banks v win) * bankBytes v win + g * recSize fmt

/-- The element index of an offset in its virtual bank (05 R137). -/
def elemIndex (v : Bool) (win off : Nat) (fmt : Word) : Nat := off % bankBytes v win * 8 / tyWidth (fmtTy fmt)

/-- Bytes read from resident pages of the running task, each with its granule's poison. -/
def Tile.spRead (x : Tile) (win : Nat) : Nat → Nat → List (Byte × Bool)
  | _, 0 => []
  | off, n + 1 =>
    (match (x.page (pkey win (off / 2048))).read (off % 2048) 1 with
     | b :: _ => b
     | [] => (0, false)) :: x.spRead win (off + 1) n

/-- d and z of a scale record (05 R131). -/
def recD16 (bs : List Byte) : Num := f16.decode (leNat (bs.take 2))
def recZ (ty : Nat) (bs : List Byte) : Int := zeroPoint ty ((bs[2]?).getD 0).toNat

/-- The exact value of an element under its bank's format and its group's record (05 R124, R130, R131). -/
def decodeElem (fmt : Word) (raw : Nat) (rec_ : List Byte) : Num :=
  let ty := fmtTy fmt
  if fmtGsz fmt = 0 then decodeTy ty raw
  else if ty = 11 then (decodeTy 14 ((rec_.headD 0).toNat)).mul (decodeTy 11 raw)
  else deqG (intOf (tySigned ty) (tyWidth ty) raw) (recD16 rec_) (if fmtZp fmt then recZ ty rec_ else 0)

/-- The elements of width w of some bytes. -/
def rawElems (w : Nat) (bs : List Byte) : List Nat :=
  let x := leNat bs
  (List.range (8 * bs.length / w)).map (fun i => (x >>> (w * i)) % 2 ^ w)

/-- The bytes of elements of width w. -/
def packElems (w : Nat) (xs : List Nat) : List Byte :=
  leBytes ((xs.length * w + 7) / 8) ((xs.zipIdx).foldl (fun (n : Nat) (p : Nat × Nat) => n + (p.1 % 2 ^ w) * 2 ^ (w * p.2)) 0)

/-! ### Decoding vector accesses (08 R202) -/

/-- A decoding access: window, offset, format, and the offsets and bytes of its scale records. -/
structure DecodeAt where
  win : Nat
  off : Nat
  fmt : Word
  recOff : Nat
  recLen : Nat
  deriving DecidableEq, Repr

/-- Whether a vector access at an address is a decoding one: its bank has GSZ ≠ 0. -/
def State.decodeAt (s : State) (t : Nat) (a : Word) : Option DecodeAt :=
  match windowOf a with
  | some win =>
    if win < 3 then
      let v := isV t
      let off := offset a
      let fmt := s.fmtAt t win off
      if fmtGsz fmt = 0 then none
      else
        let i0 := elemIndex v win off fmt
        let g0 := i0 / groupLen fmt
        let g1 := (i0 + 63) / groupLen fmt
        some ⟨win, off, fmt, scaleOff v win off fmt g0, (g1 + 1 - g0) * recSize fmt⟩
    else none
  | none => none

/-- Bytes of a decoding access. -/
def DecodeAt.len (d : DecodeAt) : Nat := 8 * tyWidth (fmtTy d.fmt)

/-- Address of its scale records. -/
def DecodeAt.recAddr (d : DecodeAt) : Word := winBase d.win + wd d.recOff

/-- The record of element j of the access among the records' bytes. -/
def DecodeAt.record {α : Type} (v : Bool) (d : DecodeAt) (recs : List α) (j : Nat) : List α :=
  let i0 := elemIndex v d.win d.off d.fmt
  let k := (i0 + j) / groupLen d.fmt - i0 / groupLen d.fmt
  (recs.drop (k * recSize d.fmt)).take (recSize d.fmt)

/-- The lanes a decoding load writes: each element rounded to f32; poison of an element or its record; events (08 R202, 20 R422). -/
def DecodeAt.load (v : Bool) (d : DecodeAt) (bs recs : List (Byte × Bool)) (rm : Nat) :
    List (Nat × Bool × Option Nat) :=
  let w := tyWidth (fmtTy d.fmt)
  let raws := rawElems w (bs.map (·.1))
  (List.range 64).map (fun j =>
    let r := d.record v recs j
    let x := decodeElem d.fmt ((raws[j]?).getD 0) (r.map (·.1))
    let (b, ev) := f32.result [x] x rm false
    let p := ((bs[j * w / 8]?).map (·.2)).getD false || r.any (·.2)
    (b, p, ev))

/-- What a decoding store writes: the element bytes, the records where the bank is MX, and the events (08 R202). Of an integer outside the type, as z
of a special case may be, the low bits are stored (DESIGN CHOICE, log 47: R131 gives none). -/
def DecodeAt.store (v : Bool) (d : DecodeAt) (x : List Nat) (recs : List Byte) (rm : Nat) : List Byte × List Byte × List (Option Nat) :=
  let ty := fmtTy d.fmt
  let w := tyWidth ty
  let xs := x.map (fun b => f32.decode b)
  if ty = 11 then
    let (s0, e0) := mxBlock (xs.take 32) rm
    let (s1, e1) := mxBlock (xs.drop 32) rm
    (packElems w ((e0 ++ e1).map (·.1)), [BitVec.ofNat 8 s0, BitVec.ofNat 8 s1], (e0 ++ e1).map (·.2))
  else
    let q := xs.zipIdx.map (fun p =>
      let r := d.record v recs p.2
      quantG p.1 (recD16 r) (if fmtZp d.fmt then recZ ty r else 0) ty rm)
    (packElems w (q.map (fun p => bitsOfInt w p.1)), [], q.map (·.2))

/-! ### Count tokens (05 R140) -/

/-- A converter emits its counts as one token into the tile's router and clears them, where the tile has a statistics tree. -/
def State.emitStats (s : State) (t conv : Nat) : State :=
  let tree := recStree (s.runRec t)
  if tree = 0 then s
  else
    let x := s.tile t
    let counts := (List.range 5).map (x.stat conv)
    let y := (List.range 5).foldl (fun (y : Tile) e => { y with stats := y.stats.set 0 (conv * 8 + e) 0 }) x
    let id := x.run.bind (fun k => (s.task k).owner)
    (s.setTile t y).post (.statTokenArrival t 0 ⟨counts, tree, 1, tree % 256, s.time, id⟩)

/-- Every converter of a tile emits. -/
def State.emitAll (s : State) (t : Nat) : State := (List.range 3).foldl (fun s c => s.emitStats t c) s

end Sys2Proof.Machine
end

