-- ==== Sys2Proof/Machine/System.lean ====
section
/-! DEFINITION. Control registers (07_isa_scalar_control.md R166 to R168), the register-write events, access to other contexts
(R192), energy counters (R191), and debug stops (15 R405 to R407). -/

namespace Sys2Proof.Machine

/-! ### Debug stops (15 R405 to R408) -/

/-- DBGCTL fields. -/
def Ctx.dbgSs (c : Ctx) : Bool := (c.cr 0x14).getLsbD 0
def Ctx.dbgAct (c : Ctx) : Bool := (c.cr 0x14).getLsbD 1
def Ctx.dbgEve (c : Ctx) : Bool := (c.cr 0x14).getLsbD 2
def Ctx.dbgSkip (c : Ctx) : Bool := (c.cr 0x14).getLsbD 3
def Ctx.dbgEvn (c : Ctx) : Nat := bits (c.cr 0x14) 47 32

/-- A stop is recorded: HIT is set, and EVN is signalled when EVE = 1 and the context is in task mode, where alone the registers act (15 R405). -/
def State.stopHit (s : State) (a : Agent) (hit : Nat) : State :=
  let c := s.ctx a
  let s := s.setCtx a (c.setCr 0x14 (putBits (c.cr 0x14) 7 4 hit))
  if c.dbgEve && !c.hm then (s.eventSig c.dbgEvn 1).1 else s

/-- A context enters Held, keeping the wait it was in (02 R30, 07 R167). -/
def Ctx.hold (c : Ctx) : Ctx :=
  match c.st with
  | .ready => { c with st := .held none }
  | .waiting w => { c with st := .held (some w) }
  | _ => c

/-- A context leaves Held: Ready, or Waiting while its wait condition holds (07 R167). -/
def Ctx.unhold (c : Ctx) : Ctx :=
  match c.st with
  | .held none => { c with st := .ready }
  | .held (some w) => { c with st := .waiting w }
  | _ => c

/-! ### Values -/

/-- A BFMT value is one of Table — Legal bank formats (03 R66). -/
def bfmtLegal (v : Bool) (buf bank : Nat) (w : Word) : Bool :=
  let ty := fmtTy w
  let int := ty == 4 || ty == 5 || ty == 12 || ty == 13
  let gsz := fmtGsz w
  let form := (gsz == 0 && !fmtZp w && !fmtSc w && (ty ≤ 10 || (12 ≤ ty && ty ≤ 14))) ||
    (ty == 11 && gsz == 1 && !fmtZp w && fmtSc w) || (int && 1 ≤ gsz && fmtSc w)
  form && (!fmtSc w || (fmtSbank w != bank && fmtSbank w < banks v buf))

/-- The writable bits of BFMT. -/
def bfmtMask : Word := 0x00FF131F

/-- MSTEP (10 R278). -/
def Tile.mstep (t : Tile) : Word :=
  match t.mq with
  | [] => wd (15 * 2 ^ 51)
  | m :: ms => wd (ms.length * 2 ^ 56 + 2 ^ 55 + m.ctx * 2 ^ 51 + m.step)

/-- CTXHOLD reads 1 for each Held context. -/
def State.heldBits (s : State) (t : Nat) : Word :=
  wd ((List.range 11).foldl (fun n c => match (s.ctx ⟨t, c⟩).st with
    | .held _ => n + 2 ^ c
    | _ => n) 0)

/-- The tile that FSEL of a die selects (20 R424). -/
def State.fselTile (s : State) (d : Nat) : Option Nat :=
  let t := bits ((s.die d).cr 0x208) 7 0
  if t < 160 then some (d * 160 + t) else none

/-- FREC n of the selected tile. -/
def State.frec (s : State) (d n : Nat) : Word :=
  match s.fselTile d with
  | none => 0
  | some t =>
    let x := s.tile t
    if n = 0 then x.frec0 else if n = 1 then x.frec1 else if n = 2 then x.frec2 else x.frec3

/-- What `crd` of an agent returns for a register (07 R166, R168): WO fields and reserved ones read zero (00 R8). An awn core has no floating-point
control state (09 R251): its FPCTL reads 0 and drops writes; of the other per-context registers it has copies of its own, and the per-task registers of a
tile whose running slot is empty read 0 (DESIGN CHOICE, log 20: the spec says neither). -/
def State.crRead (s : State) (a : Agent) (n : Nat) : Word :=
  let t := a.tile
  let d := dieOf t
  let r := s.runRec t
  if cregIsCtx n then (if n = 0 && a.isAwn then 0 else (s.ctx a).cr n)
  else match bfmtBank (isV t) n with
    | some (buf, bank) => (s.tile t).fmt buf bank
    | none =>
      if n = 0x40 then recPwbase r else if n = 0x41 then wd (recPwsize r) else if n = 0x42 then recRoot r &&& ~~~0x0000F00000000FFF
      else if n = 0x43 then s.thvec t
      else if n = 0x44 then (s.tile t).mstep
      else if n = 0x48 then s.heldBits t
      else if 0x209 ≤ n && n ≤ 0x20C then s.frec d (n - 0x209)
      else if 0x200 ≤ n && n ≤ 0x20D then (s.die d).cr n
      else if n = 0x280 then 6 else if n = 0x281 then 0x0A10 else if n = 0x282 then wd s.time
      else 0

/-! ### Writes (00 R6, R8) -/

/-- A masked write: RW bits are replaced, every other bit keeps its value. -/
def masked (old v mask : Word) : Word := (old &&& ~~~mask) ||| (v &&& mask)

/-- VALID of EFAULT written 1 clears EFAULT and EFADDR (22 R454). -/
def Ctx.clearEfault (c : Ctx) : Ctx := (c.setCr 6 0).setCr 7 0

/-- A write of a context's own copy of a per-context register. -/
def Ctx.crWrite (c : Ctx) (n : Nat) (v : Word) : Ctx :=
  let rw (m : Word) : Ctx := c.setCr n (masked (c.cr n) v m)
  if n = 0 then rw 7
  else if n = 1 || n = 7 then c
  else if n = 2 then rw 0x3FFFFFF
  else if n = 4 then rw (~~~7)
  else if n = 6 then (if v.getLsbD 63 then c.clearEfault else c)
  else if 8 ≤ n && n ≤ 11 then rw (~~~6)
  else if 16 ≤ n && n ≤ 19 then rw (if bits v 7 3 ≤ 12 then 0xFF else 7)
  else if n = 0x14 then c.setCr n (masked (c.cr n) v 0x0000FFFF00000007 ||| (v &&& 8))
  else if n = 0x18 then rw 0xFFFF0003
  else if n = 0x20 then (if bits v 2 0 ≤ 4 then rw 7 else c)
  else if 0x21 ≤ n && (n - 0x21) % 3 ≠ 0 then rw (~~~7)
  else rw (BitVec.allOnes 64)

/-- A BFMT register takes a value that R66 accepts; reserved bits stay zero (03 R65, R66). -/
def State.writeBfmt (s : State) (t buf bank : Nat) (v : Word) : State :=
  s.setTile t ((s.tile t).setFmt buf bank (v &&& bfmtMask))

/-- The contexts a CTXHOLD or CTXREL value names, without the writer (07 R167). -/
def holdSet (a : Agent) (v : Word) : List Nat := (List.range 11).filter (fun c => v.getLsbD c && c != a.ctx)

/-- CTXHOLD written (07 R167): each named context that has a next sheaf enters Held, with HIT 10 (15 R405). -/
def State.writeHold (s : State) (a : Agent) (v : Word) : State :=
  (holdSet a v).foldl (fun s c =>
    let b : Agent := ⟨a.tile, c⟩
    match (s.ctx b).st with
    | .ready => (s.setCtx b (s.ctx b).hold).stopHit b 10
    | .waiting _ => (s.setCtx b (s.ctx b).hold).stopHit b 10
    | _ => s) s

/-- CTXREL written (07 R167). -/
def State.writeRel (s : State) (a : Agent) (v : Word) : State :=
  (holdSet a v).foldl (fun s c =>
    let b : Agent := ⟨a.tile, c⟩
    let s' := s.setCtx b (s.ctx b).unhold
    match (s.ctx b).st with
    | .held (some _) => if s'.agenda.contains (.contextWaitClear b) then s' else s'.post (.contextWaitClear b)
    | _ => s') s

/-- A TLBINV value removes an entry (03 R86). -/
def tlbinvHits (v : Word) (e : TlbEnt) : Bool :=
  e.asid == bits v 63 48 && (bits v 44 0 == 2 ^ 45 - 1 || e.serves e.asid (bits v 44 0 * 4096))

/-- Accesses that used a removed translation still have to complete (03 R86): writes held at their homes, and page-ins. -/
def State.tlbinvBusy (s : State) (asid : Nat) : Bool :=
  s.heldReqs.any (fun h => h.cut && (h.tr.map (·.1)) == some asid) ||
    s.tiles.any (fun e => e.2.pageIns.any (fun p => p.cut && (p.tr.map (·.1)) == some asid))

/-- A page-in of which a TLBINV removes the translation: it completes with it (22 R452). -/
def PageIn.invalidate (p : PageIn) (v : Word) : PageIn :=
  match p.tr with
  | some (asid, va, l) => if tlbinvHits v ⟨asid, va / 4096, l⟩ then { p with cut := true } else p
  | none => p

/-- A held write of which a TLBINV removes the translation. -/
def HeldReq.invalidate (h : HeldReq) (v : Word) : HeldReq :=
  match h.tr with
  | some (asid, va, l) => if tlbinvHits v ⟨asid, va / 4096, l⟩ then { h with cut := true } else h
  | none => h

/-- A TLBINV removes the translations that accesses keep: of page fetches that have started and not read, and of transfers (22 R449); those of page-ins
and held writes are marked. -/
def State.cutKept (s : State) (v : Word) : State :=
  let cut (f : Fetch) : Fetch := match f.started with
    | some l => if tlbinvHits v ⟨asidOf f.root, f.src / 4096, l⟩ then { f with cut := true } else f
    | none => f
  { s with dies := s.dies.map (fun (e : Nat × Die) => (e.1, { e.2 with fetchQ := e.2.fetchQ.map cut })),
           tiles := s.tiles.map (fun (e : Nat × Tile) => (e.1, { e.2 with pageIns := e.2.pageIns.map (·.invalidate v) })),
           heldReqs := s.heldReqs.map (·.invalidate v),
           xfers := s.xfers.map (fun (x : Xfer) => { x with kept := x.kept.filter (fun e => !tlbinvHits v e) }) }

/-- TLBINV written (03 R86): the entries of a page, or of the whole identifier, leave every TLB of the package; the writer waits until every access that
used one has completed. -/
def State.writeTlbinv (s : State) (a : Agent) (v : Word) : State :=
  let s := { s.cutKept v with tlb := (s.tlb.map (fun e => (e.1, e.2.filter (fun x => !tlbinvHits v x)))).filter (fun e => !e.2.isEmpty) }
  let n := bits v 63 48
  if s.tlbinvBusy n && (s.ctx a).st == .ready then
    (s.setCtx a { s.ctx a with st := .waiting (.structural (.tlbinv n)) }).post (.contextWaitClear a)
  else s

/-- DRLOVF written 1 (03 R89). -/
def State.clearDrlovf (s : State) (d : Nat) : State := s.setDie d { (s.die d).setCr 0x206 0 with drlFail := false }

/-- FREC0.VALID written 1 (20 R424): the record of the selected tile is cleared. -/
def State.clearFrec (s : State) (d : Nat) : State :=
  match s.fselTile d with
  | none => s
  | some t => s.setTile t { s.tile t with frec0 := 0, frec1 := 0, frec2 := 0, frec3 := 0, frecTime := 0 }

/-- A write of TAIL outside OLD to HEAD, or one that changes LOG or BASE while HEAD ≠ TAIL, leaves the log's content not fixed (03 R89). -/
def Die.drlBreaks (x : Die) (n : Nat) (v : Word) : Bool :=
  let head := bits (x.cr 0x204) 31 0
  let tail := bits (x.cr 0x205) 31 0
  if n = 0x205 then (head + 2 ^ 32 - bits v 31 0) % 2 ^ 32 > (head + 2 ^ 32 - tail) % 2 ^ 32
  else head != tail && (if n = 0x202 then bits v 56 12 != bits (x.cr n) 56 12 else bits v 4 0 != bits (x.cr n) 4 0)

/-- A write of a die register. -/
def State.writeDie (s : State) (d n : Nat) (v : Word) : State :=
  let x := s.die d
  let rw (m : Word) : State := s.setDie d (x.setCr n (masked (x.cr n) v m))
  let log (m : Word) : State := s.setDie d { x.setCr n (masked (x.cr n) v m) with drlBad := x.drlBad || x.drlBreaks n v }
  if n = 0x201 then (rw 0xF).trimL2 d
  else if n = 0x202 then log 0x01FFFFFFFFFFF000
  else if n = 0x203 then (if 6 ≤ bits v 4 0 && bits v 4 0 ≤ 20 then log 0x1F else s)
  else if n = 0x205 then log 0xFFFFFFFF
  else if n = 0x206 then (if v.getLsbD 0 then s.clearDrlovf d else s)
  else if n = 0x208 then rw 0xFF
  else if n = 0x209 then (if v.getLsbD 63 then s.clearFrec d else s)
  else if n = 0x20D then rw 0x1FFFFFFFFF
  else s

/-- A control register written by an agent that may write it (07 R168). -/
def State.crWrite (s : State) (a : Agent) (n : Nat) (v : Word) : State :=
  if cregIsCtx n then (if n = 0 && a.isAwn then s else s.setCtx a ((s.ctx a).crWrite n v))
  else match bfmtBank (isV a.tile) n with
    | some (buf, bank) => if bfmtLegal (isV a.tile) buf bank v then s.writeBfmt a.tile buf bank v else s
    | none =>
      if n = 0x48 then s.writeHold a v
      else if n = 0x49 then s.writeRel a v
      else if n = 0x4A then s.writeTlbinv a v
      else s.writeDie (dieOf a.tile) n v

/-! ### Privilege (07 Table — Register privilege) -/

/-- Privilege codes: 0 U, 1 UH, 2 H, 3 F. -/
def privOf (n : Nat) : Nat :=
  if (2 ≤ n && n ≤ 5) || (8 ≤ n && n ≤ 0x14) || (0x48 ≤ n && n ≤ 0x4A) then 2
  else if n = 0x18 then 1
  else if (0x40 ≤ n && n ≤ 0x44) || n = 0x200 || n = 0x201 || n = 0x204 || n = 0x207 || 0x280 ≤ n then 3
  else if 0x202 ≤ n then 2
  else 0

/-- `crd` may be issued. -/
def mayRead (s : State) (n : Nat) : Bool := privOf n != 2 || s.handler
/-- `cwr` may be issued: no mode writes an F register, but the awn core, which never meets the privilege cause (21 R437), does not trap; its write has no
effect, since only the dispatcher and firmware write one (DEDUCED, log 28). -/
def mayWrite (s : State) (n : Nat) : Bool := privOf n == 0 || (privOf n != 3 && s.handler) || s.cur.isAwn

/-- The number of crd and cwr. -/
def cregNum (f : CI) : Nat := f.imm.toNat % 4096

/-- `crd` (R168). -/
def execCrd (f : CI) (s : State) : Host.Outcome State Fault Refusal :=
  settle s (do
    need (mayRead s (cregNum f)) 4 0x2001 0 0
    .ok (s.ws f.rd (s.crRead s.cur (cregNum f))))

/-- The step-6 condition of a BFMT write (03 R66, 07 R168). -/
def needBfmt (t n : Nat) (v : Word) : Run Unit :=
  match bfmtBank (isV t) n with
  | some (buf, bank) => need (bfmtLegal (isV t) buf bank v) 6 0x7004 1 0
  | none => .ok ()

/-- `cwr` (R168): in effect before the context's next sheaf. -/
def execCwr (f : CI) (s : State) : Host.Outcome State Fault Refusal :=
  settle s (do
    let n := cregNum f
    need (mayWrite s n) 4 0x2001 0 0
    useS s [f.ra]
    needBfmt s.cur.tile n (s.rs f.ra)
    .ok (if privOf n = 3 then s else s.crWrite s.cur n (s.rs f.ra)))

/-! ### The register-write events (03 R66, R86, R89, 07 R167, 20 R424, 22 R454) -/

/-- TLBINV_WRITE. -/
def execTlbinvWrite (a : Agent) (v : Word) (s : State) : Host.Outcome State Fault Refusal := .next (s.writeTlbinv a v)
/-- CTXHOLD_WRITE. -/
def execCtxholdWrite (a : Agent) (v : Word) (s : State) : Host.Outcome State Fault Refusal := .next (s.writeHold a v)
/-- CTXREL_WRITE. -/
def execCtxrelWrite (a : Agent) (v : Word) (s : State) : Host.Outcome State Fault Refusal := .next (s.writeRel a v)
/-- BFMT_WRITE: a value that R66 does not accept leaves the register unchanged. -/
def execBfmtWrite (a : Agent) (n : BitVec 12) (v : Word) (s : State) : Host.Outcome State Fault Refusal :=
  .next (if (bfmtBank (isV a.tile) n.toNat).isSome then s.crWrite a n.toNat v else s)
/-- FREC0_VALID_CLEAR. -/
def execFrec0ValidClear (a : Agent) (s : State) : Host.Outcome State Fault Refusal := .next (s.clearFrec (dieOf a.tile))
/-- EFAULT_VALID_CLEAR. -/
def execEfaultValidClear (a : Agent) (s : State) : Host.Outcome State Fault Refusal := .next (s.setCtx a (s.ctx a).clearEfault)
/-- DRLOVF_CLEAR. -/
def execDrlovfClear (a : Agent) (s : State) : Host.Outcome State Fault Refusal := .next (s.clearDrlovf (dieOf a.tile))
/-- CONTROL_REGISTER_WRITE (07 R168): a write to a register that is not F, by an agent that may make it. DAGEINT and POLDW, which
firmware writes, take their values here too (02 R46, 03 R75). -/
def execControlRegisterWrite (a : Agent) (n : BitVec 12) (v : Word) (s : State) : Host.Outcome State Fault Refusal :=
  .next (if n = 0x200 then s.setDie (dieOf a.tile) ((s.die (dieOf a.tile)).setCr 0x200 (v &&& 0xFFFF)) else s.crWrite a n.toNat v)

/-! ### ctxrd and ctxwr (R192) -/

/-- Class and number of a ctxrd or ctxwr. -/
def ctxCls (f : EX) : Nat := parF f.par 15 13
def ctxNum (f : EX) : Nat := parF f.par 12 0

/-- What `ctxrd` returns of a context; zero from a Free one. -/
def Ctx.peek (c : Ctx) (cls n : Nat) : Word :=
  if c.st = .free then 0
  else if cls = 0 then (if n = 0 then 0 else c.s.get 0 n)
  else if cls = 1 then (lane (c.v.get 0 (n / 64)) (n % 64)).setWidth 64
  else if cls = 2 then (if n = 0 then BitVec.allOnes 64 else c.m.get 0 n)
  else if cls = 3 then wd (c.kc n)
  else if cls = 4 then c.cr n
  else c.pc

/-- A register of a context written by `ctxwr`; the register's poison is cleared (20 R422). -/
def Ctx.poke (c : Ctx) (cls n : Nat) (v : Word) : Ctx :=
  if cls = 0 then c.putS n v
  else if cls = 1 then
    let r := n / 64
    let old := c.v.get 0 r
    { c with v := c.v.set 0 r (vOfLanes (fun i => if i = n % 64 then v.setWidth 32 else lane old i)), vPois := c.vPois.del (64 * r + n % 64) }
  else if cls = 2 then (if n = 0 then c else { c with m := c.m.set 0 n v })
  else if cls = 3 then (if n = 0 then c else { c with k := c.k.set 0 n v.toNat })
  else if cls = 4 then c.crWrite n v
  else { c with pc := v, prog := [], edgeSent := 0 }

/-- `ctxrd` (R192, R440). -/
def execCtxrd (f : EX) (s : State) : Host.Outcome State Fault Refusal :=
  settle s (do
    needHandler s
    useS s [f.ra]
    let c := (s.rs f.ra).toNat
    need (c ≤ 10) 6 0x7001 1 0
    .ok (s.ws f.rc ((s.ctx ⟨s.cur.tile, c⟩).peek (ctxCls f) (ctxNum f))))

/-- `ctxwr` (R192, R440): the target must be Held or Done. -/
def execCtxwr (f : EX) (s : State) : Host.Outcome State Fault Refusal :=
  settle s (do
    needHandler s
    useS s [f.ra, f.rc]
    let n := (s.rs f.ra).toNat
    need (n ≤ 10) 6 0x7001 1 0
    let a : Agent := ⟨s.cur.tile, n⟩
    let c := s.ctx a
    let v := s.rs f.rc
    need (match c.st with
      | .held _ => true
      | .done => true
      | _ => false) 6 0x2003 n 0
    need (!(ctxCls f == 3 && v.toNat > 63)) 6 0x7001 3 0
    need (!(ctxCls f == 5 && v &&& 7 != 0)) 6 0x3001 0 v
    .ok (s.setCtx a (c.poke (ctxCls f) (ctxNum f) v)))

/-! ### Energy counters (R191) -/

/-- A tile's measured counters take on what it has spent, at the last multiple of 256 cycles since the update before (R191). -/
def State.updateEnergy (s : State) (t : Nat) : State :=
  let x := s.tile t
  let e := Config.energy s.fc
  if s.time < x.energyAt + 256 then s
  else s.setTile t { x with energyRun := x.energyRun + (if x.run.isSome then e else 0), energyAll := x.energyAll + e,
                            energyAt := s.time - (s.time - x.energyAt) % 256 }

/-- `erd`: a measured counter lags by less than 256 cycles. -/
def execErd (f : EX) (s : State) : Host.Outcome State Fault Refusal :=
  settle s (
    let s := if parF f.par 3 0 < 2 then s.updateEnergy s.cur.tile else s
    let x := s.tile s.cur.tile
    let v := match parF f.par 3 0 with
      | 0 => wd x.energyRun
      | 1 => wd x.energyAll
      | 2 => wd (recEest (s.runRec s.cur.tile))
      | 3 => BitVec.ofInt 64 s.budget
      | _ => wd s.limit
    .ok (s.ws f.rc v))

/-- ENERGY_COUNTER_UPDATE (R191): what a tile has spent since its last update, every 256 cycles. -/
def execEnergyCounterUpdate (t : Nat) (s : State) : Host.Outcome State Fault Refusal :=
  .next ((s.updateEnergy t).post (.energyCounterUpdate t))

end Sys2Proof.Machine
end

