-- ==== Sys2Proof/Machine/Loads.lean ====
section
/-! DEFINITION. Loads and stores of the contexts and the awn core (08_isa_memory_sync.md R194 to R209): scalar, vector, strided and
indexed, full-empty, snapshot. -/

namespace Sys2Proof.Machine

/-! ### Ordering (04 R99, R110, R111, 08 R197) -/

/-- A release waits for the agent's stores still held at their homes; then they are performed at its scope. -/
def release (s : State) (ord scope : Nat) : Run State :=
  if ord < 2 then .ok s
  else if s.heldReqs.any (fun h => h.req.agent == s.cur) then .error (.wait (.structural .stores) s)
  else .ok (s.performAt s.cur.tile scope)

/-- An acquire at pod scope invalidates the clean remote lines of the die's L2 and the tile's L1; every later access follows within the model's order. -/
def acquire (s : State) (ord scope : Nat) : State :=
  if ord % 2 = 1 && scope = 4 then s.podAcquire s.cur.tile else s

/-- A load reads remote lines at their owner when it is an acquire at pod scope (04 R111). -/
def podRead (ord scope : Nat) : Bool := ord % 2 == 1 && scope == 4

/-! ### Scalar accesses (R200) -/

/-- The address kept for a register that received poisoned bytes (20 R421). -/
def keptS (a : Word) (bs : List (Byte × Bool)) : Option Word := if bs.any (·.2) then some a else none

/-- A scalar load of a size code: its value and its poison go to rd at completion. -/
def loadScalar (s : State) (v : View) (size ord scope : Nat) (kw kp : BitVec 3) (rd : BitVec 5) (srcs : List (BitVec 5)) (a : Word) :
    Run State := do
  useTok s kw kp
  useS s srcs
  aligned a (sizeBytes size)
  let (s, bs) ← loadPieces s v 1 false (podRead ord scope) [(a, sizeBytes size)] a
  let s := acquire s ord scope
  .ok (s.issuePost s.path kw (.s rd.toNat (shape size (leNat (bs.map (·.1)))) (keptS a bs)))

/-- A scalar store of a size code: the low bytes of rd. -/
def storeScalar (s : State) (fe : Bool) (size ord scope : Nat) (kw kp : BitVec 3) (rd : BitVec 5) (srcs : List (BitVec 5)) (a : Word) :
    Run State := do
  useTok s kw kp
  useS s srcs
  let n := sizeBytes size
  aligned a n
  let _ ← checkAll s s.who 2 fe [(a, n)]
  let s ← release s ord scope
  storePieces s fe fe kw [(a, n)] [] a ((leBytes n (s.rs rd).toNat).map (fun b => (b, false))) []

/-- Pair-form loads and stores: format CM, ord 0. -/
def loadCM (size : Nat) (f : CM) (s : State) : Run State :=
  loadScalar s (s.view s.cur) size 0 0 f.kw f.kp f.rd [f.ra] (eaCM f (sizeBytes size) s)
def storeCM (size : Nat) (f : CM) (s : State) : Run State :=
  storeScalar s false size 0 0 f.kw f.kp f.rd [f.ra, f.rd] (eaCM f (sizeBytes size) s)

/-- `ld.b`. -/
def execLdB (f : CM) (s : State) : Host.Outcome State Fault Refusal := settle s (loadCM 0 f s)
/-- `ld.bu`. -/
def execLdBu (f : CM) (s : State) : Host.Outcome State Fault Refusal := settle s (loadCM 1 f s)
/-- `ld.h`. -/
def execLdH (f : CM) (s : State) : Host.Outcome State Fault Refusal := settle s (loadCM 2 f s)
/-- `ld.hu`. -/
def execLdHu (f : CM) (s : State) : Host.Outcome State Fault Refusal := settle s (loadCM 3 f s)
/-- `ld.w`. -/
def execLdW (f : CM) (s : State) : Host.Outcome State Fault Refusal := settle s (loadCM 4 f s)
/-- `ld.wu`. -/
def execLdWu (f : CM) (s : State) : Host.Outcome State Fault Refusal := settle s (loadCM 5 f s)
/-- `ld.d`. -/
def execLdD (f : CM) (s : State) : Host.Outcome State Fault Refusal := settle s (loadCM 6 f s)
/-- `st.b`. -/
def execStB (f : CM) (s : State) : Host.Outcome State Fault Refusal := settle s (storeCM 0 f s)
/-- `st.h`. -/
def execStH (f : CM) (s : State) : Host.Outcome State Fault Refusal := settle s (storeCM 2 f s)
/-- `st.w`. -/
def execStW (f : CM) (s : State) : Host.Outcome State Fault Refusal := settle s (storeCM 4 f s)
/-- `st.d`. -/
def execStD (f : CM) (s : State) : Host.Outcome State Fault Refusal := settle s (storeCM 6 f s)

/-- `ld.o`: lone form, with ordering and scope. -/
def execLdO (f : LM) (s : State) : Host.Outcome State Fault Refusal :=
  settle s (loadScalar s (s.view s.cur) f.size.toNat f.ord.toNat f.scope.toNat f.kw f.kp f.rd [f.ra] (eaLM f s))
/-- `st.o`. -/
def execStO (f : LM) (s : State) : Host.Outcome State Fault Refusal :=
  settle s (storeScalar s false f.size.toNat f.ord.toNat f.scope.toNat f.kw f.kp f.rd [f.ra, f.rd] (eaLM f s))

/-! ### Vector accesses (R201, R202) -/

/-- A register's poisoned lanes with the address of each lane's access. -/
def poisLanes (p : List Bool) (addr : Nat → Word) : SMap Word :=
  ((List.range 64).filter (fun j => (p[j]?).getD false)).map (fun j => (j, addr j))

/-- A vector load of 256 raw bytes, or of 64 elements where the bank has GSZ ≠ 0: the state and the destination's new value. -/
def loadVec (s : State) (v : View) (fe pod : Bool) (vd : BitVec 5) (a : Word) : Run (State × Dst) :=
  match s.decodeAt s.cur.tile a with
  | none => do
    aligned a 16
    let (s, bs) ← loadPieces s v 1 fe pod (cut a 256) a
    let pois := (List.range 64).map (fun j => ((bs.drop (4 * j)).take 4).any (·.2))
    .ok (s, .v vd.toNat (BitVec.ofNat 2048 (leNat (bs.map (·.1)))) (poisLanes pois (fun j => a + wd (4 * j))))
  | some d => do
    aligned a d.len
    let (s, bs) ← loadPieces s v 1 fe pod (cut a d.len ++ cut d.recAddr d.recLen) a
    let r := d.load (isV s.cur.tile) (bs.take d.len) (bs.drop d.len) s.rm
    let w := tyWidth (fmtTy d.fmt)
    .ok (s.countV (r.map (·.2.2)), .v vd.toNat (vOfLanes (fun j => BitVec.ofNat 32 ((r[j]?).getD (0, false, none)).1))
      (poisLanes (r.map (·.2.1)) (fun j => a + wd (j * w / 8))))

/-- The tests of a vector access before its address: the awn core, tokens, scalar sources, and the destination's binding (R199). -/
def vecLoadTests (s : State) (kw kp : BitVec 3) (srcs : List (BitVec 5)) (vd : BitVec 5) : Run Unit := do
  useTok s kw kp
  notAwn s
  useS s srcs
  need (!(s.src.bind vd.toNat).bound) 6 0x7003 vd.toNat 0

/-- A vector load op. -/
def loadV (s : State) (v : View) (ord scope : Nat) (kw kp : BitVec 3) (srcs : List (BitVec 5)) (vd : BitVec 5) (a : Word) : Run State := do
  vecLoadTests s kw kp srcs vd
  let (s, d) ← loadVec s v false (podRead ord scope) vd a
  .ok ((acquire s ord scope).issuePost 0 kw d)

/-- The bytes of a v register with poison. -/
def vBytes (v : VReg) : List (Byte × Bool) := (leBytes 256 v.toNat).map (fun b => (b, false))

/-- A vector store op: raw bytes, or the encoding of R202 with an MX bank's scale bytes. The address is checked before the source is
popped and the bytes are written. -/
def storeV (s : State) (fe : Bool) (ord scope : Nat) (kw kp : BitVec 3) (srcs : List (BitVec 5)) (vs : BitVec 5) (a : Word) : Run State := do
  useTok s kw kp
  notAwn s
  useS s srcs
  let s ← useV s [vs]
  match s.decodeAt s.cur.tile a with
  | none => do
    aligned a 16
    let _ ← checkAll s s.who 2 fe (cut a 256)
    stripsOk s [vs]
    let s ← release s ord scope
    storePieces s fe fe kw (cut a 256) [] a (vBytes (s.rv vs)) []
  | some d => do
    aligned a d.len
    let elems := cut a d.len
    let recs := cut d.recAddr d.recLen
    let mx := fmtTy d.fmt == 11
    let pl ← checkAt s s.who a 2 fe elems
    let rl ← checkAt s s.who a (if mx then 2 else 1) false recs
    stripsOk s [vs]
    let s ← release s ord scope
    let (s, rb) ← loadAhead s (if mx then [] else recs.zip rl) a
    let x := (List.range 64).map (fun j => (lane (s.rv vs) j).toNat)
    let (eb, sb, evs) := d.store (isV s.cur.tile) x (rb.flatten.map (·.1)) s.rm
    let s ← storeChecked s fe kw rb (elems.zip pl) (if mx then recs.zip rl else []) (some a) (eb.map (fun b => (b, false))) (sb.map (fun b => (b, false)))
    .ok (s.countV evs)

/-- `vld`. -/
def execVld (f : CM) (s : State) : Host.Outcome State Fault Refusal :=
  settle s (loadV s (s.view s.cur) 0 0 f.kw f.kp [f.ra] f.rd (eaCM f 256 s))
/-- `vst`. -/
def execVst (f : CM) (s : State) : Host.Outcome State Fault Refusal :=
  settle s (storeV s false 0 0 f.kw f.kp [f.ra] f.rd (eaCM f 256 s))
/-- `vld.o`. -/
def execVldO (f : LM) (s : State) : Host.Outcome State Fault Refusal :=
  settle s (loadV s (s.view s.cur) f.ord.toNat f.scope.toNat f.kw f.kp [f.ra] f.rd (eaLM f s))
/-- `vst.o`. -/
def execVstO (f : LM) (s : State) : Host.Outcome State Fault Refusal :=
  settle s (storeV s false f.ord.toNat f.scope.toNat f.kw f.kp [f.ra] f.rd (eaLM f s))

/-! ### Strided and indexed accesses (R203 to R205, 21 R435) -/

/-- One lane's checks: alignment, the byte checks, a plain bank (R202), the stamp that its view names (21 R434 step 7, R435). -/
def checkLane (s : State) (v : View) (kind : Nat) (a : Word) : Run Place := do
  aligned a 4
  let p ← checkPiece s s.who a 4 kind false
  need (!s.grouped s.cur.tile p) 7 0x7004 5 a
  viewTest s v a 4 p
  .ok p

/-- Lane addresses of `vlds`, `vsts` and of `vldx`, `vstx`. -/
def strideAddrs (f : MX) (s : State) : List Word := (List.range 64).map (fun j => eaMX f s + wd j * s.rs f.rb)
def indexAddrs (f : MX) (s : State) : List Word := (List.range 64).map (fun j => eaMX f s + sx (lane (s.rv f.rb) j))

/-- A strided or indexed load over its lane addresses, a lane at a time (02 R33). -/
def loadLanes (s : State) (f : MX) (as : List Word) : Run State := do
  let v := s.view s.cur
  let pl ← as.mapM (checkLane s v 1)
  let ps := as.map (fun a => (a, 4))
  let (s, bs) ← loadChecked s v (podRead f.ord.toNat f.scope.toNat) none (ps.zip pl)
  let pois := (List.range 64).map (fun j => ((bs.drop (4 * j)).take 4).any (·.2))
  let d : Dst := .v f.rc.toNat (BitVec.ofNat 2048 (leNat (bs.map (·.1)))) (poisLanes pois (fun j => (as[j]?).getD 0))
  .ok ((acquire s f.ord.toNat f.scope.toNat).issuePost 0 f.kw d)

/-- A strided or indexed store: lanes in ascending order, so that the higher lane's bytes remain (R205). -/
def storeLanes (s : State) (f : MX) (as : List Word) : Run State := do
  let pl ← as.mapM (checkLane s .now 2)
  stripsOk s [f.rc]
  let s ← release s f.ord.toNat f.scope.toNat
  storeChecked s false f.kw [] ((as.map (fun a => (a, 4))).zip pl) [] none (vBytes (s.rv f.rc)) []

/-- `vlds`. -/
def execVlds (f : MX) (s : State) : Host.Outcome State Fault Refusal :=
  settle s (do
    vecLoadTests s f.kw f.kp [f.ra, f.rb] f.rc
    loadLanes s f (strideAddrs f s))
/-- `vsts`. -/
def execVsts (f : MX) (s : State) : Host.Outcome State Fault Refusal :=
  settle s (do
    useTok s f.kw f.kp
    notAwn s
    useS s [f.ra, f.rb]
    let s ← useV s [f.rc]
    storeLanes s f (strideAddrs f s))
/-- `vldx`: a bound index register pops one strip (R199). -/
def execVldx (f : MX) (s : State) : Host.Outcome State Fault Refusal :=
  settle s (do
    useTok s f.kw f.kp
    notAwn s
    useS s [f.ra]
    let s ← useV s [f.rb]
    need (!(s.src.bind f.rc.toNat).bound) 6 0x7003 f.rc.toNat 0
    stripsOk s [f.rb]
    loadLanes s f (indexAddrs f s))
/-- `vstx`. -/
def execVstx (f : MX) (s : State) : Host.Outcome State Fault Refusal :=
  settle s (do
    useTok s f.kw f.kp
    notAwn s
    useS s [f.ra]
    let s ← useV s [f.rc, f.rb]
    stripsOk s [f.rb]
    storeLanes s f (indexAddrs f s))

/-! ### Full-empty loads (R206, R207, 03 R76, R77) -/

/-- The key of a granule of a tile's window: window, then granule number. -/
def granKey (win off : Nat) : Nat := win * 2 ^ 32 + off / 16

/-- The granules of a byte range. -/
def granRange (off n : Nat) : List Nat := (granules off n).map (· * 16)

/-- A granule's bit and content in its resident page. -/
def Tile.granFull (x : Tile) (win off : Nat) : Bool :=
  loc (x.spte (pkey win (off / 2048))) == 1 && (x.page (pkey win (off / 2048))).full.getLsbD (off % 2048 / 16)
def Tile.granData (x : Tile) (win off : Nat) : BitVec 128 := (x.page (pkey win (off / 2048))).bytes.extractLsb' (8 * (off % 2048)) 128
def Tile.granPois (x : Tile) (win off : Nat) : Bool := (x.page (pkey win (off / 2048))).pois.getLsbD (off % 2048 / 16)

/-- A full-empty read takes a granule: its content is kept, the page was accessed (03 R70), and with the clear qualifier it is empty (R207).
What it takes counts as seen on every path (04 R97). -/
def State.takeGranule (s : State) (a : Agent) (clr : Bool) (win g : Nat) : State :=
  let x := s.tile a.tile
  let c := s.ctx a
  let key := pkey win (g / 2048)
  let s := s.setCtx a { c with feTaken := c.feTaken.put (granKey win g) (x.granData win g),
                               fePois := c.fePois.set false (granKey win g) (x.granPois win g) }
  let s := s.setTile a.tile { x with unseen := x.unseen.del (key * 128 + g % 2048 / 16) }
  if clr then s.clearGranules a.tile key [g % 2048 / 16] else s.setTile a.tile ((s.tile a.tile).touch key)

/-- A full-empty read takes the full granules of its range that it has not yet taken (R207). -/
def State.takeGranules (s : State) (a : Agent) (clr : Bool) (win off n : Nat) : State :=
  (granRange off n).foldl (fun s g =>
    if ((s.ctx a).feTaken.find (granKey win g)).isSome || !(s.tile a.tile).granFull win g then s else s.takeGranule a clr win g) s

/-- Whether every granule of a range has been taken. -/
def Ctx.allTaken (c : Ctx) (win off n : Nat) : Bool := (granRange off n).all (fun g => (c.feTaken.find (granKey win g)).isSome)

/-- The bytes of a taken range; the taken granules are given up. -/
def Ctx.taken (c : Ctx) (win off n : Nat) : List (Byte × Bool) :=
  (List.range n).map (fun i =>
    let o := off + i
    (((c.feTaken.find (granKey win o)).getD 0).extractLsb' (8 * (o % 16)) 8, c.fePois.get false (granKey win o)))
def Ctx.dropTaken (c : Ctx) (win off n : Nat) : Ctx :=
  (granRange off n).foldl (fun c g => { c with feTaken := c.feTaken.del (granKey win g), fePois := c.fePois.del (granKey win g) }) c

/-- The lanes of a full-empty vector read: raw bytes; or the elements that a decoding access converts by the format and the scale records it finds
as it is performed, with their events (R202, 03 R67). Where another format has taken the bank meanwhile that no longer gives 64 elements of the bytes the
op names, the lanes are free values (DESIGN CHOICE, log 52: the spec does not state them). -/
def State.feLanes (s : State) (r : FeRead) (bs : List (Byte × Bool)) : State × Dst :=
  if !r.dec then
    let pois := (List.range 64).map (fun j => ((bs.drop (4 * j)).take 4).any (·.2))
    (s, .v r.rc (BitVec.ofNat 2048 (leNat (bs.map (·.1)))) (poisLanes pois (fun j => r.addr + wd (4 * j))))
  else match (s.decodeAt s.cur.tile r.addr).filter (fun d => d.len == r.len) with
  | none => (s, .v r.rc (BitVec.ofNat 2048 (leNat ((List.range 256).map (fun i => Config.freeByte s.fc i)))) [])
  | some d =>
    let l := d.load (isV s.cur.tile) bs (((s.tile s.cur.tile).seenBy s.path).spRead d.win d.recOff d.recLen) s.rm
    let w := tyWidth (fmtTy d.fmt)
    (s.countV (l.map (·.2.2)), .v r.rc (vOfLanes (fun j => BitVec.ofNat 32 ((l[j]?).getD (0, false, none)).1))
      (poisLanes (l.map (·.2.1)) (fun j => r.addr + wd (j * w / 8))))

/-- The pages of the scale records that a decoding read of the executing context needs are resident. -/
def State.feRecords (s : State) (r : FeRead) : Bool :=
  !r.dec || match (s.decodeAt s.cur.tile r.addr).filter (fun d => d.len == r.len) with
    | none => true
    | some d => (granRange d.recOff d.recLen).all (fun g => loc ((s.tile s.cur.tile).spte (pkey d.win (g / 2048))) == 1)

/-- A full-empty read of the executing context has taken effect on every granule: its destination is written at that moment (R207). -/
def State.feLand (s : State) (r : FeRead) : State :=
  let bs := s.me.taken r.win r.off r.len
  let s := acquire (s.setMe (s.me.dropTaken r.win r.off r.len)) r.ord r.scope
  if r.size < 7 then s.setMe (s.me.putDst (.s r.rc (shape r.size (leNat (bs.map (·.1)))) (keptS r.addr bs)))
  else
    let x := s.feLanes r bs
    x.1.setMe (x.1.me.putDst x.2)

/-- The pages of a full-empty read that has not taken every granule are accessed (03 R70). -/
def State.feTouch (s : State) (r : FeRead) : State :=
  if s.me.allTaken r.win r.off r.len then s
  else (granRange r.off r.len).foldl (fun s g => s.setTile s.cur.tile ((s.tile s.cur.tile).touch (pkey r.win (g / 2048)))) s

/-- A full-empty read whose places `pl` are resident reaches its bank: the full granules are taken, and it waits for the rest (R207, 03 R77); then the
places `rl` of its scale records are read. -/
def feRead (s : State) (r : FeRead) (pl rl : List Place) : Run State := do
  reside s s.cur.tile (if s.me.allTaken r.win r.off r.len then [] else pl) r.addr
  let s := (s.feTouch r).takeGranules s.cur r.clr r.win r.off r.len
  if s.me.allTaken r.win r.off r.len then do
    reside s s.cur.tile rl r.addr
    .ok (s.feLand r)
  else .error (.wait (.fullEmpty r) s)

/-- The read of n bytes at an address by an op, without a bank format. -/
def feOf (clr : Bool) (f : MX) (a : Word) (n : Nat) : FeRead :=
  { clr := clr, win := (windowOf a).getD 0, off := offset a, len := n, addr := a, rc := f.rc.toNat, size := f.size.toNat, ord := f.ord.toNat, scope := f.scope.toNat }

/-- `ld.fe` in both qualifiers. -/
def ldFe (clr : Bool) (f : MX) (s : State) : Run State := do
  useTok s f.kw f.kp
  useS s [f.ra]
  let a := eaMX f s
  let n := sizeBytes f.size.toNat
  aligned a n
  let pl ← checkAll s s.who 1 true (cut a n)
  feRead s (feOf clr f a n) pl []

/-- `ld.fe`. -/
def execLdFe (f : MX) (s : State) : Host.Outcome State Fault Refusal := settle s (ldFe false f s)
/-- `ld.fe.clr`. -/
def execLdFeClr (f : MX) (s : State) : Host.Outcome State Fault Refusal := settle s (ldFe true f s)

/-- `vld.fe` in both qualifiers; a decoding one covers 2 or 4 granules (R206). -/
def vldFe (clr : Bool) (f : MX) (s : State) : Run State := do
  vecLoadTests s f.kw f.kp [f.ra] f.rc
  let a := eaMX f s
  match s.decodeAt s.cur.tile a with
  | none => do
    aligned a 16
    let pl ← checkAll s s.who 1 true (cut a 256)
    feRead s { feOf clr f a 256 with size := 7 } pl []
  | some d => do
    aligned a d.len
    let recs := cut d.recAddr d.recLen
    let pl ← checkAt s s.who a 1 true (cut a d.len)
    let rl ← checkAt s s.who a 1 false recs
    feRead s { feOf clr f a d.len with size := 7, dec := true } pl rl

/-- `vld.fe`. -/
def execVldFe (f : MX) (s : State) : Host.Outcome State Fault Refusal := settle s (vldFe false f s)
/-- `vld.fe.clr`. -/
def execVldFeClr (f : MX) (s : State) : Host.Outcome State Fault Refusal := settle s (vldFe true f s)

/-- `st.fe` (R206): never waits on a bit; its granules become full. -/
def execStFe (f : MX) (s : State) : Host.Outcome State Fault Refusal :=
  settle s (storeScalar s true f.size.toNat f.ord.toNat f.scope.toNat f.kw f.kp f.rc [f.ra, f.rc] (eaMX f s))
/-- `vst.fe` (R206). -/
def execVstFe (f : MX) (s : State) : Host.Outcome State Fault Refusal :=
  settle s (storeV s true f.ord.toNat f.scope.toNat f.kw f.kp [f.ra] f.rc (eaMX f s))

/-! ### Snapshot loads (R208, R209) -/

/-- The view of a snapshot load: the stamp in s[rb], as a signed value. -/
def stampView (f : MX) (s : State) : View := .at (s.rs f.rb).toInt

/-- `ld.snap`. -/
def execLdSnap (f : MX) (s : State) : Host.Outcome State Fault Refusal :=
  settle s (loadScalar s (stampView f s) f.size.toNat f.ord.toNat f.scope.toNat f.kw f.kp f.rc [f.ra, f.rb] (eaMX f s))
/-- `vld.snap`. -/
def execVldSnap (f : MX) (s : State) : Host.Outcome State Fault Refusal :=
  settle s (loadV s (stampView f s) f.ord.toNat f.scope.toNat f.kw f.kp [f.ra, f.rb] f.rc (eaMX f s))

end Sys2Proof.Machine
end

