-- ==== Sys2Proof/Machine/Atomics.lean ====
section
/-! DEFINITION. Atomics (08_isa_memory_sync.md R213 to R218): performed at the home of their line, at the owner of a remote line, or
at a scratchpad bank. -/

namespace Sys2Proof.Machine

/-! ### Functions (08 Table — Atomic functions) -/

/-- The new value of function `code` on width `w` from old and operand, both below 2^w (R213). -/
def amoFn (code w old b : Nat) : Nat :=
  let so := intOf true w old
  let sb := intOf true w b
  match code with
  | 0 => (old + b) % 2 ^ w
  | 1 => old &&& b
  | 2 => old ||| b
  | 3 => old ^^^ b
  | 4 => if so ≤ sb then old else b
  | 5 => if so ≤ sb then b else old
  | 6 => min old b
  | 7 => max old b
  | _ => b

/-- Compare and swap: the new value where old is the expected one. -/
def casFn (expected new old : Nat) : Nat := if old = expected then new else old

/-- `famo.add.f32` and `famo.add.bf16x2` (R216): RNE, NaNs under 05 R125. -/
def famoF32 (b old : Nat) : Nat := (f32.round (exactSum [f32.decode old, f32.decode b]) 0 false).1
def famoBf16 (b old : Nat) : Nat :=
  let half (x y : Nat) : Nat := (bf16.round (exactSum [bf16.decode x, bf16.decode y]) 0 false).1
  half (old % 65536) (b % 65536) + 65536 * half (old / 65536 % 65536) (b / 65536 % 65536)

/-! ### Performing -/

/-- The home of a global atomic still waits for its overflow handler (04 R108) or a commit (R121), or a store of the context to its line does. -/
def State.homeBusy (s : State) (p : Place) : Bool :=
  match p with
  | .glob va l => !l.isRem && (s.lineShut (l.pa va / 32) || s.heldReqs.any (fun h => h.req.agent == s.cur && h.req.pa / 32 == l.pa va / 32))
  | _ => false

/-- The wait of an atomic on a busy home: for its overflow handler, or for the context's own store. -/
def State.homeWait (s : State) (p : Place) : Wait :=
  match p with
  | .glob va l =>
    let n := l.pa va / 32
    .structural (if (s.dir n).ovf then .handler [n] else if (s.reserved.find n).isSome then .reserved [n] else .line n)
  | _ => .structural .pair

/-- An atomic that finds OVF set asks the overflow handler and waits (04 R108). -/
def State.askHome (s : State) (p : Place) : State :=
  match p with
  | .glob va l => s.askHandler (l.pa va / 32)
  | _ => s

/-- The checks of an atomic's location (08 R196, 21 R434): alignment, bytes, then the transactional atomic. -/
def checkAtomic (s : State) (a : Word) (n : Nat) : Run Place := do
  aligned a n
  let p ← checkPiece s s.who a n 8 false
  need (match p with
    | .glob _ l => !(l.ver && s.me.txo)
    | _ => true) 7 0x6003 0 a
  .ok p

/-- One atomic on n bytes at a checked place (R213, R218, 04 R106): the state, the old value and its poison. -/
def atomicAt (s : State) (n : Nat) (p : Place) (f : Nat → Nat) : State × Nat × Bool :=
  let w := s.who
  match p with
  | .glob va l =>
    let pa := l.pa va
    let d := dieOf w.agent.tile
    let s := if l.isRem && !l.nc then s.bypass w.agent.tile pa else s
    let old := leNat ((s.remRead d pa n).map (·.1))
    let bs := leBytes n (f old)
    let s := s.noteTlb w.tlb w.root va l
    let s := s.setMe { s.me with port := portAdd s.me.port va n }
    let pois := (s.remRead d pa n).any (·.2)
    if l.isRem then (s.remWrite d pa bs false, old, pois)
    else ((s.dataBatch d pa).performWrite (s.writer w 0) d pa bs false l.ver, old, pois)
  | .sp win page off =>
    let x := s.tile w.agent.tile
    let bs := (x.page (pkey win page)).read off n
    let old := leNat (bs.map (·.1))
    (s.setTile w.agent.tile (x.spWrite (s.writer w 0) (pkey win page) off ((leBytes n (f old)).map (fun b => (b, false))) false), old, bs.any (·.2))
  | .edge .. => (s, 0, false)

/-- An atomic at an address: checks, residence, the home, then the effect. -/
def atomic (s : State) (a : Word) (n : Nat) (f : Nat → Nat) : Run (State × Nat × Bool) := do
  let p ← checkAtomic s a n
  reside s s.cur.tile [p] a
  if s.homeBusy p then .error (.wait (s.homeWait p) (s.askHome p)) else .ok (atomicAt s n p f)

/-- The low w bits of a word. -/
def lowBits (w : Nat) (x : Word) : Nat := x.toNat % 2 ^ w

/-! ### The pair forms (R214): 64 bits, unordered, rd written before the next sheaf reads it -/

/-- The pair form of an atomic. -/
def amoCR (srcs : List (BitVec 5)) (fn : Nat → Nat) (f : CR) (s : State) : Run State := do
  useS s srcs
  let a := s.rs f.ra
  let (s, old, p) ← atomic s a 8 fn
  .ok (s.setMe (s.me.putDst (.s f.rd.toNat (wd old) (if p then some a else none))))

/-- `amo.F` of a function code. -/
def amoOp (code : Nat) (f : CR) (s : State) : Run State := amoCR [f.ra, f.rb] (fun old => amoFn code 64 old (s.rs f.rb).toNat) f s

/-- `amo.add`. -/
def execAmoAdd (f : CR) (s : State) : Host.Outcome State Fault Refusal := settle s (amoOp 0 f s)
/-- `amo.and`. -/
def execAmoAnd (f : CR) (s : State) : Host.Outcome State Fault Refusal := settle s (amoOp 1 f s)
/-- `amo.or`. -/
def execAmoOr (f : CR) (s : State) : Host.Outcome State Fault Refusal := settle s (amoOp 2 f s)
/-- `amo.xor`. -/
def execAmoXor (f : CR) (s : State) : Host.Outcome State Fault Refusal := settle s (amoOp 3 f s)
/-- `amo.min`. -/
def execAmoMin (f : CR) (s : State) : Host.Outcome State Fault Refusal := settle s (amoOp 4 f s)
/-- `amo.max`. -/
def execAmoMax (f : CR) (s : State) : Host.Outcome State Fault Refusal := settle s (amoOp 5 f s)
/-- `amo.minu`. -/
def execAmoMinu (f : CR) (s : State) : Host.Outcome State Fault Refusal := settle s (amoOp 6 f s)
/-- `amo.maxu`. -/
def execAmoMaxu (f : CR) (s : State) : Host.Outcome State Fault Refusal := settle s (amoOp 7 f s)
/-- `amo.swap`. -/
def execAmoSwap (f : CR) (s : State) : Host.Outcome State Fault Refusal := settle s (amoOp 8 f s)
/-- `amocas`: rd holds the expected value at issue. -/
def execAmocas (f : CR) (s : State) : Host.Outcome State Fault Refusal :=
  settle s (amoCR [f.ra, f.rb, f.rd] (casFn (s.rs f.rd).toNat (s.rs f.rb).toNat) f s)

/-! ### The lone forms (R215, R216): the old value goes to rc at completion -/

/-- The lone form of an atomic on n bytes, its result extended as a load of size code `sz`. -/
def amoMX (srcs : List (BitVec 5)) (n sz : Nat) (fn : Nat → Nat) (f : MX) (s : State) : Run State := do
  useTok s f.kw f.kp
  useS s srcs
  let a := eaMX f s
  let _ ← checkAtomic s a n
  let s ← release s f.ord.toNat f.scope.toNat
  let (s, old, p) ← atomic s a n fn
  let s := acquire s f.ord.toNat f.scope.toNat
  .ok (s.issuePost s.path f.kw (.s f.rc.toNat (shape sz old) (if p then some a else none)))

/-- `amo.s.F` of a function code. -/
def amoS (code : Nat) (f : MX) (s : State) : Run State :=
  let sz := f.size.toNat
  let w := 8 * sizeBytes sz
  amoMX [f.ra, f.rb] (sizeBytes sz) sz (fun old => amoFn code w old (lowBits w (s.rs f.rb))) f s

/-- `amo.s.add`. -/
def execAmoSAdd (f : MX) (s : State) : Host.Outcome State Fault Refusal := settle s (amoS 0 f s)
/-- `amo.s.and`. -/
def execAmoSAnd (f : MX) (s : State) : Host.Outcome State Fault Refusal := settle s (amoS 1 f s)
/-- `amo.s.or`. -/
def execAmoSOr (f : MX) (s : State) : Host.Outcome State Fault Refusal := settle s (amoS 2 f s)
/-- `amo.s.xor`. -/
def execAmoSXor (f : MX) (s : State) : Host.Outcome State Fault Refusal := settle s (amoS 3 f s)
/-- `amo.s.min`. -/
def execAmoSMin (f : MX) (s : State) : Host.Outcome State Fault Refusal := settle s (amoS 4 f s)
/-- `amo.s.max`. -/
def execAmoSMax (f : MX) (s : State) : Host.Outcome State Fault Refusal := settle s (amoS 5 f s)
/-- `amo.s.minu`. -/
def execAmoSMinu (f : MX) (s : State) : Host.Outcome State Fault Refusal := settle s (amoS 6 f s)
/-- `amo.s.maxu`. -/
def execAmoSMaxu (f : MX) (s : State) : Host.Outcome State Fault Refusal := settle s (amoS 7 f s)
/-- `amo.s.swap`. -/
def execAmoSSwap (f : MX) (s : State) : Host.Outcome State Fault Refusal := settle s (amoS 8 f s)
/-- `amocas.s`: rc holds the expected value at issue. -/
def execAmocasS (f : MX) (s : State) : Host.Outcome State Fault Refusal :=
  let sz := f.size.toNat
  let w := 8 * sizeBytes sz
  settle s (amoMX [f.ra, f.rb, f.rc] (sizeBytes sz) sz (casFn (lowBits w (s.rs f.rc)) (lowBits w (s.rs f.rb))) f s)
/-- `famo.add.f32`: the old value zero-extended. -/
def execFamoAddF32 (f : MX) (s : State) : Host.Outcome State Fault Refusal :=
  settle s (amoMX [f.ra, f.rb] 4 5 (famoF32 (lowBits 32 (s.rs f.rb))) f s)
/-- `famo.add.bf16x2`. -/
def execFamoAddBf16x2 (f : MX) (s : State) : Host.Outcome State Fault Refusal :=
  settle s (amoMX [f.ra, f.rb] 4 5 (famoBf16 (lowBits 32 (s.rs f.rb))) f s)

/-! ### The vector forms (R217) -/

/-- One lane's checks, then a plain bank, then the transactional atomic (21 R434 step 7g). -/
def checkVamo (s : State) (a : Word) : Run Place := do
  let p ← checkPiece s s.who a 4 8 false
  need (!s.grouped s.cur.tile p) 7 0x7004 5 a
  need (match p with
    | .glob _ l => !(l.ver && s.me.txo)
    | _ => true) 7 0x6003 0 a
  .ok p

/-- The lanes performed one after another, in ascending order (R217 fixes none; log 20), each page brought in when its turn comes (02 R33); `got` has
the old values, with their poison, of those performed. A wait keeps it, and the op goes on from there when it issues again. -/
def vamoLanes (code : Nat) (v : VReg) (s : State) (got : List (List (Byte × Bool))) : List ((Nat × Word) × Place) → Run (State × List (List (Byte × Bool)))
  | [] => .ok (s, got)
  | (j, p) :: rest =>
    match reside s s.cur.tile [p] j.2 with
    | .error (.wait w s) => .error (.wait w (s.setProg got))
    | .error e => .error e
    | .ok _ =>
      if s.homeBusy p then .error (.wait (s.homeWait p) ((s.askHome p).setProg got))
      else
        let x := atomicAt s 4 p (fun old => amoFn code 32 old (lane v j.1).toNat)
        vamoLanes code v x.1 (got ++ [(leBytes 4 x.2.1).map (fun b => (b, x.2.2))]) rest

/-- `vamo.F` of a function code. -/
def vamo (code : Nat) (f : MX) (s : State) : Run State := do
  useTok s f.kw f.kp
  notAwn s
  useS s [f.ra]
  let s ← useV s [f.rb]
  need (!(s.src.bind f.rc.toNat).bound) 6 0x7003 f.rc.toNat 0
  let as := (List.range 64).map (fun j => eaMX f s + wd (4 * j))
  aligned (eaMX f s) 16
  let pl ← as.mapM (checkVamo s)
  stripsOk s [f.rb]
  let s ← release s f.ord.toNat f.scope.toNat
  let (s, r) ← vamoLanes code (s.rv f.rb) s s.me.prog ((((List.range 64).zip as).zip pl).drop s.me.prog.length)
  let s := acquire (s.setProg []) f.ord.toNat f.scope.toNat
  .ok (s.issuePost 0 f.kw (.v f.rc.toNat (BitVec.ofNat 2048 (leNat (r.flatten.map (·.1))))
    (poisLanes (r.map (fun l => l.any (·.2))) (fun j => (as[j]?).getD 0))))

/-- `vamo.add`. -/
def execVamoAdd (f : MX) (s : State) : Host.Outcome State Fault Refusal := settle s (vamo 0 f s)
/-- `vamo.and`. -/
def execVamoAnd (f : MX) (s : State) : Host.Outcome State Fault Refusal := settle s (vamo 1 f s)
/-- `vamo.or`. -/
def execVamoOr (f : MX) (s : State) : Host.Outcome State Fault Refusal := settle s (vamo 2 f s)
/-- `vamo.xor`. -/
def execVamoXor (f : MX) (s : State) : Host.Outcome State Fault Refusal := settle s (vamo 3 f s)
/-- `vamo.min`. -/
def execVamoMin (f : MX) (s : State) : Host.Outcome State Fault Refusal := settle s (vamo 4 f s)
/-- `vamo.max`. -/
def execVamoMax (f : MX) (s : State) : Host.Outcome State Fault Refusal := settle s (vamo 5 f s)
/-- `vamo.minu`. -/
def execVamoMinu (f : MX) (s : State) : Host.Outcome State Fault Refusal := settle s (vamo 6 f s)
/-- `vamo.maxu`. -/
def execVamoMaxu (f : MX) (s : State) : Host.Outcome State Fault Refusal := settle s (vamo 7 f s)
/-- `vamo.swap`. -/
def execVamoSwap (f : MX) (s : State) : Host.Outcome State Fault Refusal := settle s (vamo 8 f s)

end Sys2Proof.Machine
end

