-- ==== Sys2Proof/Machine/MemOps.lean ====
section
/-! DEFINITION. Prefetch and cache operations, tokens, fences, the gang barrier, the completion of outstanding ops, and the home's
requests with the directory overflow handler (04 R94 to R111, 08 R210 to R224, 22 R459, R460). -/

namespace Sys2Proof.Machine

/-! ### Prefetch (R210) -/

/-- The fill a prefetch makes: into the L1 (hint 0), where the directory counts a sharer, or the L2 slice of R79. One that the
overflow handler has still to record fills nothing. -/
def State.prefetch (s : State) (hint va : Nat) (l : Leaf) : State :=
  let s := s.noteTlb s.who.tlb s.who.root va l
  if l.nc then s
  else if l.isRem then (if hint = 0 then s.remL1 s.cur.tile (l.pa va) l.entry else s.remLine (dieOf s.cur.tile) (l.pa va) l.entry).1
  else (s.readLine s.cur.tile (l.pa va) l.entry (hint == 0)).1

/-- `pref`: a prefetch that fails a check, or names a scratchpad window, is dropped; poison that ends its walk is reported (22 R448). -/
def execPref (f : LM) (s : State) : Host.Outcome State Fault Refusal :=
  settle s (do
    useTok s f.kw f.kp
    useS s [f.ra]
    let a := eaLM f s
    let s := match checkPiece s s.who a 1 1 false with
      | .ok (.glob va l) => s.prefetch f.rd.toNat va l
      | .error (.trap t) => s.reportTable t
      | _ => s
    .ok (s.issuePost s.path f.kw .none))

/-! ### Cache operations (R211, R212) -/

/-- The lines, by the key of their physical address, that meet the byte ranges lo ≤ va < hi of an address space. -/
def linesMet (ls : List (Nat × Nat × Leaf)) (lo hi key : Nat) : Bool :=
  ls.any (fun x =>
    let base := x.2.2.pa x.1
    let va := x.1 + (key * 32 - base)
    base ≤ key * 32 && key * 32 < base + x.2.1 && va < hi && lo < va + 32)

/-- The global byte range of [ea, ea + n): the part in the global window, and the part in the private window under its alias; a range
reaching past 2^64 - 1 ends there. -/
def cacheRanges (s : State) (ea : Word) (n : Nat) : List (Nat × Nat) :=
  let lo := ea.toNat
  let hi := min (2 ^ 64) (lo + n)
  let r := s.runRec s.cur.tile
  let p := 0x9000000000000000
  let plo := max lo p
  let phi := min hi (p + areaSize r)
  (if lo < min hi (2 ^ 57) then [(lo, min hi (2 ^ 57))] else []) ++
    (if plo < phi && !s.cur.isAwn then
      let g := offset (privAlias r s.cur.ctx (plo - p))
      [(g, g + (phi - plo))]
    else [])

/-- The dies within a cache operation's scope; none for ctx and tile, which reach the executing tile only. -/
def cacheDies (scope die : Nat) : List Nat := if scope ≤ 1 then [] else if scope = 2 then [die] else List.range 16

/-- Copies of the met lines invalidated: the L1s and their pointers in the directory, and the L2 copies of peer and remote lines; a dirty remote copy
is written back first. -/
def State.invalidate (s : State) (met : Nat → Bool) (scope : Nat) : State :=
  let t := s.cur.tile
  let ds := cacheDies scope (dieOf t)
  let gone (h : Nat) : Bool := if h < 4096 then h == t || ds.contains (dieOf h) else ds.contains (h - 4096)
  let strip (e : DirEnt) : DirEnt := { e with ptrs := e.ptrs.filter (fun h => !gone h), table := e.table.filter (fun h => !gone h) }
  let s := (s.dirs.map (·.1)).foldl (fun (s : State) k => if met k then s.setDir k (strip (s.dir k)) else s) s
  let hit (e : Nat × RemLine) : Bool := ds.contains (e.1 / 2 ^ 60) && met (e.1 % 2 ^ 60)
  let s := (s.rem.filter hit).foldl (fun s e => s.writeBack e.1 e.2) s
  { s with rem := s.rem.filter (fun e => !hit e), l1 := s.l1.filter (fun e => !(met (e.1 % 2 ^ 60) && gone (e.1 / 2 ^ 60))) }

/-- Every dirty remote copy of the met lines is written back and stays valid. -/
def State.cleanLines (s : State) (met : Nat → Bool) : State :=
  let s := (s.rem.filter (fun e => met (e.1 % 2 ^ 60))).foldl (fun s e => s.writeBack e.1 e.2) s
  { s with rem := s.rem.map (fun e => if met (e.1 % 2 ^ 60) then (e.1, { e.2 with dirty := 0 }) else e) }

/-- The met lines leave the instruction caches within the scope. -/
def State.invalidateI (s : State) (met : Nat → Bool) (scope : Nat) : State :=
  let t := s.cur.tile
  let ds := cacheDies scope (dieOf t)
  let hit (e : Nat × BitVec 256) : Bool := met (e.1 % 2 ^ 60) && (e.1 / 2 ^ 60 == t || ds.contains (dieOf (e.1 / 2 ^ 60)))
  { s with icache := s.icache.filter (fun e => !hit e) }

/-- A cache operation: 0 clean, 1 inv, 2 flush. -/
def cacheOp (kind : Nat) (f : MXC) (s : State) : Run State := do
  let m := f.m
  useTok s m.kw m.kp
  useS s [m.ra, m.rb]
  let ls := s.leavesAt (bits s.who.root 43 12 * 4096) 0 4
  let rs := cacheRanges s (eaMX m s) (s.rs m.rb).toNat
  let met (key : Nat) : Bool := rs.any (fun r => linesMet ls r.1 r.2 key)
  let s := if kind = 1 then s else s.cleanLines met
  let s := if kind = 0 then s else if f.icache then s.invalidateI met m.scope.toNat else s.invalidate met m.scope.toNat
  let s := if f.port then s.closePort s.cur else s
  .ok (s.issuePost s.path m.kw .none)

/-- `cache.clean`. -/
def execCacheClean (f : MXC) (s : State) : Host.Outcome State Fault Refusal := settle s (cacheOp 0 f s)
/-- `cache.inv`. -/
def execCacheInv (f : MXC) (s : State) : Host.Outcome State Fault Refusal := settle s (cacheOp 1 f s)
/-- `cache.flush`. -/
def execCacheFlush (f : MXC) (s : State) : Host.Outcome State Fault Refusal := settle s (cacheOp 2 f s)

/-! ### Tokens and fences (R219, R220) -/

/-- `tkwait`: k0 completes at once. -/
def execTkwait (kn : BitVec 3) (s : State) : Host.Outcome State Fault Refusal :=
  settle s (if s.src.kc kn.toNat ≠ 0 then .error (.wait (.token kn.toNat) s) else .ok s)

/-- `fence`: mask 0 means every path. -/
def execFenceOp (mask : BitVec 6) (scope : BitVec 3) (s : State) : Host.Outcome State Fault Refusal :=
  settle s (fence s mask.toNat scope.toNat)

/-! ### The gang barrier (R221 to R224) -/

/-- BARST.ARR. -/
def Ctx.arr (c : Ctx) : Bool := (c.cr 0x18).getLsbD 0

/-- A rank's BARST as its phase completes: ARR and SREQ 0, PHASE + 1. -/
def Ctx.phaseDone (c : Ctx) : Ctx :=
  c.setCr 0x18 (putBits (putBits (c.cr 0x18) 1 0 0) 31 16 (bits (c.cr 0x18) 31 16 + 1))

/-- Every rank of a task completes its phase (R223). -/
def State.completePhase (s : State) (k : Nat) : State :=
  let x := s.task k
  let s := x.tiles.foldl (fun s t => s.setCtx ⟨t, 0⟩ (s.ctx ⟨t, 0⟩).phaseDone) s
  s.setTask k { s.task k with arrived := [] }

/-- Every member of a task's barrier has arrived. -/
def State.allArrived (s : State) (k : Nat) : Bool :=
  let n := recRanks (s.record k)
  n != 0 && (List.range n).all (fun r => (s.task k).arrived.contains r)

/-- BARRIER_PHASE_COMPLETE (R223): it reaches the ranks while they run and are clocked (15 R393); a gang that is frozen gets it once it is restored. -/
def execBarrierPhaseComplete (k : Nat) (s : State) : Host.Outcome State Fault Refusal :=
  if s.allArrived k && (s.task k).tiles.all (fun t => (s.tile t).run == some k && !s.stoppedTile t) && !(s.task k).tiles.isEmpty then .next (s.completePhase k)
  else .next s

/-- The arrival of a rank (R223): the wait on ARR, the fence at die scope over every path, the emission of counts, ARR := 1. -/
def arrive (stat : Bool) (s : State) : Run State := do
  onlyCtx0 s
  if s.me.arr then .error (.wait .barrier s) else .ok ()
  let s ← fence s 63 2
  let s := if stat then (s.setMe (s.me.setCr 0x18 (putBits (s.me.cr 0x18) 1 1 1))).emitAll s.cur.tile else s
  let s := s.setMe (s.me.setCr 0x18 (putBits (s.me.cr 0x18) 0 0 1))
  match s.taskOf s.cur with
  | none => .ok (s.setMe s.me.phaseDone)
  | some k =>
    let x := s.task k
    let s := s.setTask k { x with arrived := (s.tile s.cur.tile).rank :: x.arrived }
    .ok (if !s.allArrived k then s else if recRanks (s.record k) = 1 then s.completePhase k else s.post (.barrierPhaseComplete k))

/-- `bar.arrive`. -/
def execBarArrive (stat : Bool) (s : State) : Host.Outcome State Fault Refusal := settle s (arrive stat s)

/-- `bar.wait`: an acquire at die scope once it ends (R224). -/
def execBarWait (_stat : Bool) (s : State) : Host.Outcome State Fault Refusal :=
  settle s (do
    onlyCtx0 s
    if s.me.arr then .error (.wait .barrier s) else .ok s)

/-- `bar.sync`: the arrival, then the wait, which follows the issue. -/
def execBarSync (stat : Bool) (s : State) : Host.Outcome State Fault Refusal :=
  settle s (do
    let s ← arrive stat s
    .ok (if s.me.arr then s.waitOn .barrier else s))

/-! ### Completion of outstanding ops (04 R94) -/

/-- OPERATION_COMPLETION: a load, store or packet op reaches its completion point. A store some of whose requests wait at their homes
completes with the last of them; engine ops complete by their own steps. -/
def execOperationCompletion (id : Nat) (s : State) : Host.Outcome State Fault Refusal :=
  match s.ops.find id with
  | none => .next s
  | some o => if o.need = 0 && (o.path = 0 || o.path = 4) then .next (s.completeOp id) else .next s

/-! ### Requests at the home (04 R102, R106 to R108, 22 R459, R460) -/

/-- A request of someone performed: a write, or an atomic. -/
def State.performReq (s : State) (w : Option Writer) (r : MemReq) : State :=
  if r.kind = 0 then s.performWrite w (dieOf r.agent.tile) r.pa r.data r.poisoned r.ver
  else
    let b := 8 * r.len
    let old := leNat (s.memRead r.pa r.len)
    let new := if r.op = 9 then casFn (lowBits b r.expected) (lowBits b r.operand) old else amoFn r.op b old (lowBits b r.operand)
    s.performWrite w (dieOf r.agent.tile) r.pa (leBytes r.len new) false r.ver

/-- MEMORY_REQUEST_ARRIVAL: a request within one line of this package's memory reaches its home; with OVF set a write or atomic waits. -/
def execMemoryRequestArrival (r : MemReq) (s : State) : Host.Outcome State Fault Refusal :=
  let n := if r.kind = 0 then r.data.length else r.len
  if !localPa r.pa || r.pa ≥ 2 ^ 40 || r.kind > 2 || (r.kind ≠ 2 && (n = 0 || r.pa % 32 + n > 32)) then .next s
  else if r.kind = 2 then .next (s.addSharer (r.pa / 32) r.home r.sharer)
  else if s.lineShut (r.pa / 32) then .next (s.holdReq r none)
  else .next (s.performReq none r)

/-- The handler of a tile has failed: the first use of it is reported, and it stays failed (22 R460). -/
def State.reportHandler (s : State) (t : Nat) : State :=
  if (s.tile t).ovfFailed then s
  else (s.setTile t { s.tile t with ovfFailed := true }).report none { cls := 5, reach := 4, tile := t }

/-- DIRECTORY_OVERFLOW (04 R108): OVF is set and the handler records the sharer; a failed handler leaves the fill uncached (22 R460). -/
def execDirectoryOverflow (line sharer : Nat) (s : State) : Host.Outcome State Fault Refusal :=
  let e := s.dir line
  if e.ptrs.contains sharer || e.table.contains sharer then .next s
  else if e.ptrs.length < 4 then .next (s.addSharer line e.home sharer)
  else if s.handlerFailed e.home line then .next (s.reportHandler e.home)
  else .next (s.setDir line { e with ovf := true, table := e.table ++ [sharer] })

/-- The requests held for a line are performed in the order of their arrival, and the ops that wait for them complete, once neither the overflow
handler nor a commit stands in their way. -/
def State.performHeld (s : State) (line : Nat) : State :=
  if s.lineShut line then s else
  let mine := s.heldReqs.filter (fun h => h.req.pa / 32 == line)
  let s := { s with heldReqs := s.heldReqs.filter (fun h => h.req.pa / 32 != line) }
  mine.foldl (fun s h =>
    let s := s.performReq (s.writerOf h.op) h.req
    match h.op with
    | none => s
    | some id =>
      match s.ops.find id with
      | some o =>
        let s := { s with ops := s.ops.put id { o with need := o.need - 1 } }
        if o.need ≠ 1 then s else if o.part then s.completeOp id else if o.path = 0 || o.path = 4 then s.post (.operationCompletion id) else s
      | none => s) s

/-- OVERFLOW_HANDLER_REPORT (04 R108): every sharer has acknowledged its invalidation, so the held requests are performed, the table
entry is empty and OVF is cleared. A refusal (22 R459) gives back the sharer last posted, whose fill is not cached. -/
def execOverflowHandlerReport (line : Nat) (refuse : Bool) (s : State) : Host.Outcome State Fault Refusal :=
  let e := s.dir line
  if !e.ovf then .next s
  else if s.handlerFailed e.home line then .next (s.reportHandler e.home)
  else if refuse then .next (s.setDir line { e with table := e.table.dropLast })
  else .next (((s.invalidateSharers (homeDie (line * 32)) (line * 32)).crossAll (homeDie (line * 32))).performHeld line)

end Sys2Proof.Machine
end

