-- ==== Sys2Proof/Machine/Commit.lean ====
section
/-! DEFINITION. `txcommit` (08 R233): the reservations of a commit, its stamp, the writes of its lines (04 R120, R121, 22 R461). -/

namespace Sys2Proof.Machine

/-- Whether a home refuses a line: a committed version newer than the start stamp, or a reservation of another commit (04 R120). -/
def State.conflicts (s : State) (a : Agent) (c : Ctx) : Bool :=
  c.tx.lines.any (fun e => decide ((s.ver e.1).stamp > c.tx.start) || s.heldByCommit a e.1)

/-- Every home of a write set has granted its reservation. -/
def State.allReserved (s : State) (a : Agent) (c : Ctx) : Bool := c.tx.lines.all (fun e => s.reserved.find e.1 == some (akey a))

/-- The homes of a write set reserve its lines. -/
def State.reserveLines (s : State) (a : Agent) (c : Ctx) : State :=
  { s with reserved := c.tx.lines.foldl (fun m e => m.put e.1 (akey a)) s.reserved }

/-- The reservation of a line ends: what waited for it is performed (04 R121). -/
def State.releaseLine (s : State) (line : Nat) : State := { s with reserved := s.reserved.del line }.performHeld line

/-- A line of a write set is written at its home with the commit stamp, and its reservation ends (04 R120 step 4). -/
def State.installLine (s : State) (a : Agent) (line stamp : Nat) (e : TxLine) : State :=
  let old := s.memRead (line * 32) 32
  let new := (List.range 32).map (fun i => if e.mask.getLsbD i then e.data.extractLsb' (8 * i) 8 else (old[i]?).getD 0)
  let d := dieOf a.tile
  let s := ((s.dataBatch d (line * 32)).stampLine line stamp).hideMem (some ⟨0, a, (s.tile a.tile).run⟩) (line * 32) 32
  let s := if e.mask = BitVec.allOnes 32 then s.lineWrite (line * 32) new false else s.memWrite (line * 32) new
  (s.invalidateSharers d (line * 32)).releaseLine line

/-- The commit stamp: the time base of the committing die, past the last stamp of every line (04 R120 step 3). -/
def State.commitStamp (s : State) (c : Ctx) : Nat := c.tx.lines.foldl (fun n e => max n (s.nextStamp e.1)) s.time

/-- Every home has granted: the stamp is taken. -/
def State.grantCommit (s : State) (a : Agent) : State :=
  let c := s.ctx a
  let n := s.commitStamp c
  { s.setCtx a { c with tx := { c.tx with granted := some n, done := [] } } with time := n }

/-- The next line of a granted commit is installed. -/
def State.installNext (s : State) (a : Agent) : State :=
  let c := s.ctx a
  match c.tx.granted, c.tx.lines.find? (fun e => !c.tx.done.contains e.1) with
  | some n, some e =>
    let s := s.installLine a e.1 n e.2
    s.setCtx a { s.ctx a with tx := { (s.ctx a).tx with done := e.1 :: (s.ctx a).tx.done } }
  | _, _ => s

/-- Every line of a granted commit is installed. -/
def Ctx.installed (c : Ctx) : Bool := c.tx.granted.isSome && c.tx.lines.all (fun e => c.tx.done.contains e.1)

/-- The commit ends: with its stamp where every line is installed (08 R235). The line count of `txstat` stays that of the committed set (DESIGN CHOICE,
log 29: R235 does not say what it becomes). -/
def State.endCommit (s : State) (a : Agent) : State :=
  let n := ((s.ctx a).tx.granted).getD (s.ctx a).tx.commit
  s.endTx a 2 n true

/-- A granted commit whose tile freezes is finished by the homes (22 R461). -/
def State.finishCommit (s : State) (a : Agent) : Nat → State
  | 0 => s
  | n + 1 => if (s.ctx a).tx.granted.isNone || (s.ctx a).installed then s else (s.installNext a).finishCommit a n

/-- The reservations of an agent's commit end (04 R120 step 2). -/
def State.releaseAll (s : State) (a : Agent) : State :=
  (s.reserved.filter (fun e => e.2 == akey a)).foldl (fun s e => s.releaseLine e.1) s

/-- A commit whose lines are all performed ends once every die has applied their invalidations (04 R120 step 5). -/
def State.closeCommit (s : State) (a : Agent) : State := (s.endCommit a).performAt a.tile 3

/-- One issue of `txcommit` by an open transaction (04 R120): the reservations; then the stamp; then a line at each issue. With no line there is no
stamp. A start stamp that is no longer live aborts it (22 R463). A line whose sharers the overflow handler still has to invalidate keeps it waiting (04
R108). -/
def commitStep (s : State) : Run (State × Nat) :=
  let a := s.cur
  let c := s.me
  let next := c.tx.lines.find? (fun e => !c.tx.done.contains e.1)
  if c.tx.state = 5 then .ok (s.endTx a 5 c.tx.commit true, 3)
  else if c.tx.granted.isSome then
    match next with
    | none => .ok (s.closeCommit a, 0)
    | some e =>
      if (s.dir e.1).ovf then .error (.wait (.structural (.handler [e.1])) (s.askHandler e.1))
      else
        let s := s.installNext a
        if s.me.installed then .ok (s.closeCommit a, 0) else .error (.wait (.structural .commit) s)
  else if !s.live.contains (c.tx.start, .tx a) then .ok ((s.releaseAll a).endTx a 3 c.tx.commit true, 1)
  else if !c.tx.lines.isEmpty && s.allReserved a c then .error (.wait (.structural .commit) (s.grantCommit a))
  else if s.conflicts a c then .ok ((s.releaseAll a).endTx a 3 c.tx.commit true, 1)
  else if c.tx.lines.isEmpty then .ok (s.endTx a 2 c.tx.commit true, 0)
  else .error (.wait (.structural .commit) (s.reserveLines a c))

/-- `txcommit` (08 R233): a release at pkg scope of the context's earlier path-0 accesses, then the commit. -/
def execTxcommit (f : EX) (s : State) : Host.Outcome State Fault Refusal :=
  settle s (do
    notAwn s
    let s ← release s 2 3
    if !s.me.txo then .ok (s.ws f.rc 2)
    else do
      let (s, st) ← commitStep s
      .ok (s.ws f.rc (wd st)))

end Sys2Proof.Machine
end

