-- ==== Sys2Proof/Machine/Debug.lean ====
section
/-! DEFINITION. Breakpoints and watchpoints of a context (15_freeze_debug.md R405 to R407). -/

namespace Sys2Proof.Machine

/-- What an op accesses on path 0: the s registers that its addresses are formed of, and byte ranges with the kinds that watch them: 1 load, 2 store,
3 atomic (R406). -/
structure Watched where
  regs : List (BitVec 5) := []
  ranges : List (Word × Nat × Nat) := []

/-- The ranges of a `bmcast` list: its header, and the entries that the header counts as far as it can be read now. -/
def listRanges (s : State) (a : Word) : List (Word × Nat × Nat) :=
  match (checkAll s s.who 1 false (cut a 8)).toOption.bind (fun pl => (readAll s s.who .now false ((cut a 8).zip pl)).toOption) with
  | some (_, bs) => [(a, 8 + 16 * min 8 (leNat ((bs.take 2).map (·.1))), 1)]
  | none => [(a, 8, 1)]

/-- The path-0 accesses of an op (R406): of memory ops, of the descriptor of `bcopyn` (10 R300), of the list of `bmcast` and of the rename table of
`tspawn` (07 R187). A prefetch and a cache operation read and write nothing of the context's. -/
def watchAccesses (s : State) (i : Instr) : Watched :=
  let vec (r : BitVec 5) (a : Word) (k : Nat) : Watched :=
    ⟨[r], [(a, match s.decodeAt s.cur.tile a with
      | some d => d.len
      | none => 256, k)]⟩
  let cm (f : CM) (n k : Nat) : Watched := ⟨[f.ra], [(eaCM f n s, n, k)]⟩
  let strided (f : MX) (k : Nat) : Watched := ⟨[f.ra, f.rb], (strideAddrs f s).map (fun a => (a, 4, k))⟩
  let indexed (f : MX) (k : Nat) : Watched := ⟨[f.ra], (indexAddrs f s).map (fun a => (a, 4, k))⟩
  let amo (f : CR) : Watched := ⟨[f.ra], [(s.rs f.ra, 8, 3)]⟩
  let mx (f : MX) (n k : Nat) : Watched := ⟨[f.ra], [(eaMX f s, n, k)]⟩
  let size (f : MX) (k : Nat) : Watched := mx f (sizeBytes f.size.toNat) k
  let lm (f : LM) (k : Nat) : Watched := ⟨[f.ra], [(eaLM f s, sizeBytes f.size.toNat, k)]⟩
  match i with
  | .ldB f => cm f 1 1
  | .ldBu f => cm f 1 1
  | .ldH f => cm f 2 1
  | .ldHu f => cm f 2 1
  | .ldW f => cm f 4 1
  | .ldWu f => cm f 4 1
  | .ldD f => cm f 8 1
  | .stB f => cm f 1 2
  | .stH f => cm f 2 2
  | .stW f => cm f 4 2
  | .stD f => cm f 8 2
  | .vld f => vec f.ra (eaCM f 256 s) 1
  | .vst f => vec f.ra (eaCM f 256 s) 2
  | .ldO f => lm f 1
  | .stO f => lm f 2
  | .vldO f => vec f.ra (eaLM f s) 1
  | .vstO f => vec f.ra (eaLM f s) 2
  | .ldSnap f => size f 1
  | .vldSnap f => vec f.ra (eaMX f s) 1
  | .ldFe f => size f 1
  | .ldFeClr f => size f 1
  | .vldFe f => vec f.ra (eaMX f s) 1
  | .vldFeClr f => vec f.ra (eaMX f s) 1
  | .stFe f => size f 2
  | .vstFe f => vec f.ra (eaMX f s) 2
  | .vlds f => strided f 1
  | .vsts f => strided f 2
  | .vldx f => indexed f 1
  | .vstx f => indexed f 2
  | .amoAdd f => amo f
  | .amoAnd f => amo f
  | .amoOr f => amo f
  | .amoXor f => amo f
  | .amoMin f => amo f
  | .amoMax f => amo f
  | .amoMinu f => amo f
  | .amoMaxu f => amo f
  | .amoSwap f => amo f
  | .amocas f => amo f
  | .amoSAdd f => size f 3
  | .amoSAnd f => size f 3
  | .amoSOr f => size f 3
  | .amoSXor f => size f 3
  | .amoSMin f => size f 3
  | .amoSMax f => size f 3
  | .amoSMinu f => size f 3
  | .amoSMaxu f => size f 3
  | .amoSSwap f => size f 3
  | .amocasS f => size f 3
  | .famoAddF32 f => mx f 4 3
  | .famoAddBf16x2 f => mx f 4 3
  | .vamoAdd f => mx f 256 3
  | .vamoAnd f => mx f 256 3
  | .vamoOr f => mx f 256 3
  | .vamoXor f => mx f 256 3
  | .vamoMin f => mx f 256 3
  | .vamoMax f => mx f 256 3
  | .vamoMinu f => mx f 256 3
  | .vamoMaxu f => mx f 256 3
  | .vamoSwap f => mx f 256 3
  | .bcopyn f => ⟨[f.ra], [(s.rs f.ra, 64, 1)]⟩
  | .bmcast f => ⟨[f.rb], listRanges s (s.rs f.rb)⟩
  | .tspawn f => ⟨[f.rb], [(s.rs f.rb, 16 * (f.fn9.toNat % 256), 1)]⟩
  | _ => {}

/-- The state in which a bound index register shows the strip the sheaf would pop. -/
def peekStrips (s : State) (i : Instr) : State :=
  match i with
  | .vldx f => (popStrip s f.rb.toNat).toOption.getD s
  | .vstx f => (popStrip s f.rb.toNat).toOption.getD s
  | _ => s

/-- The ranges of an op whose address registers hold their results; an op that waits for one is matched once it has it (06 R148). -/
def Watched.known (w : Watched) (s : State) : List (Word × Nat × Nat) := if w.regs.any (fun r => s.src.pends r.toNat) then [] else w.ranges

/-- Breakpoint n of a context matches a sheaf's address (R406). -/
def Ctx.breakHit (c : Ctx) (pc : Word) (n : Nat) : Bool := (c.cr (8 + n)).getLsbD 0 && (c.cr (8 + n)) &&& ~~~7 == pc

/-- Watchpoint n of a context matches an access: a byte inside the range of 2^LG bytes that holds ADDR, of a kind it watches. -/
def Ctx.watchHit (c : Ctx) (n : Nat) (x : Word × Nat × Nat) : Bool :=
  let m := c.cr (0x10 + n)
  let size := 2 ^ bits m 7 3
  let lo := (c.cr (0x0C + n)).toNat / size * size
  m.getLsbD 0 && ((m.getLsbD 1 && x.2.2 % 2 == 1) || (m.getLsbD 2 && x.2.2 / 2 == 1)) &&
    x.1.toNat < lo + size && lo < x.1.toNat + x.2.1

/-- The debug registers of the executing context act: task mode, and not the awn core (R405, 21 R437). -/
def State.debugOn (s : State) : Bool := !s.cur.isAwn && !s.me.hm

/-- The HIT number of the debug match of a sheaf, the lowest where several match (R406): 1 to 4 breakpoints, 5 to 8 watchpoints. -/
def State.debugMatch (s : State) (ops : List Instr) : Option Nat :=
  if !s.debugOn || s.me.dbgSkip then none
  else
    match (List.range 4).find? (fun n => s.me.breakHit s.me.pc n) with
    | some n => some (n + 1)
    | none =>
      if (List.range 4).any (fun n => (s.me.cr (0x10 + n)).getLsbD 0) then
        let xs := ops.flatMap (fun i => (watchAccesses (peekStrips s i) i).known s)
        ((List.range 4).find? (fun n => xs.any (s.me.watchHit n))).map (· + 5)
      else none

/-- A debug stop at a sheaf (R406): Held, or the debug trap where ACT = 1. -/
def State.debugStop (s : State) (hit : Nat) : State :=
  let s := s.stopHit s.cur hit
  if s.me.dbgAct then s.takeTrap ⟨1, 0x0003, BitVec.ofNat 10 hit, 0, none⟩ else s.setMe s.me.hold

end Sys2Proof.Machine
end

