-- ==== Sys2Proof/Machine/Faults.lean ====
section
/-! DEFINITION. The exceptions of a sheaf that has no op: a fetch that fails, a reserved encoding (21 R434, R438). -/

namespace Sys2Proof.Machine

/-- INSTRUCTION_FETCH_FAULT (21 R434 step 2): the executing agent's fetch fails; a walk that a poisoned table line ended is reported
with that line (22 R448). -/
def execInstructionFetchFault (cause : BitVec 16) (code : BitVec 10) (addr : Word) (s : State) : Host.Outcome State Fault Refusal :=
  let table := match s.walk (s.root s.cur) (offset addr) with
    | .error e => if cause = 0x3005 then e.table else none
    | .ok _ => none
  settle s (.error (.trap ⟨2, cause, code, addr, table⟩))

/-- RESERVED_ENCODING (21 R434 step 3, R438): the executing agent's sheaf traps with 0x1001. -/
def execReservedEncoding (code : BitVec 10) (s : State) : Host.Outcome State Fault Refusal := settle s (raise 3 0x1001 code.toNat 0)

end Sys2Proof.Machine
end

