-- ==== Sys2Proof/Machine/Matrix.lean ====
section
/-! DEFINITION. The matrix engine (10_isa_engines.md R274 to R286, 05 R132 to R136): checks at issue, the sequencer and its steps. -/

namespace Sys2Proof.Machine

/-! ### What an engine reaches in the scratchpad of the running task (R273, 03 R69, 22 R450 to R454) -/

/-- A byte range of a window: window, offset, length. -/
structure Span where
  win : Nat
  off : Nat
  len : Nat
  deriving DecidableEq, Repr

/-- The window addresses at which a span enters its pages. -/
def Span.entries (r : Span) : List (Nat × Nat) :=
  if r.len = 0 then []
  else (List.range ((r.off + r.len - 1) / 2048 + 1 - r.off / 2048)).map (fun i =>
    (r.off / 2048 + i, max r.off ((r.off / 2048 + i) * 2048)))

/-- An engine access (R273, 22 R450): an unmapped page faults; absent pages start their page-ins and the access waits; none when it may go on. -/
def State.engineNeed (s : State) (t : Nat) (rs ws : List Span) : Except Trap (Option State) :=
  let x := s.tile t
  let bad (r : Span) (wr : Bool) : Option Trap := (r.entries.find? (fun e =>
    loc (x.spte (pkey r.win e.1)) == 0 && !(wr && (s.outbound t r.win e.1).isSome))).map
      (fun e => ⟨8, 0x4001, BitVec.ofNat 10 r.win, winBase r.win + wd e.2, none⟩)
  match (rs.findSome? (fun r => bad r false)).or (ws.findSome? (fun r => bad r true)) with
  | some t => .error t
  | none =>
    let absent := ((rs ++ ws).flatMap (fun r => (r.entries.filter (fun e => loc (x.spte (pkey r.win e.1)) ≥ 2)).map (fun e => (r.win, e.1, e.2))))
    if absent.isEmpty then .ok none
    else
      (absent.foldlM (fun (s : State) p => s.startPageIn t p.1 p.2.1 false (winBase p.1 + wd p.2.2)) s).map some

/-- Pages that an engine reads count as accessed (03 R70). -/
def State.engineTouch (s : State) (t : Nat) (rs : List Span) : State :=
  s.setTile t (rs.foldl (fun x r => r.entries.foldl (fun x e => x.touch (pkey r.win e.1)) x) (s.tile t))

/-- An engine's write within one page: granules set full (03 R76); on an outbound page they have left over a stream edge. -/
def State.engineStore (s : State) (a : Agent) (win off : Nat) (bs : List (Byte × Bool)) : State :=
  let x := s.tile a.tile
  let key := pkey win (off / 2048)
  if loc (x.spte key) ≠ 0 then s.setTile a.tile (x.spWrite (some ⟨1, a, x.run⟩) key (off % 2048) bs true) else s

/-- The granules that an engine's write within one page makes for a stream edge (11 R334). -/
def State.engineGranules (s : State) (t win off : Nat) (bs : List (Byte × Bool)) : List EdgeGranule :=
  if loc ((s.tile t).spte (pkey win (off / 2048))) ≠ 0 then []
  else match s.outbound t win (off / 2048) with
    | some i => edgeGranules (((s.tile t).run).getD 0) i (off / 2048) (off % 2048) bs
    | none => []

/-! ### Elements -/

/-- The byte offset of element x of an operand at an offset, of width w. -/
def elemOff (off w x : Nat) : Nat := off + x * w / 8

/-- The raw bits and poison of element x of an operand. -/
def Tile.rawElem (t : Tile) (win off w x : Nat) : Nat × Bool :=
  let bs := t.spRead win (elemOff off w x) ((w + 7) / 8)
  let v := leNat (bs.map (·.1))
  (if w = 4 then v / 16 ^ (x % 2) % 16 else v, bs.any (·.2))

/-- The span of the scale record of element x of an operand in a bank of a format. -/
def recSpan (v : Bool) (win off x : Nat) (fmt : Word) : Span :=
  let o := elemOff off (tyWidth (fmtTy fmt)) x
  let i := elemIndex v win o fmt + (if tyWidth (fmtTy fmt) = 4 then x % 2 else 0)
  ⟨win, scaleOff v win o fmt (i / groupLen fmt), recSize fmt⟩

/-- The bytes of a span, with poison. -/
def Tile.spanBytes (t : Tile) (r : Span) : List (Byte × Bool) := t.spRead r.win r.off r.len

/-- The exact value and poison of element x of an operand (R67, 05 R137). -/
def State.element (s : State) (t win off w x : Nat) : Num × Bool :=
  let fmt := s.fmtAt t win (elemOff off w x)
  let (raw, p) := (s.tile t).rawElem win off w x
  if fmtGsz fmt = 0 then (decodeElem fmt raw [], p)
  else
    let r := (s.tile t).spanBytes (recSpan (isV t) win off x fmt)
    (decodeElem fmt raw (r.map (·.1)), p || r.any (·.2))

/-! ### Pairings (05 R132) -/

/-- The group length and kind of a pairing of A, W and C formats: 0 plain floating, 1 MX, 2 grouped, 3 integer. An integer pairing has no groups
in A or W (DESIGN CHOICE, log 47: the table says so of the i4 and n4 row of W only). -/
def pairing (fa fw fc : Word) : Option (Nat × Nat) :=
  let a := fmtTy fa
  let w := fmtTy fw
  let c := fmtTy fc
  let small (t : Nat) : Bool := t == 9 || t == 10
  let byte (t : Nat) : Bool := t == 4 || t == 5
  let nib (t : Nat) : Bool := t == 12 || t == 13
  if a = 11 && w = 11 && c = 6 then some (32, 1)
  else if fmtGsz fa ≠ 0 then none
  else if fmtGsz fw ≠ 0 then (if (a = 7 || a = 8) && (byte w || nib w) && c = 6 then some (groupLen fw, 2) else none)
  else if (a = 7 || a = 8) && a = w && c = 6 then some (8, 0)
  else if small a && small w && c = 6 then some (16, 0)
  else if byte a && byte w && c = 0 then some (16, 3)
  else if nib a && nib w && c = 0 then some (32, 3)
  else none

/-- The formats of the banks that a span covers. -/
def State.spanFmts (s : State) (t : Nat) (r : Span) : List Word :=
  ((List.range ((r.off + r.len - 1) / 2048 + 1 - r.off / 2048)).map (fun i => s.pageFmt t r.win (r.off / 2048 + i))).dedup

/-- TY, GSZ, ZP and SC of a format (R275). -/
def fmtKey (w : Word) : Word := w &&& 0x131F

/-! ### Checks at issue (R273 to R275, 21 R435, R445) -/

/-- The checks of one operand: alignment, window, limit, mapping; its bytes follow from the format of its first bank. A destination may
lie on outbound pages. -/
def operand (s : State) (base : Word) (align : Nat) (only : Option Nat) (dest : Bool) (len : Word → Nat) : Run Span := do
  let t := s.cur.tile
  need (base.toNat % align == 0) 7 0x3002 align.log2 base
  match windowOf base with
  | none => raise 7 0x3003 0 base
  | some win => do
    need (win < 3 && (only.isNone || only == some win)) 7 0x3003 0 base
    let off := offset base
    need (off < windowPages (isV t) win * 2048) 7 0x3003 1 base
    let r : Span := ⟨win, off, len (s.fmtAt t win off)⟩
    need (off + r.len ≤ windowPages (isV t) win * 2048) 7 0x3003 1 base
    match r.entries.find? (fun e => loc ((s.tile t).spte (pkey win e.1)) == 0 && !(dest && (s.outbound t win e.1).isSome)) with
    | some e => raise 7 0x4001 win (winBase win + wd e.2)
    | none => .ok r

/-- MB, NB and K of the parameter word. -/
def mbOf (f : EX) : Nat := parF f.par 31 24
def nbOf (f : EX) : Nat := parF f.par 23 16
def kOf (f : EX) : Nat := parF f.par 15 0

/-- A matrix op issues: a fifth one waits (R277); the sequencer starts when it held none. -/
def issueMatrix (s : State) (f : EX) (m : MatOp) : Run State :=
  let x := s.tile s.cur.tile
  if x.mq.length ≥ 4 then .error (.wait (.structural .matrix) s)
  else
    let s := s.issueOp 1 (kwX f) .none
    let s := s.setTile s.cur.tile { s.tile s.cur.tile with mq := x.mq ++ [m] }
    .ok (if x.mq.isEmpty then s.post (.matrixStep s.cur.tile) else s)

/-- The tests common to matrix ops before their operands. -/
def matrixTests (s : State) (f : EX) (srcs : List (BitVec 5)) : Run Unit := do
  useTok s (kwX f) (kpX f)
  notAwn s
  useS s srcs

/-- One operand's banks must agree (R275). -/
def sameBanks (s : State) (r : Span) (base : Word) : Run Unit :=
  need (((s.spanFmts s.cur.tile r).map fmtKey).dedup.length ≤ 1) 7 0x7004 3 base

/-- `mma`, `mma.mask` in both modes: kind 0, 1, 2. -/
def mmaIssue (kind : Nat) (f : EX) (s : State) : Run State := do
  let odd := f.rc + 1
  matrixTests s f (if kind = 0 then [f.ra, f.rb, f.rc] else [f.ra, f.rb, f.rc, odd])
  let B := blockEdge s.cur.tile
  let M := mbOf f * B
  let N := nbOf f * B
  let K := kOf f
  let Kp := 32 * ceilDiv K 32
  let a := s.rs f.ra
  let w := s.rs f.rb
  let c := s.rs f.rc
  let ra ← operand s a 256 (some 0) false (fun fm => M * Kp * tyWidth (fmtTy fm) / 8)
  sameBanks s ra a
  let rw ← operand s w 256 (some 1) false (fun fm => N * Kp * tyWidth (fmtTy fm) / 8)
  sameBanks s rw w
  let rc ← operand s c 256 (some 2) false (fun _ => M * N * 4)
  sameBanks s rc c
  let msk := if kind = 0 then 0 else s.rs odd
  if kind = 0 then .ok () else (do
    let _ ← operand s msk 16 (some 2) false (fun _ => M * N / 8)
    .ok ())
  let t := s.cur.tile
  let fa := s.fmtAt t 0 ra.off
  let fw := s.fmtAt t 1 rw.off
  match pairing fa fw (s.fmtAt t 2 rc.off) with
  | none => raise 7 0x7004 2 a
  | some (g, pk) => do
    need (!(pk == 2 && K % g != 0)) 7 0x7004 4 w
    issueMatrix s f { op := s.nextOp, kind := kind, ctx := s.cur.ctx, a := a, w := w, c := c, msk := msk, mb := mbOf f, nb := nbOf f,
                      k := K, fmtA := fa, fmtW := fw }

/-- `mma` (R280). -/
def execMma (f : EX) (s : State) : Host.Outcome State Fault Refusal := settle s (mmaIssue 0 f s)
/-- `mma.mask` (R281). -/
def execMmaMask (f : EX) (s : State) : Host.Outcome State Fault Refusal := settle s (mmaIssue 1 f s)
/-- `mma.mask.fill` (R281). -/
def execMmaMaskFill (f : EX) (s : State) : Host.Outcome State Fault Refusal := settle s (mmaIssue 2 f s)

/-- Elements of an M x N operand. -/
def mnOf (f : EX) (t : Nat) : Nat := mbOf f * nbOf f * blockEdge t * blockEdge t

/-- `mzero` (R282). -/
def execMzero (f : EX) (s : State) : Host.Outcome State Fault Refusal :=
  settle s (do
    matrixTests s f [f.ra]
    let c := s.rs f.ra
    let rc ← operand s c 256 none true (fun _ => mnOf f s.cur.tile * 4)
    sameBanks s rc c
    issueMatrix s f { op := s.nextOp, kind := 3, ctx := s.cur.ctx, c := c, mb := mbOf f, nb := nbOf f })

/-- `mcvt` (R283); the banks of each operand agree (R275), which is tested before CODE 7 as `mma` does (log 21). -/
def execMcvt (f : EX) (s : State) : Host.Outcome State Fault Refusal :=
  settle s (do
    matrixTests s f [f.ra, f.rb]
    let t := s.cur.tile
    let c := s.rs f.ra
    let w := s.rs f.rb
    let rs ← operand s c 256 none false (fun _ => mnOf f t * 4)
    sameBanks s rs c
    need ((s.spanFmts t rs).all (fun fm => fmtTy fm == 0 || fmtTy fm == 6)) 7 0x7004 7 c
    let rd ← operand s w 256 none true (fun fm => mnOf f t * tyWidth (fmtTy fm) / 8)
    sameBanks s rd w
    need ((s.spanFmts t rd).all (fun fm => fmtTy fm != 14)) 7 0x7004 7 w
    issueMatrix s f { op := s.nextOp, kind := 4, ctx := s.cur.ctx, c := c, w := w, mb := mbOf f, nb := nbOf f,
                      fmtW := s.fmtAt t rd.win rd.off })

/-- `mtr` (R284); the banks of each operand agree (R275; log 21). -/
def execMtr (f : EX) (s : State) : Host.Outcome State Fault Refusal :=
  settle s (do
    matrixTests s f [f.ra, f.rb]
    let t := s.cur.tile
    let c := s.rs f.ra
    let w := s.rs f.rb
    let rs ← operand s c 256 none false (fun fm => mnOf f t * tyWidth (fmtTy fm) / 8)
    sameBanks s rs c
    let fm := s.fmtAt t rs.win rs.off
    let rd ← operand s w 256 none true (fun _ => mnOf f t * tyWidth (fmtTy fm) / 8)
    sameBanks s rd w
    need (fmtGsz fm == 0 && (s.spanFmts t rs ++ s.spanFmts t rd).all (· == fm)) 7 0x7004 8 c
    issueMatrix s f { op := s.nextOp, kind := 5, ctx := s.cur.ctx, c := c, w := w, mb := mbOf f, nb := nbOf f, fmtW := fm })

/-- `mscale` by columns or rows (R285); the banks of each operand agree (R275; log 21). -/
def mscale (row : Bool) (f : EX) (s : State) : Run State := do
  matrixTests s f [f.ra, f.rb]
  let t := s.cur.tile
  let c := s.rs f.ra
  let w := s.rs f.rb
  let rc ← operand s c 256 (some 2) false (fun _ => mnOf f t * 4)
  sameBanks s rc c
  need ((s.spanFmts t rc).all (fun fm => fmtTy fm == 6)) 7 0x7004 9 c
  let rv ← operand s w 256 (some 2) false (fun _ => (if row then mbOf f else nbOf f) * blockEdge t * 4)
  sameBanks s rv w
  issueMatrix s f { op := s.nextOp, kind := if row then 7 else 6, ctx := s.cur.ctx, c := c, w := w, mb := mbOf f, nb := nbOf f }

/-- `mscale.col`. -/
def execMscaleCol (f : EX) (s : State) : Host.Outcome State Fault Refusal := settle s (mscale false f s)
/-- `mscale.row`. -/
def execMscaleRow (f : EX) (s : State) : Host.Outcome State Fault Refusal := settle s (mscale true f s)

/-- `mwait` (R286). -/
def execMwait (_f : EX) (s : State) : Host.Outcome State Fault Refusal :=
  settle s (do
    notAwn s
    if (s.tile s.cur.tile).mq.any (fun m => m.ctx == s.cur.ctx) then .error (.wait .matrix s) else .ok s)

/-! ### Steps (R276) -/

/-- Steps of an op. -/
def MatOp.steps (m : MatOp) : Nat :=
  if m.kind ≤ 2 then
    match pairing m.fmtA m.fmtW (if fmtTy m.fmtA ≤ 5 || fmtTy m.fmtA ≥ 12 then 0 else 6) with
    | some (g, _) => m.mb * m.nb * ceilDiv m.k g
    | none => 0
  else m.mb * m.nb

/-- A write of a step: window, offset and the bytes with their poison. -/
abbrev MWrite := Nat × Nat × List (Byte × Bool)

/-- What a step does: the spans it reads, the writes with the events of the elements written, and the op's new mask; the records that the array's
columns load before it (R279). -/
structure MStep where
  reads : List Span
  spans : List Span
  run : State → List MWrite × List (Option Nat) × MatOp
  pe : State → List (Nat × Nat) := fun _ => []

/-- The columns of the array load their scale and zero-point registers (R279). -/
def Tile.loadPe (x : Tile) (l : List (Nat × Nat)) : Tile := l.foldl (fun (x : Tile) p => { x with pe := x.pe.set 0 p.1 (BitVec.ofNat 32 p.2) }) x

/-- Groups of four bytes of elements. -/
def words (xs : List (Nat × Bool)) : List (Byte × Bool) := xs.flatMap (fun x => (leBytes 4 x.1).map (fun b => (b, x.2)))

/-- Writes of consecutive elements of width w from an offset, with a poison flag for each. -/
def packFlags (w : Nat) (xs : List (Nat × Bool)) : List (Byte × Bool) :=
  let bs := packElems w (xs.map (·.1))
  bs.zipIdx.map (fun p => (p.1, (List.range (if w = 4 then 2 else 1)).any (fun j =>
    ((xs[(if w = 4 then 2 * p.2 + j else p.2 * 8 / w)]?).map (·.2)).getD false)))

/-- One group iteration of one block of `mma` and `mma.mask` (R276, R281, 05 R133, R135). Its formats are those of the banks now, which keep the
layout fixed at issue (R275): integers and 8-bit floats of one width and G are one layout. A step that finds another layout reads no record. -/
def mmaStep (t : Nat) (m : MatOp) (s : State) : MStep :=
  let B := blockEdge t
  let N := m.nb * B
  let Kp := 32 * ceilDiv m.k 32
  let wa := tyWidth (fmtTy m.fmtA)
  let ww := tyWidth (fmtTy m.fmtW)
  let fcAt := if fmtTy m.fmtA ≤ 5 || fmtTy m.fmtA ≥ 12 then 0 else 6
  let (G, pk) := (pairing m.fmtA m.fmtW (wd fcAt)).getD (8, 0)
  let NG := ceilDiv m.k G
  let b := m.step / NG
  let g := m.step % NG
  let m0 := b / m.nb * B
  let n0 := b % m.nb * B
  let k0 := g * G
  let kn := min (k0 + G) m.k - k0
  let ao := offset m.a
  let wo := offset m.w
  let co := offset m.c
  let mo := offset m.msk
  let rows := (List.range B).map (· + m0)
  let cols := (List.range B).map (· + n0)
  let aSpan (r : Nat) : Span := ⟨0, elemOff ao wa (r * Kp + k0), (kn * wa + 7) / 8⟩
  let wSpan (c : Nat) : Span := ⟨1, elemOff wo ww (c * Kp + k0), (kn * ww + 7) / 8⟩
  let cSpan (r : Nat) : Span := ⟨2, co + (r * N + n0) * 4, B * 4⟩
  let kSpan (r : Nat) : Span := ⟨2, mo + r * N / 8 + n0 / 8, B / 8⟩
  let masked := m.kind ≠ 0
  let fas := (rows.flatMap (fun r => s.spanFmts t (aSpan r))).dedup
  let fws := (cols.flatMap (fun c => s.spanFmts t (wSpan c))).dedup
  let fcs := (rows.flatMap (fun r => s.spanFmts t (cSpan r))).dedup
  let pk := ((pairing (fas.headD 0) (fws.headD 0) (fcs.headD 0)).getD (G, pk)).2
  let good := fas.all (fun fa => fws.all (fun fw => fcs.all (fun fc =>
    pairing fa fw fc == some (G, pk) && tyWidth (fmtTy fa) == wa && tyWidth (fmtTy fw) == ww &&
      fmtZp fw == fmtZp m.fmtW && fmtSc fw == fmtSc m.fmtW)))
  let recs := if !good then [] else
    (if pk = 1 then rows.map (fun r => recSpan (isV t) 0 ao (r * Kp + k0) (s.fmtAt t 0 (aSpan r).off)) else []) ++
    (if pk = 1 || pk = 2 then cols.map (fun c => recSpan (isV t) 1 wo (c * Kp + k0) (s.fmtAt t 1 (wSpan c).off)) else [])
  let first := masked && g = 0
  let reads := rows.map aSpan ++ cols.map wSpan ++ rows.map cSpan ++ (if first then rows.map kSpan else []) ++ recs
  let go (s : State) : List MWrite × List (Option Nat) × MatOp :=
    let x := s.tile t
    let maskRow (r : Nat) : List Bool × Bool :=
      let bs := x.spanBytes (kSpan r)
      ((List.range B).map (fun i => (leNat (bs.map (·.1))).testBit i), bs.any (·.2))
    let m := if first then
        let ms := rows.map maskRow
        { m with mask := ms.flatMap (·.1), maskPois := ms.any (·.2) }
      else m
    let open_ (i j : Nat) : Bool := !masked || (m.mask[i * B + j]?).getD true
    let ks := (List.range kn).map (· + k0)
    let bare (win off w i : Nat) : Num × Bool := (.ofInt 0, (x.rawElem win off w i).2)
    let aEl := rows.map (fun r => ks.map (fun k => if good then s.element t 0 ao wa (r * Kp + k) else bare 0 ao wa (r * Kp + k)))
    let raw (c k : Nat) : Num × Bool :=
      let (v, p) := x.rawElem 1 wo ww (c * Kp + k)
      let ty := fmtTy (s.fmtAt t 1 (elemOff wo ww (c * Kp + k)))
      (.ofInt (intOf (tySigned ty) ww v), p)
    let wEl := cols.map (fun c => ks.map (fun k =>
      if !good then bare 1 wo ww (c * Kp + k) else if pk = 2 then raw c k else s.element t 1 wo ww (c * Kp + k)))
    let wRec := cols.map (fun c => if good && pk = 2 then x.spanBytes (recSpan (isV t) 1 wo (c * Kp + k0) (s.fmtAt t 1 (wSpan c).off)) else [])
    let pois := m.maskPois || aEl.any (fun r => r.any (·.2)) || wEl.any (fun r => r.any (·.2)) || wRec.any (fun r => r.any (·.2))
    let cell (i j : Nat) (old : Nat) : Nat × Option Nat :=
      let as := ((aEl[i]?).getD []).map (·.1)
      let ws := ((wEl[j]?).getD []).map (·.1)
      let c := (cols[j]?).getD 0
      let fm := s.fmtAt t 1 (wSpan c).off
      let rc := leBytes 4 (x.pe.get 0 j).toNat
      let prods := (as.zip ws).map (fun p => p.1.mul p.2)
      if pk = 3 then (bitsOfInt 32 ((old : Int) + (prods.map (Num.at 0)).foldl (· + ·) 0), none)
      else
        let acc := f32.decode old
        let d := recD16 rc
        let z : Int := if fmtZp fm then recZ (fmtTy fm) rc else 0
        let t := if pk = 2 then d.mul (exactSum [exactSum prods, ((Num.ofInt z).mul (exactSum as)).neg]) else exactSum prods
        f32.result ([acc] ++ as ++ ws ++ (if pk = 2 then [d] else [])) (exactSum [acc, t]) 0 false
    let rowOut (i : Nat) : List ((Nat × Bool) × Bool × Option Nat) :=
      let r := (rows[i]?).getD 0
      let bs := x.spanBytes (cSpan r)
      let ty := fmtTy (s.fmtAt t 2 (cSpan r).off)
      (List.range B).map (fun j =>
        let q := (bs.drop (4 * j)).take 4
        let old := leNat (q.map (·.1))
        let op := q.any (·.2)
        if !open_ i j then
          if m.kind = 2 && g = 0 then ((if ty = 6 || (ty ≠ 0 && fcAt = 6) then 0xFF800000 else 0x80000000, pois || op), true, none)
          else ((old, op), false, none)
        else if good then
          let (v, ev) := cell i j old
          ((v, pois || op), true, ev)
        else if ty = 6 then ((f32.nan, pois || op), true, none) else ((old, op), false, none))
    let outs := (List.range B).map rowOut
    let writes := (outs.zip rows).flatMap (fun o =>
      (List.range (B / 4)).filterMap (fun q =>
        let cs := (o.1.drop (4 * q)).take 4
        if pois || cs.any (fun c => c.2.1) then some (2, (cSpan o.2).off + 16 * q, words (cs.map (fun c => (c.1.1, pois || cs.any (fun c => c.1.2)))))
        else none))
    (writes, outs.flatMap (fun o => o.map (fun c => c.2.2)), m)
  let pe (s : State) : List (Nat × Nat) :=
    if !good || pk ≠ 2 then [] else cols.zipIdx.map (fun c =>
      (c.2, leNat (((s.tile t).spanBytes (recSpan (isV t) 1 wo (c.1 * Kp + k0) (s.fmtAt t 1 (wSpan c.1).off))).map (·.1))))
  ⟨reads, [], go, pe⟩

/-- The rows, columns and first element numbers of block `step` of an M x N operand. -/
def blockOf (t : Nat) (m : MatOp) : Nat × Nat × Nat := (blockEdge t, m.step / m.nb * blockEdge t, m.step % m.nb * blockEdge t)

/-- `mzero`: one block (R282). -/
def mzeroStep (t : Nat) (m : MatOp) : MStep :=
  let (B, m0, n0) := blockOf t m
  let win := (windowOf m.c).getD 2
  let span (i : Nat) : Span := ⟨win, offset m.c + ((m0 + i) * (m.nb * B) + n0) * 4, B * 4⟩
  ⟨[], (List.range B).map span, fun _ => ((List.range B).map (fun i => (win, (span i).off, List.replicate (B * 4) (0, false))), [], m), fun _ => []⟩

/-- The MX blocks of 32 destination elements, by number, that the elements `is` of an operand lie in: those of banks that are MX now (R275, R283). -/
def State.mxBlocks (s : State) (t win off w : Nat) (is : List Nat) : List Nat :=
  ((is.filter (fun i => fmtTy (s.fmtAt t win (elemOff off w i)) == 11)).map (· / 32)).dedup

/-- `mcvt`: one block (R283). An MX block of 32 destination elements may reach past the output block; its scale is formed from all of
them, and the step writes its own elements and the scale records. -/
def mcvtStep (t : Nat) (m : MatOp) (s : State) : MStep :=
  let (B, m0, n0) := blockOf t m
  let N := m.nb * B
  let sw := (windowOf m.c).getD 2
  let dw := (windowOf m.w).getD 2
  let so := offset m.c
  let do_ := offset m.w
  let fm := m.fmtW
  let w := tyWidth (fmtTy fm)
  let idx (i j : Nat) : Nat := (m0 + i) * N + n0 + j
  let mine := (List.range B).flatMap (fun i => (List.range B).map (idx i))
  let at_ (i : Nat) : Word := s.fmtAt t dw (elemOff do_ w i)
  let blocks := s.mxBlocks t dw do_ w mine
  let need := (mine ++ blocks.flatMap (fun b => (List.range 32).map (· + 32 * b))).dedup
  let srcs := need.map (fun i => (⟨sw, so + 4 * i, 4⟩ : Span))
  let dSpan (i : Nat) : Span := ⟨dw, elemOff do_ w (idx i 0), (B * w + 7) / 8⟩
  let rspan (i : Nat) : Span := recSpan (isV t) dw do_ i (at_ i)
  let sf := (srcs.flatMap (fun r => s.spanFmts t r)).dedup
  let df := ((List.range B).flatMap (fun i => s.spanFmts t (dSpan i))).dedup
  let good := sf.all (fun f => fmtTy f == 0 || fmtTy f == 6) &&
    df.all (fun f => tyWidth (fmtTy f) == w && fmtGsz f == fmtGsz fm && fmtTy f != 14)
  let recs (mx : Bool) : List Span :=
    if !good then [] else ((mine.filter (fun i => fmtGsz (at_ i) != 0 && (fmtTy (at_ i) == 11) == mx)).map rspan).dedup
  let go (s : State) : List MWrite × List (Option Nat) × MatOp :=
    let x := s.tile t
    let src (i : Nat) : Num × Bool :=
      let bs := x.spRead sw (so + 4 * i) 4
      let v := leNat (bs.map (·.1))
      ((if fmtTy (s.fmtAt t sw (so + 4 * i)) = 0 then .ofInt (intOf true 32 v) else f32.decode v), bs.any (·.2))
    if !good then ([], [], m)
    else
      let mxs := blocks.map (fun b =>
          let vs := (List.range 32).map (fun j => src (32 * b + j))
          let (e, els) := mxBlock (vs.map (·.1)) 0
          (b, e, els, vs.any (·.2)))
      let one (i : Nat) : (Nat × Bool) × Option Nat :=
        let f := at_ i
        if fmtTy f = 11 then
          match mxs.find? (fun q => q.1 == i / 32) with
          | some (_, _, els, p) => let (v, ev) := (els[i % 32]?).getD (0, none); ((v, p), ev)
          | none => ((0, false), none)
        else
          let (v, p) := src i
          if fmtGsz f = 0 then
            let (b, ev) := convertTo v (fmtTy f) 0 false
            ((b, p), ev)
          else
            let rb := x.spanBytes (rspan i)
            let (q, ev) := quantG v (recD16 (rb.map (·.1))) (if fmtZp f then recZ (fmtTy f) (rb.map (·.1)) else 0) (fmtTy f) 0
            ((bitsOfInt w q, p || rb.any (·.2)), ev)
      let rowsOut := (List.range B).map (fun i => (List.range B).map (fun j => one (idx i j)))
      let ws : List MWrite := rowsOut.zipIdx.map (fun r => (dw, (dSpan r.2).off, packFlags w (r.1.map (·.1))))
      (ws, rowsOut.flatMap (fun r => r.map (·.2)), m)
  ⟨srcs ++ recs false, (List.range B).map dSpan ++ recs true, go, fun _ => []⟩

/-- The scale records that a step of `mcvt` into an MX bank writes, without touching full-empty bits (R283). -/
def mcvtScales (t : Nat) (m : MatOp) (s : State) : List MWrite :=
  let (B, m0, n0) := blockOf t m
  let N := m.nb * B
  let sw := (windowOf m.c).getD 2
  let dw := (windowOf m.w).getD 2
  let so := offset m.c
  let do_ := offset m.w
  if tyWidth (fmtTy m.fmtW) ≠ 4 then []
  else
    let x := s.tile t
    let src (i : Nat) : Num × Bool :=
      let bs := x.spRead sw (so + 4 * i) 4
      let v := leNat (bs.map (·.1))
      ((if fmtTy (s.fmtAt t sw (so + 4 * i)) = 0 then .ofInt (intOf true 32 v) else f32.decode v), bs.any (·.2))
    (s.mxBlocks t dw do_ 4 ((List.range B).flatMap (fun i => (List.range B).map (fun j => (m0 + i) * N + n0 + j)))).map (fun b =>
      let vs := (List.range 32).map (fun j => src (32 * b + j))
      let r := recSpan (isV t) dw do_ (32 * b) (s.fmtAt t dw (elemOff do_ 4 (32 * b)))
      (dw, r.off, [(BitVec.ofNat 8 (mxBlock (vs.map (·.1)) 0).1, vs.any (·.2))]))

/-- `mtr`: one block, bit for bit (R284). -/
def mtrStep (t : Nat) (m : MatOp) : MStep :=
  let (B, m0, n0) := blockOf t m
  let M := m.mb * B
  let N := m.nb * B
  let w := tyWidth (fmtTy m.fmtW)
  let sw := (windowOf m.c).getD 2
  let dw := (windowOf m.w).getD 2
  let sSpan (i : Nat) : Span := ⟨sw, elemOff (offset m.c) w ((m0 + i) * N + n0), (B * w + 7) / 8⟩
  let dSpan (j : Nat) : Span := ⟨dw, elemOff (offset m.w) w ((n0 + j) * M + m0), (B * w + 7) / 8⟩
  let go (s : State) : List MWrite × List (Option Nat) × MatOp :=
    ((List.range B).map (fun j =>
      (dw, (dSpan j).off, packFlags w ((List.range B).map (fun i => (s.tile t).rawElem sw (offset m.c) w ((m0 + i) * N + n0 + j))))), [], m)
  ⟨(List.range B).map sSpan, (List.range B).map dSpan, go, fun _ => []⟩

/-- `mscale`: one block (R285). -/
def mscaleStep (t : Nat) (m : MatOp) : MStep :=
  let (B, m0, n0) := blockOf t m
  let N := m.nb * B
  let cSpan (i : Nat) : Span := ⟨2, offset m.c + ((m0 + i) * N + n0) * 4, B * 4⟩
  let vSpan : Span := ⟨2, offset m.w + (if m.kind = 7 then m0 else n0) * 4, B * 4⟩
  let go (s : State) : List MWrite × List (Option Nat) × MatOp :=
    let x := s.tile t
    let f4 (bs : List (Byte × Bool)) (j : Nat) : Nat × Bool :=
      let q := (bs.drop (4 * j)).take 4
      (leNat (q.map (·.1)), q.any (·.2))
    let vs := x.spanBytes vSpan
    if !((List.range B).all (fun i => (s.spanFmts t (cSpan i)).all (fun f => fmtTy f == 6))) then ([], [], m)
    else
      let outs := (List.range B).map (fun i => (List.range B).map (fun j =>
        let (c, p) := f4 (x.spanBytes (cSpan i)) j
        let (v, q) := f4 vs (if m.kind = 7 then i else j)
        let (b, ev) := f32.result [f32.decode c, f32.decode v] ((f32.decode c).mul (f32.decode v)) 0 false
        ((b, p || q), ev)))
      (outs.zipIdx.map (fun r => (2, (cSpan r.2).off, words (r.1.map (·.1)))), outs.flatMap (fun r => r.map (·.2)), m)
  ⟨(List.range B).map cSpan ++ [vSpan], [], go, fun _ => []⟩

/-- The next step of an op. -/
def matStep (t : Nat) (m : MatOp) (s : State) : MStep :=
  if m.kind ≤ 2 then mmaStep t m s
  else if m.kind = 3 then mzeroStep t m
  else if m.kind = 4 then mcvtStep t m s
  else if m.kind = 5 then mtrStep t m
  else mscaleStep t m

/-- A step's writes, by the context that issued the op. -/
def State.matWrite (s : State) (a : Agent) (ws : List MWrite) : State := ws.foldl (fun s w => s.engineStore a w.1 w.2.1 w.2.2) s

/-- Bytes written for an agent without touching full-empty bits: scale records. -/
def State.plainStore (s : State) (a : Agent) (ws : List MWrite) : State :=
  let t := a.tile
  ws.foldl (fun s w =>
    let key := pkey w.1 (w.2.1 / 2048)
    if loc ((s.tile t).spte key) = 1 then s.setTile t ((s.tile t).spWrite (some ⟨1, a, (s.tile t).run⟩) key (w.2.1 % 2048) w.2.2 false) else s) s

/-- The stepped op leaves the sequencer: it completes for its token, and one of the ops behind it is stepped next (R277; log 20). -/
def State.matDone (s : State) (t : Nat) (m : MatOp) (rest : List MatOp) : State :=
  let i := Config.freePick s.fc % max 1 rest.length
  let rest := (rest[i]?).toList ++ rest.eraseIdx i
  let s := (s.setTile t { s.tile t with mq := rest }).completeOp m.op
  if rest.isEmpty then s else s.post (.matrixStep t)

/-- MATRIX_STEP (R276): one step of the op being stepped; an absent page delays it, a fault ends the op (22 R454); the operands are
what path 1 sees of them (04 R97). A stopped tile
steps on when it is restored. -/
def execMatrixStep (t : Nat) (s : State) : Host.Outcome State Fault Refusal :=
  if s.stoppedTile t then .next s
  else match (s.tile t).mq with
    | [] => .next s
    | m :: rest =>
      let a : Agent := ⟨t, m.ctx⟩
      let st := matStep t m s
      match s.engineNeed t st.reads st.spans with
      | .error tr => .next ((s.engineFault a 1 tr).matDone t m rest)
      | .ok (some s) => .next (s.post (.matrixStep t))
      | .ok none =>
        let s := s.engineTouch t st.reads
        let seen := s.setTile t ((s.tile t).seenBy 1)
        let s := s.setTile t ((s.tile t).loadPe (st.pe seen))
        let seen := seen.setTile t ((s.tile t).seenBy 1)
        let (ws, evs, m') := st.run seen
        let scales := if m.kind = 4 && !ws.isEmpty then mcvtScales t m seen else []
        match s.sendRest a m.sent ((ws ++ scales).flatMap (fun w => s.engineGranules t w.1 w.2.1 w.2.2)) with
        | (s, n, some _) => .next ((s.setTile t { s.tile t with mq := { m with sent := n } :: rest }).post (.matrixStep t))
        | (s, _, none) =>
        let s := (s.matWrite a ws).plainStore a scales
        let s := s.setTile t ((s.tile t).countAll 1 evs)
        let s := if m.kind = 4 then s.emitStats t 1 else s
        if m.step + 1 ≥ m.steps then .next (s.matDone t m rest)
        else .next ((s.setTile t { s.tile t with mq := { m' with step := m.step + 1, sent := 0 } :: rest }).post (.matrixStep t))

end Sys2Proof.Machine
end

