-- ==== Sys2Proof/Machine/Stream.lean ====
section
/-! DEFINITION. Stream units (10_isa_engines.md R287 to R295, 22 R451, R454). -/

namespace Sys2Proof.Machine

/-- Stream units of a tile (R290: 16): bindings of its contexts, and those whose strips are still being written. -/
def State.unitsUsed (s : State) (t : Nat) : Nat :=
  (List.range 11).foldl (fun n c => n + ((s.ctx ⟨t, c⟩).binds.filter (fun b => b.2.bound)).length) 0

/-- The generator levels of a v register (R287): the first n. -/
def Ctx.genLevels (c : Ctx) (r n : Nat) : List Level := (List.range n).map (fun l => c.levels.get {} (8 * r + l))

/-- `sgen` (R289). -/
def execSgen (f : EX) (s : State) : Host.Outcome State Fault Refusal :=
  settle s (do
    notAwn s
    useS s [f.ra]
    let l : Level := ⟨f.par.toNat, s.rs f.ra⟩
    .ok (s.setMe { s.me with levels := s.me.levels.set {} (8 * f.rc.toNat + f.fn9.toNat % 8) l }))

/-- The window and mapping checks of a base (R290): window, limit, private window of a context, scratchpad mapping, then a plain bank. -/
def checkBase (s : State) (out : Bool) (a : Word) : Run Unit :=
  let v := isV s.cur.tile
  let off := offset a
  match windowOf a with
  | none => raise 7 0x3003 0 a
  | some 4 => .ok ()
  | some 3 => need (off < areaSize (s.runRec s.cur.tile)) 7 0x3003 1 a
  | some win => do
    need (off < windowPages v win * 2048) 7 0x3003 1 a
    need (loc ((s.tile s.cur.tile).spte (pkey win (off / 2048))) != 0 || (out && (s.outbound s.cur.tile win (off / 2048)).isSome)) 7 0x4001 win a
    need (fmtGsz (s.fmtAt s.cur.tile win off) == 0) 7 0x7004 5 a

/-- `sbind.in`, `sbind.in.fe` and `sbind.out` (R290). -/
def sbind (out : Bool) (f : EX) (s : State) : Run State := do
  notAwn s
  useS s [f.ra]
  let r := f.rc.toNat
  let a := s.rs f.ra
  let ls := s.src.genLevels r (parF f.par 3 0)
  need (!(s.src.bind r).bound) 6 0x7003 r 0
  need (a.toNat % 16 == 0 && ls.all (fun l => l.stride.toNat % 16 == 0)) 7 0x3002 4 a
  checkBase s out a
  if s.unitsUsed s.cur.tile ≥ 16 then .error (.wait (.structural .units) s)
  else
    let b : Binding := { bound := true, out := out, fe := f.fn9.getLsbD 1, base := a, levels := ls, hand := s.handler }
    let s := s.setMe (s.me.setBind r b)
    .ok (if out then s else s.post (.streamStripFetch s.cur r))

/-- `sbind.in`; fn9[1] selects fe mode. -/
def execSbindIn (f : EX) (s : State) : Host.Outcome State Fault Refusal := settle s (sbind false f s)
/-- `sbind.out`. -/
def execSbindOut (f : EX) (s : State) : Host.Outcome State Fault Refusal := settle s (sbind true f s)

/-- The port of a binding closes (03 R88). -/
def State.closeBindPort (s : State) (a : Agent) (b : Binding) : State :=
  s.drlAppend (dieOf a.tile) b.port (asidOf (s.root a)) 3 (s.slotTid a.tile)

/-- Some request of an op is held at its home (04 R108). -/
def State.opNeeds (s : State) (id : Nat) : Bool :=
  match s.ops.find id with
  | some o => o.need != 0
  | none => false

/-- A strip of a binding that has been written is held at its home: it is not performed yet. -/
def State.writesHeld (s : State) (b : Binding) : Bool := b.writes.any s.opNeeds

/-- `sunbind` (R294). -/
def execSunbind (f : EX) (s : State) : Host.Outcome State Fault Refusal :=
  settle s (do
    useTok s (kwX f) (kpX f)
    notAwn s
    let r := f.rc.toNat
    let b := s.me.bind r
    if !b.bound then .ok s
    else
      let off : Binding := { b with bound := false, queue := [], port := none, writes := [], sent := 0 }
      if !b.out || (b.queue.isEmpty && !s.writesHeld b) then .ok ((s.closeBindPort s.cur b).setMe (((s.closeBindPort s.cur b).me).setBind r off))
      else
        let id := s.nextOp
        let s := s.issueOp 3 (kwX f) .none
        let s := s.setMe ((s.me.setBind r { off with closing := some id }).setBind (32 + id) { b with closing := some id })
        .ok (s.post (.streamStripWrite s.cur (32 + id))))

/-- What `sstat` reads (R295). -/
def Binding.status (b : Binding) : Word :=
  wd (b.last.toNat + b2n b.exh * 2 ^ 8 + b2n b.out * 2 ^ 9 + b2n b.bound * 2 ^ 10 + (b.moved % 2 ^ 32) * 2 ^ 32)

/-- `sstat` (R295). -/
def execSstat (f : EX) (s : State) : Host.Outcome State Fault Refusal :=
  settle s (do
    notAwn s
    .ok (s.ws f.rc (s.src.bind f.rb.toNat).status))

/-! ### The units' own steps (R290 to R293) -/

/-- Every granule of a strip in window A or C is full. -/
def State.stripFull (s : State) (t : Nat) (ps : List ((Word × Nat) × Place)) : Bool :=
  (stripGranules ps).all (fun g => ((s.tile t).page g.1).full.getLsbD g.2)

/-- The granules of a strip emptied, each once (03 R77, 11 R335). -/
def State.stripClear (s : State) (t : Nat) (ps : List ((Word × Nat) × Place)) : State :=
  (stripGranules ps).foldl (fun s g => s.clearGranules t g.1 [g.2]) s

/-- An engine access of checked places that waits for absent pages: the page-ins started, or the capacity fault. -/
def State.engineReside (s : State) (t : Nat) (pl : List Place) (a : Word) : Except Trap (Option State) :=
  match reside s t pl a with
  | .ok _ => .ok none
  | .error (.wait _ s) => .ok (some s)
  | .error (.trap e) => .error e

/-- A strip joins a binding's queue. -/
def State.putStrip (s : State) (a : Agent) (r : Nat) (st : Strip) : State :=
  let b := (s.ctx a).bind r
  let b := { b with queue := b.queue ++ [{ st with mark := b.markOf b.reached }], reached := b.reached + 1, began := false }
  let s := s.setCtx a ((s.ctx a).setBind r b)
  if b.queue.length < 4 && b.reached < b.total then s.post (.streamStripFetch a r) else s

/-- A strip's bytes as a register and its poisoned lanes. -/
def stripOf (a : Word) (bs : List (Byte × Bool)) : Strip :=
  { data := BitVec.ofNat 2048 (leNat (bs.map (·.1))),
    pois := poisLanes ((List.range 64).map (fun j => ((bs.drop (4 * j)).take 4).any (·.2))) (fun j => a + wd (4 * j)) }

/-- The unit of a binding has started on its next strip, and goes on with it later. -/
def State.stripWaits (s : State) (a : Agent) (r : Nat) (i : Instr) : State :=
  (s.setCtx a ((s.ctx a).setBind r { (s.ctx a).bind r with began := true })).post i

/-- STREAM_STRIP_FETCH (R290, R291): the next strip of an input binding is fetched on path 3; a strip that fails its check stands for the
read that would pop it; an absent page or an empty granule in fe mode delays it. One that finds no frame for its page is an engine fault too (22 R451,
R454). -/
def execStreamStripFetch (a : Agent) (r : Nat) (s : State) : Host.Outcome State Fault Refusal :=
  let b := (s.ctx a).bind r
  if s.stoppedTile a.tile || !b.bound || b.out || b.queue.length ≥ 4 || b.reached ≥ b.total then .next s
  else
    let w : Who := ⟨a, s.root a, b.hand, true, 3, []⟩
    let at_ := b.addr b.reached
    match checkStrip s w 1 b.fe at_ with
    | .error (.trap t) => .next (s.putStrip a r { err := some t })
    | .error (.wait _ _) => .next s
    | .ok pl =>
      match s.engineReside a.tile pl at_ with
      | .error t => .next ((s.engineFault a 3 t).putStrip a r { err := some t })
      | .ok (some s) => .next (s.stripWaits a r (.streamStripFetch a r))
      | .ok none =>
        if b.fe && !s.stripFull a.tile ((cut at_ 256).zip pl) then .next (s.stripWaits a r (.streamStripFetch a r))
        else match readAll s w (s.taskView a.tile) false ((cut at_ 256).zip pl) with
          | .error (.trap t) => .next ((s.engineFault a 3 t).putStrip a r { err := some t })
          | .error (.wait _ s) => .next (s.stripWaits a r (.streamStripFetch a r))
          | .ok (s, bs) =>
            let s := if b.fe then s.stripClear a.tile ((cut at_ 256).zip pl) else s
            .next (s.putStrip a r (stripOf at_ bs))

/-- The binding of a `sunbind` is done: its port closes and the op completes (R294). -/
def State.endBinding (s : State) (a : Agent) (r : Nat) (b : Binding) (id : Nat) : State :=
  let s := s.closeBindPort a b
  (s.setCtx a { s.ctx a with binds := (s.ctx a).binds.del r }).completeOp id

/-- The register whose last binding a `sunbind` ended counts as exhausted (R295). -/
def Ctx.exhaust (c : Ctx) (id : Nat) : Ctx :=
  { c with binds := c.binds.map (fun e => if !e.2.bound && e.2.closing == some id then (e.1, { e.2 with exh := true }) else e) }

/-- A stream write that met a fault: the strip and every strip behind it are discarded and the binding counts as exhausted (22 R454). -/
def State.strandBinding (s : State) (a : Agent) (r : Nat) (t : Trap) : State :=
  let s := s.engineFault a 3 t
  let b := { (s.ctx a).bind r with queue := [], dead := true, exh := true, began := false }
  match b.closing with
  | some id => (s.setCtx a ((s.ctx a).exhaust id)).endBinding a r b id
  | none => s.setCtx a ((s.ctx a).setBind r b)

/-- STREAM_STRIP_WRITE (R292): the first strip that waits in an output binding is written on path 3, its granules set full. -/
def execStreamStripWrite (a : Agent) (r : Nat) (s : State) : Host.Outcome State Fault Refusal :=
  let b := (s.ctx a).bind r
  if s.stoppedTile a.tile || !b.bound || !b.out then .next s
  else match b.queue with
    | [] =>
      match b.closing with
      | some id => .next (if s.writesHeld b then s.post (.streamStripWrite a r) else s.endBinding a r b id)
      | none => .next s
    | st :: q =>
      let w : Who := ⟨a, s.root a, b.hand, true, 3, []⟩
      let at_ := b.addr b.reached
      match checkStrip s w 2 false at_ with
      | .error (.trap t) => .next (s.strandBinding a r t)
      | .error (.wait _ _) => .next s
      | .ok pl =>
        match s.engineReside a.tile pl at_ with
        | .error t => .next (s.strandBinding a r t)
        | .ok (some s) => .next (s.stripWaits a r (.streamStripWrite a r))
        | .ok none =>
          let ps := (cut at_ 256).zip pl
          match s.sendRest a b.sent (placeGranules (((s.tile a.tile).run).getD 0) ps (vBytes st.data)) with
          | (s, n, some _) => .next ((s.setCtx a ((s.ctx a).setBind r { (s.ctx a).bind r with sent := n })).stripWaits a r (.streamStripWrite a r))
          | (s, _, none) =>
            let id := s.nextOp
            let s := (writeAll (s.openPart a 3) w false true id ps (vBytes st.data)).shutPart id
            let b' := { (s.ctx a).bind r with queue := q, reached := b.reached + 1, port := portOf b.port ps, sent := 0, began := false,
                                              writes := id :: b.writes.filter s.opNeeds }
            match b.closing, q with
            | none, [] => .next (s.setCtx a ((s.ctx a).setBind r b'))
            | _, _ => .next ((s.setCtx a ((s.ctx a).setBind r b')).post (.streamStripWrite a r))

end Sys2Proof.Machine
end

