-- ==== Sys2Proof/Machine/Transfer.lean ====
section
/-! DEFINITION. The block-transfer engine (10_isa_engines.md R296 to R304, 05 R138, 22 R454 to R457, R464, R465): issue, the engine's own
steps, completion records, migration. -/

namespace Sys2Proof.Machine

/-! ### The completion ring (R296, R297) -/

/-- CRLOG and CRBASE of a record (11 Table — Task record). -/
def recCrlog (r : BitVec 2048) : Nat := recF r 6 4 0
def recCrbase (r : BitVec 2048) : Word := wd (recF r 6 56 12 * 4096)

/-- A task must have a completion ring, at step 6 (R296): the record of the tile's running slot. -/
def needRing (s : State) : Run Unit := need (recCrlog (s.runRec s.cur.tile) != 0) 6 0x7007 0 0

/-- Transfers of a task outstanding, and of a tile (R297). -/
def State.taskXfers (s : State) (k : Nat) : Nat := (s.xfers.filter (fun x => x.kind != 5 && x.task == k)).length
def State.tileXfers (s : State) (t : Nat) : Nat := (s.xfers.filter (fun x => x.kind != 5 && x.agent.tile == t)).length

/-- The task of a tile or the tile has as many transfers outstanding as it may (R297). -/
def State.xfersFull (s : State) (t : Nat) : Bool :=
  match (s.tile t).run with
  | some k => decide (s.taskXfers k ≥ 2 ^ recCrlog (s.record k)) || decide (s.tileXfers t ≥ 32)
  | none => false

/-- A transfer op issues (R296, R297): it takes the next sequence number, writes it to rc and is outstanding on path 2. -/
def issueXfer (s : State) (f : EX) (x : Xfer) : Run State :=
  match s.taskOf s.cur with
  | none => raise 6 0x7007 0 0
  | some k =>
    let r := s.record k
    let n := 2 ^ recCrlog r
    if s.taskXfers k ≥ n || s.tileXfers s.cur.tile ≥ 32 then .error (.wait (.structural .transfers) s)
    else
      let id := s.nextOp
      let q := (s.task k).nextQ
      let x : Xfer := { x with op := id, q := q, task := k, agent := s.cur, hand := s.handler, tag := parF f.par 15 0, root := s.root s.cur,
                               ring := recCrbase r, size := n, fmts := (s.tile s.cur.tile).bfmt }
      let s := s.issueOp 2 (kwX f) .none
      let s := s.setTask k { s.task k with nextQ := q + 1 }
      .ok ({ s.ws f.rc (wd q) with xfers := s.xfers ++ [x] }.post (.transferCompletion id))

/-! ### Rows, conversions and their checks (05 R138, R298) -/

/-- The bank format that a map of format registers gives an address; none outside the scratchpad. -/
def fmtIn (v : Bool) (m : SMap Word) (a : Word) : Option Word :=
  match windowOf a with
  | some win => if win < 3 then some (m.get (bfmtReset win) (win * 64 + bankOfPage v win (offset a / 2048))) else none
  | none => none

/-- The offsets of a range at which a virtual bank begins, and 0. -/
def seams (v : Bool) (a : Word) (n : Nat) : List Nat :=
  match windowOf a with
  | some win =>
    let b := bankBytes v win
    if win < 3 then 0 :: (List.range (4 * banks v win)).filterMap (fun i =>
      let o := (i + 1) * b - offset a % b
      if o < n then some o else none)
    else [0]
  | none => [0]

/-- Two formats of banks that differ at most in the bank of their scale records. -/
def fmtLike (a b : Word) : Bool := (a ^^^ b) &&& 0xFFFFFFFFFF00FFFF == 0

/-- Every bank of a range has a format like one. -/
def rangeLike (v : Bool) (m : SMap Word) (a : Word) (n : Nat) (fm : Word) : Bool :=
  (seams v a n).all (fun o => ((fmtIn v m (a + wd o)).map (fmtLike fm)).getD true)

/-- The conversion of a row of `n` source bytes: the source and destination formats where both ends lie in the scratchpad and the formats of some two
banks on the way differ (R138; log 23). -/
def convOf (v w : Bool) (sf df : SMap Word) (src dst : Word) (n : Nat) : Option (Word × Word) :=
  match fmtIn v sf src, fmtIn w df dst with
  | some a, some b =>
    let wa := tyWidth (fmtTy a)
    let wb := tyWidth (fmtTy b)
    let same (o : Nat) : Bool := fmtIn v sf (src + wd o) == fmtIn w df (dst + wd (o * wb / wa))
    if (seams v src n).all same && (seams w dst (n * wb / wa)).all (fun o => same (o * wa / wb)) then none else some (a, b)
  | _, _ => none

/-- The bytes a row writes. -/
def convLen (c : Option (Word × Word)) (n : Nat) : Nat :=
  match c with
  | none => n
  | some (a, b) => n * tyWidth (fmtTy b) / tyWidth (fmtTy a)

/-- A grouped end begins and ends on a group boundary of its bank. -/
def onGroup (v : Bool) (fm a : Word) (ne : Nat) : Bool :=
  let i := elemIndex v ((windowOf a).getD 0) (offset a) fm
  fmtGsz fm == 0 || (i % groupLen fm == 0 && (i + ne) % groupLen fm == 0)

/-- The refusals of a converting row (0x7004, CODE 6): among them an end whose banks differ in more than SBANK (log 23). -/
def needConv (v w : Bool) (sf df : SMap Word) (c : Option (Word × Word)) (src dst : Word) (n : Nat) : Run Unit :=
  match c with
  | none => .ok ()
  | some (a, b) => do
    let ne := n * 8 / tyWidth (fmtTy a)
    need (onGroup v a src ne && rangeLike v sf src n a) 7 0x7004 6 src
    need (convLen c n % 16 == 0 && onGroup w b dst ne && rangeLike w df dst (convLen c n) b) 7 0x7004 6 dst

/-- The translations that checked places were found by, which the accesses that follow go on using (22 R449). -/
def keptOf (asid : Nat) (pl : List Place) : List TlbEnt :=
  (pl.filterMap (fun p => match p with
    | .glob va l => some ⟨asid, va / 4096, l⟩
    | _ => none)).dedup

/-- The check of a range whose bytes a transfer reads or writes: the translations it found. -/
def checkRange (s : State) (w : Who) (kind : Nat) (a : Word) (n : Nat) : Run (List TlbEnt) :=
  (checkAll s w kind false (cut a n)).map (keptOf (asidOf w.root))

/-- The source of rows of a transfer, then their destinations (21 R435). -/
def checkRows (s : State) (rows : List (Word × Word)) (n : Nat) : Run (List TlbEnt) := do
  let v := isV s.cur.tile
  let m := (s.tile s.cur.tile).bfmt
  let ks ← rows.mapM (fun r => checkRange s s.who 1 r.1 n)
  let kd ← rows.mapM (fun r => do
    let c := convOf v v m m r.1 r.2 n
    let k ← checkRange s s.who 2 r.2 (convLen c n)
    needConv v v m m c r.1 r.2 n
    .ok k)
  .ok (ks.flatten ++ kd.flatten).dedup

/-- The rows of a transfer by number: plane and row. -/
def Xfer.rowOff (x : Xfer) (pos : Nat) (sPlane sRow : Word) : Word := wd (pos / x.rows) * sPlane + wd (pos % x.rows) * sRow
def Xfer.srcAt (x : Xfer) (pos : Nat) : Word := x.src + x.rowOff pos x.sPlane x.sRow
def Xfer.dstAt (x : Xfer) (d : XDst) (pos : Nat) : Word := d.addr + x.rowOff pos x.dPlane x.dRow
def Xfer.count (x : Xfer) : Nat := x.rows * x.planes
def Xfer.pairs (x : Xfer) : List (Word × Word) :=
  (List.range x.count).map (fun p => (x.srcAt p, x.dstAt ((x.dsts.headD ⟨0, none, []⟩)) p))

/-- Bytes that stand at a place, or why they cannot be read there. -/
abbrev Peeked := Option (Byte × Bool)

/-- The translation by which a page that is in backing is read (03 R71). -/
def State.backingLeaf (s : State) (w : Who) (e : Word) : Option (Nat × Leaf) :=
  match s.translate w.tlb w.root (backing (place e)) with
  | .ok l => if (l.refuse 1 false).isSome then none else some (backing (place e), l)
  | .error _ => none

/-- Bytes as an engine of the executing agent sees them at this moment wherever they lie, without bringing a page in: memory, through the die's copies and
as of the task's snapshot (04 R105, R109, R118); a frame; a polder slot; backing. None where they cannot be read. -/
def peekPlace (s : State) (w : Who) (a : Word) (n : Nat) (p : Place) : Run (State × List Peeked) :=
  let v := s.taskView w.agent.tile
  let read (r : Run (State × List (Byte × Bool))) : Run (State × List Peeked) :=
    match r with
    | .ok (s, bs) => .ok (s, bs.map some)
    | .error (.trap _) => .ok (s, List.replicate n none)
    | .error e => .error e
  match p with
  | .glob va l => read (readGlobal s w v false a va l n)
  | .sp win page off =>
    let x := s.tile w.agent.tile
    let e := x.spte (pkey win page)
    if loc e = 1 then .ok (s, (x.readAs w.path (pkey win page) off n).map some)
    else match (if loc e = 3 then (s.backingLeaf w e).map some else some none) with
      | none => .ok (s, List.replicate n none)
      | some src => read ((s.sourcePage w.agent.tile v e src a).map (fun x => (x.1, x.2.read off n)))
  | .edge .. => .ok (s, List.replicate n none)

/-- The bytes of pieces as they stand at this moment. -/
def peekPieces (s : State) (w : Who) : List (Word × Nat) → Run (State × List Peeked)
  | [] => .ok (s, [])
  | p :: ps => do
    let pl ← checkPiece s w p.1 p.2 1 false
    let (s, b) ← peekPlace s w p.1 p.2 pl
    let (s, bs) ← peekPieces s w ps
    .ok (s, b ++ bs)

/-- Whether some source row and some destination row share an address (22 R464). -/
def overlaps (rows : List (Word × Word)) (n dn : Nat) : Bool :=
  rows.any (fun r => rows.any (fun q => r.1.toNat < q.2.toNat + dn && q.2.toNat < r.1.toNat + n))

/-- The source bytes of every row as they stand at issue. Those that cannot be read then are read when the transfer comes to them, as it meets its
faults (03 R69, 22 R464). -/
def captureRows (n : Nat) : State → List (Word × Word) → Run (State × List (List Peeked))
  | s, [] => .ok (s, [])
  | s, r :: rows => do
    let (s, b) ← peekPieces s { s.who with engine := true, path := 2 } (cut r.1 n)
    let (s, bs) ← captureRows n s rows
    .ok (s, b :: bs)

/-- A copy of checked rows issues, with the source bytes captured where it overlaps its destination (22 R464). -/
def issueCopy (s : State) (f : EX) (x : Xfer) : Run State := do
  let m := (s.tile s.cur.tile).bfmt
  let v := isV s.cur.tile
  let dn := convLen (convOf v v m m x.src (x.dsts.headD ⟨0, none, []⟩).addr x.row) x.row
  let x := { x with checked := true, dsts := x.dsts.map (fun d => { d with fmts := m }) }
  if overlaps x.pairs x.row dn then do
    let (s, w) ← captureRows x.row s x.pairs
    issueXfer s f { x with whole := some w }
  else issueXfer s f x

/-! ### The transfer ops (R299 to R304, 21 R445) -/

/-- The tests of a transfer op before its operands. -/
def xferTests (s : State) (f : EX) (srcs : List (BitVec 5)) : Run Unit := do
  useTok s (kwX f) (kpX f)
  useS s srcs
  needRing s

/-- A byte count of at most 2^32 - 16. -/
def needCount (n : Nat) : Run Unit := need (n ≤ 2 ^ 32 - 16) 6 0x7001 3 0

/-- `bcopy` (R299): source and count, then destination. -/
def execBcopy (f : EX) (s : State) : Host.Outcome State Fault Refusal :=
  settle s (do
    xferTests s f [f.ra, f.rb, f.rc]
    let src := s.rs f.ra
    let dst := s.rs f.rb
    let n := (s.rs f.rc).toNat
    needCount n
    aligned src 16
    need (n % 16 == 0) 7 0x3002 4 src
    let _ ← checkRange s s.who 1 src n
    aligned dst 16
    let kept ← checkRows s [(src, dst)] n
    issueCopy s f { op := 0, q := 0, task := 0, agent := s.cur, kind := 0, src := src, dsts := [{ addr := dst }], row := n, kept := kept })

/-- A number of a descriptor's bytes. -/
def fieldOf (bs : List Byte) (o n : Nat) : Nat := leNat ((bs.drop o).take n)

/-- The bytes that a list or descriptor of a transfer op holds, where all can be read without bringing a page in. -/
def peeked (bs : List Peeked) : Option (List Byte) := if bs.all (·.isSome) then some (bs.filterMap (·.map (·.1))) else none

/-- The transfer that a descriptor asks for; a field outside its limits traps (R300). -/
def descXfer (s : State) (b : List Byte) : Run Xfer := do
  let w (o : Nat) : Word := wd (fieldOf b o 8)
  let row := fieldOf b 16 4
  let rows := fieldOf b 20 4
  let planes := fieldOf b 40 4
  need ((w 0).toNat % 16 == 0 && (w 8).toNat % 16 == 0 && row % 16 == 0 && 16 ≤ row && row ≤ 2 ^ 32 - 16 &&
    1 ≤ rows && rows ≤ 65535 && (w 24).toNat % 16 == 0 && (w 32).toNat % 16 == 0 && 1 ≤ planes && planes ≤ 65535 &&
    fieldOf b 44 4 == 0 && (w 48).toNat % 16 == 0 && (w 56).toNat % 16 == 0) 7 0x7001 1 0
  let x : Xfer := { op := 0, q := 0, task := 0, agent := s.cur, kind := 1, src := w 0, dsts := [{ addr := w 8 }], row := row, rows := rows,
                    planes := planes, sRow := w 24, dRow := w 32, sPlane := w 48, dPlane := w 56 }
  let kept ← checkRows s x.pairs row
  .ok { x with kept := kept }

/-- `bcopyn` (R300): the descriptor is a path-0 load at issue. What it asks for is checked before a page of it is brought in (22 R450). -/
def execBcopyn (f : EX) (s : State) : Host.Outcome State Fault Refusal :=
  settle s (do
    xferTests s f [f.ra]
    let a := s.rs f.ra
    aligned a 64
    let (_, h) ← peekPieces s s.who (cut a 64)
    (match peeked h with
     | some b => (descXfer s b).map (fun _ => ())
     | none => .ok ())
    let (s, bs) ← loadPieces s (s.view s.cur) 1 false false (cut a 64) a
    let x ← descXfer s (bs.map (·.1))
    issueCopy s f x)

/-- The destinations that a list of `bmcast` names, and the test of its fields (R301). -/
def listDests (s : State) (hb b : List Byte) : Run (List XDst) := do
  let c := fieldOf hb 0 2
  let ents := (List.range c).map (fun e => (wd (fieldOf b (16 * e) 8), fieldOf b (16 * e + 8) 2, fieldOf b (16 * e + 10) 6))
  need (1 ≤ c && c ≤ 8 && fieldOf hb 2 6 == 0) 7 0x7001 2 0
  need (ents.all (fun e => (e.2.1 == 0xFFFF || e.2.1 < recRanks (s.runRec s.cur.tile)) && e.2.2 == 0)) 7 0x7001 2 0
  .ok (ents.map (fun e => { addr := e.1, rank := some e.2.1 }))

/-- The entries of a list of `bmcast` at `a` with the header `hb`. -/
def listBytes (a : Word) (hb : List Byte) : List (Word × Nat) := cut (a + 8) (16 * min 8 (fieldOf hb 0 2))

/-- `bmcast` (R301): source and count, then the list, which is read at issue (21 R435); its destinations are checked by the engine. The whole list is
checked before a page of it is brought in (22 R450). -/
def execBmcast (f : EX) (s : State) : Host.Outcome State Fault Refusal :=
  settle s (do
    xferTests s f [f.ra, f.rb, f.rc]
    let src := s.rs f.ra
    let lst := s.rs f.rb
    let n := (s.rs f.rc).toNat
    needCount n
    aligned src 16
    need (n % 16 == 0) 7 0x3002 4 src
    let kept ← checkRange s s.who 1 src n
    aligned lst 16
    let (_, h) ← peekPieces s s.who (cut lst 8)
    (match peeked h with
     | some hb => (checkAt s s.who lst 1 false (listBytes lst hb)).map (fun _ => ())
     | none => .ok ())
    let (s, h) ← loadPieces s (s.view s.cur) 1 false false (cut lst 8) lst
    let hb := h.map (·.1)
    let (s, es) ← loadPieces s (s.view s.cur) 1 false false (listBytes lst hb) lst
    let dsts ← listDests s hb (es.map (·.1))
    issueXfer s f { op := 0, q := 0, task := 0, agent := s.cur, kind := 2, src := src, row := n, dsts := dsts, kept := kept })

/-- `bfill` (R302). -/
def execBfill (f : EX) (s : State) : Host.Outcome State Fault Refusal :=
  settle s (do
    xferTests s f [f.ra, f.rb, f.rc]
    let dst := s.rs f.rb
    let n := (s.rs f.rc).toNat
    needCount n
    aligned dst 16
    need (n % 16 == 0) 7 0x3002 4 dst
    let kept ← checkRange s s.who 2 dst n
    issueXfer s f { op := 0, q := 0, task := 0, agent := s.cur, kind := 3, pat := s.rs f.ra, dsts := [{ addr := dst }], row := n, checked := true,
                    kept := kept })

/-- `bmig` (R303). -/
def execBmig (f : EX) (s : State) : Host.Outcome State Fault Refusal :=
  settle s (do
    useTok s (kwX f) (kpX f)
    needHandler s
    notAwn s
    useS s [f.ra, f.rb]
    needRing s
    let a := (s.rs f.ra).toNat
    let b := (s.rs f.rb).toNat
    need (a < 2560) 6 0x7001 1 0
    need (b < 2560) 6 0x7001 2 0
    issueXfer s f { op := 0, q := 0, task := 0, agent := s.cur, kind := 4, tile0 := a, tile1 := b })

/-- What `bpoll` reads of transfer q (R304). -/
def State.pollQ (s : State) (k q : Nat) : Nat :=
  let x := s.task k
  if q ≥ x.nextQ || q + 2 ^ recCrlog (s.record k) < x.nextQ then 0xFF else x.qStat.get 0 q

/-- `bpoll` (R304). -/
def execBpoll (f : EX) (s : State) : Host.Outcome State Fault Refusal :=
  settle s (do
    useS s [f.ra]
    .ok (s.ws f.rc (wd (match s.taskOf s.cur with
      | some k => s.pollQ k (s.rs f.ra).toNat
      | none => 0xFF))))

/-- `bwait` (R304). -/
def execBwait (f : EX) (s : State) : Host.Outcome State Fault Refusal :=
  settle s (do
    useS s [f.ra]
    let q := (s.rs f.ra).toNat
    match s.taskOf s.cur with
    | none => raise 6 0x7006 0 0
    | some k => do
      need (q < (s.task k).nextQ) 6 0x7006 0 0
      if s.pollQ k q = 0 then .error (.wait (.transfer q) s) else .ok s)

/-! ### Completion (R296) -/

/-- The 32 bytes of a completion record. -/
def Xfer.record (x : Xfer) (status code bytes time : Nat) : List Byte :=
  leBytes 8 x.q ++ leBytes 1 status ++ leBytes 1 0 ++ leBytes 2 code ++ leBytes 2 x.tag ++ leBytes 2 0 ++ leBytes 8 bytes ++ leBytes 8 time

/-- The record's write fails: a context's EFAULT takes the fault with PATH 2, and the die reports it. -/
def State.lostRecord (s : State) (x : Xfer) (t : Trap) : State :=
  if x.agent.isAwn then (s.reportTable t).reportTask x.task { cls := 2, reach := 1, cause := t.cause, code := t.code, tile := x.agent.tile, addr := t.addr }
  else s.engineFault x.agent 2 t

/-- The record is written on path 2 in the task's address space, as a part of the op: held at its home where that lets no write be performed. -/
def State.putRecord (s : State) (x : Xfer) (status code bytes : Nat) : State :=
  let va := x.ring.toNat + x.q % x.size * 32
  let root := recRoot (s.record x.task)
  match s.translate (.engine x.agent.tile) root va with
  | .error e => s.lostRecord x ⟨8, 0x3005, e.code, wd va, e.table⟩
  | .ok l =>
    match l.refuse 2 true with
    | some c => s.lostRecord x ⟨8, 0x3006, c, wd va, none⟩
    | none =>
      if s.portShut (l.pa va) then s.lostRecord x ⟨8, 0x8001, 0, wd va, none⟩
      else (s.noteTlb (.engine x.agent.tile) root va l).unitWrite (some x.op) (some (asidOf root, va, l)) (dieOf x.agent.tile) l (l.pa va)
        (x.record status code bytes s.time) false

/-- A transfer is complete: `bpoll` reads its status, and its token register loses one. -/
def State.endXfer (s : State) (x : Xfer) (status : Nat) : State :=
  let s := { s with xfers := s.xfers.filter (fun (y : Xfer) => y.op != x.op) }
  (s.setTask x.task { s.task x.task with qStat := (s.task x.task).qStat.set 0 x.q status }).completeOp x.op

/-- The transfer's new progress is kept and its next step follows. -/
def State.keepXfer (s : State) (x : Xfer) : State :=
  { s with xfers := s.xfers.map (fun (y : Xfer) => if y.op = x.op then x else y) }.post (.transferCompletion x.op)

/-- The die that homes the first destination byte of a COPY's copy, whose log its port is closed in (03 R88). -/
def State.copyDie (s : State) (x : Xfer) : Nat :=
  let a := offset ((x.dsts.headD ⟨0, none, []⟩).addr)
  match s.walk x.root a with
  | .ok l => homeDie (l.pa a)
  | .error _ => 0

/-- A transfer ends: its port closes and its record is written; it completes once that is performed (04 R94). A COPY's copy completes its packet
(14 R380). -/
def State.finishXfer (s : State) (x : Xfer) (status code bytes : Nat) : State :=
  if x.kind = 5 then
    let s := { s with xfers := s.xfers.filter (fun (y : Xfer) => y.op != x.op) }
    ({ s.drlAppend (s.copyDie x) x.port (asidOf x.root) 2 (2 ^ 32 - 1) with ops := s.ops.del x.op } : State).post (.packetCompletion x.q x.task)
  else
    let s := s.drlAppend (dieOf x.agent.tile) x.port (asidOf x.root) 2 (s.tid x.task)
    let s := if x.conv then s.emitStats x.agent.tile 2 else s
    let s := s.putRecord x status code bytes
    if s.opNeeds x.op then s.keepXfer { x with fin := some status } else s.endXfer x status

/-- The error record of an engine fault that a transfer meets; a COPY's names no task (20 R428, R488). -/
def State.reportXfer (s : State) (x : Xfer) (t : Trap) : State :=
  let s := s.reportTable t
  let r : ErrRec := { cls := 2, reach := 1, cause := t.cause, code := t.code, addr := t.addr }
  if x.kind = 5 then s.report none r else s.reportTask x.task { r with tile := x.agent.tile }

/-- A transfer meets an engine fault: status 3 with the cause as fault code (22 R454). -/
def State.failXfer (s : State) (x : Xfer) (t : Trap) : State := (s.reportXfer x t).finishXfer x 3 t.cause.toNat x.done

/-! ### Steps of a transfer -/

/-- For whom the engine reads, and for whom it writes a destination: the tile of the rank it names. -/
def Xfer.who (x : Xfer) : Who := ⟨x.agent, x.root, x.hand, true, 2, x.kept⟩
def State.dstTile (s : State) (x : Xfer) (d : XDst) : Option Nat :=
  match d.rank with
  | none => some x.agent.tile
  | some r => if r = 0xFFFF then some x.agent.tile else (s.task x.task).tiles[r]?
def State.dstWho (s : State) (x : Xfer) (d : XDst) : Who := ⟨⟨(s.dstTile x d).getD x.agent.tile, x.agent.ctx⟩, x.root, x.hand, true, 2, x.kept⟩

/-- The rank's tile holds a Running task of the gang. -/
def State.runsThere (s : State) (x : Xfer) (d : XDst) : Bool :=
  match d.rank with
  | some r => r == 0xFFFF || (match s.dstTile x d with
    | some t => (s.tile t).run == some x.task && !s.stoppedTile t
    | none => false)
  | none => true

/-- The check of a `bmcast` destination at the source (R301). -/
def checkDst (s : State) (x : Xfer) (d : XDst) : Run (List TlbEnt) := do
  need (s.runsThere x d) 7 0x8001 0 d.addr
  let w := windowOf d.addr
  need (match d.rank, w with
    | some r, some win => if r = 0xFFFF then win == 4 else win < 3
    | _, _ => false) 7 0x3003 0 d.addr
  aligned d.addr 16
  let t := (s.dstTile x d).getD 0
  let c := convOf (isV x.agent.tile) (isV t) x.fmts (s.tile t).bfmt x.src d.addr x.row
  let k ← checkRange s (s.dstWho x d) 2 d.addr (convLen c x.row)
  needConv (isV x.agent.tile) (isV t) x.fmts (s.tile t).bfmt c x.src d.addr x.row
  .ok k

/-- Every destination of a `bmcast` is checked before any is written: the first that is denied gives status 3. -/
def State.checkDsts (s : State) (x : Xfer) : State :=
  match x.dsts.mapM (checkDst s x) with
  | .error (.trap t) => s.failXfer x t
  | .error (.wait _ s) => s.keepXfer x
  | .ok ks => s.keepXfer { x with checked := true, kept := x.kept ++ ks.flatten,
                                  dsts := x.dsts.map (fun d => { d with fmts := (s.tile ((s.dstTile x d).getD 0)).bfmt }) }

/-- Source bytes of the next chunk: of a conversion 128 elements, else some granules up to the end of a page (log 23). -/
def Xfer.chunk (x : Xfer) (c : Option (Word × Word)) (dst : Word) (pick : Nat) : Nat :=
  let rest := x.row - x.off
  match c with
  | some (a, _) => min rest (16 * tyWidth (fmtTy a))
  | none =>
    let room (a : Word) : Nat := 2048 - a.toNat % 2048
    min rest (min (16 * (1 + pick % 128)) (min (room (x.srcAt x.pos + wd x.off)) (room (dst + wd x.off))))

/-- The scale records of n elements from an address, one for each group, in the bank that the format of the group's own bank names (05 R137). -/
def recPieces (v : Bool) (m : SMap Word) (fm a : Word) (ne : Nat) : List (Word × Nat) :=
  if fmtGsz fm = 0 then []
  else
    let win := (windowOf a).getD 0
    let g := groupLen fm
    (List.range (ceilDiv ne g)).map (fun i =>
      let b := a + wd (i * g * tyWidth (fmtTy fm) / 8)
      let r := recSpan v win (offset b) 0 ((fmtIn v m b).getD fm)
      (winBase win + wd r.off, r.len))

/-- The bytes of a chunk read; of an overlapping copy those that stood there at issue (22 R464). -/
def Xfer.asIssued (x : Xfer) (n : Nat) (bs : List (Byte × Bool)) : List (Byte × Bool) :=
  match x.whole with
  | some rows =>
    let old := (((rows[x.pos]?).getD []).drop x.off).take n
    bs.zipIdx.map (fun b => ((old[b.2]?).getD none).getD b.1)
  | none => bs

/-- Two bank formats lay a bank out alike: as wide elements in as long groups, with records of one size. -/
def sameLayout (a b : Word) : Bool :=
  tyWidth (fmtTy a) == tyWidth (fmtTy b) && fmtGsz a == fmtGsz b && recSize a == recSize b && (fmtTy a == 11) == (fmtTy b == 11)

/-- The format by which an end of a chunk is decoded or encoded: the one that its bank has now (07 R168). None where a write of BFMT has given the bank
another layout than the one the transfer was checked for: the chunk's bytes are free then (DESIGN CHOICE, log 23). -/
def fmtNow (v : Bool) (m : SMap Word) (plan a : Word) : Option Word := (fmtIn v m a).filter (sameLayout plan)

/-- The read phase: the chunk's bytes, followed by the scale records of a grouped source, are held. -/
def State.readChunk (s : State) (x : Xfer) (c : Option (Word × Word)) (n : Nat) : State :=
  let a := x.srcAt x.pos + wd x.off
  if x.kind = 3 then s.keepXfer { x with held := (List.range n).map (fun i => ((x.pat >>> (8 * (i % 8))).setWidth 8, false)) }
  else
    let v := isV x.agent.tile
    let m := (s.tile x.agent.tile).bfmt
    let cv := c.bind (fun c => fmtNow v m c.1 a)
    let ps := cut a n ++ (match cv with
      | some fm => recPieces v m fm a (n * 8 / tyWidth (fmtTy fm))
      | none => [])
    match checkAll s x.who 1 false ps with
    | .error (.trap t) => s.failXfer x t
    | .error (.wait _ s) => s.keepXfer x
    | .ok pl =>
      match s.engineReside x.agent.tile pl a with
      | .error t => s.failXfer x t
      | .ok (some s) => s.keepXfer x
      | .ok none =>
        match readAll s x.who (if x.kind = 5 then .now else s.taskView x.agent.tile) false (ps.zip pl) with
        | .error (.trap t) => s.failXfer x t
        | .error (.wait _ s) => s.keepXfer x
        | .ok (s, bs) => s.keepXfer { x with held := x.asIssued n bs, cv := cv }

/-- The exact values and poison of the elements of a held chunk of source format `fm` (05 R137). -/
def heldElems (fm : Word) (n : Nat) (held : List (Byte × Bool)) : List (Num × Bool) :=
  let w := tyWidth (fmtTy fm)
  let bs := held.take n
  let recs := held.drop n
  let raws := rawElems w (bs.map (·.1))
  raws.zipIdx.map (fun p =>
    let r := if fmtGsz fm = 0 then [] else (recs.drop (p.2 / groupLen fm * recSize fm)).take (recSize fm)
    (decodeElem fm p.1 (r.map (·.1)), ((bs[p.2 * w / 8]?).map (·.2)).getD false || r.any (·.2)))

/-- The bytes that a chunk of converted elements writes, the scale records of an MX destination, and the events (05 R138). -/
def convChunk (fm : Word) (els : List (Num × Bool)) (recs : List (Byte × Bool)) :
    List (Byte × Bool) × List (Byte × Bool) × List (Option Nat) :=
  let ty := fmtTy fm
  let w := tyWidth ty
  if ty = 11 then
    let blocks := (List.range (els.length / 32)).map (fun i => (els.drop (32 * i)).take 32)
    let outs := blocks.map (fun b => (mxBlock (b.map (·.1)) 0, b.any (·.2)))
    let codes := outs.flatMap (fun o => o.1.2.map (fun e => (e.1, o.2)))
    (packFlags w codes, outs.map (fun o => (BitVec.ofNat 8 o.1.1, o.2)), outs.flatMap (fun o => o.1.2.map (·.2)))
  else
    let outs := els.zipIdx.map (fun p =>
      if fmtGsz fm = 0 then
        let (b, ev) := convertTo p.1.1 ty 0 false
        ((b, p.1.2), ev)
      else
        let r := (recs.drop (p.2 / groupLen fm * recSize fm)).take (recSize fm)
        let (q, ev) := quantG p.1.1 (recD16 (r.map (·.1))) (if fmtZp fm then recZ ty (r.map (·.1)) else 0) ty 0
        ((bitsOfInt w q, p.1.2 || r.any (·.2)), ev))
    (packFlags w (outs.map (·.1)), [], outs.map (·.2))

/-- The progress of a transfer after a chunk of n source and m destination bytes. -/
def Xfer.advance (x : Xfer) (n m : Nat) (p conv : Bool) (port : Port) : Xfer :=
  let x := { x with held := [], done := x.done + m, pois := x.pois || p, conv := x.conv || conv, port := port, sent := 0 }
  if x.off + n < x.row then { x with off := x.off + n }
  else if x.pos + 1 < x.count then { x with off := 0, pos := x.pos + 1 }
  else { x with off := 0, pos := 0, dst := x.dst + 1 }

/-- What a chunk of n source bytes writes: m bytes, the scale records of an MX destination, and the conversion events. -/
def State.chunkOut (s : State) (x : Xfer) (c : Option (Word × Word)) (fb : Option Word) (n m : Nat) (rb : List (Byte × Bool)) :
    List (Byte × Bool) × List (Byte × Bool) × List (Option Nat) :=
  match c, x.cv, fb with
  | none, _, _ => (x.held.take n, [], [])
  | some _, some fa, some fb => convChunk fb (heldElems fa n x.held) rb
  | some _, _, _ => ((List.range m).map (fun i => (Config.freeByte s.fc i, x.held.any (·.2))), [], [])

/-- The write phase: the held chunk is written at the destination, its granules set full (R298). -/
def State.writeChunk (s : State) (x : Xfer) (d : XDst) (c : Option (Word × Word)) (n : Nat) : State :=
  let w := s.dstWho x d
  let t := w.agent.tile
  let a := x.dstAt d x.pos + wd (convLen c x.off)
  let m := convLen c n
  let fb := c.bind (fun c => fmtNow (isV t) (s.tile t).bfmt c.2 a)
  let rp := match fb with
    | some fm => recPieces (isV t) (s.tile t).bfmt fm a (m * 8 / tyWidth (fmtTy fm))
    | none => []
  let mx := fb.any (fun fm => fmtTy fm == 11)
  match (do
    let pl ← checkAll s w 2 false (cut a m)
    let rl ← checkAll s w (if mx then 2 else 1) false rp
    reside s t (pl ++ rl) a
    let (s, rb) ← if mx then .ok (s, []) else readAll s w .now false (rp.zip rl)
    .ok (s, (cut a m).zip pl, rp.zip rl, rb) : Run _) with
  | .error (.trap t) => s.failXfer x t
  | .error (.wait _ s) => s.keepXfer x
  | .ok (s, ps, rs, rb) =>
    let (bs, sb, evs) := s.chunkOut x c fb n m rb
    let qs := if mx then rs else []
    let k := ((s.tile t).run).getD 0
    match s.sendRest ⟨t, x.agent.ctx⟩ x.sent (placeGranules k ps bs ++ placeGranules k qs sb) with
    | (s, e, some _) => s.keepXfer { x with sent := e }
    | (s, _, none) =>
      let s := writeAll s w false true x.op ps bs
      let s := writeAll s w false false x.op qs sb
      let s := s.setTile x.agent.tile ((s.tile x.agent.tile).countAll 2 evs)
      s.keepXfer (x.advance n m (bs.any (·.2)) c.isSome (portOf x.port ps))

/-- One step of a copy, multicast or fill: the check of destinations, the end, a read, or a write. A rank that is frozen after the check
keeps the transfer waiting; one that no longer runs the task ends it. -/
def State.stepXfer (s : State) (x : Xfer) : State :=
  if !x.checked then s.checkDsts x
  else match x.dsts[x.dst]? with
    | none => if s.opNeeds x.op then s.keepXfer x else s.finishXfer x (if x.pois then 2 else 1) 0 x.done
    | some d =>
      if x.row = 0 then s.finishXfer x 1 0 0
      else if !s.runsThere x d then
        (if s.stoppedTile ((s.dstTile x d).getD 0) && (s.tile ((s.dstTile x d).getD 0)).run == some x.task then s.keepXfer x
         else s.failXfer x ⟨8, 0x8001, 0, d.addr, none⟩)
      else
        let t := (s.dstTile x d).getD 0
        let c := if x.kind = 3 || x.kind = 5 then none
          else convOf (isV x.agent.tile) (isV t) x.fmts d.fmts (x.srcAt x.pos) (x.dstAt d x.pos) x.row
        if x.held.isEmpty then s.readChunk x c (x.chunk c (x.dstAt d x.pos) (Config.freePick s.fc))
        else
          let n := match c with
            | some (a, _) => min (x.row - x.off) (16 * tyWidth (fmtTy a))
            | none => x.held.length
          s.writeChunk x d c n

/-! ### Migration (R303, R404, 22 R456, R457) -/

/-- A tile may take a restored task: it holds none in either slot. -/
def State.freeTile (s : State) (t : Nat) : Bool := (s.tile t).run.isNone && (s.tile t).staged.isNone

/-- The image of the task that is Frozen on a tile. -/
def State.imageOn (s : State) (t : Nat) : Option (Nat × Image) :=
  s.images.find? (fun e => e.2.from_ == t && recState (s.record e.2.task) == 7 && (s.task e.2.task).imageId.get 0 e.2.rank == e.1 + 1)

/-- The polder pages of an image moved to slots of another die: the new page table, places and die, or why one cannot be: slots run short, or the
slice of the slot is contained (22 R456). -/
def State.moveSlots (s : State) (d d' : Nat) (spt home : SMap Word) : Except (BitVec 16) (State × SMap Word × SMap Word × Bool) :=
  let move (acc : State × SMap Word × Bool) (e : Nat × Word) : Except (BitVec 16) (State × SMap Word × Bool) :=
    let (s, m, p) := acc
    if loc e.2 ≠ 2 then .ok (s, m.put e.1 e.2, p)
    else match (s.die d').freeSlot with
      | none => .error 0x4002
      | some k =>
        if (s.tile (160 * d' + k / 128)).contained then .error 0x8001
        else
          let pg := (s.die d).polder.get {} (place e.2)
          .ok (s.setDie d' ((s.die d').putSlot k pg), m.put e.1 (mkSpte 2 (pinned e.2) (dirty e.2) k), p || pg.pois != 0)
  do
    let (s, spt', p) ← spt.foldlM move (s, [], false)
    let (s, home', p) ← home.foldlM move (s, [], p)
    .ok (s, spt', home', p)

/-- A migration that meets a fault on its destination is abandoned: status 4, with nothing changed (R303, 22 R454, R456). -/
def State.abandon (s : State) (x : Xfer) (cause : BitVec 16) : State :=
  (s.reportXfer x ⟨8, cause, 0, 0, none⟩).finishXfer x 4 cause.toNat 0

/-- `bmig` moves the scratchpad of a Frozen task (R303): the page table and the polder pages of another die; frames travel with the image. -/
def State.migrate (s : State) (x : Xfer) : State :=
  match s.imageOn x.tile0 with
  | none => s.finishXfer x 5 0 0
  | some (i, im) =>
    if isV x.tile0 != isV x.tile1 || !s.freeTile x.tile1 then s.finishXfer x 5 0 0
    else if (s.tile x.tile1).contained then s.abandon x 0x8001
    else
      let d := dieOf x.tile0
      let d' := dieOf x.tile1
      let res := im.tile.spt.filter (fun e => loc e.2 == 1)
      let p0 := res.any (fun e => (im.tile.page e.1).pois != 0)
      let n := 2048 * (im.tile.spt.filter (fun e => loc e.2 == 1 || (d != d' && loc e.2 == 2))).length
      let done (s : State) (spt home : SMap Word) (p : Bool) : State :=
        let s := { s with images := s.images.put i { im with moved := some (d', spt, home) } }
        s.finishXfer x (if p then 2 else 1) 0 n
      if d = d' then done s im.tile.spt im.tile.home p0
      else match s.moveSlots d d' im.tile.spt im.tile.home with
        | .error c => s.abandon x c
        | .ok (s, spt, home, p) => done s spt home (p0 || p)

/-- TRANSFER_COMPLETION (R296): the engine's next step for a transfer, up to its completion. A stopped tile's transfers go on when it
is restored. -/
def execTransferCompletion (id : Nat) (s : State) : Host.Outcome State Fault Refusal :=
  match s.xfers.find? (fun x => x.op == id) with
  | none => .next s
  | some x =>
    if x.kind ≠ 5 && s.stoppedTile x.agent.tile && (s.tile x.agent.tile).run == some x.task then .next s
    else match x.fin with
    | some st => .next (if s.opNeeds x.op then s.keepXfer x else s.endXfer x st)
    | none =>
    if x.kind = 4 then .next (s.migrate x)
    else .next (s.stepXfer x)

end Sys2Proof.Machine
end

