-- ==== Sys2Proof/Machine/Pages.lean ====
section
/-! DEFINITION. Scratchpad page ops and bank formats (08_isa_memory_sync.md R237 to R243, 22 R458), and the completion of page-ins
(03 R69). -/

namespace Sys2Proof.Machine

/-! ### Footprints (11 Table — Footprint descriptor, 03 R73, R74) -/

/-- A page of a declared footprint: window, page, zero fill, source address. -/
structure FootPage where
  win : Nat
  page : Nat
  zf : Bool
  src : Nat
  deriving DecidableEq, Repr

/-- The pages of descriptor i of a record. -/
def recFp (r : BitVec 2048) (i : Nat) : List FootPage :=
  let d := recD r (12 + 2 * i)
  let e := recD r (13 + 2 * i)
  if !d.getLsbD 63 then []
  else (List.range (bits e 25 13)).map (fun j => ⟨bits d 62 61, bits e 12 0 + j, d.getLsbD 60, bits d 56 0 + 2048 * j⟩)

/-- The declared footprint of a record. -/
def recFoot (r : BitVec 2048) : List FootPage := (List.range 5).flatMap (recFp r)

/-- A page lies in the running task's declared footprint. -/
def State.inFoot (s : State) (t key : Nat) : Bool := (recFoot (s.runRec t)).any (fun (p : FootPage) => pkey p.win p.page == key)

/-- Frames of a bank pinned by the running table and by the staged footprint (R73). -/
def State.pinsOf (s : State) (t : Nat) (spt : SMap Word) (buf bank : Nat) : Nat :=
  let v := isV t
  let here (key : Nat) : Bool := key / 8192 == buf && bankOfPage v buf (key % 8192) == bank
  let staged := match (s.tile t).staged with
    | some k => (recFoot (s.record k)).filter (fun (p : FootPage) => here (pkey p.win p.page))
    | none => []
  (spt.filter (fun e => here e.1 && pinned e.2)).length + staged.length

/-! ### The ops' checks and statuses -/

/-- n of the parameter word, the first page and the range of keys (R237). -/
def pageCount (f : EX) : Nat := parF f.par 12 0
def pageKeys (f : EX) (s : State) : List Nat :=
  let a := s.rs f.ra
  (List.range (pageCount f)).map (fun i => pkey ((windowOf a).getD 0) (offset a / 2048 + i))

/-- The checks of a page op's range, and the wait for page-ins under way (R237, R238). -/
def pageTests (s : State) (f : EX) (srcs : List (BitVec 5)) : Run Unit := do
  notAwn s
  useS s srcs
  let a := s.rs f.ra
  aligned a 2048
  match windowOf a with
  | none => raise 7 0x3003 0 a
  | some win => do
    need (win < 3) 7 0x3003 0 a
    need (offset a / 2048 + pageCount f ≤ windowPages (isV s.cur.tile) win) 7 0x3003 1 a

/-- Page ops wait while a page-in of the tile or another context's write-outs are under way, so that they are one step with respect to its paging. -/
def pageQuiet (s : State) : Run Unit :=
  if (s.tile s.cur.tile).pageIns.isEmpty && !(s.openOuts s.cur.tile).any (·.ctx != s.cur.ctx) then .ok () else .error (.wait (.structural .pageIns) s)

/-- The executing context's own write-outs of a list of pages, under way (08 R242). -/
def State.myOuts (s : State) (out : List Nat) : Option PageOuts :=
  (s.openOuts s.cur.tile).filter (fun o => o.ctx == s.cur.ctx && o.pages.map (·.1) == out)

/-- The resident pages that an `spmig` moves are written out while its context waits (R242): the pages whose write-out an access has abandoned
(03 R72), or the wait. -/
def writeOuts (s : State) (out : List Nat) : Run (State × List Nat) :=
  let x := s.tile s.cur.tile
  if out.isEmpty then .ok (s, [])
  else match s.myOuts out with
    | some o => .ok (s.setTile s.cur.tile { x with outs := none }, (o.pages.filter (·.2)).map (·.1))
    | none => .error (.wait (.structural .pageOuts) (s.setTile s.cur.tile
        { x with outs := some { ctx := s.cur.ctx, pc := s.me.pc, pages := out.map (fun k => (k, false)) } }))

/-- The first status, in the order 5, 1, 2, 3, 4, whose test fails (R238); 0 where none does. -/
def pageStatus (t5 t1 t2 t3 t4 : Bool) : Nat := if t5 then 5 else if t1 then 1 else if t2 then 2 else if t3 then 3 else if t4 then 4 else 0

/-- The checks of the backing pages of a range, for the kinds of access given. -/
def checkBacking (s : State) (f : EX) (kinds : List Nat) : Run Unit := do
  let b := s.rs f.rb
  aligned b 2048
  need (windowOf b == some 4) 7 0x3003 0 b
  let _ ← (List.range (pageCount f)).mapM (fun i => kinds.mapM (fun k =>
    let a := b + wd (2048 * i)
    checkPiece s s.who a 32 k false))
  .ok ()

/-- Polder slots that a die has free. -/
def State.freeSlots (s : State) (t : Nat) : Nat := (s.die (dieOf t)).slotCount - (s.die (dieOf t)).polderUsed.length

/-- A page takes the lowest free slot. -/
def State.takeSlot (s : State) (t key : Nat) (p : Page) : State :=
  match (s.die (dieOf t)).freeSlot with
  | none => s
  | some k =>
    let s := s.setDie (dieOf t) ((s.die (dieOf t)).putSlot k p)
    let x := s.tile t
    s.setTile t { (x.setSpte key (mkSpte 2 false false k)) with home := x.home.del key, lru := x.lru.filter (· != (false, key)) }

/-- A page's entry is replaced, and the slot that it holds or keeps is freed. -/
def State.leavePage (s : State) (t key : Nat) (e : Word) : State :=
  let x := s.tile t
  let drop (s : State) (w : Word) : State :=
    if loc w = 2 then s.setDie (dieOf t) ((s.die (dieOf t)).dropSlot (place w)) else s
  let s := drop (drop s (x.spte key)) (x.home.get 0 key)
  s.setTile t { (x.setSpte key e) with home := x.home.del key, lru := x.lru.filter (· != (false, key)) }

/-- The address of a page. -/
def keyAddr (key : Nat) : Word := winBase (key / 8192) + wd (key % 8192 * 2048)

/-- The translation of the backing of a page that is there, which must be readable; none for a page elsewhere. -/
def readBacking (s : State) (t key : Nat) : Run (State × Option (Nat × Leaf)) :=
  let e := (s.tile t).spte key
  let va := backing (place e)
  if loc e ≠ 3 then .ok (s, none)
  else match s.translate (.engine t) (s.tileRoot t) va with
    | .error w => .error (.trap ⟨8, 0x3005, w.code, keyAddr key, w.table⟩)
    | .ok l =>
      match l.refuse 1 s.handler with
      | some c => .error (.trap ⟨8, 0x3006, c, keyAddr key, none⟩)
      | none => .ok (s.noteTlb (.engine t) (s.tileRoot t) va l, some (va, l))

/-- The content of a mapped page, wherever it lies; backing is read as the task sees it (04 R118). -/
def pageContent (s : State) (t key : Nat) : Run (State × Page) :=
  if loc ((s.tile t).spte key) = 1 then .ok (s, (s.tile t).page key)
  else do
    let (s, src) ← readBacking s t key
    match s.sourcePage t (s.taskView t) ((s.tile t).spte key) src (keyAddr key) with
    | .error (.trap x) => .error (.trap { x with step := 8 })
    | r => r

/-- The content of the pages of a list that are not resident, by key. -/
def pagesAway (t : Nat) : State → List Nat → Run (State × SMap Page)
  | s, [] => .ok (s, [])
  | s, k :: ks => do
    let (s, p) ← if loc ((s.tile t).spte k) = 1 then .ok (s, {}) else pageContent s t k
    let (s, m) ← pagesAway t s ks
    .ok (s, m.put k p)

/-- A page's content: in its frame, or as read before. -/
def Tile.content (x : Tile) (away : SMap Page) (k : Nat) : Page := if loc (x.spte k) = 1 then x.page k else away.get {} k

/-- A page whose content is known moves to the polder: to the slot that its place there keeps, or to the lowest free one (R242). -/
def State.moveToPolder (s : State) (t k : Nat) (p : Page) : State :=
  let x := s.tile t
  let h := x.home.get 0 k
  if loc (x.spte k) = 1 && loc h == 2 then
    (s.setDie (dieOf t) ((s.die (dieOf t)).putSlot (place h) p)).setTile t
      { (x.setSpte k (mkSpte 2 false false (place h))) with home := x.home.del k, lru := x.lru.filter (· != (false, k)) }
  else s.takeSlot t k p

/-- One page of `spmig.pold`: one in the polder, or one whose write-out an access has abandoned, stays where it is (R242, 03 R72). -/
def State.toPolder (t : Nat) (kept : List Nat) (away : SMap Page) (s : State) (k : Nat) : State :=
  if loc ((s.tile t).spte k) = 2 || kept.contains k then s else s.moveToPolder t k ((s.tile t).content away k)

/-- The pages of `spmig.hbm` are written to their pages of backing, from address `b` on (R242), until one cannot be: what has been written stays (22 R458). -/
def writeBacking (t : Nat) (b : Word) (away : SMap Page) : State → List (Nat × Nat) → State × Option Trap
  | s, [] => (s, none)
  | s, (k, i) :: rest =>
    let a := b + wd (2048 * i)
    match s.pageOut t ((s.tile t).content away k) (offset a) s.handler with
    | .ok s => writeBacking t b away s rest
    | .error e => (s, some { e with addr := a })

/-- The pages that `spmig.hbm` moves: those not already backed there, and without an abandoned write-out (R242). -/
def pagesToBacking (x : Tile) (b : Nat) (kept keys : List Nat) : List (Nat × Nat) :=
  keys.zipIdx.filter (fun p => !(loc (x.spte p.1) == 3 && place (x.spte p.1) == b + p.2) && !kept.contains p.1)

/-! ### The ops -/

/-- `spmap` (R239); fn9[0] selects zero fill. -/
def execSpmap (f : EX) (s : State) : Host.Outcome State Fault Refusal :=
  settle s (do
    let zf := flX f
    pageTests s f (if zf then [f.ra] else [f.ra, f.rb])
    if zf then .ok () else checkBacking s f [1, 2]
    pageQuiet s
    let t := s.cur.tile
    let keys := pageKeys f s
    let st := pageStatus false (keys.any (fun k => loc ((s.tile t).spte k) != 0)) false (zf && s.freeSlots t < keys.length) false
    if st ≠ 0 then .ok (s.ws f.rc (wd st))
    else if zf then .ok ((keys.foldl (fun (s : State) k => s.takeSlot t k {}) s).ws f.rc 0)
    else
      let b := (s.rs f.rb).toNat / 2048
      let x := keys.zipIdx.foldl (fun (x : Tile) p => x.setSpte p.1 (mkSpte 3 false false (b + p.2))) (s.tile t)
      .ok ((s.setTile t x).ws f.rc 0))

/-- `spunmap` (R240). -/
def execSpunmap (f : EX) (s : State) : Host.Outcome State Fault Refusal :=
  settle s (do
    pageTests s f [f.ra]
    pageQuiet s
    let t := s.cur.tile
    let keys := pageKeys f s
    let st := pageStatus (keys.any (s.inFoot t)) (keys.any (fun k => pinned ((s.tile t).spte k))) false false false
    if st ≠ 0 then .ok (s.ws f.rc (wd st)) else .ok ((keys.foldl (fun (s : State) k => s.leavePage t k 0) s).ws f.rc 0))

/-- PIN of a list of pages. -/
def Tile.pinAll (x : Tile) (keys : List Nat) (b : Bool) : Tile :=
  keys.foldl (fun (x : Tile) k => x.setSpte k (mkSpte (loc (x.spte k)) b (dirty (x.spte k)) (place (x.spte k)))) x

/-- A frame of a bank that no page of a range has, an occupant written out (03 R70). -/
def State.frameBeside (s : State) (t buf bank : Nat) (range : List Nat) : Option (State × Nat) :=
  match (s.setTile t ((s.tile t).pinAll range true)).chooseFrame t buf bank with
  | none => none
  | some (f, none) => some (s, f)
  | some (f, some k) => (s.evict t k).map (fun s => (s, f))

/-- An absent page is paged in (03 R69) into a frame that no page of a range has, with a PIN; without such a frame the op meets the capacity fault
(22 R451; log 33). -/
def bringPage (range : List Nat) (pin : Bool) (s : State) (k : Nat) : Run State :=
  let t := s.cur.tile
  if loc ((s.tile t).spte k) < 2 then .ok s
  else do
    let (s, p) ← pageContent s t k
    match s.frameBeside t (k / 8192) (bankOfPage (isV t) (k / 8192) (k % 8192)) range with
    | none => raise 8 0x4002 (k / 8192) (keyAddr k)
    | some (s, f) => .ok (s.fillPage t k f pin p)

/-- Every absent page of a range is paged in, one after another. -/
def bringIn (s : State) (keys : List Nat) (pin : Bool) : Run State := keys.foldlM (bringPage keys pin) s

/-- `sppin` (R241): every page is resident, and pinned. -/
def execSppin (f : EX) (s : State) : Host.Outcome State Fault Refusal :=
  settle s (do
    pageTests s f [f.ra]
    pageQuiet s
    let t := s.cur.tile
    let v := isV t
    let keys := pageKeys f s
    let win := (windowOf (s.rs f.ra)).getD 0
    let after := ((s.tile t).pinAll keys true).spt
    let full (b : Nat) : Bool := s.pinsOf t after win b ≥ framesPerBank v win
    let st := pageStatus false (keys.any (fun k => loc ((s.tile t).spte k) == 0))
      (keys.any (fun k => full (bankOfPage v win (k % 8192)))) false false
    if st ≠ 0 then .ok (s.ws f.rc (wd st))
    else do
      let s ← bringIn s keys true
      .ok ((s.setTile t ((s.tile t).pinAll keys true)).ws f.rc 0))

/-- `spunpin` (R241). -/
def execSpunpin (f : EX) (s : State) : Host.Outcome State Fault Refusal :=
  settle s (do
    pageTests s f [f.ra]
    pageQuiet s
    let t := s.cur.tile
    let keys := pageKeys f s
    let st := pageStatus (keys.any (s.inFoot t)) (keys.any (fun k => loc ((s.tile t).spte k) == 0)) false false false
    if st ≠ 0 then .ok (s.ws f.rc (wd st)) else .ok ((s.setTile t ((s.tile t).pinAll keys false)).ws f.rc 0))

/-- `spmig.res` (R242). -/
def execSpmigRes (f : EX) (s : State) : Host.Outcome State Fault Refusal :=
  settle s (do
    pageTests s f [f.ra]
    pageQuiet s
    let t := s.cur.tile
    let keys := pageKeys f s
    let st := pageStatus false (keys.any (fun k => loc ((s.tile t).spte k) == 0)) false false false
    if st ≠ 0 then .ok (s.ws f.rc (wd st))
    else do
      let s ← bringIn s keys false
      .ok (s.ws f.rc 0))

/-- `spmig.pold` (R242). -/
def execSpmigPold (f : EX) (s : State) : Host.Outcome State Fault Refusal :=
  settle s (do
    pageTests s f [f.ra]
    pageQuiet s
    let t := s.cur.tile
    let keys := pageKeys f s
    let x := s.tile t
    let own (k : Nat) : Bool := loc (x.home.get 0 k) == 2
    let new := keys.filter (fun k => loc (x.spte k) == 3 || (loc (x.spte k) == 1 && !own k))
    let out := keys.filter (fun k => loc (x.spte k) == 1)
    let st := pageStatus false (keys.any (fun k => loc (x.spte k) == 0 || pinned (x.spte k))) false (s.freeSlots t < new.length) false
    if st ≠ 0 && (s.myOuts out).isNone then .ok (s.ws f.rc (wd st))
    else do
      let (s, away) ← pagesAway t s (keys.filter (fun k => loc (x.spte k) == 3))
      let (s, kept) ← writeOuts s out
      .ok ((keys.foldl (State.toPolder t kept away) s).ws f.rc (if kept.isEmpty then 0 else 6)))

/-- Some granule of a page in A or C is empty, which backing cannot keep (R242). -/
def State.someEmpty (s : State) (t k : Nat) : Bool :=
  let e := (s.tile t).spte k
  k / 8192 != 1 && (if loc e = 1 then ((s.tile t).page k).full != BitVec.allOnes 128
    else loc e == 2 && ((s.die (dieOf t)).polder.get {} (place e)).full != BitVec.allOnes 128)

/-- `spmig.hbm` (R242), or the trap of a write-out that fails, with the bytes written before it: no entry is written until every write-out has succeeded
(22 R458). -/
def spmigHbm (f : EX) (s : State) : Run (State × Option Trap) := do
  pageTests s f [f.ra, f.rb]
  checkBacking s f [2]
  pageQuiet s
  let t := s.cur.tile
  let keys := pageKeys f s
  let x := s.tile t
  let a := s.rs f.rb
  let b := a.toNat / 2048
  let out := keys.filter (fun k => loc (x.spte k) == 1)
  let st := pageStatus false (keys.any (fun k => loc (x.spte k) == 0 || pinned (x.spte k))) false false (keys.any (s.someEmpty t))
  if st ≠ 0 && (s.myOuts out).isNone then .ok (s.ws f.rc (wd st), none)
  else do
    let (s, away) ← pagesAway t s ((pagesToBacking x b [] keys).map (·.1))
    let (s, kept) ← writeOuts s out
    let move := pagesToBacking x b kept keys
    match writeBacking t a away s move with
    | (s, some e) => .ok (s, some e)
    | (s, none) =>
      let s := move.foldl (fun (s : State) p => s.leavePage t p.1 (mkSpte 3 false false (b + p.2))) s
      .ok (s.ws f.rc (if kept.isEmpty then 0 else 6), none)

/-- `spmig.hbm`. -/
def execSpmigHbm (f : EX) (s : State) : Host.Outcome State Fault Refusal :=
  match spmigHbm f s with
  | .ok (s', none) => settle s (.ok s')
  | .ok (s', some e) => .next { s'.takeTrap e with fate := .trapped e.step }
  | .error e => settle s (.error e)

/-! ### Bank formats (R243) -/

/-- The byte ranges that a matrix op names, by its formats at issue. -/
def MatOp.ranges (t : Nat) (m : MatOp) : List Span :=
  let mn := m.mb * m.nb * blockEdge t * blockEdge t
  let at_ (a : Word) (n : Nat) : Span := ⟨(windowOf a).getD 0, offset a, n⟩
  let kp := 32 * ceilDiv m.k 32
  if m.kind ≤ 2 then
    [at_ m.a (m.mb * blockEdge t * kp * tyWidth (fmtTy m.fmtA) / 8), at_ m.w (m.nb * blockEdge t * kp * tyWidth (fmtTy m.fmtW) / 8), at_ m.c (4 * mn)] ++
      (if m.kind = 0 then [] else [at_ m.msk (mn / 8)])
  else if m.kind = 3 then [at_ m.c (4 * mn)]
  else if m.kind = 4 then [at_ m.c (4 * mn), at_ m.w (mn * tyWidth (fmtTy m.fmtW) / 8)]
  else if m.kind = 5 then [at_ m.c (mn * tyWidth (fmtTy m.fmtW) / 8), at_ m.w (mn * tyWidth (fmtTy m.fmtW) / 8)]
  else [at_ m.c (4 * mn), at_ m.w (4 * blockEdge t * (if m.kind = 7 then m.mb else m.nb))]

/-- The byte ranges of a tile's scratchpad that a transfer names. -/
def State.xferRanges (s : State) (t : Nat) (x : Xfer) : List Span :=
  let span (a : Word) (n : Nat) : List Span := match windowOf a with
    | some win => if win < 3 && n ≠ 0 then [⟨win, offset a, n⟩] else []
    | none => []
  let srcs := if x.agent.tile = t && x.kind ≤ 2 then (List.range x.count).flatMap (fun p => span (x.srcAt p) x.row) else []
  srcs ++ x.dsts.flatMap (fun d =>
    if s.dstTile x d ≠ some t then []
    else (List.range x.count).flatMap (fun p =>
      span (x.dstAt d p) (convLen (if x.kind = 3 then none else convOf (isV x.agent.tile) (isV t) x.fmts d.fmts (x.srcAt p) (x.dstAt d p) x.row) x.row)))

/-- A span meets a virtual bank that a physical bank serves. -/
def Span.meets (v : Bool) (r : Span) (buf bank : Nat) : Bool :=
  r.win == buf && r.len != 0 &&
    (List.range ((r.off + r.len - 1) / 2048 + 1 - r.off / 2048)).any (fun i => bankOfPage v buf (r.off / 2048 + i) == bank)

/-- The full-empty read that a context waits with. -/
def Ctx.waitingFe (c : Ctx) : Option FeRead :=
  match c.st with
  | .waiting (.fullEmpty r) => some r
  | .held (some (.fullEmpty r)) => some r
  | _ => none

/-- A context stands at an access that has begun and waits for a page. -/
def Ctx.atPage (c : Ctx) : Bool :=
  match c.st with
  | .waiting (.residence ..) => true
  | .held (some (.residence ..)) => true
  | _ => !c.prog.isEmpty

/-- The strips that the stream units of a context have started on. -/
def Ctx.strips (c : Ctx) : List Span :=
  (c.binds.filter (fun b => b.2.began)).map (fun b => ⟨(windowOf (b.2.addr b.2.reached)).getD 3, offset (b.2.addr b.2.reached), 256⟩)

/-- An op of the tile still reaches a bank, or may: one that its contexts have outstanding on path 0 or stand at (log 33), a full-empty read that waits, a
strip that a stream unit has started on, a matrix op or a transfer. -/
def State.bankBusy (s : State) (t buf bank : Nat) : Bool :=
  let reaches (r : Span) : Bool := r.meets (isV t) buf bank
  s.ops.any (fun o => o.2.agent.tile == t && o.2.agent.ctx != 15 && o.2.path == 0) ||
    (List.range 11).any (fun c => (s.ctx ⟨t, c⟩).atPage || (s.ctx ⟨t, c⟩).waitingFe.any (fun r => reaches ⟨r.win, r.off, r.len⟩) ||
      (s.ctx ⟨t, c⟩).strips.any reaches) ||
    (s.tile t).mq.any (fun m => (m.ranges t).any reaches) || s.xfers.any (fun x => x.kind ≤ 3 && (s.xferRanges t x).any reaches)

/-- `spfmt` (R243). -/
def execSpfmt (f : EX) (s : State) : Host.Outcome State Fault Refusal :=
  settle s (do
    notAwn s
    useS s [f.rb]
    let t := s.cur.tile
    let bank := parF f.par 7 0
    let buf := parF f.par 9 8
    let v := s.rs f.rb
    need (bfmtLegal (isV t) buf bank v) 6 0x7004 1 0
    if s.bankBusy t buf bank then .error (.wait (.structural (.bank buf bank)) s) else .ok (s.writeBfmt t buf bank v))

/-! ### Page-ins (03 R69) -/

/-- PAGE_IN_COMPLETE: the page is in its frame; the waits for it clear by their own acts. -/
def execPageInComplete (t win page : Nat) (s : State) : Host.Outcome State Fault Refusal :=
  .next (s.finishPageIn t win page)

end Sys2Proof.Machine
end

