-- ==== Sys2Proof/Machine/Fabric.lean ====
section
/-! DEFINITION. The on-die fabric (12_fabric_collectives.md R343 to R360, 23 R476, R477): the grid of routers, credits, route classes,
the adders with their wire code, count tokens, slot tables, loads, memory-port slots and the clock test of Levee batches. -/

namespace Sys2Proof.Machine

/-! ### The grid (12 R343) -/

/-- Column and row of a package tile in the package grid. -/
def gridX (t : Nat) : Nat := 16 * (dieOf t % 4) + t % 16
def gridY (t : Nat) : Nat := 10 * (dieOf t / 4) + t % 160 / 16

/-- The tile at a column and row. -/
def tileAt (x y : Nat) : Nat := (y / 10 * 4 + x / 16) * 160 + y % 10 * 16 + x % 16

/-- What a port joins: its own tile, a router, the I/O die, or nothing. -/
inductive Joins where
  | own
  | router (t : Nat)
  | ioDie
  | nothing
  deriving DecidableEq, Repr

/-- Table — Direction codes: 0 t, 1 n, 2 e, 3 s, 4 w. -/
def joins (t p : Nat) : Joins :=
  let x := gridX t
  let y := gridY t
  if p = 0 then .own
  else if p = 1 then (if y = 0 then .nothing else .router (tileAt x (y - 1)))
  else if p = 2 then (if x = 63 then .ioDie else .router (tileAt (x + 1) y))
  else if p = 3 then (if y = 39 then .nothing else .router (tileAt x (y + 1)))
  else if p = 4 then (if x = 0 then .ioDie else .router (tileAt (x - 1) y))
  else .nothing

/-- A port that R343 connects. -/
def connected (t p : Nat) : Bool := joins t p != .nothing

/-- The port of the neighbour that a port faces. -/
def facing (p : Nat) : Nat := if p = 1 then 3 else if p = 2 then 4 else if p = 3 then 1 else if p = 4 then 2 else 0

/-- Dimension order (12 R346): columns, then rows, then t; for another package, towards the I/O die of the die's column pair. -/
def dimOrder (t dest : Nat) (away : Bool) : Nat :=
  if away then (if dieOf t % 4 < 2 then 4 else 2)
  else if gridX t < gridX dest then 2 else if gridX dest < gridX t then 4
  else if gridY t < gridY dest then 3 else if gridY dest < gridY t then 1 else 0

/-! ### Packets and credits (12 R345, R350) -/

/-- Flits of a packet: its header and its payload; a wire-coded payload has 34 bytes a run (12 R360). -/
def flitsOf (p : Packet) : Nat := 1 + (if !p.hasPayload then 0 else if p.wire then (if p.rtype = 1 then 3 else 2) else 8)

/-- Flits of a class sent by a port of a tile and not credited yet; port 0 counts what the tile put into its own router. -/
def Tile.sentFlits (x : Tile) (port cls : Nat) : Nat := x.credits.get 0 (port * 4 + cls)

/-- A port has credits for a packet: the buffer it fills holds 16 flits (12 R350). -/
def State.roomFor (s : State) (t port : Nat) (p : Packet) : Bool := decide ((s.tile t).sentFlits port p.cls + flitsOf p ≤ 16)

/-- Credits used by a packet that leaves by a port. -/
def State.useCredits (s : State) (t port : Nat) (p : Packet) : State :=
  let x := s.tile t
  s.setTile t { x with credits := x.credits.set 0 (port * 4 + p.cls) (x.sentFlits port p.cls + flitsOf p) }

/-- The number under which the flits are counted that the I/O die has put into a port's buffer and that have not left it. -/
def ioPort (port : Nat) : Nat := 8 + port

/-- A packet leaves an input buffer: a credit for each flit goes upstream (12 R350). -/
def State.returnCredits (s : State) (t port : Nat) (p : Packet) : State :=
  let post (u q : Nat) : State := (List.range (flitsOf p)).foldl (fun s _ => s.post (.creditArrival u q p.cls)) s
  match joins t port with
  | .own => post t 0
  | .router u => post u (facing port)
  | .ioDie =>
    let x := s.tile t
    s.setTile t { x with credits := x.credits.set 0 (ioPort port * 4 + p.cls) (x.sentFlits (ioPort port) p.cls - flitsOf p) }
  | .nothing => s

/-! ### Turns (02 R53)

Packets that wait for room at a router take turns: one waits in the order in which it came to wait, behind every other of its class that came to wait
before for a port it leaves by, so that none is passed for ever. Port 5 is the buffer of port t, for which the sums of the adder wait with what the tile
sends. -/

/-- No packet of the class that came to wait before the one at an input port waits for one of some ports. -/
def Tile.hasTurn (x : Tile) (port cls : Nat) (outs : List Nat) : Bool :=
  (x.turns.takeWhile (fun e => !(e.1 == port && e.2.1 == cls))).all (fun e => e.2.1 != cls || !e.2.2.any outs.contains)

/-- The packet of a class at an input port waits for some ports; it waits no more. -/
def State.takeTurn (s : State) (t port cls : Nat) (outs : List Nat) : State :=
  let x := s.tile t
  if x.turns.any (fun e => e.1 == port && e.2.1 == cls) then s else s.setTile t { x with turns := x.turns ++ [(port, cls, outs)] }
def State.dropTurn (s : State) (t port cls : Nat) : State :=
  s.setTile t { s.tile t with turns := (s.tile t).turns.filter (fun e => !(e.1 == port && e.2.1 == cls)) }

/-- The router of a tile takes a packet from the tile: it has room, and no sum of its adder waits for that. -/
def State.entryRoom (s : State) (t : Nat) (p : Packet) : Bool := !(s.tile t).contained && s.roomFor t 0 p && (s.tile t).hasTurn 5 p.cls [5]

/-- The router of a tile accepts a packet of one flit of class 1 from it now. -/
def State.injectRoom (s : State) (t : Nat) : Bool := (s.tile t).outq.isEmpty && s.entryRoom t { cls := 1 }

/-- A packet enters a tile's router from the tile. -/
def State.inject (s : State) (t : Nat) (p : Packet) : State := (s.useCredits t 0 p).post (.routerPacketArrival t 0 p)

/-- The router of a tile accepts an agent's packet, which completes the op that sent it, or the packet waits at the tile (10 R306). -/
def State.offer (s : State) (a : Agent) (op : Nat) (p : Packet) : State :=
  let x := s.tile a.tile
  if x.outq.isEmpty && s.entryRoom a.tile p then (s.inject a.tile p).post (.operationCompletion op)
  else s.setTile a.tile { x with outq := x.outq ++ [(a, op, p)] }

/-- The waiting packets of a tile that its router can accept now enter it, in order (12 R346): behind one that it cannot accept every other waits.
Those of a stopped domain stay (15 R396). -/
def State.drainOut (s : State) (t : Nat) : List (Agent × Nat × Packet) → State
  | [] => s
  | (a, op, p) :: rest =>
    let keep (l : List (Agent × Nat × Packet)) (s : State) : State := s.setTile t { s.tile t with outq := (s.tile t).outq ++ l }
    if s.stoppedTile t && !a.isAwn then (keep [(a, op, p)] s).drainOut t rest
    else if !s.entryRoom t p then keep ((a, op, p) :: rest) s
    else ((s.inject t p).post (.operationCompletion op)).drainOut t rest
def State.drain (s : State) (t : Nat) : State :=
  let q := (s.tile t).outq
  (s.setTile t { s.tile t with outq := [] }).drainOut t q

/-- CREDIT_ARRIVAL (12 R350): one flit has left the buffer that a port of a tile fills. -/
def execCreditArrival (t port cls : Nat) (s : State) : Host.Outcome State Fault Refusal :=
  let x := s.tile t
  let s := s.setTile t { x with credits := x.credits.set 0 (port * 4 + cls) (x.sentFlits port cls - 1) }
  .next (if port = 0 then s.drain t else s)

/-! ### Route classes (12 R353, R354) -/

/-- The route-class entry of the current load. -/
def State.routeEntry (s : State) (t cls : Nat) : Word := (s.tile t).rtCur.get 0 cls
def rtMode (e : Word) : Nat := bits e 47 46
def rtAdd (e : Word) : Bool := e.getLsbD 24
def rtNext (e : Word) : Nat := bits e 37 30
def rtOut (e : Word) : List Nat := (List.range 5).filter (fun p => e.getLsbD p)
/-- The set of inputs of a merge entry: IN of an adder entry or of a statistics root. -/
def rtIn (e : Word) : List Nat :=
  (List.range 5).filter (fun p => if rtMode e = 2 then e.getLsbD (13 + p) else e.getLsbD (25 + p))

/-- A packet discarded at a router is counted; condition 2 is written for the first, then at most once in 3,600,000 cycles (23 R476). -/
def State.discard (s : State) (t route kind : Nat) : State :=
  let x := s.tile t
  let n := x.discards + 1
  let due := match x.discardRec with
    | none => true
    | some at_ => decide (at_ + 3600000 ≤ s.time)
  if due then
    (s.setTile t { x with discards := 0, discardRec := some s.time }).report none
      { cls := 2, reach := 1, tile := t, detail := [(64, 1, 2), (68, 2, t), (70, 1, route), (71, 1, kind), (72, 4, n)] }
  else s.setTile t { x with discards := n }

/-- Acts pending that will enter a tile's awn queue. -/
def State.awnPending (s : State) (t : Nat) : List Packet :=
  s.agenda.filterMap (fun i => match i with
    | .awnMessageArrival u p => if u = t then some p else none
    | _ => none)

/-- The awn queue has a place, and a payload slot where the packet needs one (12 R355). -/
def State.awnRoom (s : State) (t : Nat) (p : Packet) : Bool :=
  let x := s.tile t
  let q := s.awnPending t
  decide (x.awnQ.length + q.length < 16) && !s.awnStopped t &&
    (!p.hasPayload || decide (x.slots.length + (q.filter (·.hasPayload)).length < 16))

/-- What happens at a router to a packet: it enters the adder, is discarded, or leaves by ports. -/
inductive Way where
  | adder
  | drop
  | out (ps : List (Nat × Packet))
  deriving DecidableEq, Repr

/-- A copy by a port of a route-class entry: at t, the entry's handler replaces the header's (12 R354). -/
def rtCopy (e : Word) (p : Packet) (port : Nat) : Nat × Packet := (port, if port = 0 then { p with handler := bits e 15 8 } else p)

/-- The handling of a packet by a router (12 R346, R354); a destination that does not exist cannot be reached and is discarded. -/
def State.wayOf (s : State) (t : Nat) (p : Packet) : Way :=
  if p.byRoute then
    let e := s.routeEntry t p.route
    if rtMode e = 0 then
      if rtAdd e then (if p.kind = 1 || p.kind = 7 then .adder else .drop)
      else if (rtOut e).isEmpty then .drop else .out ((rtOut e).map (rtCopy e p))
    else if rtMode e = 1 then
      let d := if p.arg.getLsbD (bits e 21 16) then bits e 30 28 else bits e 26 24
      .out [rtCopy e p d]
    else .drop
  else
    let away := p.pkg != s.ua.pkg
    if !away && p.dest ≥ 2560 then .drop else .out [(dimOrder t p.dest away, p)]

/-- A packet can leave by a port now: credits, or room at its own tile. -/
def State.canLeave (s : State) (t : Nat) (c : Nat × Packet) : Bool :=
  match joins t c.1 with
  | .own => if c.2.kind ≤ 2 || c.2.kind = 4 then s.awnRoom t c.2 else c.2.kind != 3 || !s.stoppedTile t
  | .router _ => s.roomFor t c.1 c.2
  | _ => true

/-- The ports for which a packet that leaves by some waits with others in turn: routers, and the awn queue (as port 0). -/
def turnsFor (t : Nat) (cs : List (Nat × Packet)) : List Nat :=
  cs.filterMap (fun c => match joins t c.1 with
    | .own => if c.2.kind ≤ 2 || c.2.kind = 4 then some 0 else none
    | .router _ => some c.1
    | _ => none)

/-- A packet at an input port can leave by its ports now, and it is its turn. -/
def State.canGo (s : State) (t port : Nat) (p : Packet) (cs : List (Nat × Packet)) : Bool :=
  cs.all (s.canLeave t) && (s.tile t).hasTurn port p.cls (turnsFor t cs)

/-- The Levee edge of a die that a port of a router crosses is contained: edge k is that of direction code k + 1 (20 R426; log 41). -/
def State.edgeShut (s : State) (t port : Nat) : Bool :=
  match joins t port with
  | .router u => dieOf u != dieOf t && ((s.die (dieOf t)).contained.get 0 (port - 1) != 0 || (s.die (dieOf u)).contained.get 0 (facing port - 1) != 0)
  | _ => false

/-- The op that waits for an answer gets it: rc is written and the op completes (13 R367). -/
def State.answer (s : State) (op : Nat) (v : Word) : State :=
  match s.ops.find op with
  | none => s
  | some o =>
    let d : Dst := match o.dst with
      | .late r _ => .late r v
      | d => d
    { s with ops := s.ops.put op { o with dst := d } }.completeOp op

/-- A packet delivered at t goes to the unit that its kind names: kinds 0, 1, 2 and 4 to the awn queue, 3 to the merge unit, a capacity
request to its table and the answer to the op that waits for it (12 R345, R355, 10 R314, 13 R367). -/
def State.deliver (s : State) (t : Nat) (p : Packet) : State :=
  if p.kind ≤ 2 || p.kind = 4 then s.post (.awnMessageArrival t p)
  else if p.kind = 3 then s.post (.returnStripArrival t p)
  else match p.cap with
    | some (0, m) => s.post (.capacityClaimArrival m)
    | some (1, m) => s.post (.capacityEndArrival m)
    | some (2, m) => s.post (.capacitySetArrival m)
    | some (_, m) => s.answer m.op m.operand
    | none => s

/-- A packet leaves by a port; a message that leaves the package counts as received as it goes (02 R55; log 38). A contained Levee edge discards it and
returns no credit (20 R426). -/
def State.leave (s : State) (t : Nat) (c : Nat × Packet) : State :=
  match joins t c.1 with
  | .own => s.deliver t c.2
  | .router u =>
    let s := s.useCredits t c.1 c.2
    if s.edgeShut t c.1 then s else s.post (.routerPacketArrival u (facing c.1) c.2)
  | .ioDie => ({ s with outbox := s.outbox ++ [c.2] } : State).onLaunch c.2.launch (fun l => l.receive (akey ⟨t, 15⟩) (b2n (decide (c.2.kind ≤ 2))))
  | .nothing => s

/-- ROUTER_PACKET_ARRIVAL (12 R346, R350, R354): a packet at an input port is handled once every port it leaves by has room and it is its turn; the copies a
fan-out adds count as sent by the router's tile (02 R55). A contained router discards it and returns no credit (20 R426). -/
def execRouterPacketArrival (t port : Nat) (p : Packet) (s : State) : Host.Outcome State Fault Refusal :=
  if (s.tile t).contained then .next s
  else match s.wayOf t p with
    | .drop => .next (((s.returnCredits t port p).dropTurn t port p.cls).discard t p.route p.kind)
    | .adder => .next ((s.dropTurn t port p.cls).again (.adderContributionArrival t port p))
    | .out cs =>
      if s.canGo t port p cs then
        let s := (s.returnCredits t port p).dropTurn t port p.cls
        let s := cs.foldl (fun s c => s.leave t c) s
        .next (if cs.length ≤ 1 || p.kind > 2 then s else s.onLaunch p.launch (fun l => l.send (akey ⟨t, 15⟩) (cs.length - 1)))
      else .next ((s.takeTurn t port p.cls (turnsFor t cs)).again (.routerPacketArrival t port p))

/-! ### The wire code (12 R360) -/

/-- The format of a reduce type: 0 f32, 1 bf16; none for i32. -/
def redFmt (t : Nat) : Option FloatFmt := if t = 0 then some f32 else if t = 1 then some bf16 else none

/-- Element width and count of a reduce type. -/
def redWidth (t : Nat) : Nat := if t = 1 then 16 else 32
def redElems (t : Nat) : Nat := 2048 / redWidth t

/-- The quotient y / d of finite values, rounded to an integer by RNE. -/
def quotRne (y d : Num) : Int :=
  match y, d with
  | .fin n m e, .fin dn dm de =>
    let k := if e ≥ de then roundRat (n != dn) (m * 2 ^ (e - de).toNat) dm 0 else roundRat (n != dn) m (dm * 2 ^ (de - e).toNat) 0
    if n != dn then -(k : Int) else k
  | _, _ => 0

/-- RoundF16(a / 7, RNE), as bits. -/
def seventh (a : Num) : Nat :=
  match a with
  | .fin _ m e => if m = 0 then 0 else (f16.roundQuot false m 7 e 0 false).1
  | _ => 0

/-- One run of 64 elements with residuals: scale bits, codes, and the new residuals; none where the run cannot be coded. -/
def quantRun (f : FloatFmt) (xs es : List Num) : Option (Nat × List Int × List Nat) :=
  let ys := (xs.zip es).map (fun p => exactSum [p.1, p.2])
  let d := seventh (ys.foldl Num.absMax .zero)
  if ys.any (fun y => !y.isFin) || (f16.decode d).isInf then none
  else
    let dv := f16.decode d
    let q := ys.map (fun y => if dv.isZero then 0 else max (-7) (min 7 (quotRne y dv)))
    some (d, q, (ys.zip q).map (fun p => (f.round (exactSum [p.1, (dv.mul (.ofInt p.2)).neg]) 0 false).1))

/-- The bits of a coded run: 64 i4 codes, then the scale. -/
def runBits (d : Nat) (q : List Int) : Nat :=
  (q.zipIdx.foldl (fun (acc : Nat) p => acc + bitsOfInt 4 p.1 * 2 ^ (4 * p.2)) 0) + d * 2 ^ 256

/-- A coded payload: every run coded, or none (log 24). The payload, and the residuals to write back. -/
def wireCode (f : FloatFmt) (xs es : List Num) : Option (Nat × List Nat) :=
  let runs := (List.range (xs.length / 64)).map (fun k => quantRun f ((xs.drop (64 * k)).take 64) ((es.drop (64 * k)).take 64))
  if runs.any (·.isNone) then none
  else
    let rs := runs.filterMap id
    some (rs.zipIdx.foldl (fun (acc : Nat) r => acc + runBits r.1.1 r.1.2.1 * 2 ^ (272 * r.2)) 0, rs.flatMap (fun r => r.2.2))

/-- Element i of a contribution as an exact value: a code times its scale, or the element itself. -/
def redValue (p : Packet) (i : Nat) : Num :=
  if p.wire then
    let run := p.payload.toNat >>> (272 * (i / 64))
    (f16.decode ((run >>> 256) % 65536)).mul (.ofInt (intOf true 4 ((run >>> (4 * (i % 64))) % 16)))
  else
    let x := elem p.payload (redWidth p.rtype) i
    match redFmt p.rtype with
    | some f => f.decode x
    | none => .ofInt (intOf true 32 x)

/-- A payload laid out as a vector register: a wire-coded one is decoded into its type (12 R360, 19 R415; log 24). -/
def plainPayload (p : Packet) : VReg :=
  match redFmt p.rtype with
  | some f => if p.wire then ofElems (redWidth p.rtype) (fun i => (f.round (redValue p i) 0 false).1) else p.payload
  | none => p.payload

/-! ### Adders (12 R356) -/

/-- Fields of a reduce header (10 R308). -/
def redColl (h : Word) : Nat := bits h 15 0
def redStep (h : Word) : Nat := bits h 23 16
def redSeq (h : Word) : Nat := bits h 55 24

/-- The payload flits of a sum that are poisoned (20 R421, 23 R477): those of which a contribution's flit is; all where runs of a coded payload, which
lie across flits, enter it. -/
def sumPois (ps : List Packet) : BitVec 8 :=
  if ps.any (·.wire) then (if ps.any (fun p => p.pois != 0) then BitVec.allOnes 8 else 0) else ps.foldl (fun m p => m ||| p.pois) 0

/-- The sum of contributions: each element ExactSum rounded once by RNE, or wrapped for i32; wire-coded where every input was. -/
def adderSum (ps : List Packet) (p0 : Packet) : Packet :=
  let n := redElems p0.rtype
  let pois := sumPois ps
  match redFmt p0.rtype with
  | none =>
    let v := ofElems 32 (fun i => (ps.map (fun p => elem p.payload 32 i)).foldl (· + ·) 0)
    { p0 with payload := v, wire := false, pois := pois }
  | some f =>
    let sums := (List.range n).map (fun i => (f.round (exactSum (ps.map (fun p => redValue p i))) 0 false).1)
    let plain : Packet := { p0 with payload := ofElems (redWidth p0.rtype) (fun i => (sums[i]?).getD 0), wire := false, pois := pois }
    if ps.all (·.wire) then
      match wireCode f (sums.map f.decode) (sums.map (fun _ => Num.zero)) with
      | some (x, _) => { p0 with payload := BitVec.ofNat 2048 x, wire := true, pois := pois }
      | none => plain
    else plain

/-- The key of a partial sum, of its packet. -/
def isPartial (p : Packet) (x : Partial) : Bool := x.cls == p.route && x.coll == redColl p.hdr && x.step == redStep p.hdr

/-- What tells a contribution from others of a port (12 R356 step 1). -/
def contribId (p : Packet) : Nat × Nat × Nat × Nat := (redColl p.hdr, redStep p.hdr, p.rank, redSeq p.hdr)

/-- A contribution is added: it joins the last 64 of its port; a sum with one from every port leaves from port t under NEXT. The
tile counts the contribution as received and the sum as sent (02 R55). -/
def State.addContribution (s : State) (t port : Nat) (p : Packet) (e : Word) (part : Partial) : State :=
  let x := s.tile t
  let part := { part with ports := part.ports.put port p }
  let rest := x.adder.filter (fun q => !isPartial p q)
  let seen := (contribId p :: x.seen.get [] port).take 64
  let full := (rtIn e).all (fun i => (part.ports.find i).isSome)
  let s := s.setTile t { x with seen := x.seen.set [] port seen, adder := if full then rest else rest ++ [part] }
  let s := s.onLaunch p.launch (fun l => (l.receive (akey ⟨t, 15⟩) 1).send (akey ⟨t, 15⟩) (b2n full))
  if full then
    let q := adderSum (part.ports.map (·.2)) p
    s.inject t { q with route := rtNext e, rank := x.rank, src := t, srcPkg := s.ua.pkg, dest := 0 }
  else s

/-- The sum that a contribution completes has room in the buffer of port t (12 R350), in which a contribution that came by t gives its place up. -/
def State.sumRoom (s : State) (t port : Nat) (p : Packet) (e : Word) (part : Partial) : Bool :=
  let part := { part with ports := part.ports.put port p }
  let q := adderSum (part.ports.map (·.2)) p
  let own := if port = 0 then flitsOf p else 0
  !(rtIn e).all (fun i => (part.ports.find i).isSome) ||
    (decide ((s.tile t).sentFlits 0 q.cls + flitsOf q ≤ 16 + own) && (s.tile t).hasTurn (6 + port) p.cls [5])

/-- A contribution waits in its port; one whose sum has no room takes its turn for it (02 R53). -/
def State.sumWaits (s : State) (t port : Nat) (p : Packet) (room : Bool) : State :=
  (if room then s else s.takeTurn t (6 + port) p.cls [5]).again (.adderContributionArrival t port p)

/-- ADDER_CONTRIBUTION_ARRIVAL (12 R356): a contribution at an adder entry is dropped as a copy, added, or waits in its port. -/
def execAdderContributionArrival (t port : Nat) (p : Packet) (s : State) : Host.Outcome State Fault Refusal :=
  let x := s.tile t
  let e := s.routeEntry t p.route
  let done (s : State) : State := (s.returnCredits t port p).dropTurn t (6 + port) p.cls
  let part := (x.adder.find? (isPartial p)).getD ⟨p.route, redColl p.hdr, redStep p.hdr, []⟩
  let free := (x.adder.any (isPartial p) && (part.ports.find port).isNone) || (!x.adder.any (isPartial p) && decide (x.adder.length < 8))
  if x.contained || (s.die (dieOf t)).contained.get 0 (16 + t % 160) != 0 then .next s
  else if s.wayOf t p != .adder then .next ((s.dropTurn t (6 + port) p.cls).again (.routerPacketArrival t port p))
  else if !(rtIn e).contains port || (x.seen.get [] port).contains (contribId p) then .next (done s)
  else if free && s.sumRoom t port p e part then .next ((done s).addContribution t port p e part)
  else .next (s.sumWaits t port p (!free || s.sumRoom t port p e part))

/-! ### Count tokens (05 R140, R141, 12 R354, R358) -/

/-- A token is added to a merge node: counts saturate (05 R141). The tokens counted are those that converters emitted, which a merged token goes on
carrying (DESIGN CHOICE, log 47: R141 does not say what its root counts). -/
def StatNode.add (n : StatNode) (port time : Nat) (k : CountToken) : StatNode :=
  { counts := (List.range 5).map (fun i => min 0xFFFFFFFF ((n.counts[i]?).getD 0 + (k.counts[i]?).getD 0)),
    ports := n.ports.set 0 port (n.ports.get 0 port + 1),
    tokens := n.tokens + k.tokens, tree := k.tree, since := if n.open_ then n.since else time, open_ := true, launch := k.launch }

/-- The bytes of a statistics record (05 Table — Statistics record). -/
def statBytes (n : StatNode) (time : Nat) : List Byte :=
  let c (i : Nat) : List Byte := leBytes 4 ((n.counts[i]?).getD 0)
  c 3 ++ c 0 ++ c 2 ++ c 4 ++ c 1 ++ leBytes 2 n.tree ++ leBytes 2 (min 0xFFFF n.tokens) ++ leBytes 8 time

/-- The completion of a merge (12 R358): the sum goes on under NEXT, or the root writes its record. -/
def State.statDone (s : State) (t cls key : Nat) (n : StatNode) : State :=
  let x := s.tile t
  let e := s.routeEntry t cls
  let s := s.setTile t { x with statNodes := x.statNodes.del key }
  if rtMode e = 2 then
    let i := x.statRecs.get 0 cls
    let a := bits e 45 19 * 8192 + i % 256 * 32
    let s := s.setTile t { s.tile t with statRecs := x.statRecs.set 0 cls (i + 1) }
    s.arriveWrite { kind := 0, agent := unitOf (dieOf t), pa := a, data := statBytes n s.time, ver := s.versioned a } none
  else s.post (.statTokenArrival t 0 ⟨n.counts, n.tree, n.tokens, rtNext e, s.time, n.launch⟩)

/-- The flit of a token, for the credits of class 3 (12 R345, R350). -/
def tokenFlit : Packet := { cls := 3, kind := 7 }

/-- A token leaves a router by a port. -/
def State.sendToken (s : State) (t : Nat) (k : CountToken) (p : Nat) : State :=
  match joins t p with
  | .router u =>
    let s := s.useCredits t p tokenFlit
    if s.edgeShut t p then s else s.post (.statTokenArrival u (facing p) { k with since := s.time })
  | _ => s

/-- The ports by which a token leaves have room for it. -/
def State.tokenRoom (s : State) (t : Nat) (ps : List Nat) : Bool :=
  ps.all (fun p => match joins t p with
    | .router _ => s.roomFor t p tokenFlit
    | _ => true)

/-- A token leaves the input buffer of a port: a credit goes upstream; port t has the converter's own tokens and no buffer to credit (log 25). -/
def State.tokenCredit (s : State) (t port : Nat) : State := if port = 0 then s else s.returnCredits t port tokenFlit

/-- STAT_TOKEN_ARRIVAL: a token at a router goes by its route class once its ports have room, or joins the merge of its tree. -/
def execStatTokenArrival (t port : Nat) (k : CountToken) (s : State) : Host.Outcome State Fault Refusal :=
  let x := s.tile t
  let e := s.routeEntry t k.route
  let go (ps : List Nat) : Host.Outcome State Fault Refusal :=
    if s.tokenRoom t ps then .next (ps.foldl (fun s p => s.sendToken t k p) (s.tokenCredit t port)) else .next (s.again (.statTokenArrival t port k))
  if x.contained then .next s
  else if rtMode e = 2 || (rtMode e = 0 && rtAdd e) then
    let s := s.tokenCredit t port
    if !(rtIn e).contains port then .next s
    else
      let key := k.route * 65536 + k.tree
      let n := x.statNodes.get {} key
      let n' := n.add port s.time k
      if (rtIn e).all (fun i => n'.ports.get 0 i != 0) then .next (s.statDone t k.route key n')
      else
        let s := s.setTile t { s.tile t with statNodes := x.statNodes.set {} key n' }
        .next (if n.open_ then s else s.post (.statMergeTimeout t k.route))
  else if rtMode e = 1 then go [bits e 26 24]
  else if (rtOut e).isEmpty then .next ((s.tokenCredit t port).discard t k.route 7)
  else go (rtOut e)

/-- STAT_MERGE_TIMEOUT (12 R358): 4,096 cycles after its first token a merge completes with what it holds. -/
def execStatMergeTimeout (t cls : Nat) (s : State) : Host.Outcome State Fault Refusal :=
  let open_ := (s.tile t).statNodes.filter (fun e => e.1 / 65536 == cls)
  let due := open_.filter (fun e => decide (e.2.since + 4096 ≤ s.time))
  let s := due.foldl (fun s e => s.statDone t cls e.1 e.2) s
  .next (if due.length < open_.length then s.post (.statMergeTimeout t cls) else s)

/-- `stflush` (10 R311). -/
def execStflush (_f : EX) (s : State) : Host.Outcome State Fault Refusal := settle s (.ok (s.emitAll s.cur.tile))

/-! ### Loads (02 R50 to R52, 10 R309, R310, 12 R347, R351) -/

/-- A set of ports names connected ones only. -/
def portsOk (t : Nat) (ps : List Nat) : Bool := ps.all (connected t)

/-- `rtset` accepts an entry at a router (12 R353). -/
def rtLegal (t : Nat) (e : Word) : Bool :=
  bits e 63 48 == 0 &&
  (if rtMode e = 0 then
    bits e 45 38 == 0 && bits e 23 16 == 0 && bits e 7 5 == 0 && portsOk t (rtOut e) && portsOk t (rtIn e) &&
      (!rtAdd e || (!(rtIn e).isEmpty && (rtOut e).isEmpty && bits e 15 8 == 0))
  else if rtMode e = 1 then
    bits e 45 31 == 0 && bits e 27 27 == 0 && bits e 23 22 == 0 && bits e 7 0 == 0 && connected t (bits e 30 28) && connected t (bits e 26 24)
  else if rtMode e = 2 then bits e 18 18 == 0 && bits e 12 0 == 0 && !(rtIn e).isEmpty && portsOk t (rtIn e)
  else false)

/-- Fields of a router slot entry (12 Table — Router slot entry). -/
def slV (e : Word) : Bool := e.getLsbD 7
def slIn (e : Word) : Nat := bits e 6 4
def slOut (e : Word) : Nat := bits e 2 0

/-- `slotset` accepts a router entry (12 R347). -/
def slotLegal (t : Nat) (e : Word) : Bool :=
  bits e 63 8 == 0 && bits e 3 3 == 0 && slIn e ≤ 4 && slOut e ≤ 4 &&
    (!slV e || (slIn e != slOut e && connected t (slIn e) && connected t (slOut e)))

/-- `slotset` accepts a memory-port entry (12 R351). -/
def portLegal (e : Word) : Bool :=
  bits e 63 16 == 0 && bits e 14 11 == 0 && [0, 2, 3, 4, 5].contains (bits e 10 8) && bits e 7 0 < 160

/-- The executing agent may write a router's next load: in task mode within the gang's rectangle (10 R309). -/
def State.mayConfigure (s : State) (t : Nat) : Bool :=
  dieOf t == dieOf s.cur.tile && t < 2560 &&
    (s.handler || match s.taskOf s.cur with
      | some k => (s.task k).tiles.contains t
      | none => false)

/-- `rtset` (R309). -/
def execRtset (f : EX) (s : State) : Host.Outcome State Fault Refusal :=
  settle s (do
    useS s [f.ra, f.rb]
    let t := (s.rs f.ra).toNat
    let e := s.rs f.rb
    if s.mayConfigure t && rtLegal t e then
      let x := s.tile t
      .ok ((s.setTile t { x with rtNext := x.rtNext.set 0 (parF f.par 7 0) e }).ws f.rc 0)
    else .ok (s.ws f.rc 4))

/-- `slotset` (R309, 12 R351): s[ra][12] names the memory port of the executing die. -/
def execSlotset (f : EX) (s : State) : Host.Outcome State Fault Refusal :=
  settle s (do
    useS s [f.ra, f.rb]
    let a := (s.rs f.ra).toNat
    let e := s.rs f.rb
    let i := parF f.par 7 0
    let d := dieOf s.cur.tile
    if (s.rs f.ra).getLsbD 12 then
      if dieOf (a - 4096) = d && portLegal e then
        let x := s.die d
        .ok ((s.setDie d { x with portNext := x.portNext.set 0 i e }).ws f.rc 0)
      else .ok (s.ws f.rc 4)
    else if s.mayConfigure a && slotLegal a e then
      let x := s.tile a
      .ok ((s.setTile a { x with slNext := x.slNext.set 0 i e }).ws f.rc 0)
    else .ok (s.ws f.rc 4))

/-- A configuration token reaches the input of a router (02 R51), behind the flits that have reached it. -/
def State.giveToken (s : State) (u port n : Nat) : State :=
  let x := s.tile u
  let s := s.setTile u { x with tokens := (n, port) :: x.tokens }
  if s.agenda.contains (.configWavefrontArrival u n) then s else s.post (.configWavefrontArrival u n)

/-- The inputs that the valid slots of a router's current load name: on each circuit the token comes behind the last data token (02 R51). -/
def Tile.circuitPorts (x : Tile) : List Nat := ((x.slCur.filter (fun e => slV e.2)).map (fun e => slIn e.2)).dedup

/-- The tokens of a load have reached a router on every circuit. -/
def Tile.tokensIn (x : Tile) (n : Nat) : Bool := x.circuitPorts.all (fun p => x.tokens.contains (n, p))

/-- `cfgtok` (R310): the wavefront starts at the tile's router; the status comes as the router takes on the load. -/
def execCfgtok (f : EX) (s : State) : Host.Outcome State Fault Refusal :=
  settle s (
    let t := s.cur.tile
    let n := parF f.par 15 0
    if n = (s.tile t).load then .ok (s.ws f.rc 4)
    else if (s.tile t).cfgWait.isSome then .error (.wait (.structural .config) s)
    else
      let s := (s.setTile t { s.tile t with cfgWait := some (s.cur, f.rc.toNat, s.nextOp) }).awaitResult f.rc
      .ok (s.giveToken t 0 n))

/-- The routers that a tile's circuits of the current load lead to, with the input by which they do. -/
def State.downstream (s : State) (t : Nat) : List (Nat × Nat) :=
  (((s.tile t).slCur.filter (fun e => slV e.2)).filterMap (fun e => match joins t (slOut e.2) with
    | .router u => some (u, facing (slOut e.2))
    | _ => none)).dedup

/-- A router of a die has taken on a load: the wavefront that has reached every router gives the die its load number and its memory port's table (12 R351,
11 R336). -/
def State.dieLoad (s : State) (t n : Nat) : State :=
  let d := dieOf t
  let x := s.die d
  let w := (t :: (x.waves.get [] n)).dedup
  if w.length = 160 then (s.setDie d { x with load := n, portCur := x.portNext, waves := x.waves.del n }).post (.dispatchDecision d)
  else s.setDie d { x with waves := x.waves.set [] n w }

/-! ### Slot tables and class 0 (12 R347 to R349) -/

/-- The tile at which the circuit through a router's slot ends, entered by a port: slot + 1 on the next router of the die, slot + 25
across a Levee boundary. -/
def State.circuitEnd (s : State) : Nat → Nat → Nat → Nat → Option Nat
  | 0, _, _, _ => none
  | fuel + 1, t, port, slot =>
    let e := (s.tile t).slCur.get 0 slot
    if !slV e || slIn e != port || (s.tile t).contained then none
    else match joins t (slOut e) with
      | .own => some t
      | .router u => s.circuitEnd fuel u (facing (slOut e)) ((slot + (if dieOf u = dieOf t then 1 else 25)) % 256)
      | _ => none

/-- The tile that holds the consumer of an edge's granule: rank 0's of the consuming task (log 20). -/
def State.edgeTile (s : State) (g : EdgeGranule) : Option Nat :=
  (s.task (edgePeer (recEdge (s.record g.task) g.edge) % 2 ^ 20)).tiles.head?

/-- The slot by which a flit leaves the next router: one later, 25 later across a Levee boundary (12 R347, R349). -/
def nextSlotOf (t u slot : Nat) : Nat := (slot + (if dieOf u = dieOf t then 1 else 25)) % 256

/-- Class-0 flits that reach a contained unit are discarded and counted (20 R426). -/
def State.loseFlits (s : State) (d key n : Nat) : State := s.setDie d { s.die d with lost := (s.die d).lost.set 0 key ((s.die d).lost.get 0 key + n) }

/-- A class-0 flit leaves a router by a port in a slot: at t it has arrived, else it is at the next router's input, behind the configuration tokens that have
reached that (02 R51); a contained unit on its way discards it. -/
def State.forward (s : State) (t port slot : Nat) (g : EdgeGranule) : State :=
  match joins t port with
  | .own => s.post (.streamEdgeGranuleArrival g)
  | .router u =>
    let x := s.tile u
    if s.edgeShut t port then s.loseFlits (dieOf t) (port - 1) 1
    else if x.contained then s.loseFlits (dieOf u) (256 + u % 160) 1
    else (s.setTile u { x with link := x.link ++ [(facing port, nextSlotOf t u slot, { g with behind := x.behindOf (facing port) })] }).postSlots (dieOf u)
  | _ => s

/-- The flit at an input that a slot forwards: the first of its edge there that comes before the configuration tokens, if it has the slot. -/
def linkFlit (l : List (Nat × Nat × EdgeGranule)) (port slot : Nat) : Option Nat :=
  let like (f g : Nat × Nat × EdgeGranule) : Bool := f.1 == g.1 && f.2.2.task == g.2.2.task && f.2.2.edge == g.2.2.edge
  (List.range l.length).find? (fun i => match l[i]? with
    | some f => f.1 == port && f.2.1 == slot && f.2.2.behind == 0 && !(l.take i).any (like f)
    | none => false)

/-- The flit that a router forwards in a slot: at port t the first of its tile's granules whose consumer the circuit reaches, at another input the
first that has this slot; none behind a configuration token. A stopped domain's granules stay in it (15 R396). -/
def State.slotFlit (s : State) (t slot : Nat) : Option (Tile × EdgeGranule) :=
  let x := s.tile t
  let e := x.slCur.get 0 slot
  if !slV e || x.contained then none
  else if slIn e = 0 then
    if s.stoppedTile t || x.c0.isEmpty then none
    else match s.circuitEnd 256 t 0 slot with
      | none => none
      | some u => (x.c0.findIdx? (fun g => g.behind == 0 && s.edgeTile g == some u)).bind (fun i =>
        (x.c0[i]?).map (fun g => ({ x with c0 := x.c0.eraseIdx i }, g)))
  else (linkFlit x.link (slIn e) slot).bind (fun i => (x.link[i]?).map (fun f => ({ x with link := x.link.eraseIdx i }, f.2.2)))

/-- One slot of a router: the link of its OUT carries the flit of its IN (12 R348). -/
def State.slotTile (s : State) (t slot : Nat) : State :=
  match s.slotFlit t slot with
  | none => s
  | some (x, g) => (s.setTile t x).forward t (slOut ((s.tile t).slCur.get 0 slot)) slot g

/-- Granules of closed edges leave a tile at once: they are discarded where they arrive (23 R470). -/
def State.flushClosed (s : State) (t : Nat) : State :=
  let x := s.tile t
  let gone (g : EdgeGranule) : Bool := (s.task g.task).closed.get false g.edge
  let s := s.setTile t { x with c0 := x.c0.filter (fun g => !gone g) }
  (x.c0.filter gone).foldl (fun (s : State) g => s.post (.streamEdgeGranuleArrival g)) s

/-- The tiles of a die with class-0 flits to forward. -/
def State.slotTiles (s : State) (d : Nat) : List Nat :=
  (s.tiles.filter (fun e => dieOf e.1 == d && (!e.2.link.isEmpty || (!e.2.c0.isEmpty && !s.stoppedTile e.1)))).map (·.1)

/-- The first cycle of a die's slot counter, from the next one on, in which some router of it forwards a flit. -/
def State.nextSlot (s : State) (d : Nat) (ts : List Nat) : Option Nat :=
  ((List.range 256).find? (fun n => ts.any (fun t => (s.slotFlit t (((s.die d).slotAt + n) % 256)).isSome))).map (· + (s.die d).slotAt)

/-- SLOT_TABLE_CYCLE (12 R347, R348): the slot counter comes to the next slot in which a router of the die has a flit to forward, and every router
applies the entry that it names. Slots that have passed since the last one are caught up with, so that a flit finds the slot it was sent for. -/
def execSlotTableCycle (d : Nat) (s : State) : Host.Outcome State Fault Refusal :=
  let ts := s.slotTiles d
  let s := ts.foldl (fun s t => s.flushClosed t) s
  let s := match s.nextSlot d ts with
    | none => s.setDie d { s.die d with slotAt := max (s.die d).slotAt s.time }
    | some c => ts.foldl (fun s t => s.slotTile t (c % 256)) ({ s with time := max s.time c }.setDie d { s.die d with slotAt := c + 1 })
  .next (if (s.slotTiles d).isEmpty then s else s.postSlots d)

/-! ### A router takes on a load (02 R51) -/

/-- Some flit that reached a router before the configuration tokens is still to be forwarded by its current tables. -/
def State.oldFlits (s : State) (t : Nat) : Bool := (List.range 256).any (fun sl => (s.slotFlit t sl).isSome)

/-- The tokens of a load leave a router: what came behind them is behind them no more. -/
def Tile.pastTokens (x : Tile) (n : Nat) : Tile :=
  let on (port : Nat) (g : EdgeGranule) : EdgeGranule := if x.tokens.contains (n, port) then { g with behind := g.behind - 1 } else g
  { x with tokens := x.tokens.filter (fun k => k.1 != n), c0 := x.c0.map (on 0), link := x.link.map (fun f => (f.1, f.2.1, on f.1 f.2.2)) }

/-- CONFIG_WAVEFRONT_ARRIVAL (02 R51): once the token has come on every circuit of the old load, and the last flits before it have been forwarded,
the router takes on its next tables and sends the token on along its circuits; the records of the new load count from 0 (12 R358). Flits that the old
tables hold no circuit for do not delay it. -/
def execConfigWavefrontArrival (t n : Nat) (s : State) : Host.Outcome State Fault Refusal :=
  let x := s.tile t
  if x.load = n || x.contained then .next s
  else if !x.tokensIn n then .next s
  else if s.oldFlits t then .next (s.post (.configWavefrontArrival t n))
  else
    let next := s.downstream t
    let s := s.setTile t { x.pastTokens n with load := n, rtCur := x.rtNext, slCur := x.slNext, statRecs := [], cfgWait := none }
    let s := next.foldl (fun (s : State) u => s.giveToken u.1 u.2 n) s
    let s := match x.cfgWait with
      | some (a, r, id) => s.giveResult a r id 0
      | none => s
    .next (s.dieLoad t n)

/-! ### The memory port (12 R352) -/

/-- The stream with waiting requests that follows a number, wrapping. -/
def nextStream (w : SMap Nat) (last : Nat) : Option Nat :=
  ((w.find? (fun e => e.1 > last)).or w.head?).map (·.1)

/-- A grant to the stream that is next in order. -/
def Die.grantNext (x : Die) : Die :=
  match nextStream x.portWait x.portLast with
  | none => x
  | some k => { x with portWait := x.portWait.set 0 k (x.portWait.get 0 k - 1), portLast := k }

/-- MEMORY_PORT_GRANT (12 R352): three bursts are granted in a cycle, the first to the stream that the slot names if it waits. -/
def execMemoryPortGrant (d : Nat) (s : State) : Host.Outcome State Fault Refusal :=
  let x := s.die d
  let e := x.portCur.get 0 (s.time % 256)
  let k := bits e 7 0 * 8 + bits e 10 8
  let x := if e.getLsbD 15 && x.portWait.get 0 k != 0 then { x with portWait := x.portWait.set 0 k (x.portWait.get 0 k - 1) } else x.grantNext
  .next (s.setDie d x.grantNext.grantNext)

/-! ### Batches between dies (04 R105) -/

/-- LEVEE_BATCH_ARRIVAL (04 R105): a batch or clock notice is applied once it passes the clock test, and those behind it. -/
def execLeveeBatchArrival (d : Nat) (b : Batch) (s : State) : Host.Outcome State Fault Refusal := .next (s.takeBatch d b)

end Sys2Proof.Machine
end

