-- ==== Sys2Proof/Machine/Messages.lean ====
section
/-! DEFINITION. Active messages and reduce contributions (10_isa_engines.md R305 to R308, 12 R355, R360): the message ops, the awn queue
and the start of a handler. -/

namespace Sys2Proof.Machine

/-! ### The message ops (10 R306 to R308, 21 R445) -/

/-- A message leaves the executing agent for its launch (02 R55). -/
def State.countSent (s : State) : State := s.onLaunch (s.launchOf s.cur) (fun l => l.send (akey s.cur) 1)

/-- A packet op issues on path 4 and offers its packet to the tile's router; a handler waits while the router refuses it (12 R355). `counted` where its launch
counts it (02 R55). -/
def sendPacket (s : State) (counted : Bool) (kw : BitVec 3) (p : Packet) : Run State :=
  if s.cur.isAwn && !s.injectRoom s.cur.tile then .error (.wait (.structural .router) s)
  else .ok (((if counted then s.countSent else s).issueOp 4 kw .none).offer s.cur s.nextOp p)

/-- The header fields a sender fills: itself and its gang rank (12 R345); the packet is its launch's. -/
def State.header (s : State) (kind : Nat) : Packet :=
  { cls := 1, kind := kind, src := s.cur.tile, srcPkg := s.ua.pkg, pkg := s.ua.pkg, rank := (s.tile s.cur.tile).rank, launch := s.launchOf s.cur }

/-- A package that messages reach: this one, or an endpoint of the pod (14 R391). -/
def State.knownPkg (s : State) (p : Nat) : Bool := p == s.ua.pkg || s.ua.pod.contains p

/-- The payload of an op: none, or the bytes of a v register, which the awn core lacks (10 R306). -/
def payloadOf (s : State) (with_ : Bool) (r : BitVec 5) : Run State := do
  if !with_ then .ok s
  else do
    notAwn s
    useV s [r]

/-- A packet with its payload put in. -/
def withPayload (s : State) (with_ : Bool) (r : BitVec 5) (p : Packet) : Packet :=
  if with_ then { p with hasPayload := true, payload := s.rv r } else p

/-- `amsend` and `amsend.p` (10 R306). -/
def execAmsend (f : EX) (s : State) : Host.Outcome State Fault Refusal :=
  settle s (do
    useTok s (kwX f) (kpX f)
    let byRoute := parF f.par 16 16 == 1
    if flX f then notAwn s else .ok ()
    useS s (if byRoute then [f.rb] else [f.ra, f.rb])
    let s ← payloadOf s (flX f) f.rc
    let dest := bits (s.rs f.ra) 11 0
    let pkg := bits (s.rs f.ra) 21 12
    need (byRoute || (dest < 2560 && s.knownPkg pkg)) 6 0x8001 0 0
    if flX f then stripsOk s [f.rc] else .ok ()
    let p : Packet := { s.header 0 with dest := if byRoute then 0 else dest, pkg := if byRoute then s.ua.pkg else pkg, byRoute := byRoute,
                                        route := parF f.par 15 8, handler := parF f.par 7 0, arg := s.rs f.rb }
    sendPacket s true (kwX f) (withPayload s (flX f) f.rc p))

/-- `amreply` (10 R306): to the sender of the message being handled. With a payload it names a v register, which the awn core lacks. -/
def execAmreply (f : EX) (s : State) : Host.Outcome State Fault Refusal :=
  settle s (do
    useTok s (kwX f) (kpX f)
    need s.cur.isAwn 4 0x2002 (if s.cur.ctx = 0 then 2 else 1) 0
    if flX f then notAwn s else .ok ()
    useS s [f.rb]
    match (s.tile s.cur.tile).msg with
    | none => .ok s
    | some (m, _) =>
      let p : Packet := { s.header 0 with dest := m.src, pkg := m.srcPkg, handler := parF f.par 7 0, arg := s.rs f.rb }
      sendPacket s true (kwX f) p)

/-- Entry h of a tile's handler table; entries 240 to 255 hold what firmware installed until an op writes them (10 R305). -/
def State.handlerAt (s : State) (t h : Nat) : Word :=
  match (s.tile t).handlers.find h with
  | some w => w
  | none => if h < 240 then 0 else Config.firmwareHandler (dieOf t * 256 + h)

/-- `amhinst` (10 R307). -/
def execAmhinst (f : EX) (s : State) : Host.Outcome State Fault Refusal :=
  settle s (do
    let h := parF f.par 7 0
    need (h < 240 || s.handler) 4 0x2001 0 0
    useS s [f.ra]
    let w := s.rs f.ra
    let ts := match s.taskOf s.cur with
      | some k => if flX f then (s.task k).tiles else [s.cur.tile]
      | none => [s.cur.tile]
    let put (s : State) (t : Nat) : State :=
      let x := s.tile t
      s.setTile t { x with handlers := if h < 240 then x.handlers.set 0 h w else x.handlers.put h w }
    .ok ((ts.foldl put s).ws f.rc 0))

/-- The place of the error-feedback strip of a contribution: window C (12 R360). -/
def feedbackAddr (h : Word) : Word := 0x8400000000000000 + wd ((redColl h + redSeq h) % 4096 * 256)

/-- A contribution coded with its residuals: the packet, and the strip to write back with its poison; where a run cannot be coded the packet
is plain and the residuals are 0 (12 R360, log 24). -/
def codeContribution (p : Packet) (strip : List (Byte × Bool)) : Packet × List (Byte × Bool) :=
  match redFmt p.rtype with
  | none => (p, strip)
  | some f =>
    let w := redWidth p.rtype
    let n := redElems p.rtype
    let ev := BitVec.ofNat 2048 (leNat (strip.map (·.1)))
    let bad := strip.any (·.2)
    let pois : BitVec 8 := if bad then BitVec.allOnes 8 else 0
    let xs := (List.range n).map (fun i => f.decode (elem p.payload w i))
    let es := (List.range n).map (fun i => f.decode (elem ev w i))
    let back (r : List Nat) : List (Byte × Bool) :=
      (leBytes 256 (ofElems w (fun i => (r[i]?).getD 0)).toNat).map (fun b => (b, bad))
    match wireCode f xs es with
    | some (x, r) => ({ p with payload := BitVec.ofNat 2048 x, wire := true, pois := pois }, back r)
    | none => ({ p with pois := pois }, back [])

/-- `redsend` and `redsend.z` (10 R308, 12 R360). The write of the strip's residuals to window C leaves its full-empty bits as they are (DESIGN CHOICE,
log 25: the table of 03 R76 names no such write). -/
def execRedsend (f : EX) (s : State) : Host.Outcome State Fault Refusal :=
  settle s (do
    useTok s (kwX f) (kpX f)
    notAwn s
    useS s [f.ra]
    let s ← useV s [f.rc]
    let h := s.rs f.ra
    need (bits h 63 56 == 0) 6 0x7001 1 0
    let p : Packet := { s.header 1 with byRoute := true, route := parF f.par 7 0, rtype := parF f.par 9 8, hdr := h,
                                        hasPayload := true, payload := s.rv f.rc }
    if !flX f then do
      stripsOk s [f.rc]
      sendPacket s true (kwX f) p
    else do
      let a := feedbackAddr h
      let pl ← checkAll s s.who 1 false (cut a 256)
      stripsOk s [f.rc]
      reside s s.cur.tile pl a
      let ps := (cut a 256).zip pl
      let (s, bs) ← readAll s s.who .now false ps
      let (q, back) := codeContribution p bs
      let s := writeAll s s.who false false s.nextOp ps back
      sendPacket s true (kwX f) q)

/-! ### The awn queue (12 R355) -/

/-- The address of a payload slot of a tile (10 R305, log 11). -/
def slotAddr (t k : Nat) : Word := Config.payloadArea (dieOf t) + wd ((t % 160 * 16 + k) * 256)

/-- Line i of a payload is written at its home into its slot, poisoned with its flit (23 R477). -/
def State.putLine (t k : Nat) (v : VReg) (p : BitVec 8) (s : State) (i : Nat) : State :=
  let a := offset (slotAddr t k) + 32 * i
  match s.walk (Config.firmwareSpace (dieOf t)) a with
  | .ok l => if (l.refuse 2 true).isSome then s else s.leafWrite (dieOf t) l (l.pa a) ((leBytes 256 v.toNat).drop (32 * i) |>.take 32) (p.getLsbD i)
  | .error w => s.reportWalk w

/-- A payload is written into its slot (10 R305). -/
def State.putPayload (s : State) (t k : Nat) (v : VReg) (p : BitVec 8) : State := (List.range 8).foldl (State.putLine t k v p) s

/-- The poisoned 32-byte pieces of a payload laid out plainly: all where runs of a coded one, which lie across flits, are poisoned. -/
def plainPois (p : Packet) : BitVec 8 := if p.wire && p.pois != 0 then BitVec.allOnes 8 else p.pois

/-- AWN_MESSAGE_ARRIVAL (12 R355): a packet enters the awn queue, its payload a free slot, the lowest (log 20). -/
def execAwnMessageArrival (t : Nat) (p : Packet) (s : State) : Host.Outcome State Fault Refusal :=
  let x := s.tile t
  let slot := if p.hasPayload then (List.range 16).find? (fun k => !x.slots.get false k) else none
  if x.awnQ.length ≥ 16 || (p.hasPayload && slot.isNone) then .next (s.again (.awnMessageArrival t p))
  else
    let s := match slot with
      | some k => s.putPayload t k (plainPayload p) (plainPois p)
      | none => s
    .next ((s.setTile t { s.tile t with awnQ := x.awnQ ++ [(p, slot)],
                                        slots := match slot with
                                          | some k => x.slots.set false k true
                                          | none => x.slots }).post (.handlerStart t))

/-! ### Handlers (10 R305, 03 R487) -/

/-- s2 of a handler: sender, package, handler index, payload present. -/
def senderWord (p : Packet) : Word := wd (p.src % 4096 + p.srcPkg % 1024 * 2 ^ 12 + p.handler % 256 * 2 ^ 22 + b2n p.hasPayload * 2 ^ 30)

/-- The awn core with the registers of a new handler; every other register keeps its value. -/
def Ctx.enterHandler (c : Ctx) (t : Nat) (p : Packet) (slot : Option Nat) (pc : Word) : Ctx :=
  let s3 := match slot with
    | some k => slotAddr t k
    | none => 0
  { ((((c.putS 1 (if p.kind = 1 then p.hdr else p.arg)).putS 2 (senderWord p)).putS 3 s3).putS 4 p.hdr) with
    pc := pc, st := .ready }

/-- A message whose handler entry holds 0 (10 R305): its slot is freed and condition 13 written; it counts as received (log 20). -/
def State.dropMessage (s : State) (t : Nat) (p : Packet) (slot : Option Nat) : State :=
  let x := s.tile t
  let s := s.setTile t { x with slots := match slot with
    | some k => x.slots.del k
    | none => x.slots }
  let s := s.onLaunch p.launch (fun l => l.receive (akey ⟨t, 15⟩) 1)
  (s.report none { cls := 2, reach := 1, tile := t, detail :=
    [(64, 1, 13), (68, 2, t), (70, 1, p.handler), (71, 1, p.kind), (72, 2, p.src), (74, 2, p.srcPkg)] }).post (.handlerStart t)

/-- HANDLER_START (10 R305): the oldest message of the awn queue starts its handler once no other runs; a mailbox post is placed as it comes to the
head (12 R355, 10 R312). A handler's address space is fixed: the
firmware's for a handler that firmware installed or where the running slot is empty, else the running task's (03 R487). -/
def execHandlerStart (t : Nat) (s : State) : Host.Outcome State Fault Refusal :=
  let x := s.tile t
  if s.awnStopped t then .next s
  else match x.awnQ with
    | [] => .next s
    | (p, slot) :: q =>
      if p.kind = 4 then .next (((s.setTile t { x with awnQ := q }).post (.mailboxPostArrival t p)).post (.handlerStart t))
      else if x.msg.isSome then .next s else
      let s := s.setTile t { x with awnQ := q }
      let h := s.handlerAt t (p.handler % 256)
      if h = 0 then .next (s.dropMessage t p slot)
      else
        let space := if p.handler % 256 ≥ 240 || x.run.isNone then Config.firmwareSpace (dieOf t) else recRoot (s.runRec t)
        let s := s.setTile t { s.tile t with msg := some (p, slot), msgSpace := space, msgTask := x.run }
        let s := s.onLaunch p.launch (fun l => l.receive (akey ⟨t, 15⟩) 1)
        .next (s.setCtx ⟨t, 15⟩ ((s.ctx ⟨t, 15⟩).enterHandler t p slot (h &&& ~~~7)))

end Sys2Proof.Machine
end

