-- ==== Sys2Proof/Machine/Expert.lean ====
section
/-! DEFINITION. Expert routing (10_isa_engines.md R312 to R317, 13 R361 to R374): mailbox, steer, merge unit, capacity table. -/

namespace Sys2Proof.Machine

/-- A package tile that is a V-tile. -/
def isVTile (t : Nat) : Bool := t < 2560 && isV t

/-- Source registers must have their values before the tile they name is tested (06 R148). -/
def settled (s : State) (rs : List (BitVec 5)) : Run Unit :=
  if rs.any (fun r => s.src.pends r.toNat) then .error (.wait (.structural (.result (rs.map (·.toNat)))) s) else .ok ()

/-- The tests on a named V-tile (13 R361, 21 R445): an M-tile at step 4, a tile that does not exist at step 6. -/
def needVTile (t : Nat) : Run Unit := need (!(t < 2560 && !isV t)) 4 0x2002 3 0
def needTile (t : Nat) : Run Unit := need (t < 2560) 6 0x7001 1 0

/-- The tests of an op on the executing tile's own mailbox or merge unit. -/
def onVTile (s : State) : Run Unit := do
  notAwn s
  need (isV s.cur.tile) 4 0x2002 3 0

/-! ### The mailbox (10 R312, R313) -/

def Tile.slot (x : Tile) (k : Nat) : MbSlot := x.mbox.get {} k
def Tile.setSlot (x : Tile) (k : Nat) (m : MbSlot) : Tile := { x with mbox := x.mbox.set {} k m }

/-- The entry (p, i) stands before (q, j): higher priority, a NaN below every number, equal priorities by ascending expert index. -/
def before (a b : BitVec 32 × Nat) : Bool :=
  let x := f32.decode a.1.toNat
  let y := f32.decode b.1.toNat
  if x.isNan && y.isNan then decide (a.2 < b.2)
  else if x.isNan then false
  else if y.isNan then true
  else y.lt x || (!x.lt y && decide (a.2 < b.2))

/-- An entry put into its place. -/
def insertEntry (e : BitVec 32 × Nat) : List (BitVec 32 × Nat) → List (BitVec 32 × Nat)
  | [] => [e]
  | x :: xs => if before e x then e :: x :: xs else x :: insertEntry e xs

/-- `mbpost` (10 R312). -/
def execMbpost (f : EX) (s : State) : Host.Outcome State Fault Refusal :=
  settle s (do
    settled s [f.ra, f.rb, f.rc]
    let t := bits (s.rs f.ra) 11 0
    needVTile t
    useS s [f.ra, f.rb, f.rc]
    needTile t
    need (bits (s.rs f.rb) 63 48 == 0) 6 0x7001 2 0
    let p : Packet := { s.header 4 with poster := some s.cur, dest := t, arg := s.rs f.rb, handler := bits (s.rs f.ra) 19 12,
                                        payload := BitVec.ofNat 2048 (bits (s.rs f.rc) 31 0) }
    sendPacket s false 0 p)

/-- MAILBOX_POST_ARRIVAL (10 R312): the entry is placed and any beyond the depth dropped; the slot keeps the sequence number. -/
def execMailboxPostArrival (t : Nat) (p : Packet) (s : State) : Host.Outcome State Fault Refusal :=
  let k := p.handler % 256
  let m := (s.tile t).slot k
  let e : BitVec 32 × Nat := (p.arg.setWidth 32, bits p.arg 47 32)
  .next (s.setTile t ((s.tile t).setSlot k { m with entries := (insertEntry e m.entries).take m.depth, seq := p.payload.toNat % 2 ^ 32, src := p.src, posted := true }))

/-- `mbrd` (10 R313): the low eight bits of s[ra] name the slot. -/
def execMbrd (f : EX) (s : State) : Host.Outcome State Fault Refusal :=
  settle s (do
    onVTile s
    useS s [f.ra]
    let m := (s.tile s.cur.tile).slot (bits (s.rs f.ra) 7 0)
    let j := parF f.par 3 0
    let v := if j = 15 then wd (m.entries.length + m.seq * 2 ^ 32)
      else match m.entries[j]? with
        | some e => wd (e.1.toNat + e.2 * 2 ^ 32)
        | none => BitVec.allOnes 64
    .ok (s.ws f.rc v))

/-- A slot emptied by `mbclr` (10 R313). -/
def MbSlot.clear (m : MbSlot) (depth : Nat) (base : Word) (strips : Nat) : MbSlot :=
  { depth := depth, seq := m.seq, base := base, strips := strips }

/-- `mbclr` (10 R313, 21 R445). -/
def execMbclr (f : EX) (s : State) : Host.Outcome State Fault Refusal :=
  settle s (do
    onVTile s
    useS s [f.ra, f.rb]
    let k := (s.rs f.ra).toNat
    let base := s.rs f.rb
    let n := parF f.par 8 0
    need (k + n ≤ 256) 6 0x7001 1 0
    need (base.toNat % 256 == 0) 6 0x3002 8 base
    need (windowOf base == some 0 || windowOf base == some 4) 7 0x3003 0 base
    need (windowOf base != some 0 || offset base < windowPages true 0 * 2048) 7 0x3003 1 base
    let clr (x : Tile) (i : Nat) : Tile := x.setSlot (k + i) ((x.slot (k + i)).clear (parF f.par 12 9) base (parF f.par 20 13))
    .ok ((s.setTile s.cur.tile ((List.range n).foldl clr (s.tile s.cur.tile))).ws f.rc 0))

/-! ### Steer packets (10 R314) -/

/-- Fields of a steer header. -/
def stHome (h : Word) : Nat := bits h 27 16
def stSlot (h : Word) : Nat := bits h 35 28
def stEntry (h : Word) : Nat := bits h 38 36
def stStrip (h : Word) : Nat := bits h 46 39

/-- `steer`: outward by route class, to the handler of the last entry. -/
def execSteer (f : EX) (s : State) : Host.Outcome State Fault Refusal :=
  settle s (do
    useTok s (kwX f) (kpX f)
    notAwn s
    useS s [f.ra, f.rb]
    let s ← useV s [f.rc]
    let h := s.rs f.ra
    need (bits h 63 47 == 0) 6 0x7001 1 0
    stripsOk s [f.rc]
    let p : Packet := { s.header 2 with byRoute := true, route := parF f.par 7 0, arg := h, hdr := wd (bits (s.rs f.rb) 31 0),
                                        hasPayload := true, payload := s.rv f.rc }
    sendPacket s true (kwX f) p)

/-- `steer.ret`: straight to the merge unit of the home V-tile. -/
def execSteerRet (f : EX) (s : State) : Host.Outcome State Fault Refusal :=
  settle s (do
    useTok s (kwX f) (kpX f)
    notAwn s
    settled s [f.ra, f.rb]
    let h := s.rs f.ra
    needVTile (stHome h)
    useS s [f.ra, f.rb]
    let s ← useV s [f.rc]
    need (bits h 63 47 == 0) 6 0x7001 1 0
    stripsOk s [f.rc]
    let p : Packet := { s.header 3 with dest := stHome h, arg := h, hdr := wd (bits (s.rs f.rb) 31 0), hasPayload := true,
                                        payload := s.rv f.rc }
    sendPacket s false (kwX f) p)

/-! ### The merge unit (10 R315, 13 R370 to R372) -/

/-- The rows of a strip that have arrived. -/
def MbSlot.rowsOf (m : MbSlot) (e : Nat) : List (Nat × Nat × BitVec 32 × VReg × Bool) := m.rows.filter (fun r => r.2.1 == e)

/-- Element x of a merged strip: the exact weighted sum, rounded once, and its event. -/
def mergeElem (rs : List (Nat × Nat × BitVec 32 × VReg × Bool)) (x : Nat) : Nat × Option Nat :=
  let ts := rs.map (fun r => (f32.decode r.2.2.1.toNat).mul (f32.decode (elem r.2.2.2.1 32 x)))
  let ins := rs.flatMap (fun r => [f32.decode r.2.2.1.toNat, f32.decode (elem r.2.2.2.1 32 x)])
  f32.result ins (exactSum ts) 0 false

/-- A return strip is discarded: condition 3, every time (13 R371, 23 R476). -/
def State.dropStrip (s : State) (t slot j e : Nat) : State :=
  s.report none { cls := 2, reach := 1, tile := t, detail := [(64, 1, 3), (68, 2, t), (70, 1, slot), (71, 1, j), (72, 1, e)] }

/-- A merged strip written to its place through the merge unit's port, in the space of the tile's running task; one whose address fails
its checks is lost with an engine-fault record (log 25). The full-empty bits of window A stay as they are (DESIGN CHOICE, log 25: the table of
03 R76 names no merge unit). On an outbound page its granules leave over the stream edge (11 R334). The state, and whether the strip is through: it waits
while the tile's clock has stopped (15 R396), a page of it is being brought in, or an edge has no permit (11 R335). -/
def State.writeMerged (s : State) (t k e : Nat) (m : MbSlot) : State × Bool :=
  let rs := m.rowsOf e
  let out := (List.range 64).map (mergeElem rs)
  let pois := rs.any (fun r => r.2.2.2.2)
  let at_ := m.base + wd ((k * m.strips + e) * 256)
  let w : Who := ⟨⟨t, 15⟩, s.tileRoot t, false, true, 6, []⟩
  let lost (c : Trap) : State :=
    (s.reportTable c).report none { cls := 2, reach := 1, cause := c.cause, code := c.code, tile := t, addr := c.addr }
  if s.stoppedTile t then (s, false)
  else match checkAll s w 2 false (cut at_ 256) with
  | .error (.trap c) => (lost c, true)
  | .error (.wait _ _) => (s, false)
  | .ok pl =>
    match s.engineReside t pl at_ with
    | .error c => (lost c, true)
    | .ok (some s) => (s, false)
    | .ok none =>
      let ps := (cut at_ 256).zip pl
      let bs := (leBytes 256 (ofElems 32 (fun i => ((out[i]?).getD (0, none)).1)).toNat).map (fun b => (b, pois))
      match s.sendRest ⟨t, 15⟩ (m.sent.get 0 e) (placeGranules (((s.tile t).run).getD 0) ps bs) with
      | (s, n, some _) => (s.setTile t ((s.tile t).setSlot k { (s.tile t).slot k with sent := m.sent.set 0 e n }), false)
      | (s, _, none) =>
        let id := s.nextOp
        let s := (writeAll (s.openPart ⟨t, 14⟩ 4) w false false id ps bs).shutPart id
        let x := (s.tile t).countAll 0 (out.map (·.2))
        (s.setTile t ({ x with mergePort := portOf x.mergePort ps }.setSlot k
          { m with written := e :: m.written, writes := (e, id) :: m.writes, sent := m.sent.del e }), true)

/-- RETURN_STRIP_ARRIVAL (10 R315, 13 R371): a returned strip is kept; with one from each row the slot holds, the strip is merged. -/
def execReturnStripArrival (t : Nat) (p : Packet) (s : State) : Host.Outcome State Fault Refusal :=
  let k := stSlot p.arg
  let j := stEntry p.arg
  let e := stStrip p.arg
  let m := (s.tile t).slot k
  if j ≥ m.entries.length || e ≥ m.strips || m.rows.any (fun r => r.1 == j && r.2.1 == e) then .next (s.dropStrip t k j e)
  else
    let m := { m with rows := m.rows ++ [(j, e, p.hdr.setWidth 32, p.payload, p.pois != 0)] }
    if (m.rowsOf e).length < m.entries.length then .next (s.setTile t ((s.tile t).setSlot k m))
    else match s.writeMerged t k e m with
      | (s', true) => .next (if ((s'.tile t).slot k).written.contains e then s' else s'.setTile t ((s'.tile t).setSlot k m))
      | (s', false) => .next (s'.again (.returnStripArrival t p))

/-- Every strip of a slot is written, and performed at its home (13 R372). -/
def MbSlot.complete (m : MbSlot) (ops : SMap Op) : Bool :=
  m.strips != 0 && (List.range m.strips).all (fun e => m.written.contains e && !m.writes.any (fun w => w.1 == e && (ops.find w.2).isSome))

/-- A slot comes before another: by sequence number, then by the tile that posted (13 R362). -/
def MbSlot.before (m n : MbSlot) : Bool := decide (m.seq < n.seq) || (m.seq == n.seq && decide (m.src < n.src))

/-- The complete slot with the lowest sequence number not yet returned; none while a posted slot of a lower number is incomplete (10 R315). -/
def Tile.nextSlot (x : Tile) (ops : SMap Op) : Option (Nat × MbSlot) :=
  let ready := x.mbox.filter (fun e => e.2.complete ops && !e.2.returned)
  match ready.foldl (fun (b : Option (Nat × MbSlot)) e => match b with
      | some y => if e.2.before y.2 then some e else b
      | none => some e) none with
  | none => none
  | some y => if x.mbox.any (fun e => e.2.posted && !e.2.complete ops && e.2.before y.2) then none else some y

/-- `mgrd` (10 R315, 13 R372, 03 R88): a returned slot closes the merge unit's port. -/
def execMgrd (f : EX) (s : State) : Host.Outcome State Fault Refusal :=
  settle s (do
    onVTile s
    let t := s.cur.tile
    match (s.tile t).nextSlot s.ops with
    | none => .ok (s.ws f.rc 0)
    | some (k, m) =>
      let s := s.drlAppend (dieOf t) (s.tile t).mergePort (asidOf (s.tileRoot t)) 4 (s.slotTid t)
      let s := s.setTile t ({ s.tile t with mergePort := none }.setSlot k { m with returned := true })
      .ok (s.ws f.rc (wd (2 ^ 63 + m.seq * 2 ^ 8 + k))))

/-! ### The capacity table (10 R316, R317, 13 R367, R368) -/

def Tile.cap (x : Tile) (i : Nat) : CapEnt := x.caps.get {} i
def Tile.setCap (x : Tile) (i : Nat) (e : CapEnt) : Tile := { x with caps := x.caps.set {} i e }

/-- A V-tile answers a capacity request with a memory response, which goes through its router (13 R367). -/
def State.reply (s : State) (c : CapMsg) (v : Word) : State :=
  s.offer ⟨c.tile, 15⟩ c.op { cls := 1, kind := 9, src := c.tile, srcPkg := s.ua.pkg, pkg := s.ua.pkg, dest := c.issuer.tile, arg := v,
                              cap := some (3, { c with operand := v }) }

/-- The issue of a capacity request (13 R367): a memory request goes to the V-tile; the op is outstanding on path 4 until the response, and its
result register waits. -/
def capIssue (kind : Nat) (f : EX) (s : State) : Run State := do
  settled s [f.ra, f.rb]
  let t := bits (s.rs f.ra) 11 0
  needVTile t
  useS s (if kind = 1 then [f.ra] else [f.ra, f.rb])
  needTile t
  need (kind != 2 || bits (s.rs f.rb) 63 29 == 0) 6 0x7001 2 0
  let id := s.nextOp
  let m : CapMsg := { tile := t, entry := bits (s.rs f.ra) 19 12, operand := s.rs f.rb, issuer := s.cur, op := id }
  if s.cur.isAwn && !s.injectRoom s.cur.tile then .error (.wait (.structural .router) s)
  else
    let p : Packet := { s.header 8 with dest := t, arg := s.rs f.rb, cap := some (kind, m) }
    let s := s.issueOp 4 0 (.late f.rc.toNat 0)
    let s := { s.setMe (s.me.pendOn f.rc.toNat id) with ops := s.ops.put id { agent := s.cur, path := 4, kw := 0, dst := .late f.rc.toNat 0, need := 1 } }
    .ok (s.offer s.cur id p)

/-- `capclaim`. -/
def execCapclaim (f : EX) (s : State) : Host.Outcome State Fault Refusal := settle s (capIssue 0 f s)
/-- `capclaim.end`. -/
def execCapclaimEnd (f : EX) (s : State) : Host.Outcome State Fault Refusal := settle s (capIssue 1 f s)
/-- `capclaim.set`. -/
def execCapclaimSet (f : EX) (s : State) : Host.Outcome State Fault Refusal := settle s (capIssue 2 f s)

/-- A V-tile that is contained answers nothing: the request waits (23 R478). -/
def capWaits (c : CapMsg) (s : State) : Bool := (s.tile c.tile).contained

/-- CAPACITY_CLAIM_ARRIVAL (10 R317): denied once the round is decided or the count stands at C; held in ordered mode; else granted. -/
def execCapacityClaimArrival (c : CapMsg) (s : State) : Host.Outcome State Fault Refusal :=
  let e := (s.tile c.tile).cap c.entry
  let put (e : CapEnt) : State := s.setTile c.tile ((s.tile c.tile).setCap c.entry e)
  if capWaits c s then .next (s.again (.capacityClaimArrival c))
  else if e.decided || e.granted ≥ e.cap then .next (s.reply c (BitVec.allOnes 64))
  else if e.unordered then .next ((put { e with granted := e.granted + 1 }).reply c (wd e.granted))
  else .next (put { e with held := e.held ++ [⟨bits c.operand 31 0, c⟩] })

/-- A claim among the held ones by ascending sequence number, then by the issuer's tile (13 R362). -/
def insertClaim (c : Claim) : List Claim → List Claim
  | [] => [c]
  | x :: xs => if c.seq < x.seq || (c.seq = x.seq && c.msg.issuer.tile < x.msg.issuer.tile) then c :: x :: xs else x :: insertClaim c xs

/-- The held claims of a decided round answered: granted in order up to C, the rest denied. -/
def State.grantHeld (s : State) (cap : Nat) : Nat → List Claim → State
  | _, [] => s
  | n, c :: cs => if n < cap then (s.reply c.msg (wd n)).grantHeld cap (n + 1) cs
    else (s.reply c.msg (BitVec.allOnes 64)).grantHeld cap n cs

/-- CAPACITY_END_ARRIVAL (10 R317): with S ends the round is decided. -/
def execCapacityEndArrival (c : CapMsg) (s : State) : Host.Outcome State Fault Refusal :=
  if capWaits c s then .next (s.again (.capacityEndArrival c))
  else
    let e := (s.tile c.tile).cap c.entry
    let s := s.reply c 0
    let ends := e.ends + 1
    if e.decided || ends < e.srcs then .next (s.setTile c.tile ((s.tile c.tile).setCap c.entry { e with ends := ends }))
    else
      let cs := e.held.foldl (fun l x => insertClaim x l) []
      let s := s.setTile c.tile ((s.tile c.tile).setCap c.entry
        { e with ends := ends, decided := true, held := [], granted := min e.cap (e.granted + cs.length) })
      .next (s.grantHeld e.cap e.granted cs)

/-- CAPACITY_SET_ARRIVAL (10 R316): a new round, every count zero. -/
def execCapacitySetArrival (c : CapMsg) (s : State) : Host.Outcome State Fault Refusal :=
  if capWaits c s then .next (s.again (.capacitySetArrival c))
  else
    let e : CapEnt := { cap := bits c.operand 15 0, srcs := bits c.operand 27 16, unordered := c.operand.getLsbD 28 }
    .next ((s.setTile c.tile ((s.tile c.tile).setCap c.entry e)).reply c 0)

end Sys2Proof.Machine
end

