-- ==== Sys2Proof/Machine/Graph.lean ====
section
/-! DEFINITION. Task records, successors, decrements and the graph ops (07_isa_scalar_control.md R186 to R190, 11_dispatch_graphs.md
R318 to R326, R486). -/

namespace Sys2Proof.Machine

/-! ### The checks of a record (11 R322, R333, 02 R41) -/

/-- The reserved bits of doubleword n of a record. -/
def reservedBits (n : Nat) : Word :=
  if n = 0 then 0xFE00000000000007
  else if n = 1 then 0x000003F000FE0000
  else if n = 6 then 0xFE00000000000FE0
  else if n = 7 then 0x00000000F0000000
  else if 12 ≤ n && n ≤ 21 then (if n % 2 = 0 then 0x0E00000000000000 else 0xFFFFFFFFFC000000)
  else if n = 22 then 0x7FFFFFFFFFFF0000
  else if 24 ≤ n && n ≤ 27 then 0x4000000040000000
  else if 28 ≤ n then 0xF
  else 0

/-- The bytes of a record that hold a non-zero reserved bit. -/
def reservedAt (r : BitVec 2048) : List Nat :=
  (List.range 32).flatMap (fun n => (List.range 8).filterMap (fun b =>
    if ((recD r n &&& reservedBits n) >>> (8 * b)) &&& 0xFF = 0 then none else some (8 * n + b)))

/-- An offset where a condition holds. -/
def badIf (off : Nat) (b : Bool) : List Nat := if b then [off] else []

/-- Pages of a footprint in a physical bank. -/
def bankPages (v : Bool) (ps : List FootPage) (buf bank : Nat) : Nat :=
  (ps.filter (fun (p : FootPage) => p.win == buf && bankOfPage v buf p.page == bank)).length

/-- Fields of footprint descriptor i. -/
def fpUsed (r : BitVec 2048) (i : Nat) : Bool := recF r (12 + 2 * i) 63 63 == 1
def fpWin (r : BitVec 2048) (i : Nat) : Nat := recF r (12 + 2 * i) 62 61
def fpLo (r : BitVec 2048) (i : Nat) : Nat := recF r (13 + 2 * i) 12 0
def fpHi (r : BitVec 2048) (i : Nat) : Nat := fpLo r i + recF r (13 + 2 * i) 25 13

/-- The byte offsets at which a footprint is refused. -/
def footBad (r : BitVec 2048) : List Nat :=
  let v := recKindV r
  let one (i : Nat) : List Nat :=
    let o := 96 + 16 * i
    let src := recF r (12 + 2 * i) 56 0
    let zf := recF r (12 + 2 * i) 60 60 == 1
    badIf (o + 7) (fpWin r i == 3) ++
    (if !fpUsed r i then []
     else badIf o ((zf && src != 0) || (!zf && src % 2048 != 0)) ++
      badIf (o + 8) (fpWin r i < 3 && fpHi r i > windowPages v (fpWin r i)) ++
      badIf (o + 8) ((List.range i).any (fun j => fpUsed r j && fpWin r j == fpWin r i && fpLo r j < fpHi r i && fpLo r i < fpHi r j)))
  let full := (List.range 3).any (fun b => (List.range (banks v b)).any (fun k => bankPages v (recFoot r) b k ≥ framesPerBank v b))
  (List.range 5).flatMap one ++ badIf 96 full

/-- The byte offsets at which a record image is refused, its peers apart. -/
def recordBad (r : BitVec 2048) : List Nat :=
  let cr := recCrlog r
  reservedAt r ++ badIf 8 (recWork r > 65535) ++ badIf 13 (recPwsize r > 8) ++
    badIf 14 (recGw r < 1 || recGw r > 16 || recGh r < 1 || recGh r > (if recKindV r then 1 else 9)) ++
    badIf 15 (recState r > 10) ++ badIf 48 (cr != 0 && (cr < 6 || cr > 16)) ++ footBad r ++
    (List.range 4).flatMap (fun i => badIf (227 + 8 * i) (edgeWin (recEdge r i) == 1 || edgeWin (recEdge r i) == 3))

/-- The edges of record k, which is r, that the matching edge of their peer contradicts: the peer's record names k, and no such edge has the
other role with the same window and page count. -/
def State.edgeBad (s : State) (k : Nat) (r : BitVec 2048) : List Nat :=
  (List.range 4).flatMap (fun i =>
    let e := recEdge r i
    let q := s.record (edgePeer e % 2 ^ 20)
    let theirs := ((List.range 4).map (recEdge q)).filter (fun f => edgeV f && edgePeer f == s.tid k)
    let fits (f : Word) : Bool := edgeConsumes f != edgeConsumes e && edgeWin f == edgeWin e && edgePages f == edgePages e
    badIf (224 + 8 * i) (edgeV e && !theirs.isEmpty && !theirs.any fits))

/-- R322: the first byte of record image r, to stand in slot k, at which the dispatcher refuses it. -/
def State.refuses (s : State) (k : Nat) (r : BitVec 2048) : Option Nat := (recordBad r ++ s.edgeBad k r).min?

/-! ### Successors (11 R324, R486) -/

/-- The successor words of a record and of an overflow block. -/
def succWords (r : BitVec 2048) : List (BitVec 32) := (List.range 8).map (fun i => r.extractLsb' (1536 + 32 * i) 32)
def blockWords (b : BitVec 2048) : List (BitVec 32) := (List.range 62).map (fun i => b.extractLsb' (64 + 32 * i) 32)

/-- The next block of an overflow block: its slot or image index, where byte 2 marks it valid. -/
def blockNext (b : BitVec 2048) : Option Nat := if b.getLsbD 23 then some (recF b 0 15 0) else none

/-- OV and OVSLOT. -/
def recOv (r : BitVec 2048) : Option Nat := if recF r 22 63 63 = 1 then some (recF r 22 15 0) else none

/-- The slots of a chain of overflow blocks on a die. -/
def State.chain (s : State) (d : Nat) : Nat → Option Nat → List Nat
  | 0, _ => []
  | _, none => []
  | n + 1, some i => (d * 65536 + i) :: s.chain d n (blockNext (s.record (d * 65536 + i)))

/-- The overflow blocks of a record. -/
def State.blocksOf (s : State) (k : Nat) : List Nat := s.chain (k / 65536) 65536 (recOv (s.record k))

/-- The successors of a record in the order their decrements leave. -/
def State.successors (s : State) (k : Nat) : List Nat :=
  ((succWords (s.record k) ++ (s.blocksOf k).flatMap (fun b => blockWords (s.record b))).filter (fun w => w.getLsbD 31)).map
    (fun w => w.toNat % 2 ^ 30)

/-! ### Decrements and retirement of records (11 R324 to R326, R332) -/

/-- A decision of a die's dispatcher is due. -/
def State.wake (s : State) (d : Nat) : State := if s.agenda.contains (.dispatchDecision d) then s else s.post (.dispatchDecision d)

/-- The key under which a launch counts the messages of a die's dispatcher. -/
def dieKey (d : Nat) : Nat := 2 ^ 20 + d

/-- A decrement leaves: to a die of the package, or by UALink to another package's dispatcher (11 R325); the sender's launch counts it, one that
leaves the package as received too (02 R55; log 38). -/
def State.sendDec (s : State) (target sender : Nat) : State :=
  let id := (s.task sender).owner
  let s := s.onLaunch id (fun l => l.send (dieKey (sender / 65536)) 1)
  if target / 2 ^ 20 = s.ua.pkg then s.post (.decrementArrival target ⟨s.tid sender, id⟩)
  else ({ s with outbox := s.outbox ++
    [{ cls := 2, kind := 5, pkg := target / 2 ^ 20, srcPkg := s.ua.pkg, arg := wd (target + s.tid sender * 2 ^ 32) }] } : State).onLaunch id
      (fun l => l.receive (dieKey (sender / 65536)) 1)

/-- A task of a launch has retired. The launch's packet completes as its sweeps find it ended (02 R56, 14 R380; log 38), or at once where all its
records have retired without a tile (R380). -/
def State.launchLess (s : State) (k : Nat) : State :=
  match (s.task k).owner with
  | none => s
  | some id =>
    match s.launches.find id with
    | none => s
    | some l =>
      let rest := l.tasks.erase k
      let now := l.tasks.contains k && rest.isEmpty && l.homes.isEmpty
      let s := { s with launches := s.launches.put id { l with tasks := rest, ended := l.ended || now } }
      if now then s.post (.packetCompletion l.queue l.idx) else s

/-- The end of a record: STATE 8; with `send` EVDONE is signalled and the decrements leave (11 R332, R324); its slot and its overflow
blocks are freed in the same step (DESIGN CHOICE, log 51: the spec says when only for R326); its images belong to no task. -/
def State.retireRecord (s : State) (k : Nat) (send : Bool) : State :=
  let r := s.record k
  let blocks := s.blocksOf k
  let succs := s.successors k
  let s := s.setRecord k (setRecF r 1 63 60 8)
  let s := if send && recEvv r then (s.eventSig (recEvdone r) 1).1 else s
  let s := if send then succs.foldl (fun s t => s.sendDec t k) s else s
  let s := s.launchLess k
  let s := { s with images := s.images.map (fun (e : Nat × Image) => if e.2.task = k then (e.1, { e.2 with task := 2 ^ 40 }) else e) }
  (blocks.foldl (fun s b => s.freeSlot b) s).freeSlot k

/-- The counter of a Pending record is 0: it is Eligible, aged from now, with the priority its queue has taken meanwhile (02 R47); with work
count 0 it retires at once (11 R326). -/
def State.countZero (s : State) (k : Nat) : State :=
  let r := s.record k
  if recWork r = 0 then s.retireRecord k true
  else
    let x := s.task k
    let r := match x.newPrio with
      | some p => setRecF r 1 50 48 p
      | none => r
    ((s.setRecord k (setRecD (setRecF r 1 63 60 3) 23 (wd s.time))).setTask k { x with newPrio := none }).wake (k / 65536)

/-- A counter takes a value: of a Pending record that reaches 0, or of an Eligible one that leaves 0 (07 R188, R189). -/
def State.setCount (s : State) (k n : Nat) : State :=
  let r := s.record k
  let s' := s.setRecord k (setRecF r 1 35 24 n)
  if recState r = 2 && n = 0 then s'.countZero k
  else if recState r = 3 && n ≠ 0 then
    (s'.setRecord k (setRecD (setRecF (setRecF r 1 35 24 n) 1 63 60 2) 23 0)).setTask k { s'.task k with preempt := none }
  else s'

/-- DECREMENT_ARRIVAL (11 R325, 23 R471): a Pending record's counter loses 1; any other slot is reported as condition 1. -/
def execDecrementArrival (target : Nat) (sender : DecSender) (s : State) : Host.Outcome State Fault Refusal :=
  let k := target % 2 ^ 20
  let s := s.onLaunch sender.launch (fun l => l.receive (dieKey (k / 65536)) 1)
  let st := s.slotState k
  if st = 2 && recCnt (s.record k) ≠ 0 then .next (s.setCount k (recCnt (s.record k) - 1))
  else .next (s.report none { cls := 2, reach := 1, detail := [(64, 1, 1), (68, 4, sender.id), (72, 4, target), (76, 1, st)] })

/-! ### The graph ops (07 R186 to R190) -/

/-- The first value a rename table gives a handle (07 R187). -/
def renamed (es : List (Word × Word)) (h : Word) : Option Word := (es.find? (fun e => e.1 == h)).map (·.2)

/-- A successor word renamed: it takes the low 30 bits of the value, all that it can hold (DESIGN CHOICE, log 37: R187 states nothing of higher
ones). -/
def renameSucc (es : List (Word × Word)) (w : BitVec 32) : BitVec 32 :=
  if !w.getLsbD 31 then w
  else match renamed es (wd (2 ^ 63 + w.toNat % 2 ^ 30)) with
    | some v => BitVec.ofNat 32 (2 ^ 31 + v.toNat % 2 ^ 30)
    | none => w

/-- A footprint descriptor's first doubleword with its source replaced; a value beyond 57 bits cannot stand there and sets the reserved bits, for
which R322 refuses the record (log 20). -/
def putSource (d v : Word) : Word :=
  (d &&& 0xFE00000000000000) ||| (v &&& 0x01FFFFFFFFFFFFFF) ||| (if v >>> 57 = 0 then 0 else 0x0E00000000000000)

/-- A template renamed: footprint sources in use, arguments and successors. -/
def renameRecord (es : List (Word × Word)) (r : BitVec 2048) : BitVec 2048 :=
  let r1 := (List.range 5).foldl (fun a i =>
    if !fpUsed r i then a
    else match renamed es (wd (recF r (12 + 2 * i) 56 0)) with
      | some v => setRecD a (12 + 2 * i) (putSource (recD r (12 + 2 * i)) v)
      | none => a) r
  let r2 := (List.range 4).foldl (fun a i =>
    if (recD r (8 + i)).getLsbD 63 then a
    else match renamed es (recD r (8 + i)) with
      | some v => setRecD a (8 + i) v
      | none => a) r1
  (List.range 8).foldl (fun a i =>
    setRecF a (24 + i / 2) (32 * (i % 2) + 31) (32 * (i % 2)) (renameSucc es (r.extractLsb' (1536 + 32 * i) 32)).toNat) r2

/-- An overflow block renamed. -/
def renameBlock (es : List (Word × Word)) (b : BitVec 2048) : BitVec 2048 :=
  (List.range 62).foldl (fun a i =>
    setRecF a (1 + i / 2) (32 * (i % 2) + 31) (32 * (i % 2)) (renameSucc es (b.extractLsb' (64 + 32 * i) 32)).toNat) b

/-- Slots taken from the head of a die's free list, or none where it runs short. -/
def State.allocMany (s : State) (d : Nat) : Nat → Option (State × List Nat)
  | 0 => some (s, [])
  | n + 1 => (s.allocSlot d).bind (fun (s, k) => (s.allocMany d n).map (fun (s, ks) => (s, k :: ks)))

/-- The refusal form of `tspawn`. -/
def refusal (st : Nat) : Word := 0xFFFFFFFFFFFFFF00 ||| wd st

/-- The status 5 or 2 of an op on record k; 0 where it may act. -/
def State.graphStatus (s : State) (k asid : Nat) : Nat :=
  let st := s.slotState k
  if st = 0 || st ≥ 9 then 5 else if asidOf (recRoot (s.record k)) ≠ asid then 2 else 0

/-- The record that `tspawn` makes of a template, with its first overflow block in slot `b` (07 R187): Pending, its counter from the op, the queue its
issuer's task has, not aged. -/
def spawnRecord (g : GraphOp) (t : BitVec 2048) (b : Option Nat) : BitVec 2048 :=
  let r := setRecF (setRecF (setRecF (setRecF (setRecF (renameRecord g.renames t) 1 63 60 2) 1 35 24 g.amount) 7 27 27 (b2n g.qv)) 7 26 17 g.queue) 23 63 0 0
  match b with
  | none => r
  | some b => setRecF r 22 15 0 (b % 65536)

/-- The overflow blocks of a new task: renamed, in their slots, each naming the next one's slot (07 R187, 11 R486). -/
def State.putBlocks (s : State) (es : List (Word × Word)) (blocks : List (BitVec 2048)) (slots : List Nat) : State :=
  (blocks.zip slots).zipIdx.foldl (fun (s : State) p =>
    let b := renameBlock es p.1.1
    let b := match slots[p.2 + 1]? with
      | some n => setRecF b 0 15 0 (n % 65536)
      | none => b
    (s.setRecord p.1.2 b).setBlock p.1.2 9) s

/-- `tspawn` at the dispatcher (07 R187, 11 R323, R486): the new identifier, or the refusal form. -/
def State.spawn (s : State) (g : GraphOp) : State × Word :=
  let t := g.target % 2 ^ 20
  let st := s.graphStatus t g.asid
  if st ≠ 0 then (s, refusal st)
  else if s.slotState t ≠ 1 then (s, refusal 4)
  else
    let blocks := (s.blocksOf t).map s.record
    match s.allocMany g.die (blocks.length + 1) with
    | none => (s, refusal 1)
    | some (s', ks) =>
      let k := ks.headD 0
      let bs := ks.drop 1
      let r := spawnRecord g (s.record t) bs.head?
      if (s.refuses k r).isSome then (s, refusal 4)
      else
        let s' := ((s'.putBlocks g.renames blocks bs).setRecord k r).setTask k { owner := g.launch }
        (if g.amount = 0 then s'.countZero k else s', wd (s.tid k))

/-- A graph op at the dispatcher of its record: the result for its issuer (07 R187 to R190). -/
def State.applyGraph (s : State) (g : GraphOp) : State × Word :=
  let k := g.target % 2 ^ 20
  let r := s.record k
  if g.kind = 3 then s.spawn g
  else
    let st := s.graphStatus k g.asid
    if st ≠ 0 then (s, wd st)
    else if g.kind = 0 then
      if recState r ≠ 2 then (s, 4)
      else if g.amount > recCnt r then (s, 3) else (s.setCount k (recCnt r - g.amount), 0)
    else
      let n := if g.kind = 2 then recCnt r + g.amount else g.amount
      if recState r ≠ 2 && recState r ≠ 3 then (s, 4)
      else if n > 4095 then (s, 3) else (s.setCount k n, 0)

/-- GRAPH_OP_ARRIVAL (07 R190): the op is applied, and its issuer's result register written if it still waits for it. -/
def execGraphOpArrival (g : GraphOp) (s : State) : Host.Outcome State Fault Refusal :=
  let s := if g.kind = 0 then s.onLaunch g.launch (fun l => l.receive (dieKey (g.target % 2 ^ 20 / 65536)) 1) else s
  let (s, w) := s.applyGraph g
  .next (s.giveResult g.issuer g.rc.toNat g.op w)

/-- A graph op is for another package's dispatcher. -/
def graphAway (g : GraphOp) (pkg : Nat) : Bool := g.target / 2 ^ 20 != pkg && decide (g.target < 2 ^ 30)

/-- The fence with which a graph op begins (07 R186). -/
def graphFence (s : State) (g : GraphOp) : Run State := fence s 63 (if graphAway g s.ua.pkg then 4 else 3)

/-- The answer of another package's dispatcher: one of the codes of R186, or for `tspawn` a new identifier there; which is not fixed here (log 20). -/
def awayAnswer (kind pkg n : Nat) : Word :=
  if kind ≠ 3 then wd (n % 6)
  else if n % 2 = 0 then refusal (([1, 2, 4, 5] : List Nat).getD (n / 2 % 4) 5) else wd (pkg * 2 ^ 20 + n / 2 % 2 ^ 20)

/-- A graph op leaves its issuer, behind its fence: to a dispatcher of the package; an identifier that is none gives status 5; another package's
dispatcher answers by UALink. A launch counts a `tdec` as a decrement (02 R55). -/
def State.sendGraph (s : State) (f : EX) (g : GraphOp) : State :=
  let dec := b2n (g.kind == 0)
  if g.target ≥ 2 ^ 30 then s.ws f.rc (if g.kind = 3 then refusal 5 else 5)
  else if graphAway g s.ua.pkg then
    let p : Packet := { cls := 2, kind := 5, pkg := g.target / 2 ^ 20, srcPkg := s.ua.pkg, arg := wd (g.target + g.amount * 2 ^ 32) }
    (({ s with outbox := s.outbox ++ [p] } : State).onLaunch g.launch (fun l => (l.send (akey s.cur) dec).receive (akey s.cur) dec)).ws f.rc
      (awayAnswer g.kind p.pkg (Config.freePick s.fc))
  else ((s.onLaunch g.launch (fun l => l.send (akey s.cur) dec)).awaitResult f.rc).post (.graphOpArrival { g with op := s.nextOp })

/-- The graph op of a kind that the executing agent issues; its sender is the agent's task (11 R325). -/
def graphOp (s : State) (f : EX) (kind amount : Nat) : GraphOp :=
  { kind := kind, target := (s.rs f.ra).toNat, amount := amount, asid := asidOf (s.root s.cur), issuer := s.cur, rc := f.rc,
    queue := recQueue (s.runRec s.cur.tile), qv := recQv (s.runRec s.cur.tile), sender := s.slotTid s.cur.tile, launch := s.launchOf s.cur }

/-- `tdec`, `tsetc` and `tsetc.add`. -/
def graphCount (kind : Nat) (f : EX) (s : State) : Run State := do
  useS s [f.ra]
  let g := graphOp s f kind (parF f.par 11 0)
  let s ← graphFence s g
  .ok (s.sendGraph f g)

/-- `tdec` (R188). -/
def execTdec (f : EX) (s : State) : Host.Outcome State Fault Refusal := settle s (graphCount 0 f s)
/-- `tsetc` (R189). -/
def execTsetc (f : EX) (s : State) : Host.Outcome State Fault Refusal := settle s (graphCount 1 f s)
/-- `tsetc.add` (R189). -/
def execTsetcAdd (f : EX) (s : State) : Host.Outcome State Fault Refusal := settle s (graphCount 2 f s)

/-- `tspawn` (R187): behind its fence the rename table is read on path 0 at pkg scope; parameter bit 20 selects the die it names. -/
def execTspawn (f : EX) (s : State) : Host.Outcome State Fault Refusal :=
  settle s (do
    useS s [f.ra, f.rb]
    let n := f.fn9.toNat % 256
    let ps := cut (s.rs f.rb) (16 * n)
    let _ ← checkAll s s.who 1 false ps
    let s ← graphFence s (graphOp s f 3 0)
    let (s, bs) ← loadPieces s (s.view s.cur) 1 false false ps (s.rs f.rb)
    let at_ (o : Nat) : Word := wd (leNat (((bs.drop o).take 8).map (·.1)))
    let g := graphOp s f 3 (parF f.par 11 0)
    let die := if f.par.getLsbD 20 then parF f.par 19 16 else g.target / 65536 % 16
    .ok (s.sendGraph f { g with die := die, renames := (List.range n).map (fun i => (at_ (16 * i), at_ (16 * i + 8))) }))

end Sys2Proof.Machine
end

