-- ==== Sys2Proof/Machine/Dispatcher.lean ====
section
/-! DEFINITION. The dispatcher: priorities, candidate tiles, staging and its page fetches, displacement and pre-emption, entry to Running,
retirement, the energy account (02_execution_model.md R36 to R49, 11_dispatch_graphs.md R327 to R333, R339 to R342, R489). -/

namespace Sys2Proof.Machine

/-! ### Priority (02 R45, R46) -/

def recZstamp (r : BitVec 2048) : Nat := (recD r 23).toNat
def State.setRecState (s : State) (k st : Nat) : State := s.setRecord k (setRecF (s.record k) 1 63 60 st)

/-- The effective priority of a task; since it entered Running, the one it had then. -/
def State.effPrio (s : State) (k : Nat) : Nat :=
  let r := s.record k
  let p := recPrio r
  let i := 4096 * bits ((s.die (k / 65536)).cr 0x200) 15 0
  if recState r ≥ 6 then (s.task k).eff
  else if p ≥ 6 || i = 0 then p else min 6 (p + (s.time - recZstamp r) / i)

/-- Task a is dispatched before task b: higher effective priority, then the earlier ZSTAMP, then the lower slot. -/
def State.before (s : State) (a b : Nat) : Bool :=
  let pa := s.effPrio a
  let pb := s.effPrio b
  let za := recZstamp (s.record a)
  let zb := recZstamp (s.record b)
  pb < pa || (pa == pb && (za < zb || (za == zb && a < b)))

/-- The slots of a die whose records are in a state. -/
def State.recsIn (s : State) (d st : Nat) : List Nat :=
  (s.recs.map (·.1)).filter (fun k => k / 65536 == d && s.slotState k == st)

/-- A task put into a list in the order of dispatch. -/
def State.orderIn (s : State) (k : Nat) : List Nat → List Nat
  | [] => [k]
  | j :: js => if s.before k j then k :: j :: js else j :: s.orderIn k js

/-- The Eligible tasks of a die in the order of dispatch. -/
def State.eligible (s : State) (d : Nat) : List Nat := (s.recsIn d 3).foldl (fun l k => s.orderIn k l) []

/-! ### Candidates (02 R37, R41, 03 R73, 11 R327, R336, 20 R425, R426, 22 R456) -/

/-- The rectangles of a shape on a die, in the order of their origins, each in row-major order. -/
def rects (d : Nat) (v : Bool) (w h : Nat) : List (List Nat) :=
  let top := if v then 0 else 1
  let rows := if v then 1 else 9
  (List.range (rows + 1 - h)).flatMap (fun y => (List.range (17 - w)).map (fun x =>
    (List.range h).flatMap (fun j => (List.range w).map (fun i => d * 160 + (top + y + j) * 16 + x + i))))

/-- Pinned pages of a page table in a bank. -/
def pinsIn (v : Bool) (spt : SMap Word) (buf bank : Nat) : Nat :=
  (spt.filter (fun e => e.1 / 8192 == buf && pinned e.2 && bankOfPage v buf (e.1 % 8192) == bank)).length

/-- R73: beside the pins of a table, a footprint leaves every bank an unpinned frame. -/
def fitsBeside (v : Bool) (spt : SMap Word) (foot : List FootPage) : Bool :=
  (List.range 3).all (fun b => (List.range (banks v b)).all (fun k => pinsIn v spt b k + bankPages v foot b k < framesPerBank v b))

/-- The table a footprint pins, as pins. -/
def pinTable (foot : List FootPage) : SMap Word := foot.foldl (fun m (p : FootPage) => m.set 0 (pkey p.win p.page) (mkSpte 1 true false 0)) []

/-- No rule keeps every task from a tile: no fault record is held, the unit is not contained, no `bmig` names it as destination. -/
def State.tileFree (s : State) (t : Nat) : Bool :=
  !(s.tile t).frec0.getLsbD 63 && !(s.tile t).contained && (s.die (dieOf t)).contained.get 0 (16 + t % 160) == 0 &&
    !s.xfers.any (fun (x : Xfer) => x.kind == 4 && x.tile1 == t)

/-- The staged slot of a tile is empty, or (with `disp`) held by a task of lower effective priority than q. -/
def State.stagedOpen (s : State) (t q : Nat) (disp : Bool) : Bool :=
  match (s.tile t).staged with
  | none => true
  | some j => disp && s.effPrio j < q

/-- A tile would be a candidate once the running tasks of `left` have left their tiles (02 R48): a staged task that stays takes the running slot. -/
def State.opens (s : State) (t q : Nat) (foot : List FootPage) (left : List Nat) : Bool :=
  if s.stagedOpen t q true then true
  else match (s.tile t).staged with
    | none => true
    | some j =>
      (s.task j).tiles.all (fun u => (s.tile u).run.isNone || left.contains u) && fitsBeside (isV t) (pinTable (recFoot (s.record j))) foot

/-- A tile is a candidate for a task of effective priority q with a footprint. -/
def State.candidate (s : State) (q : Nat) (foot : List FootPage) (disp : Bool) (left taken : List Nat) (t : Nat) : Bool :=
  s.tileFree t && !taken.contains t &&
    (if left.contains t then s.opens t q foot left else s.stagedOpen t q disp && fitsBeside (isV t) (s.tile t).spt foot)

/-- The die's load and contained units admit a record (11 R336, 20 R426; log 20). -/
def State.loadOk (s : State) (d : Nat) (r : BitVec 2048) : Bool :=
  let x := s.die d
  let broken := !x.contained.isEmpty ||
    (List.range 160).any (fun l =>
      let t := s.tile (d * 160 + l)
      t.contained && (!t.rtCur.isEmpty || !t.slCur.isEmpty))
  recLoad r == 0 || (x.load == recLoad r && !broken)

/-- The tiles R327 chooses for a task: a rectangle of candidates, with empty running slots where there is one. -/
def State.choose (s : State) (k : Nat) (disp : Bool) (left taken : List Nat) : Option (List Nat) :=
  let r := s.record k
  let d := k / 65536
  if !s.loadOk d r then none
  else
    let foot := recFoot r
    let q := s.effPrio k
    let ok := (rects d (recKindV r) (recGw r) (recGh r)).filter (fun ts => ts.all (s.candidate q foot disp left taken))
    (ok.find? (fun ts => ts.all (fun t => (s.tile t).run.isNone))).or ok.head?

/-! ### Stream groups (11 R333) -/

/-- The tasks at the other ends of a record's edges. -/
def State.peersOf (s : State) (k : Nat) : List Nat :=
  (List.range 4).filterMap (fun i =>
    let e := recEdge (s.record k) i
    if edgeV e && s.slotState (edgePeer e % 2 ^ 20) != 0 then some (edgePeer e % 2 ^ 20) else none)

/-- Everything reached by edges from a list of tasks. -/
def State.reachEdges (s : State) : Nat → List Nat → List Nat → List Nat
  | 0, _, done => done
  | _, [], done => done
  | n + 1, k :: todo, done =>
    if done.contains k then s.reachEdges n todo done else s.reachEdges n (todo ++ s.peersOf k) (done ++ [k])

/-- The stream group of a task: at most 16 records, so at most 64 edges. -/
def State.streamGroup (s : State) (k : Nat) : List Nat := s.reachEdges 81 [k] []

/-- Tiles for every member of a group, one after another; only one that fits no free staged slot may displace (02 R45). -/
def State.placeGroup (s : State) (disp : Bool) : List Nat → List Nat → Option (List (Nat × List Nat))
  | [], _ => some []
  | k :: ks, taken =>
    match (s.choose k false [] taken).or (if disp then s.choose k true [] taken else none) with
    | none => none
    | some ts => (s.placeGroup disp ks (taken ++ ts)).map (fun l => (k, ts) :: l)

/-! ### Frames and page fetches of staging (11 R328 to R331, 03 R70, R74) -/

/-- A page of the staged task is filled: LOC 1 and PIN 1, and the place it came from is kept. -/
def State.fillStaged (s : State) (t key frame : Nat) (p : Page) (home : Word) : State :=
  let x := s.tile t
  s.setTile t { x.setFrame (key / 8192) frame p with sptS := x.sptS.set 0 key (mkSpte 1 true false frame), homeS := x.homeS.set 0 key home }

/-- A fetch request joins an unstarted one of the same identifier and source page with fewer than 8 destinations, or is queued. -/
def Die.enqueue (x : Die) (root : Word) (src : Nat) (d : FetchDst) (now : Nat) : Die :=
  let joins (f : Fetch) : Bool := f.started.isNone && asidOf f.root == asidOf root && f.src == src && f.dsts.length < 8
  match x.fetchQ.findIdx? joins with
  | some i => { x with fetchQ := x.fetchQ.modify i (fun f => { f with dsts := f.dsts ++ [d] }) }
  | none => { x with fetchQ := x.fetchQ ++ [{ root := root, src := src, dsts := [d], queued := now }] }

/-- A page of a staged task is filled, or its fetch queued. -/
def State.pageMet (s : State) (t : Nat) (p : FootPage) : Bool :=
  let key := pkey p.win p.page
  loc ((s.tile t).sptS.get 0 key) == 1 ||
    (s.die (dieOf t)).fetchQ.any (fun f => f.dsts.any (fun d => d.tile == t && d.key == key && !d.gone))

/-- A page that has no frame yet takes one: a zero-fill page is filled, another is fetched. Without a frame it waits (11 R489). -/
def State.placePage (s : State) (k t : Nat) (p : FootPage) : State :=
  if s.pageMet t p then s
  else match s.takeFrame t p.win (bankOfPage (isV t) p.win p.page) with
    | none => s
    | some (s, f) =>
      let key := pkey p.win p.page
      if p.zf then s.fillStaged t key f (if (s.badKeys k).contains key then (({} : Page).fillPoison).1 else {}) 0
      else s.setDie (dieOf t) ((s.die (dieOf t)).enqueue (recRoot (s.record k)) p.src { task := k, tile := t, key := key, frame := f } s.time)

/-- The pages of a Staging task that wait for frames take them. -/
def State.placePages (s : State) (k : Nat) : State :=
  (recFoot (s.record k)).foldl (fun s p => (s.task k).tiles.foldl (fun s t => s.placePage k t p) s) s

/-- A fetch or a page waits on a die. -/
def State.fetchDue (s : State) (d : Nat) : Bool :=
  (s.die d).fetchQ.any (fun f => f.started.isNone) ||
    (s.recsIn d 4).any (fun k => (recFoot (s.record k)).any (fun p => (s.task k).tiles.any (fun t => !s.pageMet t p)))

/-- The next fetch of a die is due. -/
def State.wakeFetch (s : State) (d : Nat) : State :=
  if s.fetchDue d && !s.agenda.contains (.footprintFetchStart d) then s.post (.footprintFetchStart d) else s

/-- A Staging task whose whole footprint is filled on every rank is Runnable (11 R328). -/
def State.checkRunnable (s : State) (k : Nat) : State :=
  let filled (t : Nat) : Bool := (recFoot (s.record k)).all (fun p => loc ((s.tile t).sptS.get 0 (pkey p.win p.page)) == 1)
  if s.slotState k = 4 && (s.task k).tiles.all filled then
    (s.setRecState k 5).post (.taskEnterRunning ((s.task k).tiles.headD 0))
  else s

/-- The staging of a task stops, with the hold of its snapshot: fetches not started are abandoned, started ones fill frames that are then freed, the staged slots and the
frames are free, the estimate is credited (11 R331, R489). -/
def State.unstage (s : State) (k : Nat) : State :=
  let cut (f : Fetch) : Fetch :=
    if f.started.isNone then { f with dsts := f.dsts.filter (fun d => d.task != k) }
    else { f with dsts := f.dsts.map (fun (d : FetchDst) => if d.task == k then { d with gone := true } else d) }
  let x := s.die (k / 65536)
  let s := s.setDie (k / 65536) { x with fetchQ := (x.fetchQ.map cut).filter (fun f => !f.dsts.isEmpty) }
  let s := (s.task k).tiles.foldl (fun (s : State) t => s.setTile t { s.tile t with staged := none, stagedRank := 0, sptS := [], homeS := [], makersS := [] }) s
  { s.setTask k { s.task k with tiles := [] } with budget := s.budget + recEest (s.record k), holds := s.holds.del (taskHoldKey k) }

/-- Displacement (02 R45): back to Eligible with its age. -/
def State.displace (s : State) (k : Nat) : State := (s.unstage k).setRecState k 3

/-- A fetch fault (11 R489): Frozen, faulted, with no image and no tile; the die reports it. -/
def State.fetchFault (s : State) (k : Nat) (cause : BitVec 16) (code : BitVec 10) (src : Nat) : State :=
  let s := (s.unstage k).setRecState k 7
  (s.setTask k { s.task k with faulted := true }).reportTask k { cls := 1, reach := 2, cause := cause, code := code, addr := wd src }

/-- Staging (02 R37, R45, 11 R327, R328, R340): displaced tasks give way, the estimate is debited, the slots are taken. -/
def State.stage (s : State) (k : Nat) (ts : List Nat) : State :=
  let s := ((ts.filterMap (fun t => (s.tile t).staged)).dedup).foldl (fun s j => s.displace j) s
  let s := s.setRecState k 4
  let s := { s.setTask k { s.task k with tiles := ts, preempt := none } with budget := s.budget - recEest (s.record k) }
  let s := ts.zipIdx.foldl (fun (s : State) p =>
    s.setTile p.1 { s.tile p.1 with staged := some k, stagedRank := p.2, sptS := [], homeS := [], makersS := [] }) s
  (((s.placePages k).wakeFetch (k / 65536)).checkRunnable k)

/-! ### Decisions (02 R45, R48, 11 R327, R333, R340) -/

/-- What a task still owes of its estimate; its restore debits it again (15 R403, 11 R341). -/
def State.restoreCost (s : State) (k : Nat) : Nat := recEest (s.record k) - (s.task k).energy

/-- B covers an amount, or stands at the cap (11 R340). -/
def State.admits (s : State) (amount : Nat) : Bool := decide (s.budget ≥ amount) || decide (s.budget ≥ 10000 * s.power)

/-- The estimates that displacing the staged tasks of some tiles credits. -/
def State.credits (s : State) (ts : List Nat) : Nat :=
  (((ts.filterMap (fun t => (s.tile t).staged)).dedup).map (fun j => recEest (s.record j))).sum

/-- What a decision does for one Eligible task: its group staged, if every member is Eligible and has tiles and the budget covers them. -/
def State.tryStage (s : State) (k : Nat) (disp : Bool) : Option State :=
  let g := s.streamGroup k
  if !g.all (fun j => s.slotState j == 3) then none
  else match s.placeGroup disp g [] with
    | none => none
    | some l =>
      let cost := (g.map (fun j => recEest (s.record j))).sum
      let s' := { s with budget := s.budget + s.credits (l.flatMap (fun (p : Nat × List Nat) => p.2)) }
      if s'.admits cost then some (l.foldl (fun (s : State) (p : Nat × List Nat) => s.stage p.1 p.2) s) else none

/-- The Running task against which an Eligible task without a candidate raises its request (02 R48). -/
def State.target (s : State) (k : Nat) : Option Nat :=
  let r := s.record k
  let q := s.effPrio k
  let fits (j : Nat) : Bool := recKindV (s.record j) == recKindV r && s.effPrio j < q &&
    (s.choose k true (s.task j).tiles []).isSome
  let low (a b : Nat) : Bool := s.effPrio a < s.effPrio b || (s.effPrio a == s.effPrio b && ((s.task a).tiles.min?).getD 0 < ((s.task b).tiles.min?).getD 0)
  (s.recsIn (k / 65536) 6).foldl (fun best j => if !fits j then best else match best with
    | none => some j
    | some b => if low j b then some j else some b) none

/-- A pre-emption request is raised, moved or withdrawn. -/
def State.request (s : State) (k : Nat) : State :=
  let j := if (s.choose k true [] []).isSome then none else s.target k
  let s := s.setTask k { s.task k with preempt := j }
  match j with
  | some j => if s.agenda.contains (.watchdogExpiry j) then s else s.post (.watchdogExpiry j)
  | none => s

/-- The first of the Eligible tasks that can be staged is, by displacement where it fits no free staged slot, before a lower one that fits one
(DESIGN CHOICE, log 20: 02 R45 orders neither). -/
def State.stageFirst (s : State) : List Nat → Option State
  | [] => none
  | k :: ks =>
    match s.tryStage k false with
    | some s => some s
    | none =>
      match s.tryStage k true with
      | some s => some s
      | none => s.stageFirst ks

/-- Base priorities that queues have given take effect for the Eligible tasks of a die (02 R47). -/
def State.takePrios (s : State) (d : Nat) : State :=
  (s.recsIn d 3).foldl (fun s k => match (s.task k).newPrio with
    | some p => (s.setRecord k (setRecF (s.record k) 1 50 48 p)).setTask k { s.task k with newPrio := none }
    | none => s) s

/-- DISPATCH_DECISION: one staging decision of a die, none while the package is quiesced (14 R392). -/
def execDispatchDecision (d : Nat) (s : State) : Host.Outcome State Fault Refusal :=
  if s.owner.quiesced then .next s
  else
    let s := s.takePrios d
    let s := match s.stageFirst (s.eligible d) with
      | some s => s
      | none => s
    let s := (s.eligible d).foldl (fun s k => s.request k) s
    .next (if (s.recsIn d 3).isEmpty then s else s.wake d)

/-! ### Fetches (11 R329, R330, R489, 22 R449) -/

/-- A fetch of a die is abandoned with a fault that every task it serves meets. -/
def State.failFetch (s : State) (d i : Nat) (f : Fetch) (cause : BitVec 16) (code : BitVec 10) (table : Option Nat) : State :=
  let x := s.die d
  let s := s.setDie d { x with fetchQ := x.fetchQ.eraseIdx i }
  let s := match table with
    | some a => s.report none { cls := 4, reach := 1, cause := cause, code := code, addr := wd a }
    | none => s
  ((f.dsts.filter (fun d => !d.gone)).map (·.task)).dedup.foldl (fun s k => s.fetchFault k cause code f.src) s

/-- The TLBs of a fetch: those of its first destination's cluster (03 R85). -/
def Fetch.tlb (f : Fetch) : TlbUse := .engine ((f.dsts.head?.map (·.tile)).getD 0)

/-- The translation and RD of a fetch's source. -/
def State.fetchLeaf (s : State) (f : Fetch) : Except (BitVec 16 × BitVec 10 × Option Nat) Leaf :=
  match s.translate f.tlb f.root f.src with
  | .error e => .error (0x3005, e.code, e.table)
  | .ok l =>
    match l.refuse 1 true with
    | some c => .error (0x3006, c, none)
    | none => .ok l

/-- A fetch that starts in this cycle would be late enough: none is started and unwritten, and it was queued, and the one before it written, in an
earlier cycle (16 R410). -/
def State.mayFetch (s : State) (d : Nat) (f : Fetch) : Bool := !(s.die d).fetchQ.any (fun g => g.started.isSome) && decide (f.queued < s.time)

/-- The fetches of a die that have not started may start in the cycle after this one (16 R410). -/
def State.fetchWritten (s : State) (d : Nat) : State :=
  s.setDie d { s.die d with fetchQ := (s.die d).fetchQ.map (fun f => { f with queued := max f.queued s.time }) }

/-- FOOTPRINT_FETCH_START: pages that waited for frames take them, and the first fetch not started starts once it may. -/
def execFootprintFetchStart (d : Nat) (s : State) : Host.Outcome State Fault Refusal :=
  let s := (s.recsIn d 4).foldl (fun s k => (s.placePages k).checkRunnable k) s
  let x := s.die d
  match x.fetchQ.findIdx? (fun f => f.started.isNone) with
  | none => .next (s.wakeFetch d)
  | some i =>
    match x.fetchQ[i]? with
    | none => .next s
    | some f =>
      if !s.mayFetch d f then .next (s.wakeFetch d)
      else match s.fetchLeaf f with
      | .error (cause, code, table) => .next ((s.failFetch d i f cause code table).wakeFetch d)
      | .ok l =>
        let s := (s.noteTlb f.tlb f.root f.src l).setDie d { x with fetchQ := x.fetchQ.modify i (fun f => { f with started := some l }) }
        .next ((s.post (.footprintFetchComplete d)).wakeFetch d)

/-- The leaf that a started fetch reads through: the one it started with, or a new one where a TLBINV has removed that (11 R489). -/
def State.keptLeaf (s : State) (f : Fetch) : Except (BitVec 16 × BitVec 10 × Option Nat) Leaf :=
  match f.started with
  | some l => if f.cut then s.fetchLeaf f else .ok l
  | none => s.fetchLeaf f

/-- FOOTPRINT_FETCH_COMPLETE: the page is read once and written to every destination; a line that the overflow handler or a commit holds keeps it
waiting (04 R108, R121). -/
def execFootprintFetchComplete (d : Nat) (s : State) : Host.Outcome State Fault Refusal :=
  let x := s.die d
  match x.fetchQ.findIdx? (fun f => f.started.isSome) with
  | none => .next s
  | some i =>
    match x.fetchQ[i]? with
    | none => .next s
    | some f =>
      match s.keptLeaf f with
      | .error (cause, code, table) => .next ((s.failFetch d i f cause code table).wakeFetch d)
      | .ok l =>
        match s.unitLines d .now l (wd f.src) 64 (l.pa f.src) with
        | .error (.wait _ s) => .next (s.post (.footprintFetchComplete d))
        | .error (.trap _) => .next s
        | .ok (s, bs) =>
          let s := s.setDie d { s.die d with fetchQ := (s.die d).fetchQ.eraseIdx i }
          let home := mkSpte 3 false false (f.src / 2048)
          let live := f.dsts.filter (fun d => !d.gone)
          let s := live.foldl (fun (s : State) y => s.fillStaged y.tile y.key y.frame (Page.ofBytes bs) home) s
          .next (((live.map (·.task)).dedup.foldl (fun s k => s.checkRunnable k) (s.fetchWritten d)).wakeFetch d)

/-! ### Entry to Running (11 R332, 02 R37, R43, 04 R118) -/

/-- Context 0 as the task starts. -/
def startCtx (r : BitVec 2048) : Ctx :=
  let c : Ctx := { st := .ready, pc := wd (recF r 0 56 3 * 8) }
  let c := (List.range 4).foldl (fun (c : Ctx) i => c.putS (1 + i) (recD r (8 + i))) c
  c.putS 30 (0x9000000000000000 + wd (areaSize r))

/-- The contexts of a tile's control core are cleared. -/
def State.clearCtxs (s : State) (t : Nat) : State := (List.range 11).foldl (fun (s : State) c => s.setCtx ⟨t, c⟩ {}) s

/-- A rank of a task of a launch stands on a tile, or on none (02 R55). -/
def State.moveHome (s : State) (k rank : Nat) (t : Option Nat) : State :=
  let key := (s.task k).serial * 256 + rank
  s.onLaunch (s.task k).owner (fun l => { l with homes := match t with
    | some t => l.homes.put key t
    | none => l.homes.del key })

/-- The program image goes to every tile of a task (02 R42 step 1): the line at KADDR, read once, into each instruction cache. The rest of the
image, whose extent no rule gives, follows on demand (DESIGN CHOICE, log 13). -/
def State.multicast (s : State) (k : Nat) : State :=
  let r := s.record k
  let va := recF r 0 56 3 * 8
  match s.walk (recRoot r) va with
  | .error _ => s
  | .ok l =>
    let pa := l.pa va / 32 * 32
    if (l.refuse 4 false).isSome || l.nc then s
    else match s.unitRead (k / 65536) .now l pa 32 (wd va) with
      | .error (.wait _ s) => s
      | .error (.trap _) => s
      | .ok (s, bs) =>
        if bs.any (·.2) then s
        else (s.task k).tiles.foldl (fun (s : State) t => s.putI t pa (BitVec.ofNat 256 (leNat (bs.map (·.1))))) s

/-- A rank starts on its tile: the staged slot becomes the running slot, whole (03 R68). Stale clean copies of remote lines are dropped, so that it
observes what its predecessors wrote (02 R40). -/
def State.startRank (s : State) (k t : Nat) : State :=
  let s := (s.podAcquire t).updateEnergy t
  let x := s.tile t
  let s := s.moveHome k x.stagedRank (some t)
  let s := s.setTile t { x with run := some k, staged := none, makers := x.makersS, makersS := [], rank := x.stagedRank, stagedRank := 0, spt := x.sptS, sptS := [], home := x.homeS, homeS := [],
                                lru := [], pageIns := [], outs := none, bfmt := [], mq := [], stats := [], energyRun := 0, frz := none }
  let s := (s.clearCtxs t).setCtx ⟨t, 0⟩ (startCtx (s.record k))
  if s.agenda.contains (.energyCounterUpdate t) then s else s.post (.energyCounterUpdate t)

/-- TASK_ENTER_RUNNING: a Runnable task whose every tile has an empty running slot starts, all ranks together. A snapshot task takes its
stamp once its hold is acknowledged (04 R114), and waits while 1,024 are live (R117; log 20). -/
def execTaskEnterRunning (t : Nat) (s : State) : Host.Outcome State Fault Refusal :=
  match (s.tile t).staged with
  | none => .next s
  | some k =>
    let x := s.task k
    if s.slotState k ≠ 5 || s.owner.quiesced || x.tiles.any (fun u => (s.tile u).run.isSome || (s.tile u).staged != some k) then .next s
    else
      let go (s : State) (st : Option Nat) : State :=
        let s := s.setTask k { s.task k with bad := [], clocked := [], started := s.time, eff := s.effPrio k, nextQ := 0, qStat := [], units := [], arrived := [],
                                             retired := [], stamp := st, serial := s.nextOp }
        (x.tiles.foldl (fun (s : State) u => s.startRank k u) ({ s.multicast k with nextOp := s.nextOp + 1 }.setRecState k 6)).wake (k / 65536)
      if recSnap (s.record k) then match s.snapStep (taskHoldKey k) (.task k) with
        | (s, some (some st)) => .next (go s (some st))
        | (s, _) => .next (s.post (.taskEnterRunning t))
      else .next (go s none)

/-! ### Leaving a tile -/

/-- The polder slots that a page table holds or keeps are freed (03 R71). -/
def State.freePolder (s : State) (d : Nat) (spt home : SMap Word) : State :=
  ((spt ++ home).filter (fun e => loc e.2 == 2)).foldl (fun (s : State) e => s.setDie d ((s.die d).dropSlot (place e.2))) s

/-- The running slot of a tile empties: its contexts are free, its table is discarded, a staged task may start. -/
def State.vacate (s : State) (t : Nat) : State :=
  let x := s.tile t
  let mine := s.usedFrames t
  let s := (s.clearCtxs t).setTile t { x with run := none, rank := 0, spt := [], home := [], lru := [], makers := [], pageIns := [], outs := none, mq := [], unseen := [] }
  let keep (e : Nat × Page) : Bool := (s.usedFrames t (e.1 / 2048)).contains (e.1 % 2048) || !(mine (e.1 / 2048)).contains (e.1 % 2048)
  let s := s.setTile t { s.tile t with frames := (s.tile t).frames.filter keep }
  (s.post (.taskEnterRunning t)).wake (dieOf t)

/-! ### Retirement (02 R39, 11 R332, R341) -/

/-- Work of a tile's running task that retirement waits for: outstanding ops, matrix ops, transfers, strips, granules on their way. -/
def State.unsettled (s : State) (t k : Nat) : Bool :=
  s.ops.any (fun o => o.2.agent.tile == t && o.2.agent.ctx != 15) || !(s.tile t).mq.isEmpty ||
    s.xfers.any (fun (x : Xfer) => x.kind != 5 && x.agent.tile == t && x.task == k) ||
    (List.range 11).any (fun c => (s.ctx ⟨t, c⟩).binds.any (fun b => b.2.out && !b.2.queue.isEmpty)) ||
    (s.tile t).c0.any (fun g => g.task == k) || !(s.tile t).pageIns.isEmpty || (List.range 11).any (fun c => s.postsBusy ⟨t, c⟩ 4) ||
    s.agenda.any (fun i => match i with
      | .streamEdgeGranuleArrival g => g.task == k
      | .graphOpArrival g => g.issuer.tile == t && g.issuer.ctx != 15
      | _ => false)

/-- Steps 2 to 4 of R39 for one rank: ports and bindings close, counts are emitted, transactions end, helpers are free. -/
def State.closeRank (s : State) (t : Nat) : State :=
  let agents := (List.range 11).map (fun c => (⟨t, c⟩ : Agent))
  let s := agents.foldl (fun (s : State) a => (s.ctx a).binds.foldl (fun s b => s.closeBindPort a b.2) (s.closePort a)) s
  let s := agents.foldl (fun (s : State) a => s.abortTx a 6) (s.emitAll t)
  agents.foldl (fun (s : State) a => if a.ctx = 0 then s else s.setCtx a { s.ctx a with st := .free }) s

/-- The whole gang has retired: its tiles are left, its snapshots released, its energy settled, and its record ends. -/
def State.endTask (s : State) (k : Nat) : State :=
  let x := s.task k
  let s := x.tiles.foldl (fun (s : State) t => s.updateEnergy t) s
  let used := (x.tiles.map (fun t => (s.tile t).energyRun)).sum
  let s := x.tiles.foldl (fun (s : State) t => (s.freePolder (dieOf t) (s.tile t).spt (s.tile t).home).vacate t) s
  let s := ({ s with live := s.live.filter (fun (e : Nat × StampOwner) => e.2 != StampOwner.snap k && e.2 != StampOwner.task k) }).reclaimAll
  let s := { s with budget := s.budget + recEest (s.record k) - (x.energy + used : Nat) }
  (s.showTask k).retireRecord k true

/-- TASK_RETIREMENT (02 R39): before the decrement of a successor on another die or in another package the writes of the tile's die are performed at package
scope, and what it wrote to remote lines is at its owner; once texit's wait has cleared and the rank's work is settled. A frozen tile's retirement comes after its restore. -/
def execTaskRetirement (t : Nat) (s : State) : Host.Outcome State Fault Refusal :=
  match (s.tile t).run with
  | none => .next s
  | some k =>
    if s.stoppedTile t || (s.ctx ⟨t, 0⟩).st != .waiting .retire || (s.tile t).frz.isSome then .next s
    else if s.unsettled t k then .next (s.post (.taskRetirement t))
    else
      let s := s.closeRank t
      let s := if (s.successors k).any (fun j => j / 65536 != s.ua.pkg * 16 + dieOf t) then s.performAt t 4 else s
      let x := s.task k
      let r := (s.tile t).rank
      let done := if x.retired.contains r then x.retired else r :: x.retired
      let s := s.setTask k { x with retired := done }
      .next (if (List.range x.tiles.length).all (done.contains ·) then s.endTask k else s)

/-! ### Pre-emption (02 R49) -/

/-- The tiles of a Running task receive a freeze request, which its dispatcher makes; the task is restored by the dispatcher's own decision. -/
def State.freezeTask (s : State) (k : Nat) : State :=
  (s.task k).tiles.foldl (fun s t => s.post (.freezeRequestArrival t none)) (s.setTask k { s.task k with auto := true })

/-- WATCHDOG_EXPIRY: a standing request against a task that has run past its budget freezes it. -/
def execWatchdogExpiry (k : Nat) (s : State) : Host.Outcome State Fault Refusal :=
  let wd := recWdog (s.record k)
  let standing := (s.recsIn (k / 65536) 3).any (fun j => (s.task j).preempt == some k)
  let frozen := (s.task k).tiles.any (fun t => (s.tile t).frz.isSome)
  if s.slotState k ≠ 6 || !standing || wd = 0 || frozen then .next s
  else if (s.task k).ran + (s.time - (s.task k).started) > wd then .next (s.freezeTask k)
  else .next (s.post (.watchdogExpiry k))

/-! ### The energy account (11 R339) -/

/-- ENERGY_REFILL: every 3,600 cycles the account gains P, up to its cap; a changed limit takes effect here. -/
def execEnergyRefill (s : State) : Host.Outcome State Fault Refusal :=
  if s.time < s.refillAt then .next (s.post .energyRefill)
  else
    let cap : Int := 10000 * s.limit
    let b := if s.budget ≥ cap then (if s.limit = s.power then s.budget else cap) else min cap (s.budget + s.limit)
    .next ({ s with budget := b, power := s.limit, refillAt := s.refillAt + 3600 }.post .energyRefill)

end Sys2Proof.Machine
end

