-- ==== Sys2Proof/Machine/Waits.lean ====
section
/-! DEFINITION. The clearing of wait conditions (02_execution_model.md R32). -/

namespace Sys2Proof.Machine

/-- A `tfreeze` is on its way to a tile, or the tile's freeze is still to answer one (15 R401). -/
def State.asking (s : State) (t : Nat) : Bool := (s.tile t).ask.isSome || (((s.tile t).frz.bind (·.asker)).isSome)

/-- What keeps a context Waiting under the Structural condition stands (02 R32). -/
def State.busy (s : State) (a : Agent) (b : Busy) : Bool :=
  let x := s.tile a.tile
  let c := s.ctx a
  match b with
  | .frozen => match x.frz with
    | some g => !a.isAwn || g.awn
    | none => false
  | .result rs => rs.any c.pends
  | .line n => s.heldReqs.any (fun h => h.req.agent == a && h.req.pa / 32 == n)
  | .stores => s.heldReqs.any (fun h => h.req.agent == a)
  | .handler ls => ls.any (fun n => (s.dir n).ovf)
  | .fence m sc => s.fenceBusy a m sc
  | .strip r =>
    let b := c.bind r
    b.bound && !b.out && b.queue.isEmpty && decide (b.moved < b.total)
  | .push r => decide ((c.bind r).queue.length ≥ 4)
  | .units => decide (s.unitsUsed a.tile ≥ 16)
  | .matrix => decide (x.mq.length ≥ 4)
  | .transfers => s.xfersFull a.tile
  | .pageIns => !x.pageIns.isEmpty || (s.openOuts a.tile).any (·.ctx != a.ctx)
  | .pageOuts => false
  | .bank buf bank => s.bankBusy a.tile buf bank
  | .permits i => match x.run with
    | some k => s.permitsLeft k i == 0
    | none => false
  | .config => x.cfgWait.isSome
  | .asker t => s.asking t
  | .restore k => !s.admits (s.restoreCost k)
  | .tlbinv asid => s.tlbinvBusy asid
  | .reserved ls => ls.any (fun n => s.heldByCommit a n)
  | .router => !s.injectRoom a.tile
  | .sharer n h => s.agenda.contains (.directoryOverflow n h)
  | .hold => match s.holds.find (holdKey a) with
    | some (since, failed) => !failed && decide (s.time < holdAt since)
    | none => false
  | .commit => false
  | .pair => false

/-- A wait condition of a context has cleared, with what the wait has done meanwhile. A full-empty one clears with the fill (`serveFills`). -/
def State.waitClears (s : State) (a : Agent) (w : Wait) : State × Bool :=
  let x := s.tile a.tile
  let c := s.ctx a
  match w with
  | .token k => (s, c.kc k == 0)
  | .tokenFull k => (s, decide (c.kc k < 63))
  | .event n =>
    let e := s.event n.toNat
    (s, !(e.slots ++ e.spill ++ e.parked).contains (.ctx a))
  | .fullEmpty _ => (s, false)
  | .residence win page =>
    (s, loc (x.spte (pkey win page)) == 1 || !x.pageIns.any (fun p => p.win == win && p.page == page))
  | .barrier => (s, !c.arr)
  | .join h => (s, (s.ctx ⟨a.tile, h⟩).st == .done || (s.ctx ⟨a.tile, h⟩).st == .free)
  | .matrix => (s, !x.mq.any (fun m => m.ctx == a.ctx))
  | .transfer q => (s, match s.taskOf a with
    | some k => s.pollQ k q != 0
    | none => true)
  | .retire => (s, !s.helpersBusy a.tile)
  | .structural b => (s, !s.busy a b)

/-- CONTEXT_WAIT_CLEAR: a Waiting context whose condition has cleared is Ready; a Held one keeps no wait. The waits of a stopped domain are
looked at again when it is restored. -/
def execContextWaitClear (a : Agent) (s : State) : Host.Outcome State Fault Refusal :=
  if s.agentStopped a then .next s
  else match (s.ctx a).st with
    | .waiting w =>
      let (s, ok) := s.waitClears a w
      .next (if ok then s.setCtx a (s.ctx a).unwait else s.post (.contextWaitClear a))
    | .held (some w) =>
      let (s, ok) := s.waitClears a w
      .next (if ok then s.setCtx a (s.ctx a).unwait else s.post (.contextWaitClear a))
    | _ => .next s

end Sys2Proof.Machine
end

