-- ==== Sys2Proof/Machine/Freeze.lean ====
section
/-! DEFINITION. Freezing a tile: the stopping point, the dike, the image and the sluice, the move of a task to Frozen, `tfreeze`
(15_freeze_debug.md R393 to R401, 11 R341). -/

namespace Sys2Proof.Machine

/-! ### Requests and the stopping point (R394, R395) -/

/-- A freeze's asker gets its status. -/
def State.answerAsker (s : State) (g : Freeze) (st : Nat) : State :=
  match g.asker with
  | some (a, r, id) => s.giveResult a r id (wd st)
  | none => s

/-- A freeze's asker gets its status, once. -/
def State.answerFreeze (s : State) (t st : Nat) : State :=
  match (s.tile t).frz with
  | some g => (s.setTile t { s.tile t with frz := some { g with asker := none } }).answerAsker g st
  | none => s

/-- A `tfreeze` meets a freeze of its tile that has not been asked for (R401): that freeze gives its image to the address named; one whose image could not
be written writes it again. -/
def State.joinFreeze (s : State) (t : Nat) (q g : Freeze) : State :=
  let s := s.setTile t { s.tile t with frz := some { g with image := q.image, root := q.root, lean := q.lean, asker := q.asker } }
  if g.dike && !s.agenda.contains (.sluiceImageWritten t) then s.post (.sluiceImageWritten t) else s

/-- A `tfreeze` reaches its tile (R394, R401), and stays on its way while the tile's freeze answers another. -/
def State.takeAsk (s : State) (t : Nat) (q : Freeze) : State :=
  let s' := s.setTile t { s.tile t with ask := none }
  match (s.tile t).run, (s.tile t).frz with
  | some k, none => ((s'.setTask k { s'.task k with auto := false }).freezeTile t q).freezeGang t
  | some _, some g =>
    if g.imaged then s'.answerAsker q 3
    else if g.asker.isSome then s.post (.freezeRequestArrival t q.image)
    else s'.joinFreeze t q g
  | none, some g => s'.answerAsker q (if g.imaged then 3 else 2)
  | none, none => s'.answerAsker q 2

/-- FREEZE_REQUEST_ARRIVAL: a request reaches a tile: a `tfreeze`, or another for one that holds a running task. -/
def execFreezeRequestArrival (t : Nat) (image : Option Word) (s : State) : Host.Outcome State Fault Refusal :=
  match image, (s.tile t).ask with
  | some _, some q => .next (s.takeAsk t q)
  | _, _ =>
    if (s.tile t).run.isNone then .next s
    else .next (s.freezeTile t { stop := s.time + 6, image := image, root := Config.firmwareSpace (dieOf t) })

/-- FREEZE_STOPPING_POINT: the clocks of the domain stop; the dike starts. The record of the fault that led to it is written (20 R423, R425); an awn core that
has stopped is a failed overflow handler from then on (22 R460). -/
def execFreezeStoppingPoint (t : Nat) (s : State) : Host.Outcome State Fault Refusal :=
  match (s.tile t).frz with
  | none => .next s
  | some g =>
    if g.stopped then .next s
    else
      let s := ({ s.setTile t { s.tile t with frz := some { g with stopped := true } } with time := max s.time g.stop } : State).writeFault t
      .next ((if g.awn then s.reportHandler t else s).post (.dikeComplete t))

/-! ### The dike (R396, R397) -/

/-- A response that the domain waits for is still on its way: of a load, store, atomic, message answer or graph op that has left the tile, or
of a write that its line's home holds. -/
def State.awaitsResponse (s : State) (t : Nat) : Bool :=
  let queued (id : Nat) : Bool := (s.tile t).outq.any (fun e => e.2.1 == id)
  s.ops.any (fun o => o.2.agent.tile == t && o.2.agent.ctx != 15 &&
    (((o.2.path == 0 || o.2.path == 4) && !queued o.1) || o.2.need != 0)) ||
    s.agenda.any (fun i => match i with
      | .graphOpArrival g => g.issuer.tile == t && g.issuer.ctx != 15
      | _ => false)

/-- The inbound edges of the task on a tile, as edges of their producers; they end at rank 0's tile. -/
def State.inboundEdges (s : State) (k : Nat) : List (Nat × Nat) :=
  (List.range 4).filterMap (fun i =>
    let e := recEdge (s.record k) i
    if edgeV e && edgeConsumes e then s.peerEdge k i else none)

/-- A producer has acknowledged a hold, and no flit of its edge is on the fabric. -/
def State.edgeQuiet (s : State) (p j : Nat) : Bool :=
  (s.task p).held.get false j &&
    !s.agenda.any (fun i => match i with
      | .streamEdgeGranuleArrival g => g.task == p && g.edge == j
      | _ => false) &&
    !s.tiles.any (fun e => (!s.stoppedTile e.1 && e.2.c0.any (fun g => g.task == p && g.edge == j)) ||
      e.2.link.any (fun f => f.2.2.task == p && f.2.2.edge == j))

/-- A producer is asked to hold an edge, once. -/
def State.askHold (s : State) (p j : Nat) (h : Bool) : State :=
  if s.agenda.contains (.producerHoldArrival p j h) then s else s.post (.producerHoldArrival p j h)

/-- The caches of a tile are dropped: its L1 leaves every directory, its L1, instruction cache and TLBs empty (R397). -/
def State.dropCaches (s : State) (t : Nat) : State :=
  let s := s.emptyCaches t
  { s with tlb := s.tlb.filter (fun e => e.1 != t && e.1 != 4096 + t) }

/-- A footprint fetch that has started still has a frame of a tile to fill (R396 step 3). -/
def State.filling (s : State) (t : Nat) : Bool :=
  (s.die (dieOf t)).fetchQ.any (fun f => f.started.isSome && f.dsts.any (fun d => d.tile == t && !d.gone))

/-- The homes finish the commits that they have granted to contexts of a tile; their holds end, and a snapshot asked for starts again after the
restore (22 R461; log 29). -/
def State.settleSnapshots (s : State) (t : Nat) : State :=
  ((List.range 11).foldl (fun (s : State) c => (s.finishCommit ⟨t, c⟩ 256).dropHold (holdKey ⟨t, c⟩)) s).crossAll (dieOf t)

/-- DIKE_COMPLETE: responses are in, page-ins are finished, producers hold, and the caches are dropped; then the sluice starts. -/
def execDikeComplete (t : Nat) (s : State) : Host.Outcome State Fault Refusal :=
  let x := s.tile t
  match x.frz, x.run with
  | some g, some k =>
    if !g.stopped || g.dike then .next s
    else
      let s := x.pageIns.foldl (fun s p => s.finishPageIn t p.win p.page) s
      let es := if x.rank = 0 then s.inboundEdges k else []
      let s := es.foldl (fun s e => if (s.task e.1).held.get false e.2 then s else s.askHold e.1 e.2 true) s
      if s.awaitsResponse t || !(s.tile t).pageIns.isEmpty || s.filling t || !es.all (fun e => s.edgeQuiet e.1 e.2) then .next (s.post (.dikeComplete t))
      else
        let s := ((s.settleSnapshots t).dropCaches t).showTile t
        .next ((s.setTile t { s.tile t with frz := some { g with dike := true } }).post (.sluiceImageWritten t))
  | _, _ => .next s

/-! ### Images (R398) -/

/-- CRC-32C of bytes. -/
def crcBit (c : Nat) : Nat := if c % 2 = 1 then (c / 2) ^^^ 0x82F63B78 else c / 2
def crcByte (c : Nat) (b : Byte) : Nat := (List.range 8).foldl (fun c _ => crcBit c) (c ^^^ b.toNat)
def crc32c (bs : List Byte) : Nat := (bs.foldl crcByte 0xFFFFFFFF) ^^^ 0xFFFFFFFF

/-- A segment of an image: its kind and bytes. -/
abbrev Segment := Nat × List Byte

/-- The resident pages of a window in a page table, by ascending page. -/
def residents (spt : SMap Word) (win : Nat) : List (Nat × Word) := spt.filter (fun e => e.1 / 8192 == win && loc e.2 == 1)

/-- What the page-table segment says of a page, in 64 bytes: its key, its entry, the place it was filled from, and of a resident one its full-empty bits
and poison marks (DESIGN CHOICE, log 7: R398 gives no layout). -/
def tableRow (x : Tile) (e : Nat × Word) : List Byte :=
  let p : Page := if loc e.2 = 1 then x.page e.1 else {}
  leBytes 8 e.1 ++ leBytes 8 e.2.toNat ++ leBytes 8 (x.home.get 0 e.1).toNat ++ leBytes 16 p.full.toNat ++ leBytes 16 p.pois.toNat ++ leBytes 8 0

/-- The most bytes of a segment whose layout the scan map gives, so that an image keeps within the size of R398 (log 7). -/
def scanRoom (k : Nat) : Nat := if k = 0 then 0x40000 else 0x8000

/-- A segment of an image: core state, the frames of A, W and C by ascending page, page table and full-empty bits, dike buffers, engine state. The bytes of core
state, dike buffers and engine state stand in the order that the scan-map digest names, and are free (R399; log 7). -/
def segment (n : Nat) (x : Tile) (k : Nat) : List Byte :=
  if 1 ≤ k && k ≤ 3 then (residents x.spt (k - 1)).flatMap (fun e => leBytes 2048 (x.page e.1).bytes.toNat)
  else if k = 4 then x.spt.flatMap (tableRow x)
  else (List.range (Config.imageLen n k % scanRoom k)).map (Config.imageByte n k)

/-- The segments an image has. -/
def segments (n : Nat) (x : Tile) : List Segment := (List.range 7).map (fun k => (k, segment n x k))

/-- The entries of the segment table from an offset on. -/
def segTable : Nat → List Segment → List Byte
  | _, [] => []
  | off, (k, bs) :: rest =>
    leBytes 4 off ++ leBytes 4 bs.length ++ leBytes 2 k ++ leBytes 2 0 ++ leBytes 4 (crc32c bs) ++ segTable (off + bs.length) rest

/-- What an image says of an edge: the permits unspent at the producer, and the granules forwarded and not yet cleared. -/
def State.edgeCounts (s : State) (k i : Nat) : Nat × Nat :=
  let e := recEdge (s.record k) i
  let p := if !edgeV e then none else if edgeConsumes e then s.peerEdge k i else some (k, i)
  match p with
  | none => (0, 0)
  | some (p, j) => (128 * edgePages (recEdge (s.record p) j) - (s.task p).permits.get 0 j, (s.task p).forwarded.get 0 j)

/-- The header of the image of a tile's task. -/
def State.imageHeader (s : State) (t k : Nat) (g : Freeze) (segs : List Segment) : List Byte :=
  let x := s.tile t
  let y := s.task k
  let front := leBytes 2 0x0A10 ++ leBytes 1 (b2n (isV t)) ++ leBytes 1 (b2n g.lean) ++ leBytes 4 segs.length ++
    leBytes 48 (Config.scanMap (isV t)).toNat ++ leBytes 8 g.stop ++ leBytes 8 (y.clocked.get 0 x.rank + (g.stop - y.started)) ++ leBytes 8 x.mstep.toNat ++
    leBytes 2 t ++ leBytes 2 0 ++ leBytes 4 (s.tid k) ++
    (List.range 4).flatMap (fun i => leBytes 4 (s.edgeCounts k i).1 ++ leBytes 4 (s.edgeCounts k i).2) ++ leBytes 4 y.nextQ
  front ++ leBytes 4 (crc32c front) ++ segTable 256 segs ++ List.replicate (16 * (8 - segs.length)) 0

/-- A lean image's tile: a W page with DIRTY = 0 goes back to the place it was filled from, its PIN kept: a pinned one is refilled by the restore (R398,
R402). -/
def Tile.leanOut (x : Tile) : Tile :=
  x.spt.foldl (fun (x : Tile) e =>
    if e.1 / 8192 = 1 && loc e.2 == 1 && !dirty e.2 then
      let h := x.home.get 0 e.1
      let x := { x with frames := x.frames.del (e.1 / 8192 * 2048 + place e.2) }
      { x.setSpte e.1 (mkSpte (loc h) (pinned e.2) false (place h)) with home := x.home.del e.1, lru := x.lru.filter (· != (false, e.1)) }
    else x) x

/-- The frames that a page table holds. -/
def Tile.ownFrames (x : Tile) : SMap Page :=
  x.frames.filter (fun f => x.spt.any (fun e => loc e.2 == 1 && e.1 / 8192 * 2048 + place e.2 == f.1))

/-- The tile state that an image keeps. -/
def Tile.imaged (x : Tile) (lean : Bool) : Tile :=
  let x := if lean then x.leanOut else x
  { x with frames := x.ownFrames, outq := x.outq.filter (fun e => e.1.ctx != 15) }

/-- The pieces of `k` bytes of a byte string. -/
def chunksOf (k : Nat) : Nat → List Byte → List (List Byte)
  | 0, _ => []
  | _, [] => []
  | n + 1, bs => bs.take k :: chunksOf k n (bs.drop k)

/-- The sluice writes lines on path 5 (R398); a line that meets a fault ends it. -/
def State.putImage (s : State) (d : Nat) (root : Word) : Nat → List (List Byte) → State × Bool
  | _, [] => (s, true)
  | va, bs :: rest =>
    match s.translate (.die d) root va with
    | .error _ => (s, false)
    | .ok l =>
      if (l.refuse 2 true).isSome then (s, false)
      else ((s.noteTlb (.die d) root va l).unitWrite none (some (asidOf root, va, l)) d l (l.pa va) bs false).putImage d root (va + 32) rest

/-! ### The domain of an image -/

/-- The tile number under which the contexts of image id stand while it is Frozen. -/
def shelf (id : Nat) : Nat := 4096 + id

/-- An agent of a tile's domain, renamed. -/
def reAgent (t u : Nat) (a : Agent) : Agent := if a.tile = t && a.ctx ≤ 10 then ⟨u, a.ctx⟩ else a
def reWaiter (t u : Nat) : Waiter → Waiter
  | .ctx a => .ctx (reAgent t u a)
  | .queue q => .queue q
def reOwner (t u : Nat) : StampOwner → StampOwner
  | .tx a => .tx (reAgent t u a)
  | o => o
def reEvent (t u : Nat) (e : Event) : Event :=
  { e with slots := e.slots.map (reWaiter t u), blocks := e.blocks.map (fun b => (b.1, b.2.map (reWaiter t u))), parked := e.parked.map (reWaiter t u) }
def rePacket (t u : Nat) (p : Packet) : Packet :=
  { p with poster := p.poster.map (reAgent t u), cap := p.cap.map (fun (c : Nat × CapMsg) => (c.1, { c.2 with issuer := reAgent t u c.2.issuer })) }
def reTile (t u : Nat) (x : Tile) : Tile :=
  { x with frz := x.frz.map (fun (g : Freeze) => { g with asker := g.asker.map (fun p => (reAgent t u p.1, p.2)) }),
           cfgWait := x.cfgWait.map (fun p => (reAgent t u p.1, p.2)),
           ask := x.ask.map (fun (g : Freeze) => { g with asker := g.asker.map (fun p => (reAgent t u p.1, p.2)) }),
           awnQ := x.awnQ.map (fun (e : Packet × Option Nat) => (rePacket t u e.1, e.2)),
           outq := x.outq.map (fun (e : Agent × Nat × Packet) => (reAgent t u e.1, e.2.1, rePacket t u e.2.2)) }

/-- The packets of the agenda, their senders renamed. -/
def reAct (t u : Nat) : Instr → Instr
  | .routerPacketArrival a b p => .routerPacketArrival a b (rePacket t u p)
  | .awnMessageArrival a p => .awnMessageArrival a (rePacket t u p)
  | .mailboxPostArrival a p => .mailboxPostArrival a (rePacket t u p)
  | i => i

/-- A reservation of a line goes with its context. -/
def reKey (t u k : Nat) : Nat := if k / 16 = t && k % 16 ≤ 10 then u * 16 + k % 16 else k

/-- The contexts of tile t go to tile u, with every reference to them. -/
def State.rename (s : State) (t u : Nat) : State :=
  let s := (List.range 11).foldl (fun (s : State) c => (s.setCtx ⟨u, c⟩ (s.ctx ⟨t, c⟩)).setCtx ⟨t, c⟩ {}) s
  ({ s with ops := s.ops.map (fun (e : Nat × Op) => (e.1, { e.2 with agent := reAgent t u e.2.agent })),
            live := s.live.map (fun (e : Nat × StampOwner) => (e.1, reOwner t u e.2)),
            reserved := s.reserved.map (fun (e : Nat × Nat) => (e.1, reKey t u e.2)), agenda := s.agenda.map (reAct t u),
            heldReqs := s.heldReqs.map (fun (h : HeldReq) => { h with req := { h.req with agent := reAgent t u h.req.agent } }),
            dies := s.dies.map (fun (d : Nat × Die) => (d.1, { d.2 with events := d.2.events.map (fun e => (e.1, reEvent t u e.2)) })),
            tiles := s.tiles.map (fun (x : Nat × Tile) => (x.1, reTile t u x.2)) } : State).writeChains

/-- The outstanding ops of a tile's contexts. -/
def State.domainOps (s : State) (t : Nat) : SMap Op := s.ops.filter (fun e => e.2.agent.tile == t && e.2.agent.ctx != 15)

/-- A rank of a Frozen task leaves its tile. -/
def State.shelve (s : State) (k t : Nat) : State :=
  let id := (s.task k).imageId.get 0 (s.tile t).rank - 1
  let s := s.moveHome k (s.tile t).rank none
  let s := s.setTile t { s.tile t with outq := (s.tile t).outq.filter (fun e => e.1.ctx == 15), c0 := [] }
  let s := (s.rename t (shelf id)).vacate t
  { s with xfers := s.xfers.filter (fun (x : Xfer) => x.kind == 5 || x.agent.tile != t || x.task != k) }

/-- Energy measured of a task that runs on some tiles. -/
def State.measured (s : State) (ts : List Nat) : Nat := (ts.map (fun t => (s.tile t).energyRun)).sum

/-- Every rank is imaged: the record is Frozen, its energy is settled, its tiles are left (R400, 11 R341, 20 R423). -/
def State.toFrozen (s : State) (k : Nat) : State :=
  let x := s.task k
  let s := x.tiles.foldl (fun (s : State) t => s.updateEnergy t) s
  let used := s.measured x.tiles
  let fault := x.tiles.any (fun t => match (s.tile t).frz with
    | some g => g.fault
    | none => false)
  let stopOf (t : Nat) : Nat := (((s.tile t).frz).map (·.stop)).getD s.time
  let ran (t : Nat) : Nat := stopOf t - x.started
  let clocked := x.tiles.zipIdx.foldl (fun (m : SMap Nat) p => m.set 0 p.2 (m.get 0 p.2 + ran p.1)) x.clocked
  let s := x.tiles.foldl (fun s t => s.answerFreeze t 0) s
  let s := x.tiles.foldl (fun s t => s.shelve k t) s
  let s := s.setTask k { s.task k with energy := used, ran := x.ran + ran (x.tiles.headD 0), clocked := clocked, faulted := x.faulted || fault }
  let s := ({ s with budget := s.budget + recEest (s.record k) - (used : Nat) }.setRecState k 7).wake (k / 65536)
  if x.auto && !fault && !x.faulted then s.post (.gangRestore k) else s

/-- SLUICE_IMAGE_WRITTEN: the image of a rank is in memory (R398, R399); where its write met a fault the tile stays frozen and a `tfreeze` gets
status 4 (R401). -/
def execSluiceImageWritten (t : Nat) (s : State) : Host.Outcome State Fault Refusal :=
  let x := s.tile t
  match x.frz, x.run with
  | some g, some k =>
    if !g.dike || g.imaged then .next s
    else
      let kept := x.imaged g.lean
      let segs := segments s.fc kept
      let bs := s.imageHeader t k g segs ++ segs.flatMap (·.2)
      let addr := g.image.getD (s.imageAt t)
      let root := if g.image.isSome then g.root else Config.firmwareSpace (dieOf t)
      let (s, ok) := s.putImage (dieOf t) root (offset addr) (chunksOf 32 (bs.length / 32 + 1) bs)
      if !ok then .next (s.answerFreeze t 4)
      else
        let id := s.nextOp
        let im : Image := { task := k, rank := x.rank, from_ := t, bytes := bs, ctxs := s.ctxs.filter (fun e => e.1 / 16 == t && e.1 % 16 ≤ 10),
                            ops := s.domainOps t, tile := kept,
                            xfers := s.xfers.filter (fun (y : Xfer) => y.kind != 5 && y.agent.tile == t && y.task == k) }
        let s := s.drlAppend (dieOf t) (portAdd none (offset addr) bs.length) (asidOf root) 5 (s.tid k)
        let y := s.task k
        let s := { s with images := s.images.put id im, nextOp := id + 1 }.setTask k
          { y with images := y.images.put x.rank addr, roots := y.roots.put x.rank root, imageId := y.imageId.put x.rank (id + 1) }
        let s := s.setTile t { s.tile t with frz := some { g with imaged := true } }
        let all := (s.task k).tiles.all (fun u => match (s.tile u).frz with
          | some g => g.imaged
          | none => false)
        .next (if all then s.toFrozen k else s)
  | _, _ => .next s

/-! ### tfreeze (R193, R401, 21 R440) -/

/-- The 5 MiB of an image area pass the check of a store. -/
def checkArea (s : State) (a : Word) : Run Unit := do
  let _ ← (List.range 1280).mapM (fun i => checkBytes s s.who a (a + wd (4096 * i)) 4096 2 false)
  .ok ()

/-- The result register is pending, and the request leaves for its tile in class 2 (R394) with where the image goes and who asked. -/
def State.askFreeze (s : State) (f : EX) (t : Nat) : State :=
  let a := s.rs f.rb
  let g : Freeze := { stop := 0, image := some a, root := s.root s.cur, lean := f.fn9.getLsbD 0, asker := some (s.cur, f.rc.toNat, s.nextOp) }
  let s := s.awaitResult f.rc
  (s.setTile t { s.tile t with ask := some g }).post (.freezeRequestArrival t (some a))

/-- `tfreeze` and `tfreeze.lean` (R401); it waits while another is on its way to the tile, or is still to be answered there. -/
def execTfreeze (f : EX) (s : State) : Host.Outcome State Fault Refusal :=
  settle s (do
    needHandler s
    useS s [f.ra, f.rb]
    let t := (s.rs f.ra).toNat
    let a := s.rs f.rb
    need (t < 2560) 6 0x7001 1 0
    aligned a 4096
    need (windowOf a == some 4) 7 0x3003 0 a
    checkArea s a
    if t = s.cur.tile then .ok (s.ws f.rc 1)
    else if s.asking t then .error (.wait (.structural (.asker t)) s)
    else .ok (s.askFreeze f t))

end Sys2Proof.Machine
end

