-- ==== Sys2Proof/Machine/Restore.lean ====
section
/-! DEFINITION. Restoring a Frozen task: the checks of an image, the page tables and refills, the circuits, the start of every rank together,
`trestore` and the dispatcher's own restores (15_freeze_debug.md R402 to R404, 23 R484, 11 R341). -/

namespace Sys2Proof.Machine

/-! ### The image at an address (R402) -/

/-- Bytes of a range read page by page for the device; none where a page fails translation or RD, or a line is poisoned. -/
def State.readRange (s : State) (root : Word) : Nat → Nat → Nat → Option (List Byte)
  | 0, _, _ => some []
  | fuel + 1, va, n =>
    if n = 0 then some []
    else
      let k := min n (4096 - va % 4096)
      match s.translate (.die 0) root va with
      | .error _ => none
      | .ok l =>
        if (l.refuse 1 true).isSome || (List.range (k / 32 + 1)).any (fun i => s.linePois (l.pa va + min (32 * i) (k - 1))) then none
        else (s.readRange root fuel (va + k) (n - k)).map (fun bs => s.memRead (l.pa va) k ++ bs)

/-- The number that `n` bytes of a byte string denote from byte `o`. -/
def field (bs : List Byte) (o n : Nat) : Nat := leNat ((bs.drop o).take n)

/-- The entries of the segment table of a header: offset, length, kind and CRC. -/
def segEntries (h : List Byte) : List (Nat × Nat × Nat × Nat) :=
  (List.range (min 8 (field h 4 4))).map (fun i => (field h (128 + 16 * i) 4, field h (132 + 16 * i) 4, field h (136 + 16 * i) 2, field h (140 + 16 * i) 4))

/-- The segments of the image at an address, each with the CRC that its entry gives; none where one has another. -/
def State.readSegs (s : State) (root : Word) (va : Nat) (h : List Byte) : Option (List Segment) :=
  (segEntries h).mapM (fun e =>
    (s.readRange root (e.2.1 / 4096 + 2) (va + e.1) e.2.1).bind (fun bs => if crc32c bs = e.2.2.2 then some (e.2.2.1, bs) else none))

/-- The bytes of the segment of a kind. -/
def segOf (l : List Segment) (k : Nat) : List Byte := ((l.find? (fun x => x.1 == k)).map (·.2)).getD []

/-- The segments of an image that the sluice wrote. -/
def Image.segs (im : Image) : List Segment := (segEntries im.bytes).map (fun e => (e.2.2.1, (im.bytes.drop e.1).take e.2.1))

/-- The frames of a window that its segment holds, under a page table whose rows are given. -/
def readFrames (rows : List (List Byte)) (spt : SMap Word) (l : List Segment) (m : SMap Page) (win : Nat) : SMap Page :=
  let bs := segOf l (win + 1)
  ((residents spt win).zip (chunksOf 2048 (bs.length / 2048 + 1) bs)).foldl (fun m p =>
    let row := (rows.find? (fun r => field r 0 8 == p.1.1)).getD []
    m.set {} (win * 2048 + place p.1.2)
      { bytes := BitVec.ofNat 16384 (leNat p.2), full := BitVec.ofNat 128 (field row 24 16), pois := BitVec.ofNat 128 (field row 40 16) }) m

/-- The buffers and page table that the segments of an image hold. -/
def Tile.readSegs (y : Tile) (l : List Segment) : Tile :=
  let rows := chunksOf 64 ((segOf l 4).length / 64 + 1) (segOf l 4)
  let col (o : Nat) : SMap Word := rows.foldl (fun m r => m.set 0 (field r 0 8) (wd (field r o 8))) []
  { y with spt := col 8, home := col 16, frames := (List.range 3).foldl (readFrames rows (col 8) l) [] }

/-- The contexts of a domain whose core or engine state no freeze of the task has written: registers of no fixed value, since only the scan map tells what the
bytes mean (R399; log 7). -/
def Image.unread (im : Image) (n : Nat) : Image :=
  { im with ctxs := im.ctxs.map (fun e =>
      let v (i : Nat) : Nat := Config.scanBits n (e.1 % 16 * 128 + i)
      (e.1, { e.2 with pc := wd (v 0 / 8 * 8), s := (List.range 31).foldl (fun m r => m.set 0 (r + 1) (wd (v (r + 1)))) [],
                       v := (List.range 32).foldl (fun m r => m.set 0 r (BitVec.ofNat 2048 (v (r + 32)))) [],
                       m := (List.range 7).foldl (fun m r => m.set 0 (r + 1) (BitVec.ofNat 64 (v (r + 65)))) [] })) }

/-- The domain that segments read from memory stand for: what the freeze whose core and engine state they hold has kept, the newest of a rank first,
with the buffers as read; of other core state (log 7), what the freeze of the tile that the header names kept, its registers unread. -/
def State.imageOf (s : State) (k : Nat) (h : List Byte) (l : List Segment) : Option (Nat × Image) :=
  let mine := s.images.filter (fun e => e.2.task == k)
  let newest (es : SMap Image) : Option (Nat × Image) := (es.find? (fun e => (s.task k).imageId.get 0 e.2.rank == e.1 + 1)).or es.getLast?
  let read (im : Image) : Image := { im with bytes := h, tile := im.tile.readSegs l }
  match newest (mine.filter (fun e => [0, 5, 6].all (fun j => segOf e.2.segs j == segOf l j))) with
  | some (id, im) => some (id, read im)
  | none => (newest (mine.filter (fun e => e.2.from_ == field h 80 2))).map (fun e => (e.1, (read e.2).unread s.fc))

/-- A rank of a task stands on a tile. -/
def State.rankOn (s : State) (k r t : Nat) : Bool := (s.tile t).run == some k && (s.tile t).rank == r

/-- The status with which the image at an address is refused on tile t, or the image as it stands in memory (R402). -/
def State.findImage (s : State) (root : Word) (va t : Nat) : Except Nat (Nat × Image) :=
  match s.readRange root 2 va 256 with
  | none => .error 2
  | some h =>
    if field h 124 4 ≠ crc32c (h.take 124) then .error 2
    else match s.readSegs root va h with
      | none => .error 2
      | some l =>
        if field h 8 48 ≠ (Config.scanMap (isV t)).toNat || field h 0 2 ≠ 0x0A10 then .error 1
        else if field h 2 1 ≠ b2n (isV t) || !s.freeTile t then .error 3
        else if field h 84 4 / 2 ^ 20 ≠ s.ua.pkg || s.slotState (field h 84 4 % 2 ^ 20) ≠ 7 then .error 4
        else match s.imageOf (field h 84 4 % 2 ^ 20) h l with
          | none => .error 4
          | some (id, im) => if ((s.task im.task).tiles[im.rank]?).any (s.rankOn im.task im.rank) then .error 4 else .ok (id, im)

/-! ### Circuits (R403) -/

/-- The entries of the circuit that enters a router by a port in a slot: tile and slot, to its last router. -/
def State.circuit (s : State) : Nat → Nat → Nat → Nat → List (Nat × Nat)
  | 0, _, _, _ => []
  | fuel + 1, t, port, slot =>
    let e := (s.tile t).slCur.get 0 slot
    if !slV e || slIn e != port then []
    else match joins t (slOut e) with
      | .router u => (t, slot) :: s.circuit fuel u (facing (slOut e)) ((slot + (if dieOf u = dieOf t then 1 else 25)) % 256)
      | _ => [(t, slot)]

/-- A slot entry of two ports. -/
def slEntry (i o : Nat) : Word := wd (128 + 16 * i + o)

/-- The path from a tile to another in dimension order with a slot at its start: tile, slot and entry (R346, R347). -/
def pathTo : Nat → Nat → Nat → Nat → Nat → List (Nat × Nat × Word)
  | 0, _, _, _, _ => []
  | fuel + 1, t, dest, port, slot =>
    if t = dest then [(t, slot, slEntry port 0)]
    else
      let p := dimOrder t dest false
      match joins t p with
      | .router u =>
        (t, slot, slEntry port p) :: pathTo fuel u dest (facing p) ((slot + (if dieOf u = dieOf t then 1 else 25)) % 256)
      | _ => []

/-- The circuits that start or end at a tile: their ends and entries. -/
def State.circuitsOf (s : State) (o : Nat) : List (Nat × Nat × List (Nat × Nat)) :=
  s.tiles.flatMap (fun e => (e.2.slCur.filter (fun x => slV x.2 && slIn x.2 == 0)).filterMap (fun x =>
    let c := s.circuit 256 e.1 0 x.1
    match s.circuitEnd 256 e.1 0 x.1 with
    | some z => if e.1 = o || z = o then some (e.1, z, c) else none
    | none => none))

/-- A circuit laid anew in the first run of slots that is free; none where there is no such run. -/
def State.layCircuit (s : State) (a b : Nat) (old : List (Nat × Nat)) : Option State :=
  let free (p : List (Nat × Nat × Word)) : Bool := p.all (fun e => !slV ((s.tile e.1).slCur.get 0 e.2.1))
  if a = b then none
  else match ((List.range 256).map (pathTo 256 a b 0)).find? free with
    | none => none
    | some p =>
      let put (s : State) (e : Nat × Nat × Word) : State :=
        s.setTile e.1 { s.tile e.1 with slCur := (s.tile e.1).slCur.set 0 e.2.1 e.2.2 }
      let cut (s : State) (e : Nat × Nat) : State := s.setTile e.1 { s.tile e.1 with slCur := (s.tile e.1).slCur.del e.2 }
      some (old.foldl cut (p.foldl put s))

/-- Every circuit of tile o goes to tile n instead. -/
def State.moveCircuits (s : State) (o n : Nat) : Option State :=
  if o = n then some s
  else (s.circuitsOf o).foldl (fun (acc : Option State) c =>
    let a := if c.1 = o then n else c.1
    let z := if c.2.1 = o then n else c.2.1
    acc.bind (fun s => s.layCircuit a z c.2.2)) (some s)

/-! ### One rank back on a tile (R402 to R404) -/

/-- The page table and places of an image on a die; none where its polder pages are not there (R404). -/
def Image.tables (im : Image) (d : Nat) : Option (SMap Word × SMap Word) :=
  match im.moved with
  | some (d', spt, home) => if d' = d then some (spt, home) else if dieOf im.from_ = d then some (im.tile.spt, im.tile.home) else none
  | none => if dieOf im.from_ = d then some (im.tile.spt, im.tile.home) else none

/-- The polder slots of the place the task does not go back to. -/
def State.freeMoved (s : State) (im : Image) (d : Nat) : State :=
  match im.moved with
  | some (d', spt, home) =>
    if d' = dieOf im.from_ then s
    else if d' = d then s.freePolder (dieOf im.from_) im.tile.spt im.tile.home
    else s.freePolder d' spt home
  | none => s

/-- The pages that a lean image omits and pins. -/
def omitted (spt : SMap Word) : List (Nat × Word) := spt.filter (fun e => e.1 / 8192 == 1 && loc e.2 != 1 && pinned e.2)

/-- The origin of an omitted page is read for its task (R402 step 2, 03 R74); a trap where that fails translation or RD. -/
def readOrigin (s : State) (t k : Nat) (e : Nat × Word) : Run (State × Page) :=
  let root := recRoot (s.record k)
  let va := backing (place e.2)
  let a := keyAddr e.1
  if loc e.2 < 2 then .ok (s, {})
  else if loc e.2 = 2 then s.sourcePage t .now e.2 none a
  else match s.translate (.engine t) root va with
    | .error w => .error (.trap ⟨8, 0x3005, w.code, a, w.table⟩)
    | .ok l =>
      match l.refuse 1 false with
      | some c => .error (.trap ⟨8, 0x3006, c, a, none⟩)
      | none => (s.noteTlb (.engine t) root va l).sourcePage t (s.viewOf k) e.2 (some (va, l)) a

/-- The origins of omitted pages, by key. -/
def readOrigins (t k : Nat) : State → List (Nat × Word) → Run (State × SMap Page)
  | s, [] => .ok (s, [])
  | s, e :: rest => do
    let (s, p) ← readOrigin s t k e
    let (s, m) ← readOrigins t k s rest
    .ok (s, m.put e.1 p)

/-- The pages that the restore of some ranks refills are read, before any rank is placed: the status 7 where one fails. -/
def readRanks : State → List (Nat × Image × Nat) → Run (State × Except Nat (List (Nat × Image × Nat × SMap Page)))
  | s, [] => .ok (s, .ok [])
  | s, (id, im, t) :: rest =>
    match readOrigins t im.task s (omitted (((im.tables (dieOf t)).map (·.1)).getD [])) with
    | .error (.trap x) => .ok (s.reportTable x, .error 7)
    | .error (.wait w s) => .error (.wait w s)
    | .ok (s, m) => (readRanks s rest).map (fun r => (r.1, r.2.map (fun l => (id, im, t, m) :: l)))

/-- The omitted pages of a rank are filled, each in a frame of its bank. -/
def State.refill (s : State) (t : Nat) (m : SMap Page) : Option State :=
  m.foldl (fun (s : Option State) e => s.bind (fun s =>
    (s.takeFrame t 1 (bankOfPage (isV t) 1 (e.1 % 8192))).map (fun r => r.1.fillPage t e.1 r.2 true e.2))) (some s)

/-- The contexts and ops that an older image of a rank holds, or one of another core state, stand on its shelf again (log 7). -/
def State.reviveImage (s : State) (id : Nat) (im : Image) : State :=
  let cur := (s.task im.task).imageId.get 0 im.rank
  let old := shelf (cur - 1)
  if (cur = id + 1 && (s.images.find id).map (·.ctxs) == some im.ctxs) || cur = 0 then s
  else
    let s := (List.range 11).foldl (fun (s : State) c => (s.abortTx ⟨old, c⟩ 6).setCtx ⟨old, c⟩ {}) s
    let s := { s with ops := s.ops.filter (fun e => e.2.agent.tile != old) }
    let s := im.ctxs.foldl (fun (s : State) e => s.setCtx ⟨shelf id, e.1 % 16⟩ e.2) s
    { s with ops := im.ops.foldl (fun (m : SMap Op) e => m.put e.1 { e.2 with agent := reAgent im.from_ (shelf id) e.2.agent }) s.ops }

/-- A rank is put on tile t with the pages that it refills, its caches empty (R397) and its domain stopped until the whole gang is back; or the status that
refuses it. -/
def State.placeRank (s : State) (id : Nat) (im : Image) (t : Nat) (m : SMap Page) : Except Nat State :=
  match im.tables (dieOf t) with
  | none => .error 6
  | some (spt, home) =>
    let k := im.task
    let s := s.dropCaches t
    let x := s.tile t
    let y := im.tile
    let x := { x with
      run := some k, rank := im.rank, spt := spt, home := home, lru := y.lru, makers := y.makers, frames := y.frames.foldl (fun m f => m.set {} f.1 f.2) x.frames,
      pageIns := [], outs := none, bfmt := y.bfmt, mq := y.mq, pe := y.pe, stats := y.stats, last := y.last, energyRun := y.energyRun, c0 := x.c0 ++ y.c0.map (fun g => { g with behind := x.behindOf 0 }),
      outq := x.outq ++ y.outq.map (fun e => (reAgent im.from_ t e.1, e.2.1, rePacket im.from_ t e.2.2)),
      frz := some { stop := 0, stopped := true, dike := true, awn := (x.frz.map (·.awn)).getD false } }
    match (s.setTile t x).refill t m with
    | none => .error 7
    | some s' =>
      match s'.moveCircuits (((s.task k).tiles[im.rank]?).getD im.from_) t with
      | none => .error 5
      | some s' =>
        let s' := ((s'.freeMoved im (dieOf t)).reviveImage id im).rename (shelf id) t
        let s' := if im.rank ≠ 0 then s' else (s'.poisonPages t true (s'.tile t).spt (s'.badKeys k)).1.setTask k { s'.task k with bad := [] }
        let s' := { s' with xfers := s'.xfers ++ im.xfers.map (fun (x : Xfer) => { x with agent := reAgent im.from_ t x.agent }) }
        .ok ((s'.setTask k { s'.task k with tiles := (s'.task k).tiles.set im.rank t }).moveHome k im.rank (some t))

/-! ### The whole gang starts (R402, 23 R484) -/

/-- Every rank of a task stands on its tile. -/
def State.allBack (s : State) (k : Nat) : Bool := (s.task k).tiles.zipIdx.all (fun p => s.rankOn k p.2 p.1)

/-- What a restored domain was doing goes on, and the `trestore` of its tile gets its status (07 R193). -/
def State.wakeDomain (s : State) (t : Nat) : State :=
  let x := s.tile t
  let awn := (x.frz.map (·.awn)).getD false
  let s := (s.answerFreeze t 0).setTile t { x with frz := none }
  let wake (s : State) (a : Agent) : State :=
    let c := s.ctx a
    let s := match c.st with
      | .waiting _ => s.post (.contextWaitClear a)
      | .held (some _) => s.post (.contextWaitClear a)
      | _ => s
    c.binds.foldl (fun (s : State) b =>
      if !b.2.bound then s else if b.2.out then s.post (.streamStripWrite a b.1) else s.post (.streamStripFetch a b.1)) s
  let s := (List.range 11).foldl (fun (s : State) c => wake s ⟨t, c⟩) s
  let s := if x.mq.isEmpty then s else s.post (.matrixStep t)
  let s := (s.xfers.filter (fun (y : Xfer) => y.kind != 5 && y.agent.tile == t)).foldl (fun s y => s.post (.transferCompletion y.op)) s
  let s := if x.c0.isEmpty then s else s.postSlots (dieOf t)
  let s := if awn then (s.post (.contextWaitClear ⟨t, 15⟩)).post (.handlerStart t) else s
  let s := if s.agenda.contains (.energyCounterUpdate t) then s else s.post (.energyCounterUpdate t)
  s.drain t

/-- Every rank is back: the record is Running again, and all clocks start. -/
def State.startGang (s : State) (k : Nat) : State :=
  let x := s.task k
  let s := { s with budget := s.budget - (s.restoreCost k : Nat) }.setRecState k 6
  let s := s.setTask k { s.task k with started := s.time, auto := false, faulted := false, energy := 0, images := [], roots := [], imageId := [] }
  let s := x.tiles.foldl (fun s t => s.wakeDomain t) s
  let s := (s.inboundEdges k).foldl (fun s e => s.askHold e.1 e.2 false) s
  if s.allArrived k then s.post (.barrierPhaseComplete k) else s

/-- Ranks placed one after another; then the gang starts if it is whole. -/
def State.placeRanks (s : State) (k : Nat) : List (Nat × Image × Nat × SMap Page) → Except Nat State
  | [] => .ok (if s.allBack k then s.startGang k else s)
  | (id, im, t, m) :: rest =>
    match s.placeRank id im t m with
    | .error st => .error st
    | .ok s => s.placeRanks k rest

/-- Ranks restored onto tiles: the state in which their pages have been read, and the status that refuses them or the state with them placed. -/
def State.restoreRanks (s : State) (k : Nat) (l : List (Nat × Image × Nat)) : Run (State × Except Nat State) :=
  (readRanks s l).map (fun r => (r.1, r.2.bind (fun l => r.1.placeRanks k l)))

/-! ### trestore (R193, R402, 21 R440) -/

/-- The ranks of a task that are back, one more apart from them. -/
def State.lastRank (s : State) (k r : Nat) : Bool := (s.task k).tiles.zipIdx.all (fun p => p.2 == r || s.rankOn k p.2 p.1)

/-- The `trestore` of a rank that leaves its gang incomplete gets its status when the tile restarts (07 R193). -/
def State.awaitRestart (s : State) (f : EX) (t : Nat) : State :=
  let s' := s.awaitResult f.rc
  let x := s'.tile t
  s'.setTile t { x with frz := x.frz.map (fun (g : Freeze) => { g with asker := some (s.cur, f.rc.toNat, s.nextOp) }) }

/-- `trestore`: the rank that completes its gang waits until the energy account admits the restore (11 R340). -/
def execTrestore (f : EX) (s : State) : Host.Outcome State Fault Refusal :=
  settle s (do
    needHandler s
    useS s [f.ra, f.rb]
    let a := s.rs f.ra
    let t := (s.rs f.rb).toNat
    need (t < 2560) 6 0x7001 2 0
    aligned a 4096
    need (windowOf a == some 4) 7 0x3003 0 a
    let _ ← checkPiece s s.who a 256 1 false
    match s.findImage (s.root s.cur) (offset a) t with
    | .error st => .ok (s.ws f.rc (wd st))
    | .ok (id, im) =>
      if s.lastRank im.task im.rank && !s.admits (s.restoreCost im.task) then .error (.wait (.structural (.restore im.task)) s)
      else do
        let (s, r) ← s.restoreRanks im.task [(id, im, t)]
        match r with
        | .error st => .ok (s.ws f.rc (wd st))
        | .ok s' => .ok (if s.lastRank im.task im.rank then s'.ws f.rc 0 else s'.awaitRestart f t))

/-! ### The dispatcher's restores (23 R479, R484) -/

/-- The images that a Frozen task has, by rank. -/
def State.taskImages (s : State) (k : Nat) : List (Nat × Image) :=
  (s.task k).imageId.filterMap (fun e => (s.images.find (e.2 - 1)).map (fun im => (e.2 - 1, im)))

/-- Tiles for the ranks of a task: the original tile, else the lowest free one of its kind on the die that no other rank has. -/
def State.homesFor (s : State) (k : Nat) : List (Nat × Image) → List Nat → Option (List (Nat × Image × Nat))
  | [], _ => some []
  | (id, im) :: rest, taken =>
    let free (t : Nat) : Bool := s.freeTile t && !taken.contains t && !(s.tile t).contained && !(s.tile t).frec0.getLsbD 63
    let pick := if free im.from_ then some im.from_
      else ((List.range 160).map (· + k / 65536 * 160)).find? (fun t => isV t == recKindV (s.record k) && free t)
    match pick with
    | none => none
    | some t => (s.homesFor k rest (t :: taken)).map (fun l => (id, im, t) :: l)

/-- Ranks whose original tile is free come first, so that no other rank takes it. -/
def State.imagesInOrder (s : State) (k : Nat) : List (Nat × Image) :=
  let l := s.taskImages k
  l.filter (fun e => s.freeTile e.2.from_) ++ l.filter (fun e => !s.freeTile e.2.from_)

/-- A refused restore is reported: condition 6 (23 R479). -/
def State.restoreRefused (s : State) (k st : Nat) : State :=
  s.reportTask k { cls := 1, reach := 2, detail := [(64, 1, 6), (68, 1, st)] }

/-- The images of a task as they stand in memory, for tiles; or the status that refuses one. -/
def State.imagesRead (s : State) (k : Nat) (l : List (Nat × Image × Nat)) : Except Nat (List (Nat × Image × Nat)) :=
  l.mapM (fun p =>
    let r := p.2.1.rank
    (s.findImage ((s.task k).roots.get 0 r) (offset ((s.task k).images.get 0 r)) p.2.2).map (fun e => (e.1, e.2, p.2.2)))

/-- The restore of a task onto tiles: done, or refused with a status; a line of an origin that is held keeps it waiting. -/
def State.restoreTask (s : State) (k : Nat) (l : List (Nat × Image × Nat)) : Run (State × Except Nat State) :=
  match s.imagesRead k l with
  | .error st => .ok (s, .error st)
  | .ok l => s.restoreRanks k l

/-- An Eligible task of higher effective priority has tiles on the die: it goes first (02 R48). -/
def State.outranked (s : State) (k : Nat) : Bool :=
  (s.recsIn (k / 65536) 3).any (fun j => s.effPrio k < s.effPrio j && (s.choose j true [] []).isSome)

/-- GANG_RESTORE (23 R484): the dispatcher restores a task it has frozen of its own, once every rank has a tile and the account admits it. -/
def execGangRestore (k : Nat) (s : State) : Host.Outcome State Fault Refusal :=
  let x := s.task k
  if s.slotState k ≠ 7 || !x.auto || x.faulted || s.owner.quiesced then .next s
  else if s.outranked k || !s.admits (s.restoreCost k) then .next (s.post (.gangRestore k))
  else match s.homesFor k (s.imagesInOrder k) [] with
    | none => .next (s.post (.gangRestore k))
    | some l =>
      match s.restoreTask k l with
      | .error (.wait _ s) => .next (s.post (.gangRestore k))
      | .error (.trap _) => .next s
      | .ok (s, .error st) => .next ((s.setTask k { x with auto := false }).restoreRefused k st)
      | .ok (_, .ok s) => .next s

end Sys2Proof.Machine
end

