-- ==== Sys2Proof/Machine/Edges.lean ====
section
/-! DEFINITION. Stream edges between tasks: granules that arrive, permits that return, holds of a dike (11_dispatch_graphs.md R334, R335,
15_freeze_debug.md R396), and what a discard does with them (23 R470). -/

namespace Sys2Proof.Machine

/-- A granule of a page takes masked bytes and is full: poison comes with the granule, and a whole clean one ends it (20 R421, R422). -/
def Page.putGranule (p : Page) (i : Nat) (data : BitVec 128) (mask : BitVec 16) (pois : Bool) : Page :=
  let bytes := (List.range 16).map (fun j =>
    if mask.getLsbD j then data.extractLsb' (8 * j) 8 else p.bytes.extractLsb' (8 * (16 * i + j)) 8)
  let marks := if pois then setBit p.pois i true else if mask = BitVec.allOnes 16 then setBit p.pois i false else p.pois
  { p with bytes := patch p.bytes (16 * i) bytes, full := setBit p.full i true, pois := marks }

/-- The tile of a task's rank 0, whether its pages are in the running table, and their table; none while the task is on no tile. -/
def State.regionTable (s : State) (k : Nat) : Option (Nat × Bool × SMap Word) :=
  match (s.task k).tiles.head? with
  | none => none
  | some t =>
    let x := s.tile t
    if x.run = some k && x.rank = 0 then some (t, true, x.spt)
    else if x.staged = some k && x.stagedRank = 0 then some (t, false, x.sptS) else none

/-- The producer of a granule's token, in the running or the staged table. -/
def Tile.putMaker (x : Tile) (running : Bool) (key : Nat) (m : Option (Nat × Nat)) : Tile :=
  match m with
  | none => x
  | some m => if running then { x with makers := x.makers.put key m } else { x with makersS := x.makersS.put key m }

/-- The page key and granule that a granule of a producer's edge has in the region of the consumer's edge. -/
def regionPlace (ep ec : Word) (gran : Nat) : Nat × Nat := (pkey (edgeWin ec) (edgeOff ec + (gran / 128 - edgeOff ep)), gran % 128)

/-- A granule of an edge is acknowledged at its producer: a permit is back, and the balance of the context that produced it falls (02 R55, 11 R335). -/
def State.acknowledge (s : State) (p j : Nat) (m : Option (Nat × Nat)) : State :=
  let x := s.task p
  let s := s.setTask p { x with permits := x.permits.set 0 j (x.permits.get 0 j - 1), forwarded := x.forwarded.set 0 j (x.forwarded.get 0 j - 1) }
  s.balance m (-1)

/-- STREAM_EDGE_GRANULE_ARRIVAL (11 R334): the granule is written through the fill port and its bit set; at a full granule, or while the
consumer is on no tile, it waits at the edge. On an edge without a consumer it is dropped and acknowledged (23 R470). -/
def execStreamEdgeGranuleArrival (g : EdgeGranule) (s : State) : Host.Outcome State Fault Refusal :=
  if (s.task g.task).closed.get false g.edge then .next (s.acknowledge g.task g.edge g.maker)
  else match s.peerEdge g.task g.edge with
    | none => .next (s.acknowledge g.task g.edge g.maker)
    | some (c, j) =>
      let (key, i) := regionPlace (recEdge (s.record g.task) g.edge) (recEdge (s.record c) j) g.gran
      match s.regionTable c with
      | none => .next (s.again (.streamEdgeGranuleArrival g))
      | some (t, running, spt) =>
        let e := spt.get 0 key
        let imaged := match (s.tile t).frz with
          | some z => z.imaged
          | none => false
        let p := (s.tile t).frame (key / 8192) (place e)
        if loc e ≠ 1 || imaged || p.full.getLsbD i then .next (s.again (.streamEdgeGranuleArrival g))
        else
          let x := (s.tile t).putRegion running key e (p.putGranule i g.data g.mask g.poisoned)
          .next (s.setTile t (x.putMaker running (key * 128 + i) g.maker))

/-- PERMIT_RETURN (11 R335). -/
def execPermitReturn (k : Nat) (e : PermitEdge) (s : State) : Host.Outcome State Fault Refusal := .next (s.acknowledge k e.slot e.maker)

/-- PRODUCER_HOLD_ARRIVAL (15 R396, R402): a consumer's dike holds an edge, or its restore releases it. -/
def execProducerHoldArrival (k i : Nat) (h : Bool) (s : State) : Host.Outcome State Fault Refusal :=
  .next (s.setTask k { s.task k with held := (s.task k).held.set false i h })

/-! ### The edges of a discarded task (23 R470) -/

/-- The granules that poison fills on the pages of a region in an image: of its frames, and of the polder slots of its die. -/
def State.emptyInImage (s : State) (im : Image) (keys : List Nat) : Nat :=
  let d := ((im.moved).map (·.1)).getD (dieOf im.from_)
  let spt := ((im.moved).map (·.2.1)).getD im.tile.spt
  (keys.map (fun key =>
    let e := spt.get 0 key
    if loc e = 1 then (im.tile.frame (key / 8192) (place e)).fillPoison.2
    else if loc e = 2 then ((s.die d).polder.get {} (place e)).fillPoison.2 else 0)).sum

/-- The zero-fill pages of a region that a task's record declares and a table does not hold: every granule of them will be empty. -/
def State.unfilled (s : State) (c : Nat) (spt : SMap Word) (keys : List Nat) : List Nat :=
  keys.filter (fun key => loc (spt.get 0 key) == 0 && (recFoot (s.record c)).any (fun (p : FootPage) => p.zf && pkey p.win p.page == key))

/-- The region of a consumer's edge filled with poison where its producer is discarded: on its tile and in the polder at once; of pages that are in its
image, or not yet filled, as they come to a tile. The state, and how many granules are filled. -/
def State.poisonRegion (s : State) (c j : Nat) : State × Nat :=
  let keys := regionKeys (recEdge (s.record c) j)
  let mark (s : State) : State := s.setTask c { s.task c with bad := j :: (s.task c).bad }
  match s.regionTable c with
  | some (t, running, spt) =>
    let (s, n) := s.poisonPages t running spt keys
    if running then (s, n) else (mark s, n + 128 * (s.unfilled c spt keys).length)
  | none =>
    match s.images.find ((s.task c).imageId.get 0 0 - 1) with
    | none => (mark s, 128 * (s.unfilled c [] keys).length)
    | some im => (mark s, s.emptyInImage im keys)

/-- The tokens on the granules of a discarded task's images count as acknowledged, so that no balance stays for them (02 R55). -/
def State.ackImages (s : State) (l : List Image) : State :=
  l.foldl (fun (s : State) im => im.tile.makers.foldl (fun (s : State) m => s.balance (some m.2) (-1)) s) s

/-- The edges of a task with the images `l` reconciled as it is discarded: for each, the permits returned, those of the region less the granules forwarded and not yet
cleared, and the consumer granules poisoned. -/
def State.reconcile (s : State) (k : Nat) (l : List Image) : State × List (Nat × Nat) :=
  (List.range 4).foldl (fun ((s : State), l) i =>
    let e := recEdge (s.record k) i
    if !edgeV e then (s, l ++ [(0, 0)])
    else match s.peerEdge k i with
      | none => (s, l ++ [(0, 0)])
      | some (q, j) =>
        let (p, pj) := if edgeConsumes e then (q, j) else (k, i)
        let x := s.task p
        let back := 128 * edgePages (recEdge (s.record p) pj) - x.forwarded.get 0 pj
        let s := s.setTask p { x with permits := x.permits.set 0 pj (x.forwarded.get 0 pj) }
        if edgeConsumes e then
          (s.setTask p { s.task p with closed := (s.task p).closed.set false pj true, held := (s.task p).held.del pj }, l ++ [(back, 0)])
        else
          let (s, n) := (s.setTask p { s.task p with closed := (s.task p).closed.set false pj true }).poisonRegion q j
          (s, l ++ [(back, n)])) (s.ackImages l, [])

end Sys2Proof.Machine
end

