-- ==== Sys2Proof/Machine/Packets.lean ====
section
/-! DEFINITION. Command queues and their packets (14_host_pod_firmware.md R377 to R382, 11 R486, 23 R471, R474, R475). -/

namespace Sys2Proof.Machine

/-! ### Fields and checks of a packet (R379, R475) -/

/-- n bytes of a packet from byte o, as a number. -/
def pk (p : BitVec 1024) (o n : Nat) : Nat := p.toNat / 2 ^ (8 * o) % 2 ^ (8 * n)

/-- A fault of a packet: the byte at which it is found, and the reason of condition 7. -/
abbrev Offence := Nat × Nat

/-- A fault at a byte where a condition holds. -/
def offend (off reason : Nat) (b : Bool) : List Offence := if b then [(off, reason)] else []

/-- Bytes lo to hi must be zero. -/
def zeros (p : BitVec 1024) (lo hi : Nat) : List Offence :=
  (List.range (hi + 1 - lo)).filterMap (fun i => if pk p (lo + i) 1 = 0 then none else some (lo + i, 0))

/-- The offence at the lowest byte. -/
def firstOffence (l : List Offence) : Option Offence :=
  l.foldl (fun (best : Option Offence) x => match best with
    | none => some x
    | some b => if x.1 < b.1 then some x else some b) none

def pkType (p : BitVec 1024) : Nat := pk p 0 1
def pkAcquire (p : BitVec 1024) : Nat := pk p 1 1 % 8
def pkRelease (p : BitVec 1024) : Nat := pk p 1 1 / 8 % 8
def pkBarrier (p : BitVec 1024) : Bool := pk p 1 1 / 64 % 2 == 1
def pkQp (p : BitVec 1024) : Bool := pk p 1 1 / 128 == 1
def pkTag (p : BitVec 1024) : Nat := pk p 4 4

/-- A global address. -/
def globalAddr (a : Nat) : Bool := decide (a < 2 ^ 57)

/-- The offences of a packet's own bytes. -/
def packetBad (p : BitVec 1024) : List Offence :=
  let head := offend 0 0 (pkType p > 6) ++ offend 1 0 (pkAcquire p > 4 || pkRelease p > 4) ++ offend 2 0 (pk p 2 1 / 8 != 0) ++ zeros p 3 3 ++
    offend 10 0 (pk p 10 1 / 2 != 0) ++ zeros p 11 15
  let body := match pkType p with
    | 1 =>
      offend 16 1 (!globalAddr (pk p 16 8)) ++ offend 24 1 (pk p 24 1 < 1 || pk p 24 1 > 16) ++
        offend 25 1 (pk p 25 1 < 1 || pk p 25 1 > (if pk p 26 1 % 2 = 1 then 1 else 9)) ++ offend 26 0 (pk p 26 1 / 64 != 0) ++
        offend 27 1 (pk p 27 1 > 8) ++ offend 28 1 (pk p 28 4 > 65535) ++ zeros p 68 71 ++ offend 104 1 (!globalAddr (pk p 104 8)) ++ zeros p 112 127
    | 2 =>
      offend 16 1 (pk p 16 8 % 64 != 0 || !globalAddr (pk p 16 8)) ++ offend 24 1 (pk p 24 4 < 1 || pk p 24 4 > 65535) ++ zeros p 28 127
    | 3 =>
      offend 16 1 (pk p 16 8 % 16 != 0 || !globalAddr (pk p 16 8)) ++ offend 24 1 (pk p 24 8 % 16 != 0 || !globalAddr (pk p 24 8)) ++
        offend 32 1 (pk p 32 8 % 16 != 0) ++ zeros p 40 127
    | 4 => offend 18 1 (pk p 18 2 == 0) ++ zeros p 20 127
    | 5 => zeros p 18 127
    | _ => zeros p 16 127
  head ++ body

/-! ### Indices and the order of packets (R378, R380) -/

/-- The distance from index b to index a, modulo 2^32. -/
def ahead (a b : Nat) : Nat := (a + 2 ^ 32 - b % 2 ^ 32) % 2 ^ 32

/-- The write index that the host has written. -/
def State.writeIndex (s : State) (x : Queue) : Option Nat := (s.getGlobal x.desc.gvroot x.desc.widx.toNat 4).map leNat

/-- The bytes of packet i of a queue. -/
def State.packetAt (s : State) (x : Queue) (i : Nat) : Option (BitVec 1024) :=
  (s.readRange x.desc.gvroot 2 (x.base.toNat + i % x.size * 128) 128).map (fun bs => BitVec.ofNat 1024 (leNat bs))

/-- A packet may start: every earlier packet of the queue has started, and with the barrier bit has completed. -/
def Queue.mayStart (x : Queue) (i : Nat) (barrier : Bool) : Bool :=
  x.pkts.all (fun e => decide (ahead i x.read ≤ ahead e.1 x.read) || (x.status.get 0 e.1 == 2 || (!barrier && x.status.get 0 e.1 == 1)))

/-- The read index passes the packets that are complete. -/
def Queue.passDone : Nat → Queue → Queue
  | 0, x => x
  | n + 1, x =>
    if x.status.get 0 x.read = 2 then
      Queue.passDone n { x with read := (x.read + 1) % 2 ^ 32, pkts := x.pkts.del x.read, status := x.status.del x.read }
    else x

/-- A packet of a queue has a status: 1 started, 2 complete. -/
def State.markPacket (s : State) (q i st : Nat) : State :=
  match s.queue q with
  | none => s
  | some x =>
    let x := { x with status := x.status.put i st }
    s.setQueue q (Queue.passDone (x.pkts.length + 1) x)

/-! ### Scopes of a packet (R380, 08 R211, 04 R110, R111) -/

/-- `cache.inv` at a scope over all lines; the complex belongs to no die, so that die scope reaches every die as pkg scope does (log 20). -/
def State.acquireScope (s : State) (scope : Nat) : State :=
  if scope ≤ 1 then s
  else
    let s := s.rem.foldl (fun (s : State) e => s.writeBack e.1 e.2) s
    let s := { s with rem := [], l1 := [] }
    (s.dirs.map (·.1)).foldl (fun (s : State) k => s.setDir k { s.dir k with ptrs := [], table := [] }) s

/-- `cache.clean` at a scope over all lines: dirty remote bytes are written back. -/
def State.releaseScope (s : State) (_scope : Nat) : State := s.cleanLines (fun _ => true)

/-! ### Completion (R380, R474) -/

/-- A packet is complete: its release scope acts, the read index moves, the completion event is signalled. -/
def State.completePacket (s : State) (q i : Nat) : State :=
  match s.queue q with
  | none => s
  | some x =>
    match x.pkts.find i with
    | none => s
    | some p =>
      if x.status.get 0 i = 2 then s
      else
        let s := (s.releaseScope (pkRelease p)).markPacket q i 2
        if pk p 10 1 % 2 = 1 then (s.eventSig (pk p 8 2) 1).1 else s

/-- PACKET_COMPLETION. -/
def execPacketCompletion (q i : Nat) (s : State) : Host.Outcome State Fault Refusal := .next (s.completePacket q i)

/-- A packet that is not executed (R474): condition 7 on its queue's error queue; it is complete for the index order only. -/
def State.rejectPacket (s : State) (q i tag : Nat) (o : Offence) : State :=
  (s.report (some q) { cls := 7, reach := 1, tag := tag, detail := [(64, 1, 7), (68, 2, o.1), (70, 1, o.2)] }).markPacket q i 2

/-! ### Reading packets (R378, R475) -/

/-- The act of a packet's type. -/
def packetAct (q i : Nat) (p : BitVec 1024) : Instr :=
  match pkType p with
  | 0 => .nopPacket q i
  | 1 => .launchPacket q i
  | 2 => .graphPacket q i
  | 3 => .copyPacket q i
  | 4 => .signalPacket q i
  | 5 => .waitPacket q i
  | _ => .fencePacket q i

/-- The record image of a LAUNCH packet, with the bytes of its footprint descriptors (R381). -/
def launchRecord (q : Nat) (x : Queue) (p : BitVec 1024) (foot : Nat) : BitVec 2048 :=
  let prio := if pkQp p then x.prio else pk p 2 1 % 8
  let d1 := 2 * 2 ^ 60 + pk p 24 1 % 32 * 2 ^ 55 + pk p 25 1 % 16 * 2 ^ 51 + prio * 2 ^ 48 + pk p 26 1 / 2 % 2 * 2 ^ 47 +
    pk p 26 1 % 2 * 2 ^ 46 + pk p 27 1 % 16 * 2 ^ 42 + pk p 28 4 % 2 ^ 17
  let d2 := pk p 36 4 * 2 ^ 32 + pk p 32 4
  let d7 := pk p 64 2 * 2 ^ 48 + pk p 66 2 * 2 ^ 32 + b2n (pkQp p) * 2 ^ 27 + q * 2 ^ 17
  let ds := [pk p 16 8, d1, d2, x.desc.gvroot.toNat, pk p 40 8, pk p 48 8, pk p 56 8, d7, pk p 72 8, pk p 80 8, pk p 88 8, pk p 96 8]
  (ds.zipIdx.foldl (fun (r : BitVec 2048) d => setRecD r d.2 (wd d.1)) 0) ||| BitVec.ofNat 2048 (foot * 2 ^ 768)

/-- The packet byte that a byte of the record image is taken from. -/
def launchByte (o : Nat) : Nat :=
  if o < 8 then 16 + o else if o = 8 then 28 else if o = 13 then 27 else if o < 16 then 24
  else if 32 ≤ o && o < 56 then o + 8 else if 56 ≤ o && o < 64 then 64 else if 64 ≤ o && o < 96 then o + 8 else if 96 ≤ o then 104 else 16

/-- The footprint descriptors that a LAUNCH packet names. -/
def State.launchFoot (s : State) (x : Queue) (p : BitVec 1024) : Option Nat :=
  let fa := pk p 104 8
  if fa = 0 then some 0 else (s.readRange x.desc.gvroot 2 fa 80).map leNat

/-- The offences of a LAUNCH packet's record image (11 R322), but for those of D1, whose packet bytes have ranges of their own; descriptors that
cannot be read are reason 3 (log 17). -/
def State.launchBad (s : State) (q : Nat) (x : Queue) (p : BitVec 1024) : List Offence :=
  match s.launchFoot x p with
  | none => if globalAddr (pk p 104 8) then [(104, 3)] else []
  | some foot => (recordBad (launchRecord q x p foot)).filterMap (fun o => if 8 ≤ o && o < 16 then none else some (launchByte o, 2))

/-- The offences that a packet is met with as it is read: of its own bytes, and of a LAUNCH that has any those of its record image too (R475). -/
def State.offences (s : State) (q : Nat) (x : Queue) (p : BitVec 1024) : List Offence :=
  let l := packetBad p
  if l.isEmpty || pkType p ≠ 1 then l else l ++ s.launchBad q x p

/-- Packet i of a queue is read and checked. -/
def State.readPacket (s : State) (q i : Nat) : State :=
  match s.queue q with
  | none => s
  | some x =>
    let keep (s : State) (p : BitVec 1024) : State := s.setQueue q { x with pkts := x.pkts.put i p, write := (i + 1) % 2 ^ 32 }
    match s.packetAt x i with
    | none => (keep s 0).rejectPacket q i 0 (0, 3)
    | some p =>
      match firstOffence (s.offences q x p) with
      | some o => (keep s p).rejectPacket q i (pkTag p) o
      | none => (keep s p).post (packetAct q i p)

/-- A write index too far ahead stops the queue: condition 8 (R475). -/
def State.stopQueue (s : State) (q w : Nat) : State :=
  match s.queue q with
  | none => s
  | some x =>
    (s.setQueue q { x with stopped := true }).report (some q) { cls := 7, reach := 5, detail := [(64, 1, 8), (68, 4, w), (72, 4, x.read)] }

/-- COMMAND_QUEUE_DOORBELL: the active complex reads the packets up to the write index; none from an error queue, a stopped queue, while the
package is quiesced, or with no complex running; none yet while an update pauses it (R388). -/
def execCommandQueueDoorbell (q : Nat) (s : State) : Host.Outcome State Fault Refusal :=
  match s.queue q with
  | none => .next s
  | some x =>
    if s.cx.pause.isSome then .next (s.post (.commandQueueDoorbell q))
    else if x.isErr || x.stopped || s.owner.quiesced || (s.cx.failedA && s.cx.failedB) then .next s
    else match s.writeIndex x with
      | none => .next s
      | some w =>
        if ahead w x.read > x.size then .next (s.stopQueue q w)
        else
          let n := ahead w x.read - ahead x.write x.read
          .next ((List.range n).foldl (fun (s : State) i => s.readPacket q ((x.write + i) % 2 ^ 32)) s)

/-! ### Starting packets (R380) -/

/-- What a packet's work comes to as it starts; one refused after slots of some dies had been taken gives these back. -/
inductive PacketWork where
  | complete (s : State)
  | running (s : State)
  | refuse (o : Offence) (dies : List Nat)
  | later

/-- Slots for entries, in order, each on its die. -/
def State.allocFor (s : State) (die : Nat → Nat) : List Nat → Option (State × List (Nat × Nat))
  | [] => some (s, [])
  | j :: js => (s.allocSlot (die j)).bind (fun (s, k) => (s.allocFor die js).map (fun (s, l) => (s, (j, k) :: l)))

/-- Slots taken in order, each on a die, and freed again: they go to the tails of the free lists (11 R320, R382). -/
def State.takeAndFree (s : State) (dies : List Nat) : State :=
  match s.allocFor id dies with
  | none => s
  | some (s, l) => l.foldl (fun (s : State) e => s.freeSlot e.2) s

/-- A packet starts once it may: the acquire scope acts, then the work. -/
def State.startPacket (s : State) (q i : Nat) (act : Instr) (work : State → Queue → BitVec 1024 → PacketWork) :
    Host.Outcome State Fault Refusal :=
  match s.queue q with
  | none => .next s
  | some x =>
    match x.pkts.find i with
    | none => .next s
    | some p =>
      if x.status.get 0 i ≠ 0 || packetAct q i p != act then .next s
      else if !x.mayStart i (pkBarrier p) then .next (s.post act)
      else match work ((s.acquireScope (pkAcquire p)).markPacket q i 1) x p with
        | .complete s => .next (s.completePacket q i)
        | .running s => .next s
        | .refuse o dies => .next ((s.takeAndFree dies).rejectPacket q i (pkTag p) o)
        | .later => .next (s.post act)

/-- NOP_PACKET. -/
def execNopPacket (q i : Nat) (s : State) : Host.Outcome State Fault Refusal :=
  s.startPacket q i (.nopPacket q i) (fun s _ _ => .complete s)
/-- FENCE_PACKET: its scopes are its work. -/
def execFencePacket (q i : Nat) (s : State) : Host.Outcome State Fault Refusal :=
  s.startPacket q i (.fencePacket q i) (fun s _ _ => .complete s)
/-- SIGNAL_PACKET: `evsig` of the amount (08 R226). -/
def execSignalPacket (q i : Nat) (s : State) : Host.Outcome State Fault Refusal :=
  s.startPacket q i (.signalPacket q i) (fun s _ p => .complete (s.eventSig (pk p 16 2) (pk p 18 2)).1)
/-- WAIT_PACKET: parked in the spillway until the event fires (11 R338); on a Fired event complete. -/
def execWaitPacket (q i : Nat) (s : State) : Host.Outcome State Fault Refusal :=
  s.startPacket q i (.waitPacket q i) (fun s _ p =>
    let e := pk p 16 2
    if (s.event e).state = 2 then .complete s
    else match s.queue q with
      | none => .later
      | some x => .running ((s.setQueue q { x with parked := x.parked ++ [(i, e)] }).spillWaiter e (.queue q)))

/-! ### COPY (R380, R474, 10 R298) -/

/-- The addresses at which the pages of a range begin. -/
def pageStarts (va n : Nat) : List Nat :=
  if n = 0 then [] else (List.range ((va + n + 4095) / 4096 - va / 4096)).map (fun i => max va ((va / 4096 + i) * 4096))

/-- The translations of a range that passes translation and the permission of a kind. -/
def State.rangeLeaves (s : State) (root : Word) (kind va n : Nat) : Option (List TlbEnt) :=
  (pageStarts va n).mapM (fun a =>
    if a ≥ 2 ^ 57 then none
    else match s.translate (.die 0) root a with
      | .error _ => none
      | .ok l => if (l.refuse kind true).isSome then none else some ⟨asidOf root, a / 4096, l⟩)

/-- COPY_PACKET: a copy on path 2 between global addresses, by the translations that its check has found (22 R449). -/
def execCopyPacket (q i : Nat) (s : State) : Host.Outcome State Fault Refusal :=
  s.startPacket q i (.copyPacket q i) (fun s x p =>
    let src := pk p 16 8
    let dst := pk p 24 8
    let n := pk p 32 8
    let root := x.desc.gvroot
    match s.rangeLeaves root 1 src n, s.rangeLeaves root 2 dst n with
    | none, _ => .refuse (16, 4) []
    | some _, none => .refuse (24, 4) []
    | some ks, some kd =>
      if n = 0 then .complete s
      else
        let d := match kd.head? with
          | some e => homeDie (e.leaf.pa dst) % 16
          | none => 0
        let y : Xfer := { op := s.nextOp, q := q, task := i, agent := ⟨d * 160, 14⟩, hand := true, kind := 5, root := root, src := wd src,
                          dsts := [{ addr := wd dst }], row := n, checked := true, kept := (ks ++ kd).dedup }
        .running ({ s with xfers := s.xfers ++ [y], nextOp := s.nextOp + 1,
                           ops := s.ops.put y.op { agent := y.agent, path := 2, kw := 0 } }.post (.transferCompletion y.op)))

/-! ### LAUNCH (R381) -/

/-- The key of a packet's launch. -/
def launchId (q i : Nat) : Nat := q * 2 ^ 32 + i

/-- A dispatcher keeps the last 64 packets handed to it from a queue (23 R480). -/
def State.noteTaken (s : State) (d q i : Nat) : State :=
  let x := s.die d
  s.setDie d { x with taken := x.taken.set [] q ((i :: x.taken.get [] q).take 64) }

/-- A launch begins: its tasks are watched by sweeps (02 R56). -/
def State.beginLaunch (s : State) (q i : Nat) (ks : List Nat) : State :=
  let id := launchId q i
  let s := ks.foldl (fun (s : State) k => s.setTask k { s.task k with owner := some id }) s
  { s with launches := s.launches.put id { queue := q, idx := i, tasks := ks } }.post (.launchSweep id)

/-- LAUNCH_PACKET: one record, written by the dispatcher of the named die and made Eligible. -/
def execLaunchPacket (q i : Nat) (s : State) : Host.Outcome State Fault Refusal :=
  s.startPacket q i (.launchPacket q i) (fun s x p =>
    match firstOffence (s.launchBad q x p) with
    | some o => .refuse o []
    | none =>
      let d := pk p 26 1 / 4 % 16
      match s.allocSlot d with
      | none => .later
      | some (s, k) =>
        let s := ((s.setRecord k (launchRecord q x p ((s.launchFoot x p).getD 0))).noteTaken d q i).beginLaunch q i [k]
        .running (s.countZero k))

/-! ### GRAPH (R382, 11 R323, R333, R486, 23 R471) -/

/-- Entry j of a graph image. -/
def graphEntry (bs : List Byte) (j : Nat) : BitVec 2048 := BitVec.ofNat 2048 (leNat ((bs.drop (256 * j)).take 256))

/-- The entries of a chain of overflow blocks from an index on, which the image names at byte `o`; and the byte that names one that leaves the image,
meets a taken entry or changes die (R486). -/
def graphChain (es : List (BitVec 2048)) (die : Nat → Nat) (n d : Nat) (taken : Nat → Bool) :
    Nat → Nat → Option Nat → List Nat → List Nat × List Offence
  | _, _, none, seen => (seen, [])
  | 0, o, some _, seen => (seen, [(o, 1)])
  | fuel + 1, o, some j, seen =>
    if j ≥ n || taken j || seen.contains j || die j ≠ d then (seen, [(o, 1)])
    else graphChain es die n d taken fuel (256 * j) (blockNext ((es[j]?).getD 0)) (seen ++ [j])

/-- Which entries are overflow blocks, by owner: the records of an image in order, each with its chain; and the offences of the chains. Blocks
follow the records (R382), so that an entry is a record unless an earlier chain has reached it. -/
def graphRecords (es : List (BitVec 2048)) (die : Nat → Nat) (n : Nat) : List (Nat × List Nat) × List Offence :=
  (List.range n).foldl (fun (acc : List (Nat × List Nat) × List Offence) j =>
    let l := acc.1
    if l.any (fun p => p.2.contains j) then acc
    else
      let taken (i : Nat) : Bool := i == j || l.any (fun p => p.1 == i || p.2.contains i)
      let (c, bad) := graphChain es die n (die j) taken (n + 1) (256 * j + 176) (recOv ((es[j]?).getD 0)) []
      (l ++ [(j, c)], acc.2 ++ bad)) ([], [])

/-- A successor word of an image names an entry. -/
def wordIndex (w : BitVec 32) : Option Nat := if w.getLsbD 31 && w.getLsbD 30 then some (w.toNat % 2 ^ 30) else none

/-- The byte offsets, from a base, of the words that name no record entry. -/
def wordsBad (isRec : Nat → Bool) (base : Nat) (ws : List (BitVec 32)) : List Offence :=
  ws.zipIdx.flatMap (fun p => match wordIndex p.1 with
    | some j => offend (base + 4 * p.2) 1 (j ≥ 65536 || !isRec j)
    | none => [])

/-- A successor word with the identifier of its entry put in. -/
def wordPut (tid : Nat → Nat) (w : BitVec 32) : BitVec 32 :=
  match wordIndex w with
  | some j => BitVec.ofNat 32 (2 ^ 31 + tid j)
  | none => w

/-- Words put into a record or block from doubleword n on. -/
def putWords (r : BitVec 2048) (n : Nat) (ws : List (BitVec 32)) : BitVec 2048 :=
  ws.zipIdx.foldl (fun (a : BitVec 2048) p => setRecF a (n + p.2 / 2) (32 * (p.2 % 2) + 31) (32 * (p.2 % 2)) p.1.toNat) r

/-- The record made of an image entry (R382): Pending or a template, the queue's fields, its successors and chain. -/
def graphRecord (q : Nat) (x : Queue) (qp : Bool) (tid slot : Nat → Nat) (chain : List Nat) (r : BitVec 2048) : BitVec 2048 :=
  let st := if recState r = 1 then 1 else 2
  let r := setRecD (setRecF (setRecF (setRecF r 1 63 60 st) 7 26 17 q) 7 27 27 (b2n qp)) 3 x.desc.gvroot
  let r := setRecD (if qp then setRecF r 1 50 48 x.prio else r) 23 0
  let r := match chain with
    | [] => r
    | b :: _ => setRecF r 22 15 0 (slot b % 65536)
  putWords r 24 ((succWords r).map (wordPut tid))

/-- The block made of an image entry. -/
def graphBlock (tid slot : Nat → Nat) (b : BitVec 2048) : BitVec 2048 :=
  let b := match blockNext b with
    | some j => setRecF b 0 15 0 (slot j % 65536)
    | none => b
  putWords b 1 ((blockWords b).map (wordPut tid))

/-- The offences of a graph image before it is written, at byte offsets of the image modulo 2^16. -/
def graphBad (es : List (BitVec 2048)) (die : Nat → Nat) (n : Nat) (recs : List (Nat × List Nat)) : List Offence :=
  let isRec (j : Nat) : Bool := recs.any (fun p => p.1 == j)
  let named := recs.flatMap (fun p => (succWords ((es[p.1]?).getD 0) ++ p.2.flatMap (fun b => blockWords ((es[b]?).getD 0))).filterMap wordIndex)
  let one (p : Nat × List Nat) : List Offence :=
    let r := (es[p.1]?).getD 0
    offend (256 * p.1 + 15) 0 (recState r > 1) ++ offend (256 * p.1 + 11) 1 (named.count p.1 > 4095) ++
      wordsBad isRec (256 * p.1 + 192) (succWords r) ++
      p.2.flatMap (fun b => wordsBad isRec (256 * b + 8) (blockWords ((es[b]?).getD 0)))
  recs.flatMap one ++ (List.range n).flatMap (fun j => offend (256 * n + j) 1 (die j > 15))

/-- Every record and block of a graph written into its slot. -/
def State.writeGraph (s : State) (q : Nat) (x : Queue) (qp : Bool) (es : List (BitVec 2048)) (recs : List (Nat × List Nat))
    (slots : List (Nat × Nat)) : State :=
  let slot (j : Nat) : Nat := ((slots.find? (fun p => p.1 == j)).map (·.2)).getD 0
  let tid (j : Nat) : Nat := s.tid (slot j)
  recs.foldl (fun (s : State) p =>
    let s := s.setRecord (slot p.1) (graphRecord q x qp tid slot p.2 ((es[p.1]?).getD 0))
    p.2.foldl (fun (s : State) b => (s.setRecord (slot b) (graphBlock tid slot ((es[b]?).getD 0))).setBlock (slot b) 9) s) s

/-- The offences that R322 and R333 find in the records written. -/
def State.graphRefused (s : State) (recs : List (Nat × List Nat)) (slots : List (Nat × Nat)) : List Offence :=
  recs.flatMap (fun p =>
    match slots.find? (fun e => e.1 == p.1) with
    | none => []
    | some (_, k) =>
      (match s.refuses k (s.record k) with
       | some o => [(256 * p.1 + o, 2)]
       | none => []) ++ offend (256 * p.1 + 224) 1 ((s.streamGroup k).length > 16))

/-- The offences of the record images themselves (11 R322), their peers apart. -/
def recordsBad (q : Nat) (x : Queue) (qp : Bool) (es : List (BitVec 2048)) (recs : List (Nat × List Nat)) : List Offence :=
  recs.flatMap (fun p => (recordBad (graphRecord q x qp id id p.2 ((es[p.1]?).getD 0))).map (fun o => (256 * p.1 + o, 2)))

/-- A graph image is refused for an offence; where that is one of R322, the records written before are freed again with all the image's slots. -/
def graphRefusal (dies : List Nat) (o : Offence) : PacketWork := .refuse (o.1 % 65536, o.2) (if o.2 = 2 then dies else [])

/-- GRAPH_PACKET: every record is written before any with counter 0 is made Eligible; templates are never waited for. The lowest offending byte of the
image counts, of whichever check (R475); for want of slots the packet waits, unless the image is refused for what it holds. -/
def execGraphPacket (q i : Nat) (s : State) : Host.Outcome State Fault Refusal :=
  s.startPacket q i (.graphPacket q i) (fun s x p =>
    let n := pk p 24 4
    match s.readRange x.desc.gvroot (257 * n / 4096 + 2) (pk p 16 8) (257 * n) with
    | none => .refuse (16, 3) []
    | some bs =>
      let es := (List.range n).map (graphEntry bs)
      let dies := bs.drop (256 * n)
      let die (j : Nat) : Nat := ((dies[j]?).getD 0).toNat
      let (recs, chains) := graphRecords es die n
      let bad := chains ++ graphBad es die n recs ++ recordsBad q x (pkQp p) es recs
      let found := if (List.range n).all (fun j => die j ≤ 15) then s.allocFor die (List.range n) else none
      match found, firstOffence bad with
      | none, none => .later
      | none, some o => graphRefusal [] o
      | some (s, slots), _ =>
        let s := s.writeGraph q x (pkQp p) es recs slots
        match firstOffence (bad ++ s.graphRefused recs slots) with
        | some o => graphRefusal ((List.range n).map die) o
        | none =>
          let ks := (slots.filter (fun e => recs.any (fun p => p.1 == e.1))).map (·.2)
          let run := ks.filter (fun k => recState (s.record k) = 2)
          let s := ((slots.map (fun e => e.2 / 65536)).dedup).foldl (fun (s : State) d => s.noteTaken d q i) s
          if run.isEmpty then .complete s
          else
            let s := s.beginLaunch q i run
            .running (run.foldl (fun (s : State) k =>
              if recState (s.record k) = 2 && recCnt (s.record k) = 0 then s.countZero k else s) s))

end Sys2Proof.Machine
end

