-- ==== Sys2Proof/Machine/Host.lean ====
section
/-! DEFINITION. Control messages, ownership, leases, live update, attestation, quiescence and recovery (14_host_pod_firmware.md R377, R383 to
R392, 23_engine_fabric_host_faults.md R467 to R473, R479 to R481). -/

namespace Sys2Proof.Machine

/-! ### Replies and permission (R385, R386) -/

/-- Cycles of a millisecond (23 R473). -/
def perMs : Nat := 3600000

/-- A queue pair with what is known of its connection; the package holds at most 4,096 (R375). -/
def bindQp {α : Type} (m : SMap α) (qp : Nat) (a : α) : SMap α := if (m.find qp).isNone && m.length ≥ 4096 then m else m.put qp a

/-- A queue pair's host port; one in the error state (256) stays in it (23 R481). -/
def bindPort (m : SMap Nat) (qp : Nat) (port : Fin 8) : SMap Nat := if m.find qp = some 256 then m else bindQp m qp port.val

/-- The answer to a control message of a type; the sender's queue pair and its host are known from then on. -/
def State.answerTo (s : State) (m : Msg) (typ st : Nat) (data : List Byte) : State :=
  { s with replies := s.replies ++ [{ qp := m.qp, tag := m.tag, status := st, data := data, type := typ % 2 ^ 15 + 2 ^ 15 }],
           qps := bindPort s.qps m.qp m.port, hosts := bindQp s.hosts m.qp m.key }

/-- The SEND of a reply (R386, Table — Control message frame). -/
def Reply.bytes (r : Reply) : List Byte := leBytes 2 r.type ++ leBytes 1 r.status ++ leBytes 1 0 ++ leBytes 4 r.tag ++ r.data

/-- The cycle up to which a lease runs without a heartbeat (R384). -/
def Owner.deadline (o : Owner) : Nat := o.beatAt + 3 * o.beatMs * perMs

/-- A lease whose three intervals have passed, but for a heartbeat in the last one's cycle, and no update pauses (R384, R388). -/
def State.lapsed (s : State) : Bool := s.owner.digest.isSome && s.cx.pause.isNone && decide (s.owner.deadline < s.time)

/-- A lapse (R384): there is no owner, and the claim nonce changes; queues and work go on. -/
def State.lapse (s : State) : State := { s with owner := { s.owner with digest := none, nonce := Config.nonce s.fc, heir := none } }

/-- A lapse that is due has taken effect before a message is looked at. -/
def State.due (s : State) : State := if s.lapsed then s.lapse else s

/-- A message that only the owner may send: status 1 for another host, 2 where it is malformed, 3 where the state refuses it. -/
def State.ownerMsg (s : State) (m : Msg) (typ : Nat) (bad refused : Bool) (go : State → State) : Host.Outcome State Fault Refusal :=
  let s := s.due
  if s.owner.digest ≠ some m.key then .next (s.answerTo m typ 1 [])
  else if bad then .next (s.answerTo m typ 2 [])
  else if refused then .next (s.answerTo m typ 3 [])
  else .next ((go s).answerTo m typ 0 [])

/-- RESERVED_CONTROL_MESSAGE (R386): a SEND that `sendAct` finds malformed. -/
def execReservedControlMessage (m : Msg) (s : State) : Host.Outcome State Fault Refusal := .next (s.answerTo m m.typ 2 [])

/-! ### The bytes of a control message (R386, 23 R468) -/

/-- The fewest bytes of a message's body, by type. -/
def bodyBytes : Nat → Option Nat
  | 1 => some 201
  | 2 => some 4
  | 3 => some 48
  | 4 => some 72
  | 5 => some 8
  | 6 => some 8
  | 7 => some 4
  | 8 => some 24
  | 9 => some 72
  | 10 => some 0
  | 11 => some 0
  | 12 => some 32
  | 13 => some 8
  | 14 => some 7
  | 15 => some 5
  | _ => none

/-- The body bytes of a message that are zero, by type. -/
def bodyZeros : Nat → List (Nat × Nat)
  | 1 => [(194, 6)]
  | 4 => [(2, 6), (44, 28)]
  | 5 => [(2, 6)]
  | 6 => [(3, 5)]
  | 8 => [(19, 1)]
  | 9 => [(17, 7)]
  | 13 => [(2, 6)]
  | _ => []

/-- A SEND is a control message: its type exists, it is as long as its body and no longer than 4,096 bytes, and the bytes marked zero are. -/
def sendOk (bs : List Byte) : Bool :=
  let t := leNat (bs.take 2)
  let b := bs.drop 8
  let at_ (o n : Nat) : Nat := leNat ((b.drop o).take n)
  decide (8 ≤ bs.length) && decide (bs.length ≤ 4096) && leNat ((bs.drop 2).take 2) == 0 &&
    (match bodyBytes t with
     | none => false
     | some n => decide (n ≤ b.length) && (bodyZeros t).all (fun z => at_ z.1 z.2 == 0) && (t != 1 || decide (200 + at_ 192 2 ≤ b.length)))

/-- The act of a SEND of a host over one of its queue pairs; `carried` is what the image that an UPDATE names carries: its stage and the state-table
versions that it imports. -/
def sendAct (key : BitVec 384) (qp : Nat) (port : Fin 8) (carried : Signed × Nat × Nat) (bs : List Byte) : Instr :=
  let t := leNat (bs.take 2)
  let m : Msg := { key := key, qp := qp, port := port, tag := leNat ((bs.drop 4).take 4), typ := t }
  let b := bs.drop 8
  let at_ (o n : Nat) : Nat := leNat ((b.drop o).take n)
  let w (o : Nat) : Word := wd (at_ o 8)
  if !sendOk bs then .reservedControlMessage m
  else match t with
    | 1 => .claim m { pub := BitVec.ofNat 768 (at_ 0 96), sigR := BitVec.ofNat 384 (at_ 96 48), sigS := BitVec.ofNat 384 (at_ 144 48),
                      chain := (b.drop 200).take (at_ 192 2) }
    | 2 => .heartbeat m (at_ 0 4)
    | 3 => .handover m (BitVec.ofNat 384 (at_ 0 48))
    | 4 => .qcreate m (at_ 0 2) { base := w 8, log := at_ 16 1, prio := at_ 17 1, errq := at_ 18 2, qp := at_ 20 4, gvroot := w 24, widx := w 32 }
    | 5 => .qdestroy m (at_ 0 2)
    | 6 => .qprio m (at_ 0 2) (at_ 2 1)
    | 7 => .setlimit m (at_ 0 4)
    | 8 => .mreg m { base := w 0, len := at_ 8 8, asid := at_ 16 2, rights := BitVec.ofNat 8 (at_ 18 1), qp := at_ 20 4 }
    | 9 => .update m { addr := w 0, len := at_ 8 8, reg := at_ 16 1, digest := BitVec.ofNat 384 (at_ 24 48), stage := carried.1,
                       minVer := carried.2.1, maxVer := carried.2.2 }
    | 10 => .quiesce m
    | 11 => .resume m
    | 12 => .report m (BitVec.ofNat 256 (at_ 0 32))
    | 13 => .status m (at_ 0 2)
    | 14 => .frestore m (at_ 0 4) (at_ 4 2) (at_ 6 1 % 2 == 1)
    | _ => .fdiscard m (at_ 0 4) (at_ 4 1 % 2 == 1)

/-! ### Ownership (R383, R384, R387) -/

/-- A measurement register is extended by a digest (R389). -/
def State.extendMr (s : State) (r : Nat) (d : BitVec 384) : State :=
  let old := s.mr.get 0 r
  { s with mr := s.mr.set 0 r (Config.sha384 (leBytes 48 old.toNat ++ leBytes 48 d.toNat)) }

/-- A claim carries a chain to the owner authority and a signature over the claim nonce. -/
def State.claimValid (s : State) (c : ClaimBody) : Bool :=
  Config.chainValid c.chain c.pub && Config.ecdsaVerify c.pub (Config.sha384 (leBytes 32 s.owner.nonce.toNat)) c.sigR c.sigS

/-- The device has a new owner: the nonce changes, MR4 is extended, the lease starts. -/
def State.elect (s : State) (d : BitVec 384) : State :=
  let s := { s with owner := { digest := some d, nonce := Config.nonce s.fc, beatMs := 100, beatAt := s.time, heir := none, heirAt := 0,
                               quiesced := s.owner.quiesced } }.extendMr 4 d
  if s.agenda.contains .leaseLapse then s else s.post .leaseLapse

/-- CLAIM: by any host while there is no owner, or by the named successor while a handover is pending. -/
def execClaim (m : Msg) (c : ClaimBody) (s : State) : Host.Outcome State Fault Refusal :=
  let s := s.due
  let d := Config.sha384 (leBytes 96 c.pub.toNat)
  let may := s.owner.digest.isNone || (s.owner.heir == some d && decide (s.time < s.owner.heirAt))
  if !may then .next (s.answerTo m 1 1 [])
  else if c.chain.length < 1 || c.chain.length > 3888 then .next (s.answerTo m 1 2 [])
  else if !s.claimValid c then .next (s.answerTo m 1 1 [])
  else .next ((s.elect d).answerTo m 1 0 [])

/-- HEARTBEAT: the lease is renewed, and takes a new interval; one that comes while an update pauses the active complex is held (R388). -/
def execHeartbeat (m : Msg) (ms : Nat) (s : State) : Host.Outcome State Fault Refusal :=
  if s.cx.pause.isSome then .next (s.post (.heartbeat m ms))
  else s.ownerMsg m 2 (ms != 0 && (ms < 10 || ms > 10000)) false (fun s =>
    { s with owner := { s.owner with beatAt := s.time, beatMs := if ms = 0 then s.owner.beatMs else ms } })

/-- HANDOVER: the successor named may claim within a second. -/
def execHandover (m : Msg) (digest : BitVec 384) (s : State) : Host.Outcome State Fault Refusal :=
  s.ownerMsg m 3 false false (fun s =>
    { s with owner := { s.owner with heir := some digest, heirAt := s.time + 1000 * perMs } }.post .handoverLapse)

/-- LEASE_LAPSE: three intervals without a heartbeat end the ownership; queues and work go on. -/
def execLeaseLapse (s : State) : Host.Outcome State Fault Refusal :=
  match s.owner.digest with
  | none => .next s
  | some _ =>
    if s.cx.pause.isSome || s.time < s.owner.deadline then .next (s.post .leaseLapse) else .next s.lapse

/-- HANDOVER_LAPSE: a second without the successor's claim. -/
def execHandoverLapse (s : State) : Host.Outcome State Fault Refusal :=
  match s.owner.heir with
  | none => .next s
  | some _ => if s.time < s.owner.heirAt then .next (s.post .handoverLapse) else .next { s with owner := { s.owner with heir := none } }

/-! ### Queues and regions (R376, R377, R385, R429, 11 R342) -/

/-- A descriptor's fields out of their ranges. -/
def descBad (d : QueueDesc) : Bool :=
  !globalAddr d.base.toNat || d.base.toNat % 4096 != 0 || d.log < 4 || d.log > 16 || d.prio > 7 || d.errq > 1023 || !globalAddr d.widx.toNat

/-- A queue has packets that are not yet read. -/
def State.unread (s : State) (x : Queue) : Bool :=
  match s.writeIndex x with
  | some w => w != x.write
  | none => false

/-- Whether an error queue may be named: another existing queue that is an error queue already, or has no unread packets; the first queue names one that does not exist yet
(log 20). -/
def State.errqOk (s : State) (q e : Nat) : Bool :=
  q != e && (match s.queue e with
    | some x => x.isErr || !s.unread x
    | none => s.queues.isEmpty)

/-- QCREATE. -/
def execQcreate (m : Msg) (q : Nat) (d : QueueDesc) (s : State) : Host.Outcome State Fault Refusal :=
  s.ownerMsg m 4 (q > 1023 || descBad d) ((s.queue q).isSome || !s.errqOk q d.errq) (fun s =>
    let s := match s.queue d.errq with
      | some e => s.setQueue d.errq { e with isErr := true }
      | none => s
    let named := s.queues.any (fun e => e.2.desc.errq == q)
    let s := s.setQueue q { desc := d, base := d.base, size := 2 ^ d.log, prio := d.prio, isErr := named }
    let s := { s with qps := bindPort s.qps d.qp m.port, hosts := bindQp s.hosts d.qp m.key }
    if s.agenda.contains .queueWaitCycleSweep then s else { s with sweepAt := s.time + perMs }.post .queueWaitCycleSweep)

/-- QDESTROY: it waits until the queue's packets are complete. -/
def execQdestroy (m : Msg) (q : Nat) (s : State) : Host.Outcome State Fault Refusal :=
  let s := s.due
  if s.owner.digest ≠ some m.key then .next (s.answerTo m 5 1 [])
  else if q > 1023 then .next (s.answerTo m 5 2 [])
  else match s.queue q with
    | none => .next (s.answerTo m 5 3 [])
    | some x =>
      if !x.pkts.isEmpty || (!x.isErr && !x.stopped && s.unread x) then .next (s.post (.qdestroy m q))
      else .next ({ s with queues := s.queues.del q }.answerTo m 5 0 [])

/-- QPRIO: the queue's Pending and Eligible records take the priority at the times of 02 R47. A stopped queue refuses it (23 R475). -/
def execQprio (m : Msg) (q prio : Nat) (s : State) : Host.Outcome State Fault Refusal :=
  let gone := match s.queue q with
    | some x => x.stopped
    | none => true
  s.ownerMsg m 6 (q > 1023 || prio > 7) gone (fun s =>
    match s.queue q with
    | none => s
    | some x =>
      let s := s.setQueue q { x with prio := prio }
      let mine := (s.recs.filter (fun e => recQv e.2 && recQueue e.2 == q && (s.slotState e.1 == 2 || s.slotState e.1 == 3))).map (·.1)
      mine.foldl (fun (s : State) k =>
        let s := s.setTask k { s.task k with newPrio := some prio }
        if s.slotState k = 3 then s.wake (k / 65536) else s) s)

/-- SETLIMIT (01 R22): the account takes the limit at its next refill. -/
def execSetlimit (m : Msg) (watts : Nat) (s : State) : Host.Outcome State Fault Refusal :=
  s.ownerMsg m 7 (watts < 1000 || watts > 6000) false (fun s => { s with limit := watts })

/-- A remote key that no region has. -/
def State.freshKey (s : State) : Nat :=
  let k := (Config.nonce s.fc).toNat % 2 ^ 32
  if (s.regions.find k).isNone then k else ((List.range (s.regions.length + 1)).find? (fun i => (s.regions.find i).isNone)).getD 0

/-- MREG: the reply carries the remote key. -/
def execMreg (m : Msg) (r : RegionDesc) (s : State) : Host.Outcome State Fault Refusal :=
  let bad := !globalAddr r.base.toNat || r.base.toNat % 4096 != 0 || r.len % 4096 != 0 || r.len < 4096 || r.rights.toNat > 7 || r.asid > 65535
  let s := s.due
  if s.owner.digest ≠ some m.key then .next (s.answerTo m 8 1 [])
  else if bad then .next (s.answerTo m 8 2 [])
  else
    let k := s.freshKey
    .next ({ s with regions := s.regions.put k { desc := r, key := k } }.answerTo m 8 0 (leBytes 4 k))

/-! ### Live update (R388, R389) and failover (23 R480) -/

/-- An image verifies: its bytes have the digest signed by the vendor key. -/
def State.stageValid (s : State) (u : UpdateBody) : Bool :=
  Config.ecdsaVerify Config.vendorKey u.stage.digest u.stage.sigR u.stage.sigS &&
    (match s.readRange (Config.firmwareSpace 0) (u.len / 4096 + 2) u.addr.toNat u.len with
     | some bs => Config.sha384 bs == u.stage.digest
     | none => false)

/-- The complex that is not active runs. -/
def Complex.standbyRuns (c : Complex) : Bool := if c.active = 0 then !c.failedB else !c.failedA

/-- No packet is between being read and being handed on: every packet read has started (R388 step 4). -/
def State.atBoundary (s : State) : Bool := s.queues.all (fun e => e.2.pkts.all (fun p => e.2.status.get 0 p.1 != 0))

/-- The standby, which has booted the image, takes over the state table, and the former active boots the image too and is measured; the lease is longer
by the pause (R388 steps 5 to 7). The version of the new firmware's state table is free. -/
def State.swapComplex (s : State) (u : UpdateBody) (since : Nat) : State :=
  let nxt := 1 - s.cx.active
  let s := { s with cx := { s.cx with active := nxt, version := Config.freePick s.fc % 2 ^ 32, pause := none },
                    owner := { s.owner with beatAt := s.owner.beatAt + (s.time - since) } }.extendMr (2 - nxt) u.stage.digest
  let s := if u.reg = 0 then s else s.extendMr u.reg u.digest
  s.queues.foldl (fun (s : State) e => s.post (.commandQueueDoorbell e.1)) s

/-- UPDATE: an image that verifies is booted by the standby, and measured, before the version check can refuse it; then the active reads no packet until
it stands at a quiescent boundary, and the standby becomes active. -/
def execUpdate (m : Msg) (u : UpdateBody) (s : State) : Host.Outcome State Fault Refusal :=
  let wait (s : State) : State := s.post (.update m u)
  match s.cx.pause with
  | some (since, m') =>
    if m' ≠ m || !s.atBoundary then .next (wait s) else .next ((s.swapComplex u since).answerTo m 9 0 [])
  | none =>
    let s := s.due
    let bad := !(u.reg == 0 || (5 ≤ u.reg && u.reg ≤ 7)) || (u.reg == 0 && u.digest != 0) || !globalAddr u.addr.toNat
    if s.owner.digest ≠ some m.key then .next (s.answerTo m 9 1 [])
    else if bad then .next (s.answerTo m 9 2 [])
    else if !s.stageValid u || !s.cx.standbyRuns then .next (s.answerTo m 9 3 [])
    else
      let s := s.extendMr (2 - s.cx.active) u.stage.digest
      if s.cx.version < u.minVer || u.maxVer < s.cx.version then .next (s.answerTo m 9 3 [])
      else .next (wait { s with cx := { s.cx with pause := some (s.time, m) } })

/-- A dispatcher keeps the tag of a packet that was handed to it. -/
def State.tookPacket (s : State) (q i : Nat) : Bool := s.dies.any (fun d => (d.2.taken.get [] q).contains i)

/-- Packets marked as handed to a die that no dispatcher took, and packets not yet started, are handed on (23 R480). -/
def State.handOn (s : State) : State :=
  let lost (x : Queue) (e : Nat × BitVec 1024) (q : Nat) : Bool :=
    (x.status.get 0 e.1 == 0 || (x.status.get 0 e.1 == 1 && (pkType e.2 == 1 || pkType e.2 == 2) && !s.tookPacket q e.1)) &&
      !s.agenda.contains (packetAct q e.1 e.2)
  s.queues.foldl (fun (s : State) e =>
    ((e.2.pkts.filter (fun p => lost e.2 p e.1)).foldl (fun (s : State) p =>
      (s.markPacket e.1 p.1 0).post (packetAct e.1 p.1 p.2)) s).post (.commandQueueDoorbell e.1)) s

/-- COMPLEX_FAILOVER: a beat missed, the third of which, or an error of the active complex, makes the standby active. -/
def execComplexFailover (activeError : Bool) (s : State) : Host.Outcome State Fault Refusal :=
  let c := s.cx
  if !activeError && c.missed < 2 then .next { s with cx := { c with missed := c.missed + 1 } }
  else
    let dead : Complex := if c.active = 0 then { c with failedA := true } else { c with failedB := true }
    if !c.standbyRuns then .next { s with cx := dead }
    else
      let s := { s with cx := { dead with active := 1 - c.active, missed := 0, pause := none } }
      let s := s.handOn
      .next (s.report none { cls := 5, reach := 5, detail := [(64, 1, 11), (68, 1, 1 - c.active), (72, 4, c.version)] })

/-! ### Attestation and status (R385, R386, R390) -/

/-- REPORT. -/
def execReport (m : Msg) (nonce : BitVec 256) (s : State) : Host.Outcome State Fault Refusal :=
  let body := leBytes 32 nonce.toNat ++ leBytes 2 0x0A10 ++ leBytes 6 0 ++ (List.range 8).flatMap (fun i => leBytes 48 (s.mr.get 0 i).toNat) ++
    leBytes 4 s.cx.version ++ leBytes 4 0 ++ leBytes 8 s.time
  let cert := Config.deviceCert.take 3544
  .next (s.answerTo m 12 0 (body ++ leBytes 96 (Config.deviceSign (Config.sha384 body)).toNat ++ leBytes 2 cert.length ++ leBytes 6 0 ++ cert))

/-- STATUS. -/
def execStatus (m : Msg) (first : Nat) (s : State) : Host.Outcome State Fault Refusal :=
  let s := s.due
  let o := s.owner
  let lease := if o.digest.isNone then 0 else if o.heir.isSome then 2 else 1
  let qs := (s.queues.filter (fun e => decide (first ≤ e.1))).take 332
  let body := leBytes 48 (match o.digest with
      | some d => d.toNat
      | none => 0) ++ leBytes 1 lease ++ leBytes 3 0 ++ leBytes 4 o.beatMs ++ leBytes 32 o.nonce.toNat ++
    leBytes 8 (BitVec.ofInt 64 s.budget).toNat ++ leBytes 4 s.limit ++ leBytes 4 qs.length ++
    qs.flatMap (fun e => leBytes 2 e.1 ++ leBytes 1 e.2.prio ++ leBytes 1 0 ++ leBytes 4 e.2.read ++ leBytes 4 ((s.writeIndex e.2).getD 0))
  .next (s.answerTo m 13 0 body)

/-! ### Quiescence (R392) -/

/-- The tasks of the package in a state. -/
def State.tasksIn (s : State) (st : Nat) : List Nat := (List.range 16).flatMap (fun d => s.recsIn d st)

/-- QUIESCE: no packet is read and nothing staged; every Running task is frozen, and the answer comes when all are. -/
def execQuiesce (m : Msg) (s : State) : Host.Outcome State Fault Refusal :=
  let s := s.due
  if s.owner.digest ≠ some m.key then .next (s.answerTo m 10 1 [])
  else
    let first := !s.owner.quiesced
    let s := { s with owner := { s.owner with quiesced := true } }
    let s := if first then (s.tasksIn 6).foldl (fun s k => s.freezeTask k) s else s
    .next (if (s.tasksIn 6).isEmpty then s.answerTo m 10 0 [] else s.post (.quiesce m))

/-- A QUIESCE has not been answered yet. -/
def State.quiescing (s : State) : Bool :=
  s.owner.quiesced && s.agenda.any (fun i => match i with
    | .quiesce _ => true
    | _ => false)

/-- RESUME, once a QUIESCE under way is done: the dispatchers restore what they froze and stage again; packets are read again. -/
def execResume (m : Msg) (s : State) : Host.Outcome State Fault Refusal :=
  if s.quiescing && s.due.owner.digest = some m.key then .next (s.post (.resume m))
  else s.ownerMsg m 11 false false (fun s =>
    let s := { s with owner := { s.owner with quiesced := false } }
    let s := ((s.tasksIn 7).filter (fun k => (s.task k).auto && !(s.task k).faulted)).foldl (fun (s : State) k => s.post (.gangRestore k)) s
    let s := (s.tasksIn 5).foldl (fun (s : State) k => s.post (.taskEnterRunning ((s.task k).tiles.headD 0))) s
    let s := ((s.tasksIn 3).map (· / 65536)).dedup.foldl (fun s d => s.wake d) s
    s.queues.foldl (fun (s : State) e => s.post (.commandQueueDoorbell e.1)) s)

/-! ### Recovery (23 R467 to R470, R489) -/

/-- The fault records of the tiles a task was frozen on are cleared. -/
def State.clearFaults (s : State) (k : Nat) : State :=
  (s.task k).tiles.foldl (fun (s : State) t =>
    s.setTile t { s.tile t with frec0 := 0, frec1 := 0, frec2 := 0, frec3 := 0, frecTime := 0 }) s

/-- Where FRESTORE puts the ranks: rank 0 on the tile named, the others where the dispatcher chooses (log 20). -/
def State.frestoreHomes (s : State) (k tile : Nat) : Option (List (Nat × Image × Nat)) :=
  let l := s.imagesInOrder k
  if tile = 0xFFFF then s.homesFor k l []
  else (s.homesFor k (l.filter (fun e => e.2.rank != 0)) [tile]).map (fun r => ((l.filter (fun e => e.2.rank == 0)).map (fun e => (e.1, e.2, tile))) ++ r)

/-- FRESTORE: a task without an image is Eligible again; another is restored, once the account admits it and tiles are free; a refusal
writes condition 6 and clears no fault record. -/
def execFrestore (m : Msg) (task tile : Nat) (clear : Bool) (s : State) : Host.Outcome State Fault Refusal :=
  let s := s.due
  let k := task % 2 ^ 20
  if s.owner.digest ≠ some m.key then .next (s.answerTo m 14 1 [])
  else if tile ≥ 2560 && tile ≠ 0xFFFF && !(task / 2 ^ 20 == s.ua.pkg && s.slotState k == 7 && (s.task k).imageId.isEmpty) then .next (s.answerTo m 14 2 [])
  else if task / 2 ^ 20 ≠ s.ua.pkg || s.slotState k ≠ 7 then .next (s.answerTo m 14 3 [])
  else if (s.task k).imageId.isEmpty then
    let s := (s.setRecord k (setRecD (setRecF (s.record k) 1 63 60 3) 23 (wd s.time))).setTask k { s.task k with faulted := false }
    .next ((s.wake (k / 65536)).answerTo m 14 0 [])
  else
    let s1 := if clear then s.clearFaults k else s
    if !s1.admits (s1.restoreCost k) then .next (s.post (.frestore m task tile clear))
    else match s1.frestoreHomes k tile with
      | none => .next (s.post (.frestore m task tile clear))
      | some l =>
        match s1.restoreTask k l with
        | .error (.wait _ s) => .next (s.post (.frestore m task tile clear))
        | .error (.trap _) => .next ((s.restoreRefused k 7).answerTo m 14 3 [])
        | .ok (v, .error st) => .next ((({ v with tiles := s.tiles } : State).restoreRefused k st).answerTo m 14 3 [])
        | .ok (_, .ok s) => .next (s.answerTo m 14 0 [])

/-- The contexts of a task leave every event entry (R469 step 2). -/
def State.dropWaiters (s : State) (shelves : List Nat) : State :=
  let mine (w : Waiter) : Bool := match w with
    | .ctx a => shelves.contains a.tile
    | .queue _ => false
  let cut (e : Event) : Event :=
    { e with slots := e.slots.filter (fun w => !mine w), blocks := e.blocks.map (fun b => (b.1, b.2.filter (fun w => !mine w))), parked := e.parked.filter (fun w => !mine w) }
  let cutAll (l : SMap Event) : SMap Event := l.filterMap (fun (e : Nat × Event) => if cut e.2 = ({} : Event) then none else some (e.1, cut e.2))
  ({ s with dies := s.dies.map (fun (d : Nat × Die) => (d.1, { d.2 with events := cutAll d.2.events })) } : State).writeChains

/-- The images of a task are dropped, with the addresses kept against its slot (R469 step 1). -/
def State.dropImages (s : State) (k : Nat) : State :=
  let s := { s with images := s.images.map (fun (e : Nat × Image) => if e.2.task = k then (e.1, { e.2 with task := 2 ^ 40 }) else e) }
  s.setTask k { s.task k with images := [], roots := [], imageId := [] }

/-- The frames, polder slots and pinning of the task's images are free (R469 step 4). -/
def State.freePlaces (s : State) (l : List (Nat × Image)) : State :=
  l.foldl (fun (s : State) e =>
    let im := e.2
    let s := s.freePolder (dieOf im.from_) im.tile.spt im.tile.home
    match im.moved with
    | some (d, spt, home) => if d = dieOf im.from_ then s else s.freePolder d spt home
    | none => s) s

/-- A transfer steps until it is complete; none where a line's home holds it back. -/
def State.runXfer (s : State) (op : Nat) : Nat → Option State
  | 0 => if s.xfers.any (fun (x : Xfer) => x.op == op) then none else some s
  | n + 1 =>
    match s.xfers.find? (fun x => x.op == op) with
    | none => some s
    | some x =>
      (match x.fin with
       | some st => s.endXfer x st
       | none => if x.kind = 4 then s.migrate x else s.stepXfer x).runXfer op n

/-- Outstanding transfers of a discarded task complete and write their records (R469 step 6). The frames of its domain are gone, so that what is left to
move in the scratchpad is a fault of the transfer; what a line's home holds back is performed later. -/
def State.settleXfers (s : State) (k : Nat) (im : Image) : Option State :=
  let t := im.from_
  let old := s.tile t
  let s := s.setTile t { contained := old.contained, run := some k, rank := im.rank }
  (im.xfers.foldl (fun (s : Option State) x => s.bind (fun s =>
    ({ s with xfers := s.xfers ++ [{ x with agent := ⟨t, 15⟩ }] } : State).runXfer x.op (x.row * x.count * (1 + x.dsts.length) / 4 + 16)))
    (some { s with ops := s.ops.filter (fun o => !im.xfers.any (fun x => x.op == o.1)) })).map (fun s =>
      ({ s with agenda := s.agenda.filter (fun i => !im.xfers.any (fun x => i == .transferCompletion x.op)) } : State).setTile t old)

/-- The contexts and ops that stand on the shelves of a discarded task are gone. -/
def State.clearShelves (s : State) (shelves : List Nat) : State :=
  let s := shelves.foldl (fun (s : State) t => (List.range 11).foldl (fun (s : State) c => s.setCtx ⟨t, c⟩ {}) s) s
  { s with ops := s.ops.filter (fun o => !shelves.contains o.2.agent.tile) }

/-- The snapshots and start stamps of a task are released (R469 step 3). -/
def State.dropStamps (s : State) (k : Nat) (shelves : List Nat) : State :=
  let mine (o : StampOwner) : Bool := match o with
    | .snap j => j == k
    | .task j => j == k
    | .tx a => shelves.contains a.tile
  { s with live := s.live.filter (fun e => !mine e.2) }.reclaimAll

/-- The detail of condition 12: the decrement option, and for each edge the permits returned and the granules poisoned. -/
def discardDetail (send : Bool) (es : List (Nat × Nat)) : List (Nat × Nat × Nat) :=
  [(64, 1, 12), (68, 1, b2n send)] ++ es.zipIdx.flatMap (fun p => [(72 + 8 * p.2, 4, p.1.1), (76 + 8 * p.2, 4, p.1.2)])

/-- The discard of a task up to its transfers (R469 steps 1 to 6), and what condition 12 says of each edge; none where a transfer cannot complete yet. -/
def State.discardTask (s : State) (k : Nat) : Option (State × List (Nat × Nat)) :=
  let l := s.taskImages k
  let shelves := l.map (fun e => shelf e.1)
  let s := ((((s.dropImages k).dropWaiters shelves).dropStamps k shelves).freePlaces l)
  let (s, es) := s.reconcile k (l.map (·.2))
  (l.foldl (fun (s : Option State) e => s.bind (fun s => s.settleXfers k e.2)) (some s)).map (fun s => (s.clearShelves shelves, es))

/-- FDISCARD of a Pending, Eligible or Frozen task (R469): one whose transfer meets a line that an overflow handler holds waits for that. -/
def execFdiscard (m : Msg) (task : Nat) (send : Bool) (s : State) : Host.Outcome State Fault Refusal :=
  let k := task % 2 ^ 20
  let st := s.slotState k
  let refused := task / 2 ^ 20 != s.ua.pkg || !(st == 2 || st == 3 || st == 7)
  if s.due.owner.digest = some m.key && !refused && (s.discardTask k).isNone then
    .next ((((s.dirs.filter (fun e => e.2.ovf)).map (·.1)).foldl (fun s n => s.askHandler n) s).post (.fdiscard m task send))
  else s.ownerMsg m 15 false refused (fun s =>
    let queue := recQueue (s.record k)
    match s.discardTask k with
    | none => s
    | some (s, es) => (s.retireRecord k send).report (some queue) { cls := 1, reach := 2, task := s.tid k, detail := discardDetail send es })

/-! ### Waits between queues (23 R473) -/

/-- The queue's oldest unfinished packet is a parked WAIT: its event. -/
def Queue.waitsOn (x : Queue) : Option Nat := (x.parked.find? (fun p => p.1 == x.read)).map (·.2)

/-- A SIGNAL on an event that has not started stands in a queue behind another packet that has the barrier bit. -/
def Queue.signalsLate (x : Queue) (e : Nat) : Bool :=
  x.pkts.any (fun p => pkType p.2 == 4 && x.status.get 0 p.1 == 0 && pk p.2 16 2 == e &&
    x.pkts.any (fun r => pkBarrier r.2 && x.status.get 0 r.1 != 2 && decide (ahead r.1 x.read < ahead p.1 x.read)))

/-- The arcs from a queue. -/
def State.arcs (s : State) (q : Nat) : List Nat :=
  match (s.queue q).bind Queue.waitsOn with
  | none => []
  | some e => (s.queues.filter (fun r => r.2.signalsLate e)).map (·.1)

/-- The cycles of arcs, of at most n more queues, that lead from q back to a queue and through none of a lower number. -/
def State.cyclesBack (s : State) (home : Nat) : Nat → Nat → List Nat → List (List Nat)
  | 0, _, _ => []
  | n + 1, q, seen =>
    (if (s.arcs q).contains home && seen.length ≥ 2 then [seen] else []) ++
      (s.arcs q).flatMap (fun r => if r ≤ home || seen.contains r then [] else s.cyclesBack home n r (seen ++ [r]))

/-- The cycles of 2 to 8 queues, no task of which is Running, each from its lowest queue on. -/
def State.queueCycles (s : State) : List (List Nat) :=
  (s.queues.flatMap (fun e => s.cyclesBack e.1 8 e.1 [e.1])).filter (fun c => !(s.tasksIn 6).any (fun k => c.contains (recQueue (s.record k))))

/-- The record of a cycle of waits between queues: condition 5. -/
def cycleRec (c : List Nat) : ErrRec :=
  { cls := 6, reach := 5, detail := [(64, 1, 5), (68, 1, c.length)] ++ c.zipIdx.map (fun p => (72 + 2 * p.2, 2, p.1)) }

/-- QUEUE_WAIT_CYCLE_SWEEP: each cycle found in two successive sweeps is reported once; 4,096 marks one that has been. -/
def execQueueWaitCycleSweep (s : State) : Host.Outcome State Fault Refusal :=
  if s.time < s.sweepAt then .next (s.post .queueWaitCycleSweep)
  else
    let cs := s.queueCycles
    let was := s.waitCycle
    let s := { s with sweepAt := s.time + perMs, waitCycle := cs.map (fun c => if was.contains c || was.contains (4096 :: c) then 4096 :: c else c) }
    let s := (cs.filter was.contains).foldl (fun (s : State) c => s.report none (cycleRec c)) s
    .next (if s.queues.isEmpty then s else s.post .queueWaitCycleSweep)

/-! ### Host links (23 R481) -/

/-- HOST_PORT_LINK_FAILURE: the port's queue pairs are in the error state; condition 10 is written with how many are moved to it; queues run on. -/
def execHostPortLinkFailure (port : Fin 8) (_n : Nat) (s : State) : Host.Outcome State Fault Refusal :=
  let n := (s.qps.filter (fun (e : Nat × Nat) => e.2 = port.val)).length
  let s := { s with qps := s.qps.map (fun (e : Nat × Nat) => if e.2 = port.val then (e.1, 256) else e) }
  .next (s.report none { cls := 5, reach := 5, detail := [(64, 1, 10), (68, 1, port.val), (72, 4, n)] })

end Sys2Proof.Machine
end

