-- ==== Sys2Proof/Machine/Rdma.lean ====
section
/-! DEFINITION. Accesses from outside: RDMA requests (14_host_pod_firmware.md R375, R376) and UALink transactions (R391, 23 R482). -/

namespace Sys2Proof.Machine

/-! ### RDMA -/

/-- A reply to a request of a queue pair. -/
def State.rdmaReply (s : State) (qp st : Nat) (data : List Byte) : State :=
  { s with replies := s.replies ++ [{ qp := qp, tag := 0, status := st, data := data }] }

/-- The answer to a request that is refused: a NAK of a code that is not fixed here (log 18). -/
def State.rdmaNak (s : State) (qp : Nat) : State := s.rdmaReply qp (256 + Config.nakCode s.fc) []

/-- A queue pair is not in the error state (23 R481). -/
def State.qpUp (s : State) (qp : Nat) : Bool := s.qps.get 0 qp != 256

/-- RDMA_UNSUPPORTED_REQUEST (R375): a NAK for an invalid request, which is status 2 here. -/
def execRdmaUnsupportedRequest (qp : Nat) (s : State) : Host.Outcome State Fault Refusal := .next (if s.qpUp qp then s.rdmaReply qp 2 [] else s)

/-- The root of the address space of an identifier: a queue's, or a record's (log 20). -/
def State.rootOf (s : State) (asid : Nat) : Option Word :=
  match s.queues.find? (fun e => asidOf e.2.desc.gvroot == asid) with
  | some e => some e.2.desc.gvroot
  | none => (s.recs.find? (fun e => s.slotState e.1 != 0 && s.slotState e.1 < 9 && asidOf (recRoot e.2) == asid)).map (fun e => recRoot e.2)

/-- Two byte ranges meet. -/
def meet (a n b m : Nat) : Bool := decide (a < b + m) && decide (b < a + n)

/-- The ring and the write index of a queue are covered by its own queue pair's key alone (R377). -/
def State.ringShut (s : State) (asid qp va n : Nat) : Bool :=
  s.queues.any (fun e => asidOf e.2.desc.gvroot == asid && e.2.desc.qp != qp &&
    (meet va n e.2.base.toNat (128 * e.2.size) || meet va n e.2.desc.widx.toNat 4))

/-- The host at the far end of a queue pair, known by its control messages (R385; log 18). -/
def State.hostOf (s : State) (qp : Nat) : BitVec 384 := (s.hosts.find qp).getD (Config.qpHost qp)

/-- The address space through which a request is performed: its key names a region that grants the right (bit 0 read, 1 write, 2 atomic) over
its range; a host that is not the owner can change nothing (R385). -/
def State.grant (s : State) (r : Rdma) (right n : Nat) : Option Word :=
  match s.regions.find r.rkey with
  | none => none
  | some g =>
    let va := r.va.toNat
    if (g.desc.qp == r.qp || g.desc.qp == 0xFFFFFFFF) && g.desc.rights.getLsbD right && g.desc.base.toNat ≤ va && va + n ≤ g.desc.base.toNat + g.desc.len &&
        !s.ringShut g.desc.asid r.qp va n && (right == 0 || s.due.owner.digest == some (s.hostOf r.qp)) then
      s.rootOf g.desc.asid
    else none

/-- A line in a range that a read finds poisoned. -/
def State.poisonIn (s : State) (root : Word) (va n : Nat) : Option Nat :=
  ((cut (wd va) n).map (fun p => p.1.toNat)).find? (fun a => match s.translate (.die 0) root a with
    | .ok l => localPa (l.pa a) && s.linePois (l.pa a)
    | .error _ => false)

/-- A read or atomic of a poisoned line: an error response and a record (20 R422). -/
def State.poisonReply (s : State) (qp a : Nat) : State := (s.report none { cls := 4, reach := 1, addr := wd a }).rdmaReply qp 1 []

/-- Bytes written through an address space at the homes of their lines. -/
def State.writeRange (s : State) (root : Word) : List (Word × Nat) → List Byte → State
  | [], _ => s
  | (a, n) :: rest, bs =>
    match s.translate (.die 0) root a.toNat with
    | .ok l => (s.leafWrite 0 l (l.pa a.toNat) (bs.take n) false).writeRange root rest (bs.drop n)
    | .error _ => s.writeRange root rest (bs.drop n)

/-- Queues whose write index a write touches are read (R378). -/
def State.ringDoorbells (s : State) (asid va n : Nat) : State :=
  (s.queues.filter (fun e => asidOf e.2.desc.gvroot == asid && meet va n e.2.desc.widx.toNat 4)).foldl
    (fun (s : State) e => s.post (.commandQueueDoorbell e.1)) s

/-- The lines of a range whose homes hold writes back (04 R108, R121). -/
def State.shutIn (s : State) (root : Word) (va n : Nat) : List Nat :=
  (cut (wd va) n).filterMap (fun p => match s.translate (.die 0) root p.1.toNat with
    | .ok l => if localPa (l.pa p.1.toNat) && s.lineShut (l.pa p.1.toNat / 32) then some (l.pa p.1.toNat / 32) else none
    | .error _ => none)

/-- A write or atomic from outside waits, ahead of later ones, while a home of its lines holds it back. -/
def State.outsideWait (s : State) (lines : List Nat) (i : Instr) : State := (lines.foldl (fun s n => s.askHandler n) s).again i

/-- A range passes translation and the permission of a kind. -/
def State.rangeOk (s : State) (root : Word) (kind va n : Nat) : Bool := (s.rangeLeaves root kind va n).isSome

/-- RDMA_WRITE: performed at pkg scope, then acknowledged. -/
def execRdmaWrite (r : Rdma) (s : State) : Host.Outcome State Fault Refusal :=
  let n := r.data.length
  let va := r.va.toNat
  if !s.qpUp r.qp then .next s
  else match s.grant r 1 n with
    | none => .next (s.rdmaNak r.qp)
    | some root =>
      if !s.rangeOk root 2 va n then .next (s.rdmaNak r.qp)
      else if s.shutIn root va n ≠ [] then .next (s.outsideWait (s.shutIn root va n) (.rdmaWrite r))
      else .next ((((s.writeRange root (cut r.va n) r.data).crossAll 0).rdmaReply r.qp 0 []).ringDoorbells (asidOf root) va n)

/-- RDMA_READ: the in-place version of each line. -/
def execRdmaRead (r : Rdma) (s : State) : Host.Outcome State Fault Refusal :=
  let va := r.va.toNat
  if !s.qpUp r.qp then .next s
  else match s.grant r 0 r.len with
    | none => .next (s.rdmaNak r.qp)
    | some root =>
      if !s.rangeOk root 1 va r.len then .next (s.rdmaNak r.qp)
      else match s.poisonIn root va r.len with
        | some a => .next (s.poisonReply r.qp a)
        | none => .next (s.rdmaReply r.qp 0 ((s.readRange root (r.len / 4096 + 2) va r.len).getD []))

/-- A 64-bit atomic at the home of its line: the value before is the answer. -/
def State.rdmaAtomic (s : State) (i : Instr) (r : Rdma) (f : Nat → Nat) : Host.Outcome State Fault Refusal :=
  let va := r.va.toNat
  if !s.qpUp r.qp then .next s
  else match s.grant r 2 8 with
    | none => .next (s.rdmaNak r.qp)
    | some root =>
      if va % 8 ≠ 0 || !s.rangeOk root 8 va 8 then .next (s.rdmaNak r.qp)
      else match s.poisonIn root va 8 with
        | some a => .next (s.poisonReply r.qp a)
        | none =>
          if s.shutIn root va 8 ≠ [] then .next (s.outsideWait (s.shutIn root va 8) i) else
          let old := leNat ((s.readRange root 2 va 8).getD [])
          .next ((((s.writeRange root (cut r.va 8) (leBytes 8 (f old))).crossAll 0).rdmaReply r.qp 0 (leBytes 8 old)).ringDoorbells (asidOf root) va 8)

/-- RDMA_COMPARE_AND_SWAP. -/
def execRdmaCompareAndSwap (r : Rdma) (s : State) : Host.Outcome State Fault Refusal :=
  s.rdmaAtomic (.rdmaCompareAndSwap r) r (fun old => if old = r.compare.toNat then r.operand.toNat else old)
/-- RDMA_FETCH_AND_ADD. -/
def execRdmaFetchAndAdd (r : Rdma) (s : State) : Host.Outcome State Fault Refusal :=
  s.rdmaAtomic (.rdmaFetchAndAdd r) r (fun old => (old + r.operand.toNat) % 2 ^ 64)

/-! ### UALink (R391) -/

/-- UALINK_BRINGUP: the package's number and the pod's endpoints, kept until package reset. -/
def execUalinkBringup (pkg : Nat) (pod : List Nat) (s : State) : Host.Outcome State Fault Refusal :=
  .next (if s.ua.up || pkg > 1023 then s else { s with ua := { pkg := pkg, pod := pod.filter (· < 1024), up := true, failed := [] } })

/-- The queue pair number under which replies to UALink transactions stand. -/
def uaQp : Nat := 2 ^ 32

/-- A transaction lies in this package's memory and is no longer than 256 bytes. -/
def uaOk (r : UaReq) (n : Nat) : Bool := r.pa + n ≤ 2 ^ 40 && n ≤ 256

/-- The pieces of a physical range within lines. -/
def linePieces (pa n : Nat) : List (Nat × Nat) := (cut (wd pa) n).map (fun p => (p.1.toNat, p.2))

/-- The lines of a physical range whose homes hold writes back. -/
def State.shutAt (s : State) (pa n : Nat) : List Nat := ((linePieces pa n).map (fun p => p.1 / 32)).filter s.lineShut

/-- UALINK_READ: performed at the home. -/
def execUalinkRead (r : UaReq) (s : State) : Host.Outcome State Fault Refusal :=
  if !uaOk r r.len then .next (s.rdmaReply uaQp 1 [])
  else match (linePieces r.pa r.len).find? (fun p => s.linePois p.1) with
    | some p => .next (s.poisonReply uaQp p.1)
    | none => .next (s.rdmaReply uaQp 0 (s.memRead r.pa r.len))

/-- Masked bytes of one line written at its home; a part leaves the line's poison. -/
def State.maskedWrite (s : State) (pa : Nat) (bs : List Byte) (mask : List Bool) : State :=
  if !mask.any id then s
  else
    let old := s.memRead pa bs.length
    let new := (List.range bs.length).map (fun i => if (mask[i]?).getD true then (bs[i]?).getD 0 else (old[i]?).getD 0)
    let p := s.linePois pa
    let s := s.performWrite none (homeDie pa) pa new false (s.versioned pa)
    if mask.all id then s else s.setLinePois pa p

/-- Masked bytes of a range. -/
def State.maskedWrites (s : State) : List (Nat × Nat) → List Byte → List Bool → State
  | [], _, _ => s
  | (a, n) :: rest, bs, m => (s.maskedWrite a (bs.take n) (m.take n)).maskedWrites rest (bs.drop n) (m.drop n)

/-- What the homes of a physical range have written is performed at pkg scope: every die has applied what their clocks name (04 R104). -/
def State.crossHomes (s : State) (pa n : Nat) : State := ((linePieces pa n).map (fun p => homeDie p.1)).dedup.foldl (fun (s : State) d => s.crossAll d) s

/-- A message of another package enters a router once its port has room for it (12 R350). -/
def State.enterPort (s : State) (t port : Nat) (p : Packet) : Option State :=
  if s.roomFor t (ioPort port) p then some ((s.useCredits t (ioPort port) p).post (.routerPacketArrival t port p)) else none

/-- The router by which a message of another package enters: the one nearest its destination on the side of an I/O die (log 25). -/
def entryTile (dest : Nat) : Nat × Nat :=
  if dieOf dest % 4 < 2 then (tileAt 0 (gridY dest), 4) else (tileAt 63 (gridY dest), 2)

/-- UALINK_WRITE: byte-masked writes at their homes, performed at pkg scope, or a message for a dispatcher, an event table or an awn core. -/
def execUalinkWrite (r : UaReq) (s : State) : Host.Outcome State Fault Refusal :=
  if r.msg = 1 then .next (s.post (.decrementArrival r.target ⟨r.sender, none⟩))
  else if r.msg = 2 then .next (s.post (.eventOpArrival r.ev))
  else if r.msg = 3 then
    let e := entryTile (r.pkt.dest % 2560)
    .next ((s.enterPort e.1 e.2 { r.pkt with launch := none }).getD (s.again (.ualinkWrite r)))
  else if !uaOk r r.data.length then .next (s.rdmaReply uaQp 1 [])
  else if s.shutAt r.pa r.data.length ≠ [] then .next (s.outsideWait (s.shutAt r.pa r.data.length) (.ualinkWrite r))
  else
    let mask := if r.mask.isEmpty then List.replicate r.data.length true else r.mask
    .next (((s.maskedWrites (linePieces r.pa r.data.length) r.data mask).crossHomes r.pa r.data.length).rdmaReply uaQp 0 [])

/-- UALINK_ATOMIC: performed at the home; the value before is the answer. -/
def execUalinkAtomic (r : UaReq) (s : State) : Host.Outcome State Fault Refusal :=
  if !uaOk r r.len || r.len = 0 || r.pa % 32 + r.len > 32 then .next (s.rdmaReply uaQp 1 [])
  else if s.linePois r.pa then .next (s.poisonReply uaQp r.pa)
  else if s.shutAt r.pa r.len ≠ [] then .next (s.outsideWait (s.shutAt r.pa r.len) (.ualinkAtomic r))
  else
    let old := s.memRead r.pa r.len
    let s := s.performReq none { kind := 1, agent := unitOf (homeDie r.pa), pa := r.pa, op := r.op, len := r.len, operand := r.operand, ver := s.versioned r.pa }
    .next ((s.crossHomes r.pa r.len).rdmaReply uaQp 0 old)

/-- UALINK_TIMEOUT (23 R482): a port's transactions have failed; the port is contained and condition 9 written. -/
def execUalinkTimeout (port failed : Nat) (s : State) : Host.Outcome State Fault Refusal :=
  let s := { s with ua := { s.ua with failed := s.ua.failed.set false (port % 16) true } }
  .next (s.report none { cls := 5, reach := 5, detail := [(64, 1, 9), (68, 1, port % 16), (72, 4, failed)] })

end Sys2Proof.Machine
end

