-- ==== Sys2Proof/Machine/Device.lean ====
section
/-! DEFINITION. The package as a whole: reset, power, measured boot (00 R7, 01 R27, 14 R389, 23 R483), errors found in units (20 R418 to R427) and
the sweeps of launches (02 R55 to R57, 20 R430). -/

namespace Sys2Proof.Machine

/-! ### Reset, power and boot -/

/-- PACKAGE_RESET: every field its reset value; HBM4 keeps its contents (23 R483). What has left the package stays sent, and written images stay
known (log 7). -/
def execPackageReset (s : State) : Host.Outcome State Fault Refusal :=
  .next { State.reset with mem := s.mem, pois := s.pois, images := s.images, nextOp := s.nextOp, fc := s.fc, replies := s.replies, outbox := s.outbox,
                           mgmt := s.mgmt, mainUp := s.mainUp, standbyUp := s.standbyUp }

/-- Acts of command complex A, the root of trust and the management port, which the standby input keeps (01 R27): control messages, the lease, the energy
account, the packets of queues and their completion, host links, and the power inputs themselves. -/
def keptByA : Instr → Bool
  | .claim .. | .heartbeat .. | .handover .. | .qcreate .. | .qdestroy .. | .qprio .. | .setlimit .. | .mreg .. | .update .. | .quiesce _ | .resume _
  | .report .. | .status .. | .frestore .. | .fdiscard .. | .reservedControlMessage _ => true
  | .leaseLapse | .handoverLapse | .complexFailover _ | .energyRefill | .queueWaitCycleSweep | .commandQueueDoorbell _ | .packetCompletion .. => true
  | .nopPacket .. | .launchPacket .. | .graphPacket .. | .copyPacket .. | .signalPacket .. | .waitPacket .. | .fencePacket .. => true
  | .hostPortLinkFailure .. | .rdmaUnsupportedRequest _ | .measuredBootStage .. | .powerInputChange .. => true
  | _ => false

/-- Acts of command complex A that need the dies or device memory: they wait while the main input is off (log 44). -/
def needsMain : Instr → Bool
  | .nopPacket .. | .launchPacket .. | .graphPacket .. | .copyPacket .. | .signalPacket .. | .waitPacket .. | .fencePacket .. => true
  | .commandQueueDoorbell _ | .packetCompletion .. | .update .. => true
  | _ => false

/-- POWER_INPUT_CHANGE (01 R27): without the main input command complex A and what it holds go on (14 R388 step 5), and the tile dies and complex B
lose their state; without either input everything does. Log 44 names what the rule leaves open (DESIGN CHOICE): complex B runs at once when the main input
returns, the time base keeps its value, and the standby input's loss alone loses nothing; where complex B was active, A becomes active with the whole state
table, though the mirror in HBM4 is lost; the package's UALink number and its pod set, the outbox, and the bytes kept of other packages' memory are lost. -/
def execPowerInputChange (mainUp standbyUp : Bool) (s : State) : Host.Outcome State Fault Refusal :=
  if !mainUp && !standbyUp then .next { State.reset with mainUp := false, standbyUp := false, agenda := [], fc := s.fc }
  else if !mainUp && s.mainUp then
    .next { State.reset with owner := s.owner, queues := s.queues, regions := s.regions, qps := s.qps, hosts := s.hosts, mr := s.mr, limit := s.limit,
                             budget := s.budget, power := s.power, refillAt := s.refillAt, launches := s.launches, waitCycle := s.waitCycle,
                             sweepAt := s.sweepAt, nextOp := s.nextOp, errs := s.errs,
                             cx := { s.cx with active := 0, failedB := true, pause := none }, bootFailed := s.bootFailed, replies := s.replies, mgmt := s.mgmt,
                             mainUp := false, standbyUp := standbyUp, agenda := s.agenda.filter keptByA, fc := s.fc, time := s.time }
  else if mainUp && !s.mainUp then
    let s := { s with mainUp := true, standbyUp := standbyUp, cx := { s.cx with failedB := false } }
    .next (if s.agenda.contains .energyRefill then s else { s with refillAt := s.time + 3600 }.post .energyRefill)
  else .next { s with standbyUp := standbyUp }

/-- MEASURED_BOOT_STAGE: a stage that verifies is measured into its register, MR0 to MR3, and runs; one that fails stops the boot, and the management
port reports it. No stage has another register. -/
def execMeasuredBootStage (reg : Nat) (stage : Signed) (s : State) : Host.Outcome State Fault Refusal :=
  if reg > 3 then .next s
  else if Config.ecdsaVerify Config.vendorKey stage.digest stage.sigR stage.sigS then .next (s.extendMr reg stage.digest)
  else .next { s with bootFailed := true, mgmt := s.mgmt ++ [{ cls := 7, reach := 5, detail := [(64, 1, reg)] }] }

/-! ### Errors found in units (20 R418, R421, R426, R427) -/

/-- CORRECTED_ERROR: CECNT counts; at each multiple of 2^SHIFT a record is written. -/
def execCorrectedError (d : Nat) (s : State) : Host.Outcome State Fault Refusal :=
  let c := (s.die d).cr 0x20D
  let n := min 0xFFFFFFFF (bits c 31 0 + 1)
  let s' := s.setDie d ((s.die d).setCr 0x20D (putBits c 31 0 n))
  .next (if bits c 31 0 ≠ 0xFFFFFFFF && n % 2 ^ bits c 36 32 = 0 then s'.report none { cls := 3, reach := 0 } else s')

/-- A unit is contained: reported on the management port and to queue 0's error queue, with the class-0 flits that it has discarded (log 41). -/
def State.containedRec (s : State) (tile flits : Nat) : State :=
  s.report none { cls := 5, reach := 4, tile := tile, detail := if flits = 0 then [] else [(72, 4, flits)] }

/-- The router of a tile is contained: the packets in its buffers are discarded, and the class-0 flits there counted. -/
def State.containTile (s : State) (t : Nat) : State :=
  if (s.tile t).contained then s
  else
    let x := s.tile t
    let n := x.c0.length + x.link.length
    (((s.setTile t { x with contained := true, adder := [], c0 := [], link := [] }).loseFlits (dieOf t) (256 + t % 160) n)).containedRec t n

/-- A unit of a die is contained. -/
def State.containDie (s : State) (d key tile : Nat) : State :=
  let x := s.die d
  if x.contained.get 0 key ≠ 0 then s else (s.setDie d { x with contained := x.contained.set 0 key 1 }).containedRec tile 0

/-- The CAUSE values that the device writes (21 Table — Cause values). -/
def causeValues : List (BitVec 16) :=
  [0x0001, 0x0002, 0x0003, 0x1001, 0x2001, 0x2002, 0x2003, 0x3001, 0x3002, 0x3003, 0x3004, 0x3005, 0x3006, 0x4001, 0x4002, 0x5001, 0x5002] ++
    [0x6001, 0x6002, 0x6003, 0x6004, 0x7001, 0x7002, 0x7003, 0x7004, 0x7005, 0x7006, 0x7007, 0x8001]

/-- A fault in tile state: which of the CAUSE values, and what CODE, is not stated (log 20); it has no address and no PC. -/
def State.stateFault (s : State) (t ctx : Nat) : State :=
  let p := Config.freePick s.fc
  s.faultTile t ctx ⟨0, (causeValues[p % 29]?).getD 0, BitVec.ofNat 10 (p / 29), 0, none⟩ 0

/-- Line z of a polder slot in use is poisoned (20 R421). -/
def State.poisonSlot (s : State) (d slot z : Nat) : State :=
  match (s.die d).polder.find slot with
  | none => s
  | some p =>
    if z ≥ 64 then s
    else s.setDie d ((s.die d).putSlot slot { p with pois := setBit (setBit p.pois (2 * z) true) (2 * z + 1) true })

/-- A preserved version of a line is poisoned (20 R421). -/
def State.poisonVersion (s : State) (line i : Nat) : State :=
  match s.vers.find line with
  | none => s
  | some v => { s with vers := s.vers.put line { v with older := v.older.modify i (fun (x : Version) => { x with pois := true }) } }

/-- The copy of a line that a die's L2 holds is poisoned, and the handler's table entry of a line (20 R421, 22 R460). -/
def State.poisonCopy (s : State) (d line : Nat) : State :=
  match s.rem.find (remKey d (line * 32)) with
  | none => s
  | some l => s.setRem (remKey d (line * 32)) { l with pois := true }
def State.poisonEntry (s : State) (line : Nat) : State :=
  if (s.dir line).table.isEmpty then s else s.setDir line { s.dir line with bad := true }

/-- A flit of a packet's payload is poisoned (20 R421, 23 R477). -/
def poisonPacket (z : Nat) (p : Packet) : Packet := if p.hasPayload && z + 1 < flitsOf p then { p with pois := setBit p.pois z true } else p

/-- A packet that waits at a tile's router, and one that is pending at it. -/
def State.poisonWaiting (s : State) (t i z : Nat) : State :=
  s.setTile t { s.tile t with outq := (s.tile t).outq.modify i (fun (e : Agent × Nat × Packet) => (e.1, e.2.1, poisonPacket z e.2.2)) }
def State.poisonArrival (s : State) (t i z : Nat) : State :=
  { s with agenda := s.agenda.modify i (fun a => match a with
    | .routerPacketArrival u q p => if u = t then .routerPacketArrival u q (poisonPacket z p) else a
    | a => a) }

/-- A class-0 flit at a tile, in its queue or at a router input. -/
def State.poisonFlit (s : State) (t i : Nat) : State :=
  let x := s.tile t
  let bad (g : EdgeGranule) : EdgeGranule := { g with poisoned := true }
  s.setTile t (if i < x.c0.length then { x with c0 := x.c0.modify i bad }
    else { x with link := x.link.modify (i - x.c0.length) (fun (f : Nat × Nat × EdgeGranule) => (f.1, f.2.1, bad f.2.2)) })

/-- UNCORRECTABLE_ERROR: data is poisoned, a control unit contained, a freeze domain or an awn core frozen on fault. -/
def execUncorrectableError (u : ErrorSite) (s : State) : Host.Outcome State Fault Refusal :=
  match u.unit with
  | 0 => .next (if u.x < 2 ^ 40 then s.setLinePois u.x true else s)
  | 1 =>
    let x := s.tile u.x
    let p := x.frame u.y (u.z / 128)
    .next (if u.x < 2560 && u.y < 3 && u.z / 128 < frameCount (isV u.x) u.y
      then s.setTile u.x (x.setFrame u.y (u.z / 128) { p with pois := setBit p.pois (u.z % 128) true }) else s)
  | 2 => .next (if u.x < 2560 then s.containTile u.x else s)
  | 3 => .next (if u.x < 2560 then (s.setTile u.x { s.tile u.x with adder := [] }).containDie (dieOf u.x) (16 + u.x % 160) u.x else s)
  | 4 => .next (if u.x < 64 then s.containDie (u.x / 4) (u.x % 4) 0xFFFF else s)
  | 5 => .next (if u.x < 16 then s.containDie u.x 4 0xFFFF else s)
  | 6 => .next (if u.x < 2560 then s.stateFault u.x 14 else s)
  | 7 => .next (if u.x < 2560 then s.stateFault u.x 15 else s)
  | 8 => .next (if u.x < 16 then s.poisonSlot u.x u.y u.z else s)
  | 9 => .next (s.poisonVersion u.x u.y)
  | 10 => .next (if u.x < 2560 then s.poisonWaiting u.x u.y u.z else s)
  | 11 => .next (s.poisonArrival u.x u.y u.z)
  | 12 => .next (if u.x < 2560 then s.poisonFlit u.x u.y else s)
  | 13 => .next (if u.x < 16 then s.poisonCopy u.x u.y else s)
  | 14 => .next (s.poisonEntry u.x)
  | _ => .next s

/-! ### Sweeps of launches (02 R55 to R57, 13 R369, 20 R430) -/

/-- The messages of a launch sent, and received. -/
def Launch.totals (l : Launch) : Nat × Nat := ((l.sent.map (·.2)).sum, (l.recv.map (·.2)).sum)

/-- The balance of a launch at a tile: of the contexts that its ranks have, or had when they retired, there (R55). -/
def Launch.balanceAt (l : Launch) (t : Nat) : Int := ((l.bal.filter (fun e => l.homes.find (e.1 / 16) == some t)).map (·.2)).sum

/-- Packets of a launch, and count tokens, pending with the tile at whose router they are. -/
def packetOf (id : Nat) (i : Instr) : Option Nat :=
  let mine (t : Nat) (p : Packet) : Option Nat := if p.launch = some id then some t else none
  match i with
  | .statTokenArrival t _ k => if k.launch = some id then some t else none
  | .routerPacketArrival t _ p => mine t p
  | .adderContributionArrival t _ p => mine t p
  | .awnMessageArrival t p => mine t p
  | .mailboxPostArrival t p => mine t p
  | .returnStripArrival t p => mine t p
  | _ => none

/-- A class-0 flit is of a launch: that of the task whose edge it is on. -/
def State.flitOf (s : State) (id : Nat) (g : EdgeGranule) : Bool := (s.task g.task).owner == some id

/-- The router queues of a tile hold a packet of a launch, of whichever class. -/
def State.packetsAt (s : State) (id t : Nat) : Bool :=
  s.agenda.any (fun i => packetOf id i == some t) || (s.tile t).outq.any (fun e => e.2.2.launch == some id) ||
    (s.tile t).awnQ.any (fun e => e.1.launch == some id) || (s.tile t).c0.any (s.flitOf id) || (s.tile t).link.any (fun e => s.flitOf id e.2.2)

/-- A handler of a launch runs on a tile's awn core. -/
def Tile.handles (x : Tile) (id : Nat) : Bool := x.msg.any (fun m => m.1.launch == some id)

/-- A task in one of a tile's slots is of a launch, in a state of a list. -/
def State.slotOf (s : State) (id : Nat) (slot : Option Nat) (states : List Nat) : Bool :=
  slot.any (fun k => (s.task k).owner == some id && states.contains (s.slotState k))

/-- A tile is idle for a launch (R56). -/
def State.tileIdle (s : State) (id t : Nat) : Bool :=
  !s.slotOf id (s.tile t).run [6] && !s.slotOf id (s.tile t).staged [4, 5] && !(s.tile t).handles id && !s.packetsAt id t

/-- Every tile is idle for a launch. -/
def State.launchIdle (s : State) (id : Nat) : Bool :=
  s.tiles.all (fun e => s.tileIdle id e.1) && !s.agenda.any (fun i => (packetOf id i).isSome)

/-- The number of a wait condition in Table — Wait conditions, counted from 0. -/
def waitNumber : Wait → Nat
  | .token _ => 0
  | .tokenFull _ => 0
  | .event _ => 1
  | .fullEmpty .. => 2
  | .residence .. => 3
  | .barrier => 4
  | .join _ => 5
  | .matrix => 6
  | .transfer _ => 6
  | .retire => 7
  | .structural _ => 8

/-- The wait a context is in. -/
def Ctx.wait (c : Ctx) : Option Wait :=
  match c.st with
  | .waiting w => some w
  | _ => none

/-- A wait that a quiescent tile's contexts may be in: not Scratchpad residence, not Structural (R57) but for the wait for the answer of a capacity
table (13 R369), and not that of context 0 after its task's end, whose retirement is under way. -/
def State.longWait (s : State) (c : Ctx) : Wait → Bool
  | .residence .. => false
  | .retire => false
  | .structural (.result rs) => c.pend.any (fun p => rs.contains p.1 && (s.ops.find p.2).any (fun o => o.path == 4))
  | .structural _ => false
  | _ => true

/-- A binding has stream work in flight: strips pushed and not written, or a strip that its unit is fetching (10 R291, R292). -/
def Binding.streaming (b : Binding) : Bool :=
  b.bound && (if b.out then !b.queue.isEmpty else decide (b.queue.length < 4 && b.reached < b.total))

/-- A tile is quiescent for a launch (R57). -/
def State.quiescent (s : State) (id t : Nat) : Bool :=
  let x := s.tile t
  let cs := ((List.range 11).map (fun c => s.ctx ⟨t, c⟩)).filter (fun c => c.st != .free && c.st != .done)
  s.slotOf id x.run [6] && cs.all (fun c => c.wait.any (s.longWait c)) &&
    x.mq.isEmpty && x.pageIns.isEmpty && !s.xfers.any (fun (y : Xfer) => y.kind != 5 && y.agent.tile == t) &&
    !cs.any (fun c => c.binds.any (fun b => b.2.streaming)) && !x.handles id && !s.packetsAt id t

/-- A tile is in one of the two states that R57 reports: idle with a balance, or quiescent. -/
def State.lingers (s : State) (id : Nat) (l : Launch) (t : Nat) : Bool :=
  (s.tileIdle id t && l.balanceAt t != 0) || s.quiescent id t

/-- The record of a stuck tile (20 R430); it names the task that the tile runs for the launch, and with none goes to queue 0's error queue (R428). -/
def State.stuckRec (s : State) (id : Nat) (l : Launch) (t sent : Nat) : State :=
  let cs := (List.range 11).filterMap (fun c => ((s.ctx ⟨t, c⟩).wait).map (fun w => (c, waitNumber w)))
  let cs := if s.slotOf id (s.tile t).run [6] then cs else []
  let r : ErrRec := { cls := 6, reach := 3, tile := t, detail :=
    [(64, 4, (BitVec.ofInt 32 (l.balanceAt t)).toNat), (68, 2, (cs.map (fun c => 2 ^ c.1)).sum), (70, 1, ((cs.head?).map (·.2)).getD 0), (72, 4, sent)] }
  match (s.tile t).run with
  | some k => if s.slotOf id (some k) [6] then s.reportTask k r else s.report none r
  | none => s.report none r

/-- LAUNCH_SWEEP: the tiles that linger and the totals. Of two successive sweeps with the same totals, a tile that lingers in both is stuck, and is
reported once; with no tile stuck, every tile idle in both, sent equal to received and every record retired, the launch has ended and its packet
completes (R56, 14 R380; log 38). -/
def execLaunchSweep (id : Nat) (s : State) : Host.Outcome State Fault Refusal :=
  match s.launches.find id with
  | none => .next s
  | some l =>
    if l.ended then .next s
    else
      let (sent, recv) := l.totals
      let idle := s.launchIdle id
      let same := l.sweeps ≠ 0 && sent = l.lastSent && recv = l.lastRecv
      let now := ((s.tiles.map (·.1)).filter (s.lingers id l))
      let stuck := if same then now.filter l.states.contains else []
      let ended := idle && l.idle && same && sent = recv && l.tasks.isEmpty && stuck.isEmpty
      let s := (stuck.filter (fun t => !l.stuck.contains t)).foldl (fun (s : State) t => s.stuckRec id l t sent) s
      let l := { l with sweeps := l.sweeps + 1, idle := idle, lastSent := sent, lastRecv := recv, ended := ended, states := now, stuck := stuck }
      let s := { s with launches := s.launches.put id l }
      .next (s.post (if ended then .packetCompletion l.queue l.idx else .launchSweep id))

end Sys2Proof.Machine
end

