-- ==== Sys2Proof/Machine/Scalar.lean ====
section
/-! DEFINITION. Scalar integer arithmetic, bit fields, addresses and constants (07_isa_scalar_control.md R169 to R174, 21 R440). -/

namespace Sys2Proof.Machine

/-! ### ALU functions (07 Table — ALU operations, R170) -/

def aluAdd (a b : Word) : Word := a + b
def aluSub (a b : Word) : Word := a - b
def aluAnd (a b : Word) : Word := a &&& b
def aluOr (a b : Word) : Word := a ||| b
def aluXor (a b : Word) : Word := a ^^^ b
/-- Shifts by b[5:0]. -/
def aluShl (a b : Word) : Word := a <<< (b.toNat % 64)
def aluShr (a b : Word) : Word := a >>> (b.toNat % 64)
def aluSar (a b : Word) : Word := a.sshiftRight (b.toNat % 64)
def aluMul (a b : Word) : Word := a * b
/-- Bits [127:64] of the product. -/
def aluMulh (a b : Word) : Word := BitVec.ofInt 64 (a.toInt * b.toInt / 2 ^ 64)
def aluMulhu (a b : Word) : Word := wd (a.toNat * b.toNat / 2 ^ 64)
/-- Division truncates toward zero; by zero it gives all ones, and the remainder a (R170). -/
def aluDiv (a b : Word) : Word := if b = 0 then BitVec.allOnes 64 else BitVec.ofInt 64 (Int.tdiv a.toInt b.toInt)
def aluDivu (a b : Word) : Word := if b = 0 then BitVec.allOnes 64 else wd (a.toNat / b.toNat)
def aluRem (a b : Word) : Word := if b = 0 then a else BitVec.ofInt 64 (Int.tmod a.toInt b.toInt)
def aluRemu (a b : Word) : Word := if b = 0 then a else wd (a.toNat % b.toNat)
def aluMin (a b : Word) : Word := if a.toInt ≤ b.toInt then a else b
def aluMax (a b : Word) : Word := if a.toInt ≤ b.toInt then b else a
def aluMinu (a b : Word) : Word := if a.toNat ≤ b.toNat then a else b
def aluMaxu (a b : Word) : Word := if a.toNat ≤ b.toNat then b else a
def aluSlt (a b : Word) : Word := if a.toInt < b.toInt then 1 else 0
def aluSltu (a b : Word) : Word := if a.toNat < b.toNat then 1 else 0
/-- How many of the low n bits from bit i on are set. -/
def popCount (x : Nat) : Nat → Nat
  | 0 => 0
  | n + 1 => x % 2 + popCount (x / 2) n
def aluClz (a : Word) : Word := if a = 0 then 64 else wd (63 - a.toNat.log2)
/-- The index of the lowest set bit among n, else n. -/
def lowBit (x : Nat) : Nat → Nat
  | 0 => 0
  | n + 1 => if x % 2 = 1 then 0 else 1 + lowBit (x / 2) n
def aluCtz (a : Word) : Word := wd (lowBit a.toNat 64)
def aluPopc (a : Word) : Word := wd (popCount a.toNat 64)

/-! ### The forms -/

/-- A C-op of format CR: rd := op(s[ra], s[rb]). -/
def aluCR (op : Word → Word → Word) (f : CR) (s : State) : Run State := do
  useS s [f.ra, f.rb]
  .ok (s.ws f.rd (op (s.rs f.ra) (s.rs f.rb)))

/-- The A-slot mirror, format AS. -/
def aluAS (op : Word → Word → Word) (f : AS) (s : State) : Run State := do
  useS s [f.sa, f.sb]
  .ok (s.ws f.sd (op (s.rs f.sa) (s.rs f.sb)))

/-- An op of one source, whose rb is zero, and its A-slot mirror. -/
def aluCR1 (op : Word → Word) (f : CR) (s : State) : Run State := do
  useS s [f.ra]
  .ok (s.ws f.rd (op (s.rs f.ra)))
def aluAS1 (op : Word → Word) (f : AS) (s : State) : Run State := do
  useS s [f.sa]
  .ok (s.ws f.sd (op (s.rs f.sa)))

/-- An immediate form: rd := op(s[ra], imm). -/
def aluCI (op : Word → Word → Word) (imm : Word) (f : CI) (s : State) : Run State := do
  useS s [f.ra]
  .ok (s.ws f.rd (op (s.rs f.ra) imm))

/-- `add` (R169). -/
def execAddOp (f : CR) (s : State) : Host.Outcome State Fault Refusal := settle s (aluCR aluAdd f s)
/-- `add` of the A slot (R169). -/
def execAddAs (f : AS) (s : State) : Host.Outcome State Fault Refusal := settle s (aluAS aluAdd f s)
/-- `sub` (R169). -/
def execSubOp (f : CR) (s : State) : Host.Outcome State Fault Refusal := settle s (aluCR aluSub f s)
/-- `sub` of the A slot (R169). -/
def execSubAs (f : AS) (s : State) : Host.Outcome State Fault Refusal := settle s (aluAS aluSub f s)
/-- `and` (R169). -/
def execAndOp (f : CR) (s : State) : Host.Outcome State Fault Refusal := settle s (aluCR aluAnd f s)
/-- `and` of the A slot (R169). -/
def execAndAs (f : AS) (s : State) : Host.Outcome State Fault Refusal := settle s (aluAS aluAnd f s)
/-- `or` (R169). -/
def execOrOp (f : CR) (s : State) : Host.Outcome State Fault Refusal := settle s (aluCR aluOr f s)
/-- `or` of the A slot (R169). -/
def execOrAs (f : AS) (s : State) : Host.Outcome State Fault Refusal := settle s (aluAS aluOr f s)
/-- `xor` (R169). -/
def execXorOp (f : CR) (s : State) : Host.Outcome State Fault Refusal := settle s (aluCR aluXor f s)
/-- `xor` of the A slot (R169). -/
def execXorAs (f : AS) (s : State) : Host.Outcome State Fault Refusal := settle s (aluAS aluXor f s)
/-- `shl` (R169). -/
def execShl (f : CR) (s : State) : Host.Outcome State Fault Refusal := settle s (aluCR aluShl f s)
/-- `shl` of the A slot (R169). -/
def execShlAs (f : AS) (s : State) : Host.Outcome State Fault Refusal := settle s (aluAS aluShl f s)
/-- `shr` (R169). -/
def execShr (f : CR) (s : State) : Host.Outcome State Fault Refusal := settle s (aluCR aluShr f s)
/-- `shr` of the A slot (R169). -/
def execShrAs (f : AS) (s : State) : Host.Outcome State Fault Refusal := settle s (aluAS aluShr f s)
/-- `sar` (R169). -/
def execSar (f : CR) (s : State) : Host.Outcome State Fault Refusal := settle s (aluCR aluSar f s)
/-- `sar` of the A slot (R169). -/
def execSarAs (f : AS) (s : State) : Host.Outcome State Fault Refusal := settle s (aluAS aluSar f s)
/-- `mul` (R169). -/
def execMulOp (f : CR) (s : State) : Host.Outcome State Fault Refusal := settle s (aluCR aluMul f s)
/-- `mul` of the A slot (R169). -/
def execMulAs (f : AS) (s : State) : Host.Outcome State Fault Refusal := settle s (aluAS aluMul f s)
/-- `mulh` (R169). -/
def execMulh (f : CR) (s : State) : Host.Outcome State Fault Refusal := settle s (aluCR aluMulh f s)
/-- `mulh` of the A slot (R169). -/
def execMulhAs (f : AS) (s : State) : Host.Outcome State Fault Refusal := settle s (aluAS aluMulh f s)
/-- `mulhu` (R169). -/
def execMulhu (f : CR) (s : State) : Host.Outcome State Fault Refusal := settle s (aluCR aluMulhu f s)
/-- `mulhu` of the A slot (R169). -/
def execMulhuAs (f : AS) (s : State) : Host.Outcome State Fault Refusal := settle s (aluAS aluMulhu f s)
/-- `div` (R169). -/
def execDivOp (f : CR) (s : State) : Host.Outcome State Fault Refusal := settle s (aluCR aluDiv f s)
/-- `div` of the A slot (R169). -/
def execDivAs (f : AS) (s : State) : Host.Outcome State Fault Refusal := settle s (aluAS aluDiv f s)
/-- `divu` (R169). -/
def execDivu (f : CR) (s : State) : Host.Outcome State Fault Refusal := settle s (aluCR aluDivu f s)
/-- `divu` of the A slot (R169). -/
def execDivuAs (f : AS) (s : State) : Host.Outcome State Fault Refusal := settle s (aluAS aluDivu f s)
/-- `rem` (R169). -/
def execRem (f : CR) (s : State) : Host.Outcome State Fault Refusal := settle s (aluCR aluRem f s)
/-- `rem` of the A slot (R169). -/
def execRemAs (f : AS) (s : State) : Host.Outcome State Fault Refusal := settle s (aluAS aluRem f s)
/-- `remu` (R169). -/
def execRemu (f : CR) (s : State) : Host.Outcome State Fault Refusal := settle s (aluCR aluRemu f s)
/-- `remu` of the A slot (R169). -/
def execRemuAs (f : AS) (s : State) : Host.Outcome State Fault Refusal := settle s (aluAS aluRemu f s)
/-- `min` (R169). -/
def execMinOp (f : CR) (s : State) : Host.Outcome State Fault Refusal := settle s (aluCR aluMin f s)
/-- `min` of the A slot (R169). -/
def execMinAs (f : AS) (s : State) : Host.Outcome State Fault Refusal := settle s (aluAS aluMin f s)
/-- `max` (R169). -/
def execMaxOp (f : CR) (s : State) : Host.Outcome State Fault Refusal := settle s (aluCR aluMax f s)
/-- `max` of the A slot (R169). -/
def execMaxAs (f : AS) (s : State) : Host.Outcome State Fault Refusal := settle s (aluAS aluMax f s)
/-- `minu` (R169). -/
def execMinu (f : CR) (s : State) : Host.Outcome State Fault Refusal := settle s (aluCR aluMinu f s)
/-- `minu` of the A slot (R169). -/
def execMinuAs (f : AS) (s : State) : Host.Outcome State Fault Refusal := settle s (aluAS aluMinu f s)
/-- `maxu` (R169). -/
def execMaxu (f : CR) (s : State) : Host.Outcome State Fault Refusal := settle s (aluCR aluMaxu f s)
/-- `maxu` of the A slot (R169). -/
def execMaxuAs (f : AS) (s : State) : Host.Outcome State Fault Refusal := settle s (aluAS aluMaxu f s)
/-- `slt` (R169). -/
def execSlt (f : CR) (s : State) : Host.Outcome State Fault Refusal := settle s (aluCR aluSlt f s)
/-- `slt` of the A slot (R169). -/
def execSltAs (f : AS) (s : State) : Host.Outcome State Fault Refusal := settle s (aluAS aluSlt f s)
/-- `sltu` (R169). -/
def execSltu (f : CR) (s : State) : Host.Outcome State Fault Refusal := settle s (aluCR aluSltu f s)
/-- `sltu` of the A slot (R169). -/
def execSltuAs (f : AS) (s : State) : Host.Outcome State Fault Refusal := settle s (aluAS aluSltu f s)
/-- `clz` (R169). -/
def execClz (f : CR) (s : State) : Host.Outcome State Fault Refusal := settle s (aluCR1 aluClz f s)
/-- `clz` of the A slot (R169). -/
def execClzAs (f : AS) (s : State) : Host.Outcome State Fault Refusal := settle s (aluAS1 aluClz f s)
/-- `ctz` (R169). -/
def execCtz (f : CR) (s : State) : Host.Outcome State Fault Refusal := settle s (aluCR1 aluCtz f s)
/-- `ctz` of the A slot (R169). -/
def execCtzAs (f : AS) (s : State) : Host.Outcome State Fault Refusal := settle s (aluAS1 aluCtz f s)
/-- `popc` (R169). -/
def execPopc (f : CR) (s : State) : Host.Outcome State Fault Refusal := settle s (aluCR1 aluPopc f s)
/-- `popc` of the A slot (R169). -/
def execPopcAs (f : AS) (s : State) : Host.Outcome State Fault Refusal := settle s (aluAS1 aluPopc f s)
/-- `addi` (R169). -/
def execAddi (f : CI) (s : State) : Host.Outcome State Fault Refusal := settle s (aluCI aluAdd (sextI f) f s)
/-- `andi` (R169). -/
def execAndi (f : CI) (s : State) : Host.Outcome State Fault Refusal := settle s (aluCI aluAnd (zextI f) f s)
/-- `ori` (R169). -/
def execOri (f : CI) (s : State) : Host.Outcome State Fault Refusal := settle s (aluCI aluOr (zextI f) f s)
/-- `xori` (R169). -/
def execXori (f : CI) (s : State) : Host.Outcome State Fault Refusal := settle s (aluCI aluXor (zextI f) f s)
/-- `shli` (R169). -/
def execShli (f : CI) (s : State) : Host.Outcome State Fault Refusal := settle s (aluCI aluShl (zextI f) f s)
/-- `shri` (R169). -/
def execShri (f : CI) (s : State) : Host.Outcome State Fault Refusal := settle s (aluCI aluShr (zextI f) f s)
/-- `sari` (R169). -/
def execSari (f : CI) (s : State) : Host.Outcome State Fault Refusal := settle s (aluCI aluSar (zextI f) f s)
/-- `slti` (R169). -/
def execSlti (f : CI) (s : State) : Host.Outcome State Fault Refusal := settle s (aluCI aluSlt (sextI f) f s)
/-- `sltiu` (R169). -/
def execSltiu (f : CI) (s : State) : Host.Outcome State Fault Refusal := settle s (aluCI aluSltu (sextI f) f s)

/-! ### Bit fields (R171): imm15 holds w - 1 in [11:6] and lo in [5:0] -/

def bfLo (f : CI) : Nat := f.imm.toNat % 64
def bfW (f : CI) : Nat := f.imm.toNat / 64 % 64 + 1

/-- The field s[ra][lo+w-1:lo]. -/
def bfField (f : CI) (a : Word) : Nat := bits a (bfLo f + bfW f - 1) (bfLo f)

/-- `bfx` (R171). -/
def execBfx (f : CI) (s : State) : Host.Outcome State Fault Refusal :=
  settle s (aluCI (fun a _ => wd (bfField f a)) 0 f s)
/-- `bfxs` (R171). -/
def execBfxs (f : CI) (s : State) : Host.Outcome State Fault Refusal :=
  settle s (aluCI (fun a _ => BitVec.ofInt 64 (intOf true (bfW f) (bfField f a))) 0 f s)
/-- `bfi` reads rd and replaces its field with the low bits of s[ra] (R171). -/
def execBfi (f : CI) (s : State) : Host.Outcome State Fault Refusal :=
  settle s (do
    useS s [f.ra, f.rd]
    .ok (s.ws f.rd (putBits (s.rs f.rd) (bfLo f + bfW f - 1) (bfLo f) ((s.rs f.ra).toNat))))

/-! ### Addresses and constants (R172 to R174) -/

/-- a := s[ra] + sext(off14), off14 being imm15[13:0]. -/
def leaAddr (f : CI) (s : State) : Word := s.rs f.ra + sx (f.imm.extractLsb' 0 14)

/-- `lea` (R172). -/
def execLea (f : CI) (s : State) : Host.Outcome State Fault Refusal :=
  settle s (do useS s [f.ra]; .ok (s.ws f.rd (leaAddr f s)))

/-- `lea.g` (R172, 21 R440): a private address becomes its global alias; on the awn core it traps at step 4, and an offset at or
above the area size at step 6. -/
def execLeaG (f : CI) (s : State) : Host.Outcome State Fault Refusal :=
  settle s (do
    let a := leaAddr f s
    let r := s.runRec s.cur.tile
    let priv := windowOf a == some 3
    if s.src.pends f.ra.toNat then .error (.wait (.structural (.result [f.ra.toNat])) s) else .ok ()
    need (!(priv && s.cur.isAwn)) 4 0x3004 0 a
    useS s [f.ra]
    need (!priv || offset a < areaSize r) 6 0x3003 1 a
    .ok (s.ws f.rd (if priv then privAlias r s.cur.ctx (offset a) else a)))

/-- `movi` (R173). -/
def execMovi (rd : BitVec 5) (imm : BitVec 32) (s : State) : Host.Outcome State Fault Refusal :=
  settle s (.ok (s.ws rd (sx imm)))
/-- `movhi` reads rd and replaces its high half (R173). -/
def execMovhi (rd : BitVec 5) (imm : BitVec 32) (s : State) : Host.Outcome State Fault Refusal :=
  settle s (do useS s [rd]; .ok (s.ws rd (imm ++ (s.rs rd).extractLsb' 0 32)))
/-- `sel` (R174): fn9[4:0] names the destination. -/
def execSel (f : EX) (s : State) : Host.Outcome State Fault Refusal :=
  settle s (do
    useS s [f.ra, f.rb, f.rc]
    .ok (s.ws (f.fn9.extractLsb' 0 5) (if s.rs f.ra ≠ 0 then s.rs f.rb else s.rs f.rc)))

end Sys2Proof.Machine
end

