-- ==== Sys2Proof/Machine/ScalarFp.lean ====
section
/-! DEFINITION. Scalar floating point (07_isa_scalar_control.md R175, R176; 06 R156). -/

namespace Sys2Proof.Machine

/-- The type code of 06 Table — Type codes that a scalar type code names; i64 and n64 have none (R156). -/
def scalarTy (t : Nat) : Option Nat :=
  if t ≤ 2 then some (6 + t) else if t = 5 then some 9 else if t = 6 then some 10 else none

/-- The format of f32, bf16 or f16 as a scalar type code. -/
def scalarFmt (t : Nat) : FloatFmt := if t = 1 then bf16 else if t = 2 then f16 else f32

/-- The exact value of an s register in a scalar type: a floating scalar occupies the low bits (R156). -/
def scalarNum (t : Nat) (w : Word) : Num :=
  match scalarTy t with
  | some ty => decodeTy ty (w.toNat % 2 ^ tyWidth ty)
  | none => .ofInt (if t = 3 then w.toInt else w.toNat)

/-- The lesser (or greater) of x and y with -0 below +0; one NaN gives the other, two the canonical NaN (R175). -/
def minMax (less : Bool) (x y : Num) : Num :=
  if x.isNan then y else if y.isNan then x
  else if x.below y then (if less then x else y) else if less then y else x

/-- A predicate of `vcmp`'s fn4 on two values (09 R255): eq, ne, lt, le, gt, ge, ord, unord. -/
def predicate (p : Nat) (x y : Num) : Bool :=
  if x.isNan || y.isNan then p == 1 || p == 7
  else
    let eq := !x.lt y && !y.lt x
    match p with
    | 0 => eq
    | 1 => !eq
    | 2 => x.lt y
    | 3 => x.lt y || eq
    | 4 => y.lt x
    | 5 => y.lt x || eq
    | 6 => true
    | _ => false

/-- The tests common to scalar floating point: the awn core may not issue it (09 R251), then its sources. -/
def useF (s : State) (rs : List (BitVec 5)) : Run Unit := do
  notAwn s
  useS s rs

/-- A rounding op on x and y, and for `fma` the old sd as z; its event is counted (R175). -/
def roundF (f : AF) (fma : Bool) (g : Num → Num → Num → Num) (s : State) : Run State := do
  useF s ([f.sa, f.sb] ++ if fma then [f.sd] else [])
  let t := f.t.toNat
  let x := scalarNum t (s.rs f.sa)
  let y := scalarNum t (s.rs f.sb)
  let z := scalarNum t (s.rs f.sd)
  let (b, ev) := (scalarFmt t).result ([x, y] ++ if fma then [z] else []) (g x y z) s.rm s.e4ns
  .ok ((s.ws f.sd (wd b)).countV [ev])

/-- An op that selects or changes a value exactly; it rounds nothing and counts nothing. -/
def exactF (f : AF) (two : Bool) (g : Num → Num → Num) (s : State) : Run State := do
  useF s (f.sa :: if two then [f.sb] else [])
  let t := f.t.toNat
  .ok (s.ws f.sd (wd ((scalarFmt t).round (g (scalarNum t (s.rs f.sa)) (scalarNum t (s.rs f.sb))) 0 false).1))

/-- The magnitude of a value. -/
def Num.abs (x : Num) : Num := if x.isNeg then x.neg else x

/-- `fadd` (R175). -/
def execFadd (f : AF) (s : State) : Host.Outcome State Fault Refusal := settle s (roundF f false (fun x y _ => exactSum [x, y]) s)
/-- `fsub` (R175). -/
def execFsub (f : AF) (s : State) : Host.Outcome State Fault Refusal := settle s (roundF f false (fun x y _ => exactSum [x, y.neg]) s)
/-- `fmul` (R175). -/
def execFmul (f : AF) (s : State) : Host.Outcome State Fault Refusal := settle s (roundF f false (fun x y _ => x.mul y) s)
/-- `fma` (R175): one rounding, z the old value of sd. -/
def execFma (f : AF) (s : State) : Host.Outcome State Fault Refusal := settle s (roundF f true (fun x y z => exactSum [x.mul y, z]) s)
/-- `fmin` (R175). -/
def execFmin (f : AF) (s : State) : Host.Outcome State Fault Refusal := settle s (exactF f true (minMax true) s)
/-- `fmax` (R175). -/
def execFmax (f : AF) (s : State) : Host.Outcome State Fault Refusal := settle s (exactF f true (minMax false) s)
/-- `fabs` (R175). -/
def execFabs (f : AF) (s : State) : Host.Outcome State Fault Refusal := settle s (exactF f false (fun x _ => x.abs) s)
/-- `fneg` (R175). -/
def execFneg (f : AF) (s : State) : Host.Outcome State Fault Refusal := settle s (exactF f false (fun x _ => x.neg) s)

/-- `fcvt` (R175): from the type of the second field to the type of the first, under R127 to R129. -/
def execFcvt (f : AF) (s : State) : Host.Outcome State Fault Refusal :=
  settle s (do
    useF s [f.sa]
    let x := scalarNum f.t2.toNat (s.rs f.sa)
    let t := f.t.toNat
    let (b, ev) := match scalarTy t with
      | some ty => convertTo x ty s.rm s.e4ns
      | none => if t = 3 then toIntTy x 64 s.rm (-(2 ^ 63 : Nat)) ((2 ^ 63 : Nat) - 1) else toIntTy x 64 s.rm 0 ((2 ^ 64 : Nat) - 1)
    .ok ((s.ws f.sd (wd b)).countV [ev]))

/-- `fcmp` (R175). -/
def execFcmp (f : AF) (s : State) : Host.Outcome State Fault Refusal :=
  settle s (do
    useF s [f.sa, f.sb]
    let t := f.t.toNat
    .ok (s.ws f.sd (wd (b2n (predicate f.t2.toNat (scalarNum t (s.rs f.sa)) (scalarNum t (s.rs f.sb)))))))

end Sys2Proof.Machine
end

