-- ==== Sys2Proof/Machine/Vector.lean ====
section
/-! DEFINITION. Vector and mask instructions (09_isa_vector.md R244 to R271). -/

namespace Sys2Proof.Machine

/-! ### Frames (R244, R245, R247) -/

/-- The number whose digits of w bits are the elements of a list. -/
def packNat (w : Nat) : List Nat → Nat
  | [] => 0
  | x :: xs => x % 2 ^ w + 2 ^ w * packNat w xs

/-- A register from a list of elements of width w. -/
def vPack (w : Nat) (xs : List Nat) : VReg := BitVec.ofNat 2048 (packNat w xs)

/-- What an op writes: the new register, the lanes written, the events counted. -/
structure VOut where
  v : VReg
  lanes : BitVec 64
  evs : List (Option Nat) := []
  deriving DecidableEq, Repr

/-- Active(mm, i): the lanes of a mask operand. -/
def State.act (s : State) (mm : BitVec 3) : BitVec 64 := s.rmask mm

/-- The frame of an op that writes v[vd]: its v sources, whether vd is one, its s sources, and what it computes. -/
def vecOp (vd : BitVec 5) (mm : BitVec 3) (vs : List (BitVec 5)) (readsVd : Bool) (ss : List (BitVec 5)) (op : State → VOut) (s : State) :
    Run State := do
  notAwn s
  useS s ss
  let s ← useV s (vs ++ if readsVd then [vd] else [])
  destV s vd (mm != 0) readsVd
  stripsOk s vs
  let o := op s
  .ok ((← s.wv vd o.v o.lanes).countV o.evs)

/-- ElemOp (R245): F on the elements of active lanes, with old vd as third operand. -/
def elemOp (w : Nat) (act : BitVec 64) (F : Nat → Nat → Nat → Nat × Option Nat) (a b d : VReg) : VOut :=
  let xs := (List.range (elems w)).map (fun e =>
    if act.getLsbD (laneOf w e) then F (elem a w e) (elem b w e) (elem d w e) else (0, none))
  ⟨vPack w (xs.map (·.1)), act, xs.map (·.2)⟩

/-- A lane-wise op without events. -/
def laneOp (act : BitVec 64) (F : Nat → BitVec 32) : VOut := ⟨vOfLanes F, act, []⟩

/-! ### Arithmetic (R252, R253) -/

/-- The float format of FT: f32, bf16, f16. -/
def ftOf (ty : Nat) : FloatFmt := if ty = 7 then bf16 else if ty = 8 then f16 else f32

/-- An op with a rounding floating form on its first `n` operands and an integer form. -/
def arith (n : Nat) (fl : Num → Num → Num → Num) (int : Nat → Nat → Nat → Nat → Nat) (f : AV) (s : State) : VOut :=
  let ty := f.ty.toNat
  let w := tyWidth ty
  let rm := s.rm
  let F (x y z : Nat) : Nat × Option Nat :=
    if isFT ty then
      let fm := ftOf ty
      let a := fm.decode x
      let b := fm.decode y
      let c := fm.decode z
      fm.result ([a, b, c].take n) (fl a b c) rm false
    else (int ty w x y, none)
  elemOp w (s.act f.mm) F (s.rv f.va) (s.rv f.vb) (s.rv f.vd)

/-- An op whose floating form selects or changes a value exactly, and counts nothing. -/
def exactV (fl : Num → Num → Num) (int : Nat → Nat → Nat → Nat → Nat) (f : AV) (s : State) : VOut :=
  let ty := f.ty.toNat
  let w := tyWidth ty
  let F (x y _z : Nat) : Nat × Option Nat :=
    if isFT ty then ((ftOf ty).round (fl ((ftOf ty).decode x) ((ftOf ty).decode y)) 0 false |>.1, none) else (int ty w x y, none)
  elemOp w (s.act f.mm) F (s.rv f.va) (s.rv f.vb) 0

/-- Integer forms on bit patterns of width w. -/
def intAdd (_ty w x y : Nat) : Nat := (x + y) % 2 ^ w
def intSub (_ty w x y : Nat) : Nat := (x + 2 ^ w - y) % 2 ^ w
def intMul (_ty w x y : Nat) : Nat := x * y % 2 ^ w
def intMin (ty w x y : Nat) : Nat := if intOf (tySigned ty) w x ≤ intOf (tySigned ty) w y then x else y
def intMax (ty w x y : Nat) : Nat := if intOf (tySigned ty) w x ≤ intOf (tySigned ty) w y then y else x
def intAbs (ty w x _y : Nat) : Nat := bitsOfInt w ((intOf (tySigned ty) w x).natAbs : Int)
def intNeg (_ty w x _y : Nat) : Nat := (2 ^ w - x) % 2 ^ w
def intNone (_ty _w _x _y : Nat) : Nat := 0
/-- High half of the product (R259). -/
def intMulh (ty w x y : Nat) : Nat := bitsOfInt w (intOf (tySigned ty) w x * intOf (tySigned ty) w y / (2 ^ w : Nat))
/-- Saturating sum and difference (R259). -/
def clampTy (ty : Nat) (x : Int) : Nat := bitsOfInt (tyWidth ty) (max (tyMin ty) (min (tyMax ty) x))
def intAdds (ty w x y : Nat) : Nat := clampTy ty (intOf (tySigned ty) w x + intOf (tySigned ty) w y)
def intSubs (ty w x y : Nat) : Nat := clampTy ty (intOf (tySigned ty) w x - intOf (tySigned ty) w y)
/-- Shifts by the low log2 w bits (R258). -/
def intShl (_ty w x y : Nat) : Nat := x * 2 ^ (y % w) % 2 ^ w
def intShr (_ty w x y : Nat) : Nat := x / 2 ^ (y % w)
def intSar (_ty w x y : Nat) : Nat := bitsOfInt w (intOf true w x / (2 ^ (y % w) : Nat))

/-- Ops with va and vb, and with va alone. -/
def vec2 (op : AV → State → VOut) (f : AV) (s : State) : Run State := vecOp f.vd f.mm [f.va, f.vb] false [] (op f) s
def vec1 (op : AV → State → VOut) (f : AV) (s : State) : Run State := vecOp f.vd f.mm [f.va] false [] (op f) s
/-- Ops with va, vb and the old vd. -/
def vec3 (op : AV → State → VOut) (f : AV) (s : State) : Run State := vecOp f.vd f.mm [f.va, f.vb] true [] (op f) s

/-- The special functions by fn4 (R254). -/
def special (fn : Nat) (f : AV) (s : State) : VOut :=
  let fm := ftOf f.ty.toNat
  elemOp (tyWidth f.ty.toNat) (s.act f.mm) (fun x _ _ => specialFn fn fm (fm.decode x) s.rm) (s.rv f.va) 0 0

/-! ### Compare, select, logic (R255 to R257) -/

/-- Bits of a mask written where lanes are active. -/
def maskOf (act old : BitVec 64) (p : Nat → Bool) : BitVec 64 :=
  BitVec.ofNat 64 ((List.range 64).foldl (fun (n : Nat) i =>
    n + b2n (if act.getLsbD i then p i else old.getLsbD i) * 2 ^ i) 0)

/-- `vcmp`: fn4 the predicate, vd[2:0] the destination mask. -/
def vcmp (f : AVF) (s : State) : Run State := do
  notAwn s
  let s ← useV s [f.va, f.vb]
  stripsOk s [f.va, f.vb]
  let ty := f.ty.toNat
  let md : BitVec 3 := f.vd.extractLsb' 0 3
  let val (v : VReg) (i : Nat) : Num := decodeTy ty (lane v i).toNat
  .ok (s.wmask md (maskOf (s.act f.mm) (s.me.m.get 0 md.toNat) (fun i => predicate f.fn.toNat (val (s.rv f.va) i) (val (s.rv f.vb) i))))

/-- `vsel`: every lane, the mask selects. -/
def selV (f : AV) (s : State) : VOut :=
  let act := s.act f.mm
  laneOp (BitVec.allOnes 64) (fun i => if act.getLsbD i then lane (s.rv f.va) i else lane (s.rv f.vb) i)

/-- A logic op on lanes. -/
def logicV (op : BitVec 32 → BitVec 32 → BitVec 32) (f : AV) (s : State) : VOut :=
  laneOp (s.act f.mm) (fun i => op (lane (s.rv f.va) i) (lane (s.rv f.vb) i))

/-! ### Conversion (R260, R261) -/

/-- The part number of `vcvt`. -/
def cvtPart (f : AVF) : Nat := f.vb.toNat % 8

/-- `vcvt`: a narrowing one fills the lanes of its part and reads vd. -/
def cvtV (f : AVF) (s : State) : VOut :=
  let T := f.ty.toNat
  let U := f.fn.toNat
  let wt := tyWidth T
  let wu := tyWidth U
  let E := 64 * min (32 / wu) (32 / wt)
  let p := cvtPart f
  let act := s.act f.mm
  let src (dst : Nat) : Option Nat :=
    if wt < wu then (if p * E ≤ dst && dst < p * E + E then some (dst - p * E) else none)
    else some (dst + (if wu < wt then p * E else 0))
  let xs := (List.range (elems wt)).map (fun dst =>
    match src dst with
    | some e => if act.getLsbD (laneOf wt dst) then convertTo (decodeTy U (elem (s.rv f.va) wu e)) T s.rm s.e4ns else (0, none)
    | none => (0, none))
  let part := BitVec.ofNat 64 ((List.range 64).foldl (fun (n : Nat) i => n + b2n ((src (i * (32 / wt))).isSome) * 2 ^ i) 0)
  ⟨vPack wt (xs.map (·.1)), act &&& part, xs.map (·.2)⟩

/-- d and z of a lane of vqnt and vdeq. -/
def laneD (v : VReg) (i : Nat) : Num := f16.decode ((lane v i).toNat % 65536)
def laneZ (ty : Nat) (v : VReg) (i : Nat) : Int := zeroPoint ty ((lane v i).toNat / 65536)

/-- `vqnt`: ty the integer type, fn4 the floating one. -/
def qntV (f : AVF) (s : State) : VOut :=
  let I := f.ty.toNat
  let fm := ftOf f.fn.toNat
  let w := tyWidth f.fn.toNat
  let act := s.act f.mm
  let xs := (List.range (elems w)).map (fun e =>
    let i := laneOf w e
    if act.getLsbD i then
      let (q, ev) := quantG (fm.decode (elem (s.rv f.va) w e)) (laneD (s.rv f.vb) i) (laneZ I (s.rv f.vb) i) I s.rm
      (bitsOfInt w q, ev)
    else (0, none))
  ⟨vPack w (xs.map (·.1)), act, xs.map (·.2)⟩

/-- `vdeq`. -/
def deqV (f : AVF) (s : State) : VOut :=
  let I := f.ty.toNat
  let fm := ftOf f.fn.toNat
  let w := tyWidth f.fn.toNat
  let act := s.act f.mm
  let xs := (List.range (elems w)).map (fun e =>
    let i := laneOf w e
    if act.getLsbD i then
      let q := intOf (tySigned I) (tyWidth I) (elem (s.rv f.va) w e % 2 ^ tyWidth I)
      let d := laneD (s.rv f.vb) i
      fm.result [d] (deqG q d (laneZ I (s.rv f.vb) i)) s.rm false
    else (0, none))
  ⟨vPack w (xs.map (·.1)), act, xs.map (·.2)⟩

/-! ### Permutes (R262 to R265) -/

/-- Bytes of an op on active lanes. -/
def byteOp (act : BitVec 64) (F : Nat → Nat) : VOut := ⟨vPack 8 ((List.range 256).map F), act, []⟩

def permV (f : AV) (s : State) : VOut :=
  laneOp (s.act f.mm) (fun i => lane (s.rv f.va) ((lane (s.rv f.vb) i).toNat % 64))
def permbV (f : AV) (s : State) : VOut := byteOp (s.act f.mm) (fun k => elem (s.rv f.va) 8 (elem (s.rv f.vb) 8 k))

/-- A nibble of each byte extended to 8 bits. -/
def nibV (hi : Bool) (f : AV) (s : State) : VOut :=
  byteOp (s.act f.mm) (fun k =>
    let b := elem (s.rv f.va) 8 k
    bitsOfInt 8 (intOf (tySigned f.ty.toNat) 4 (if hi then b / 16 else b % 16)))

/-- The element sequences of `vzip` and `vunzip` (R264). -/
def zipSeq (w : Nat) (a b : VReg) : List Nat := (List.range (elems w)).flatMap (fun e => [elem a w e, elem b w e])
def unzipSeq (w : Nat) (a b : VReg) : List Nat :=
  let n := elems w
  let S (i : Nat) : Nat := if i < n then elem a w i else elem b w (i - n)
  (List.range n).map (fun e => S (2 * e)) ++ (List.range n).map (fun e => S (2 * e + 1))

/-- An op that writes the register pair vd and vd + 1. -/
def pairV (seq : Nat → VReg → VReg → List Nat) (f : AV) (s : State) : Run State := do
  notAwn s
  let s ← useV s [f.va, f.vb]
  destV s f.vd (f.mm != 0) false
  destV s (f.vd + 1) (f.mm != 0) false
  stripsOk s [f.va, f.vb]
  let w := tyWidth f.ty.toNat
  let xs := seq w (s.rv f.va) (s.rv f.vb)
  let act := s.act f.mm
  let s ← s.wv f.vd (vPack w (xs.take (elems w))) act
  s.wv (f.vd + 1) (vPack w (xs.drop (elems w))) act

/-- Lanes below a distance. -/
def lanesBelow (n : Nat) : BitVec 64 := BitVec.ofNat 64 (2 ^ min n 64 - 1)

def slideupV (f : AV) (s : State) : VOut :=
  let a := (lane (s.rv f.vb) 0).toNat
  laneOp (s.act f.mm &&& ~~~(lanesBelow a)) (fun i => lane (s.rv f.va) (i - a))
def slidednV (f : AV) (s : State) : VOut :=
  let a := (lane (s.rv f.vb) 0).toNat
  laneOp (s.act f.mm) (fun i => if i + a ≤ 63 then lane (s.rv f.va) (i + a) else 0)

/-! ### Broadcast and single elements (R266) -/

def bcastV (f : AV) (s : State) : VOut :=
  let w := tyWidth f.ty.toNat
  ⟨vPack w (List.replicate (elems w) ((s.rs f.va).toNat % 2 ^ w)), s.act f.mm, []⟩

/-- An element extended to a doubleword: signed integer types by their sign, every other by zero. -/
def extElem (ty x : Nat) : Word := wd (bitsOfInt 64 (intOf (tySigned ty) (tyWidth ty) x))

/-- `vext`: the vd field names the s destination. -/
def vext (f : AV) (s : State) : Run State := do
  notAwn s
  useS s [f.vb]
  let s ← useV s [f.va]
  stripsOk s [f.va]
  let w := tyWidth f.ty.toNat
  let e := (s.rs f.vb).toNat
  .ok (s.ws f.vd (if e ≥ elems w then 0 else extElem f.ty.toNat (elem (s.rv f.va) w e)))

/-- `vins`: one element, in its lane if that is active. -/
def insV (f : AV) (s : State) : VOut :=
  let w := tyWidth f.ty.toNat
  let e := (s.rs f.vb).toNat
  let old := s.rv f.vd
  if e ≥ elems w then ⟨old, 0, []⟩
  else
    ⟨vPack w ((List.range (elems w)).map (fun j => if j = e then (s.rs f.va).toNat % 2 ^ w else elem old w j)),
      s.act f.mm &&& BitVec.ofNat 64 (2 ^ laneOf w e), []⟩

/-! ### Reductions and scans (R267, R268) -/

/-- Elements of active lanes. -/
def activeElems (w : Nat) (act : BitVec 64) (v : VReg) : List Nat :=
  ((List.range (elems w)).filter (fun e => act.getLsbD (laneOf w e))).map (elem v w)

/-- The floating result over values: 0 add, 1 min, 2 max. -/
def redNum (fn : Nat) (L : List Num) : Num :=
  if fn = 0 then exactSum L
  else if L.isEmpty then .inf (fn == 2)
  else L.foldl (minMax (fn == 1)) .nan

/-- The integer result over values, before narrowing. -/
def redInt (fn ty : Nat) (L : List Int) : Int :=
  if fn = 0 then L.foldl (· + ·) 0
  else if fn = 1 then L.foldl min (tyMax ty) else L.foldl max (tyMin ty)

/-- A reduction over elements: the bits, `w` wide, and its event. -/
def reduce (fn ty w rm : Nat) (L : List Nat) : Nat × Option Nat :=
  if isFT ty then
    let fm := ftOf ty
    let xs := L.map fm.decode
    if fn = 0 then fm.result xs (redNum fn xs) rm false else ((fm.round (redNum fn xs) rm false).1, none)
  else (bitsOfInt w (redInt fn ty (L.map (intOf (tySigned ty) (tyWidth ty)))), none)

/-- `vred`: the vd field names the s destination. -/
def vred (fn : Nat) (f : AV) (s : State) : Run State := do
  notAwn s
  let s ← useV s [f.va]
  stripsOk s [f.va]
  let ty := f.ty.toNat
  let (b, ev) := reduce fn ty 64 s.rm (activeElems (tyWidth ty) (s.act f.mm) (s.rv f.va))
  .ok ((s.ws f.vd (wd b)).countV [ev])

/-- The results of a scan, element by element; `acc` holds the elements before, in reverse. -/
def scanList (fn ty rm : Nat) : List (Option Nat) → List Nat → List (Nat × Option Nat)
  | [], _ => []
  | none :: xs, acc => (0, none) :: scanList fn ty rm xs acc
  | some x :: xs, acc => reduce fn ty (tyWidth ty) rm (x :: acc) :: scanList fn ty rm xs (x :: acc)

/-- `vscan`. -/
def scanV (fn : Nat) (f : AV) (s : State) : VOut :=
  let ty := f.ty.toNat
  let w := tyWidth ty
  let act := s.act f.mm
  let xs := scanList fn ty s.rm ((List.range (elems w)).map (fun e =>
    if act.getLsbD (laneOf w e) then some (elem (s.rv f.va) w e) else none)) []
  ⟨vPack w (xs.map (·.1)), act, xs.map (·.2)⟩

/-! ### Compress, expand, iota and class (R269, R270) -/

/-- How many bits of a mask below bit i are set. -/
def countBelow (m : BitVec 64) (i : Nat) : Nat := popCount (m.toNat % 2 ^ i) 64

def compressV (f : AV) (s : State) : VOut :=
  let m := s.act f.mm
  let ls := (List.range 64).filter (fun i => m.getLsbD i)
  laneOp (lanesBelow ls.length) (fun i => lane (s.rv f.va) ((ls[i]?).getD 0))
def expandV (f : AV) (s : State) : VOut :=
  let m := s.act f.mm
  laneOp m (fun i => lane (s.rv f.va) (countBelow m i))
def iotaV (f : AV) (s : State) : VOut := laneOp (BitVec.allOnes 64) (fun i => BitVec.ofNat 32 (countBelow (s.act f.mm) i))

/-- The class bit of a value in a format. -/
def classOf (fm : FloatFmt) (x : Num) : Nat :=
  match x with
  | .nan => 256
  | .inf n => if n then 1 else 128
  | .fin n m _ =>
    if m = 0 then (if n then 8 else 16)
    else if m < 2 ^ (fm.p - 1) then (if n then 4 else 32) else if n then 2 else 64

def classV (f : AV) (s : State) : VOut :=
  let fm := ftOf f.ty.toNat
  elemOp (tyWidth f.ty.toNat) (s.act f.mm) (fun x _ _ => (classOf fm (fm.decode x), none)) (s.rv f.va) 0 0

/-! ### The instructions -/

/-- `vadd` (R252). -/
def execVadd (f : AV) (s : State) : Host.Outcome State Fault Refusal := settle s (vec2 (arith 2 (fun x y _ => exactSum [x, y]) intAdd) f s)
/-- `vsub` (R252). -/
def execVsub (f : AV) (s : State) : Host.Outcome State Fault Refusal := settle s (vec2 (arith 2 (fun x y _ => exactSum [x, y.neg]) intSub) f s)
/-- `vmul` (R252). -/
def execVmul (f : AV) (s : State) : Host.Outcome State Fault Refusal := settle s (vec2 (arith 2 (fun x y _ => x.mul y) intMul) f s)
/-- `vfma` (R252). -/
def execVfma (f : AV) (s : State) : Host.Outcome State Fault Refusal := settle s (vec3 (arith 3 (fun x y z => exactSum [x.mul y, z]) intNone) f s)
/-- `vfms` (R252). -/
def execVfms (f : AV) (s : State) : Host.Outcome State Fault Refusal := settle s (vec3 (arith 3 (fun x y z => exactSum [x.mul y, z.neg]) intNone) f s)
/-- `vnfma` (R252). -/
def execVnfma (f : AV) (s : State) : Host.Outcome State Fault Refusal := settle s (vec3 (arith 3 (fun x y z => exactSum [(x.mul y).neg, z]) intNone) f s)
/-- `vmin` (R252). -/
def execVmin (f : AV) (s : State) : Host.Outcome State Fault Refusal := settle s (vec2 (exactV (minMax true) intMin) f s)
/-- `vmax` (R252). -/
def execVmax (f : AV) (s : State) : Host.Outcome State Fault Refusal := settle s (vec2 (exactV (minMax false) intMax) f s)
/-- `vabs` (R252). -/
def execVabs (f : AV) (s : State) : Host.Outcome State Fault Refusal := settle s (vec1 (exactV (fun x _ => x.abs) intAbs) f s)
/-- `vneg` (R252). -/
def execVneg (f : AV) (s : State) : Host.Outcome State Fault Refusal := settle s (vec1 (exactV (fun x _ => x.neg) intNeg) f s)
/-- `vrcp` (R254). -/
def execVrcp (f : AV) (s : State) : Host.Outcome State Fault Refusal := settle s (vec1 (special 0) f s)
/-- `vrsq` (R254). -/
def execVrsq (f : AV) (s : State) : Host.Outcome State Fault Refusal := settle s (vec1 (special 1) f s)
/-- `vsqrt` (R254). -/
def execVsqrt (f : AV) (s : State) : Host.Outcome State Fault Refusal := settle s (vec1 (special 2) f s)
/-- `vexp2` (R254). -/
def execVexp2 (f : AV) (s : State) : Host.Outcome State Fault Refusal := settle s (vec1 (special 3) f s)
/-- `vlog2` (R254). -/
def execVlog2 (f : AV) (s : State) : Host.Outcome State Fault Refusal := settle s (vec1 (special 4) f s)
/-- `vsin` (R254). -/
def execVsin (f : AV) (s : State) : Host.Outcome State Fault Refusal := settle s (vec1 (special 5) f s)
/-- `vcos` (R254). -/
def execVcos (f : AV) (s : State) : Host.Outcome State Fault Refusal := settle s (vec1 (special 6) f s)
/-- `vtanh` (R254). -/
def execVtanh (f : AV) (s : State) : Host.Outcome State Fault Refusal := settle s (vec1 (special 7) f s)
/-- `vcmp` (R255). -/
def execVcmp (f : AVF) (s : State) : Host.Outcome State Fault Refusal := settle s (vcmp f s)
/-- `vsel` (R256). -/
def execVsel (f : AV) (s : State) : Host.Outcome State Fault Refusal := settle s (vec2 selV f s)
/-- `vand` (R257). -/
def execVand (f : AV) (s : State) : Host.Outcome State Fault Refusal := settle s (vec2 (logicV (fun x y => x &&& y)) f s)
/-- `vor` (R257). -/
def execVor (f : AV) (s : State) : Host.Outcome State Fault Refusal := settle s (vec2 (logicV (fun x y => x ||| y)) f s)
/-- `vxor` (R257). -/
def execVxor (f : AV) (s : State) : Host.Outcome State Fault Refusal := settle s (vec2 (logicV (fun x y => x ^^^ y)) f s)
/-- `vandn` (R257). -/
def execVandn (f : AV) (s : State) : Host.Outcome State Fault Refusal := settle s (vec2 (logicV (fun x y => x &&& ~~~y)) f s)
/-- `vnot` (R257). -/
def execVnot (f : AV) (s : State) : Host.Outcome State Fault Refusal := settle s (vec1 (logicV (fun x _ => ~~~x)) f s)
/-- `vshl` (R258). -/
def execVshl (f : AV) (s : State) : Host.Outcome State Fault Refusal := settle s (vec2 (exactV (fun x _ => x) intShl) f s)
/-- `vshr` (R258). -/
def execVshr (f : AV) (s : State) : Host.Outcome State Fault Refusal := settle s (vec2 (exactV (fun x _ => x) intShr) f s)
/-- `vsar` (R258). -/
def execVsar (f : AV) (s : State) : Host.Outcome State Fault Refusal := settle s (vec2 (exactV (fun x _ => x) intSar) f s)
/-- `vmulh` (R259). -/
def execVmulh (f : AV) (s : State) : Host.Outcome State Fault Refusal := settle s (vec2 (exactV (fun x _ => x) intMulh) f s)
/-- `vmulhu` (R259). -/
def execVmulhu (f : AV) (s : State) : Host.Outcome State Fault Refusal := settle s (vec2 (exactV (fun x _ => x) intMulh) f s)
/-- `vadds` (R259). -/
def execVadds (f : AV) (s : State) : Host.Outcome State Fault Refusal := settle s (vec2 (exactV (fun x _ => x) intAdds) f s)
/-- `vsubs` (R259). -/
def execVsubs (f : AV) (s : State) : Host.Outcome State Fault Refusal := settle s (vec2 (exactV (fun x _ => x) intSubs) f s)
/-- `vcvt` (R260): a narrowing one reads vd. -/
def execVcvt (f : AVF) (s : State) : Host.Outcome State Fault Refusal := settle s (vecOp f.vd f.mm [f.va] (tyWidth f.ty.toNat < tyWidth f.fn.toNat) [] (cvtV f) s)
/-- `vqnt` (R261). -/
def execVqnt (f : AVF) (s : State) : Host.Outcome State Fault Refusal := settle s (vecOp f.vd f.mm [f.va, f.vb] false [] (qntV f) s)
/-- `vdeq` (R261). -/
def execVdeq (f : AVF) (s : State) : Host.Outcome State Fault Refusal := settle s (vecOp f.vd f.mm [f.va, f.vb] false [] (deqV f) s)
/-- `vperm` (R262). -/
def execVperm (f : AV) (s : State) : Host.Outcome State Fault Refusal := settle s (vec2 permV f s)
/-- `vpermb` (R262). -/
def execVpermb (f : AV) (s : State) : Host.Outcome State Fault Refusal := settle s (vec2 permbV f s)
/-- `vnib.lo` (R263). -/
def execVnibLo (f : AV) (s : State) : Host.Outcome State Fault Refusal := settle s (vec1 (nibV false) f s)
/-- `vnib.hi` (R263). -/
def execVnibHi (f : AV) (s : State) : Host.Outcome State Fault Refusal := settle s (vec1 (nibV true) f s)
/-- `vzip` (R264). -/
def execVzip (f : AV) (s : State) : Host.Outcome State Fault Refusal := settle s (pairV zipSeq f s)
/-- `vunzip` (R264). -/
def execVunzip (f : AV) (s : State) : Host.Outcome State Fault Refusal := settle s (pairV unzipSeq f s)
/-- `vslideup` (R265). -/
def execVslideup (f : AV) (s : State) : Host.Outcome State Fault Refusal := settle s (vec3 slideupV f s)
/-- `vslidedn` (R265). -/
def execVslidedn (f : AV) (s : State) : Host.Outcome State Fault Refusal := settle s (vec2 slidednV f s)
/-- `vbcast` (R266): the va field names an s register. -/
def execVbcast (f : AV) (s : State) : Host.Outcome State Fault Refusal := settle s (vecOp f.vd f.mm [] false [f.va] (bcastV f) s)
/-- `vext` (R266). -/
def execVext (f : AV) (s : State) : Host.Outcome State Fault Refusal := settle s (vext f s)
/-- `vins` (R266): the va and vb fields name s registers. -/
def execVins (f : AV) (s : State) : Host.Outcome State Fault Refusal := settle s (vecOp f.vd f.mm [] true [f.va, f.vb] (insV f) s)
/-- `vred.add` (R267). -/
def execVredAdd (f : AV) (s : State) : Host.Outcome State Fault Refusal := settle s (vred 0 f s)
/-- `vred.min` (R267). -/
def execVredMin (f : AV) (s : State) : Host.Outcome State Fault Refusal := settle s (vred 1 f s)
/-- `vred.max` (R267). -/
def execVredMax (f : AV) (s : State) : Host.Outcome State Fault Refusal := settle s (vred 2 f s)
/-- `vscan.add` (R268). -/
def execVscanAdd (f : AV) (s : State) : Host.Outcome State Fault Refusal := settle s (vec1 (scanV 0) f s)
/-- `vscan.min` (R268). -/
def execVscanMin (f : AV) (s : State) : Host.Outcome State Fault Refusal := settle s (vec1 (scanV 1) f s)
/-- `vscan.max` (R268). -/
def execVscanMax (f : AV) (s : State) : Host.Outcome State Fault Refusal := settle s (vec1 (scanV 2) f s)
/-- `vcompress` (R269). -/
def execVcompress (f : AV) (s : State) : Host.Outcome State Fault Refusal := settle s (vecOp f.vd f.mm [f.va] true [] (compressV f) s)
/-- `vexpand` (R269). -/
def execVexpand (f : AV) (s : State) : Host.Outcome State Fault Refusal := settle s (vecOp f.vd f.mm [f.va] true [] (expandV f) s)
/-- `viota` (R269). -/
def execViota (f : AV) (s : State) : Host.Outcome State Fault Refusal := settle s (vecOp f.vd f.mm [] false [] (iotaV f) s)
/-- `vclass` (R270). -/
def execVclass (f : AV) (s : State) : Host.Outcome State Fault Refusal := settle s (vec1 classV f s)
/-- `anop` (06 R155): no effect. -/
def execAnop (s : State) : Host.Outcome State Fault Refusal := settle s (.ok s)

/-! ### Mask ops (R271) -/

/-- A mask op that writes m[md]. -/
def maskM (op : BitVec 64 → BitVec 64 → BitVec 64) (f : AM) (s : State) : Run State := do
  notAwn s
  .ok (s.wmask f.md (op (s.rmask f.ma) (s.rmask f.mb)))

/-- A mask op that writes s[sreg]. -/
def maskS (op : BitVec 64 → Word) (f : AM) (s : State) : Run State := do
  notAwn s
  .ok (s.ws f.sreg (op (s.rmask f.ma)))
/-- `mand`. -/
def execMand (f : AM) (s : State) : Host.Outcome State Fault Refusal := settle s (maskM (fun a b => a &&& b) f s)
/-- `mor`. -/
def execMor (f : AM) (s : State) : Host.Outcome State Fault Refusal := settle s (maskM (fun a b => a ||| b) f s)
/-- `mxor`. -/
def execMxor (f : AM) (s : State) : Host.Outcome State Fault Refusal := settle s (maskM (fun a b => a ^^^ b) f s)
/-- `mandn`. -/
def execMandn (f : AM) (s : State) : Host.Outcome State Fault Refusal := settle s (maskM (fun a b => a &&& ~~~b) f s)
/-- `mnot`. -/
def execMnot (f : AM) (s : State) : Host.Outcome State Fault Refusal := settle s (maskM (fun a _ => ~~~a) f s)
/-- `mmov`. -/
def execMmov (f : AM) (s : State) : Host.Outcome State Fault Refusal := settle s (maskM (fun a _ => a) f s)
/-- `mfroms`. -/
def execMfroms (f : AM) (s : State) : Host.Outcome State Fault Refusal := settle s (do notAwn s; useS s [f.sreg]; .ok (s.wmask f.md (s.rs f.sreg)))
/-- `mtos`. -/
def execMtos (f : AM) (s : State) : Host.Outcome State Fault Refusal := settle s (maskS (fun a => a) f s)
/-- `mpop`. -/
def execMpop (f : AM) (s : State) : Host.Outcome State Fault Refusal := settle s (maskS (fun a => wd (popCount a.toNat 64)) f s)
/-- `mfirst`. -/
def execMfirst (f : AM) (s : State) : Host.Outcome State Fault Refusal := settle s (maskS (fun a => wd (lowBit a.toNat 64)) f s)

end Sys2Proof.Machine
end

