-- ==== Sys2Proof/Machine/Dispatch.lean ====
section
/-! DEFINITION. The meaning of every step: one arm per constructor of Instr, each a direct call (opcode_table.json). -/

namespace Sys2Proof.Machine

open Sys2Proof

def exec (i : Instr) (s : State) : Host.Outcome State Fault Refusal :=
  match i with
  | .packageReset => Sys2Proof.Machine.execPackageReset s
  | .powerInputChange mainUp standbyUp => Sys2Proof.Machine.execPowerInputChange mainUp standbyUp s
  | .measuredBootStage reg stage => Sys2Proof.Machine.execMeasuredBootStage reg stage s
  | .contextWaitClear a => Sys2Proof.Machine.execContextWaitClear a s
  | .yieldExpiry a => Sys2Proof.Machine.execYieldExpiry a s
  | .operationCompletion op => Sys2Proof.Machine.execOperationCompletion op s
  | .pageInComplete tile win page => Sys2Proof.Machine.execPageInComplete tile win page s
  | .taskRetirement tile => Sys2Proof.Machine.execTaskRetirement tile s
  | .decrementArrival target sender => Sys2Proof.Machine.execDecrementArrival target sender s
  | .graphOpArrival g => Sys2Proof.Machine.execGraphOpArrival g s
  | .dispatchDecision die => Sys2Proof.Machine.execDispatchDecision die s
  | .footprintFetchStart die => Sys2Proof.Machine.execFootprintFetchStart die s
  | .footprintFetchComplete die => Sys2Proof.Machine.execFootprintFetchComplete die s
  | .taskEnterRunning tile => Sys2Proof.Machine.execTaskEnterRunning tile s
  | .watchdogExpiry task => Sys2Proof.Machine.execWatchdogExpiry task s
  | .gangRestore task => Sys2Proof.Machine.execGangRestore task s
  | .energyRefill => Sys2Proof.Machine.execEnergyRefill s
  | .energyCounterUpdate tile => Sys2Proof.Machine.execEnergyCounterUpdate tile s
  | .freezeRequestArrival tile image => Sys2Proof.Machine.execFreezeRequestArrival tile image s
  | .freezeStoppingPoint tile => Sys2Proof.Machine.execFreezeStoppingPoint tile s
  | .dikeComplete tile => Sys2Proof.Machine.execDikeComplete tile s
  | .sluiceImageWritten tile => Sys2Proof.Machine.execSluiceImageWritten tile s
  | .barrierPhaseComplete task => Sys2Proof.Machine.execBarrierPhaseComplete task s
  | .launchSweep launch => Sys2Proof.Machine.execLaunchSweep launch s
  | .routerPacketArrival tile port p => Sys2Proof.Machine.execRouterPacketArrival tile port p s
  | .streamEdgeGranuleArrival g => Sys2Proof.Machine.execStreamEdgeGranuleArrival g s
  | .permitReturn task edge => Sys2Proof.Machine.execPermitReturn task edge s
  | .configWavefrontArrival tile load => Sys2Proof.Machine.execConfigWavefrontArrival tile load s
  | .leveeBatchArrival die b => Sys2Proof.Machine.execLeveeBatchArrival die b s
  | .adderContributionArrival tile port p => Sys2Proof.Machine.execAdderContributionArrival tile port p s
  | .statTokenArrival tile port t => Sys2Proof.Machine.execStatTokenArrival tile port t s
  | .statMergeTimeout tile cls => Sys2Proof.Machine.execStatMergeTimeout tile cls s
  | .awnMessageArrival tile p => Sys2Proof.Machine.execAwnMessageArrival tile p s
  | .handlerStart tile => Sys2Proof.Machine.execHandlerStart tile s
  | .directoryOverflow line sharer => Sys2Proof.Machine.execDirectoryOverflow line sharer s
  | .overflowHandlerReport line refuse => Sys2Proof.Machine.execOverflowHandlerReport line refuse s
  | .memoryPortGrant die => Sys2Proof.Machine.execMemoryPortGrant die s
  | .mailboxPostArrival tile p => Sys2Proof.Machine.execMailboxPostArrival tile p s
  | .returnStripArrival tile p => Sys2Proof.Machine.execReturnStripArrival tile p s
  | .capacityClaimArrival c => Sys2Proof.Machine.execCapacityClaimArrival c s
  | .capacityEndArrival c => Sys2Proof.Machine.execCapacityEndArrival c s
  | .capacitySetArrival c => Sys2Proof.Machine.execCapacitySetArrival c s
  | .transferCompletion op => Sys2Proof.Machine.execTransferCompletion op s
  | .matrixStep tile => Sys2Proof.Machine.execMatrixStep tile s
  | .streamStripFetch a reg => Sys2Proof.Machine.execStreamStripFetch a reg s
  | .streamStripWrite a reg => Sys2Proof.Machine.execStreamStripWrite a reg s
  | .tlbinvWrite a value => Sys2Proof.Machine.execTlbinvWrite a value s
  | .ctxholdWrite a value => Sys2Proof.Machine.execCtxholdWrite a value s
  | .ctxrelWrite a value => Sys2Proof.Machine.execCtxrelWrite a value s
  | .bfmtWrite a num value => Sys2Proof.Machine.execBfmtWrite a num value s
  | .frec0ValidClear a => Sys2Proof.Machine.execFrec0ValidClear a s
  | .efaultValidClear a => Sys2Proof.Machine.execEfaultValidClear a s
  | .drlovfClear a => Sys2Proof.Machine.execDrlovfClear a s
  | .controlRegisterWrite a num value => Sys2Proof.Machine.execControlRegisterWrite a num value s
  | .uncorrectableError u => Sys2Proof.Machine.execUncorrectableError u s
  | .correctedError die => Sys2Proof.Machine.execCorrectedError die s
  | .commandQueueDoorbell q => Sys2Proof.Machine.execCommandQueueDoorbell q s
  | .nopPacket q idx => Sys2Proof.Machine.execNopPacket q idx s
  | .launchPacket q idx => Sys2Proof.Machine.execLaunchPacket q idx s
  | .graphPacket q idx => Sys2Proof.Machine.execGraphPacket q idx s
  | .copyPacket q idx => Sys2Proof.Machine.execCopyPacket q idx s
  | .signalPacket q idx => Sys2Proof.Machine.execSignalPacket q idx s
  | .waitPacket q idx => Sys2Proof.Machine.execWaitPacket q idx s
  | .fencePacket q idx => Sys2Proof.Machine.execFencePacket q idx s
  | .packetCompletion q idx => Sys2Proof.Machine.execPacketCompletion q idx s
  | .rdmaWrite r => Sys2Proof.Machine.execRdmaWrite r s
  | .rdmaRead r => Sys2Proof.Machine.execRdmaRead r s
  | .rdmaCompareAndSwap r => Sys2Proof.Machine.execRdmaCompareAndSwap r s
  | .rdmaFetchAndAdd r => Sys2Proof.Machine.execRdmaFetchAndAdd r s
  | .rdmaUnsupportedRequest qp => Sys2Proof.Machine.execRdmaUnsupportedRequest qp s
  | .claim m c => Sys2Proof.Machine.execClaim m c s
  | .heartbeat m ms => Sys2Proof.Machine.execHeartbeat m ms s
  | .handover m digest => Sys2Proof.Machine.execHandover m digest s
  | .qcreate m q d => Sys2Proof.Machine.execQcreate m q d s
  | .qdestroy m q => Sys2Proof.Machine.execQdestroy m q s
  | .qprio m q prio => Sys2Proof.Machine.execQprio m q prio s
  | .setlimit m watts => Sys2Proof.Machine.execSetlimit m watts s
  | .mreg m r => Sys2Proof.Machine.execMreg m r s
  | .update m u => Sys2Proof.Machine.execUpdate m u s
  | .quiesce m => Sys2Proof.Machine.execQuiesce m s
  | .resume m => Sys2Proof.Machine.execResume m s
  | .report m nonce => Sys2Proof.Machine.execReport m nonce s
  | .status m first => Sys2Proof.Machine.execStatus m first s
  | .frestore m task tile clear => Sys2Proof.Machine.execFrestore m task tile clear s
  | .fdiscard m task send => Sys2Proof.Machine.execFdiscard m task send s
  | .leaseLapse => Sys2Proof.Machine.execLeaseLapse s
  | .handoverLapse => Sys2Proof.Machine.execHandoverLapse s
  | .complexFailover activeError => Sys2Proof.Machine.execComplexFailover activeError s
  | .queueWaitCycleSweep => Sys2Proof.Machine.execQueueWaitCycleSweep s
  | .ualinkBringup pkg pod => Sys2Proof.Machine.execUalinkBringup pkg pod s
  | .ualinkRead r => Sys2Proof.Machine.execUalinkRead r s
  | .ualinkWrite r => Sys2Proof.Machine.execUalinkWrite r s
  | .ualinkAtomic r => Sys2Proof.Machine.execUalinkAtomic r s
  | .ualinkTimeout port failed => Sys2Proof.Machine.execUalinkTimeout port failed s
  | .hostPortLinkFailure port qps => Sys2Proof.Machine.execHostPortLinkFailure port qps s
  | .eventOpArrival e => Sys2Proof.Machine.execEventOpArrival e s
  | .reservedEncoding code => Sys2Proof.Machine.execReservedEncoding code s
  | .instructionFetchFault cause code addr => Sys2Proof.Machine.execInstructionFetchFault cause code addr s
  | .reservedControlMessage m => Sys2Proof.Machine.execReservedControlMessage m s
  | .memoryRequestArrival r => Sys2Proof.Machine.execMemoryRequestArrival r s
  | .producerHoldArrival task edge hold => Sys2Proof.Machine.execProducerHoldArrival task edge hold s
  | .creditArrival tile port cls => Sys2Proof.Machine.execCreditArrival tile port cls s
  | .slotTableCycle die => Sys2Proof.Machine.execSlotTableCycle die s
  | .nopOp => Sys2Proof.Machine.execNopOp s
  | .yield => Sys2Proof.Machine.execYield s
  | .brk code => Sys2Proof.Machine.execBrk code s
  | .trapOp code => Sys2Proof.Machine.execTrapOp code s
  | .eret => Sys2Proof.Machine.execEret s
  | .hexit => Sys2Proof.Machine.execHexit s
  | .texit => Sys2Proof.Machine.execTexit s
  | .addOp f => Sys2Proof.Machine.execAddOp f s
  | .subOp f => Sys2Proof.Machine.execSubOp f s
  | .andOp f => Sys2Proof.Machine.execAndOp f s
  | .orOp f => Sys2Proof.Machine.execOrOp f s
  | .xorOp f => Sys2Proof.Machine.execXorOp f s
  | .shl f => Sys2Proof.Machine.execShl f s
  | .shr f => Sys2Proof.Machine.execShr f s
  | .sar f => Sys2Proof.Machine.execSar f s
  | .mulOp f => Sys2Proof.Machine.execMulOp f s
  | .mulh f => Sys2Proof.Machine.execMulh f s
  | .mulhu f => Sys2Proof.Machine.execMulhu f s
  | .divOp f => Sys2Proof.Machine.execDivOp f s
  | .divu f => Sys2Proof.Machine.execDivu f s
  | .rem f => Sys2Proof.Machine.execRem f s
  | .remu f => Sys2Proof.Machine.execRemu f s
  | .minOp f => Sys2Proof.Machine.execMinOp f s
  | .maxOp f => Sys2Proof.Machine.execMaxOp f s
  | .minu f => Sys2Proof.Machine.execMinu f s
  | .maxu f => Sys2Proof.Machine.execMaxu f s
  | .slt f => Sys2Proof.Machine.execSlt f s
  | .sltu f => Sys2Proof.Machine.execSltu f s
  | .clz f => Sys2Proof.Machine.execClz f s
  | .ctz f => Sys2Proof.Machine.execCtz f s
  | .popc f => Sys2Proof.Machine.execPopc f s
  | .addAs f => Sys2Proof.Machine.execAddAs f s
  | .subAs f => Sys2Proof.Machine.execSubAs f s
  | .andAs f => Sys2Proof.Machine.execAndAs f s
  | .orAs f => Sys2Proof.Machine.execOrAs f s
  | .xorAs f => Sys2Proof.Machine.execXorAs f s
  | .shlAs f => Sys2Proof.Machine.execShlAs f s
  | .shrAs f => Sys2Proof.Machine.execShrAs f s
  | .sarAs f => Sys2Proof.Machine.execSarAs f s
  | .mulAs f => Sys2Proof.Machine.execMulAs f s
  | .mulhAs f => Sys2Proof.Machine.execMulhAs f s
  | .mulhuAs f => Sys2Proof.Machine.execMulhuAs f s
  | .divAs f => Sys2Proof.Machine.execDivAs f s
  | .divuAs f => Sys2Proof.Machine.execDivuAs f s
  | .remAs f => Sys2Proof.Machine.execRemAs f s
  | .remuAs f => Sys2Proof.Machine.execRemuAs f s
  | .minAs f => Sys2Proof.Machine.execMinAs f s
  | .maxAs f => Sys2Proof.Machine.execMaxAs f s
  | .minuAs f => Sys2Proof.Machine.execMinuAs f s
  | .maxuAs f => Sys2Proof.Machine.execMaxuAs f s
  | .sltAs f => Sys2Proof.Machine.execSltAs f s
  | .sltuAs f => Sys2Proof.Machine.execSltuAs f s
  | .clzAs f => Sys2Proof.Machine.execClzAs f s
  | .ctzAs f => Sys2Proof.Machine.execCtzAs f s
  | .popcAs f => Sys2Proof.Machine.execPopcAs f s
  | .addi f => Sys2Proof.Machine.execAddi f s
  | .andi f => Sys2Proof.Machine.execAndi f s
  | .ori f => Sys2Proof.Machine.execOri f s
  | .xori f => Sys2Proof.Machine.execXori f s
  | .shli f => Sys2Proof.Machine.execShli f s
  | .shri f => Sys2Proof.Machine.execShri f s
  | .sari f => Sys2Proof.Machine.execSari f s
  | .slti f => Sys2Proof.Machine.execSlti f s
  | .sltiu f => Sys2Proof.Machine.execSltiu f s
  | .bfx f => Sys2Proof.Machine.execBfx f s
  | .bfxs f => Sys2Proof.Machine.execBfxs f s
  | .bfi f => Sys2Proof.Machine.execBfi f s
  | .lea f => Sys2Proof.Machine.execLea f s
  | .leaG f => Sys2Proof.Machine.execLeaG f s
  | .crd f => Sys2Proof.Machine.execCrd f s
  | .cwr f => Sys2Proof.Machine.execCwr f s
  | .beq f => Sys2Proof.Machine.execBeq f s
  | .bne f => Sys2Proof.Machine.execBne f s
  | .blt f => Sys2Proof.Machine.execBlt f s
  | .bge f => Sys2Proof.Machine.execBge f s
  | .bltu f => Sys2Proof.Machine.execBltu f s
  | .bgeu f => Sys2Proof.Machine.execBgeu f s
  | .jal rd off => Sys2Proof.Machine.execJal rd off s
  | .jalr f => Sys2Proof.Machine.execJalr f s
  | .loopOp f => Sys2Proof.Machine.execLoopOp f s
  | .hstart f => Sys2Proof.Machine.execHstart f s
  | .hjoin f => Sys2Proof.Machine.execHjoin f s
  | .hself rd => Sys2Proof.Machine.execHself rd s
  | .gwork rd => Sys2Proof.Machine.execGwork rd s
  | .grank rd => Sys2Proof.Machine.execGrank rd s
  | .tid rd => Sys2Proof.Machine.execTid rd s
  | .clk rd => Sys2Proof.Machine.execClk rd s
  | .ldB f => Sys2Proof.Machine.execLdB f s
  | .ldBu f => Sys2Proof.Machine.execLdBu f s
  | .ldH f => Sys2Proof.Machine.execLdH f s
  | .ldHu f => Sys2Proof.Machine.execLdHu f s
  | .ldW f => Sys2Proof.Machine.execLdW f s
  | .ldWu f => Sys2Proof.Machine.execLdWu f s
  | .ldD f => Sys2Proof.Machine.execLdD f s
  | .stB f => Sys2Proof.Machine.execStB f s
  | .stH f => Sys2Proof.Machine.execStH f s
  | .stW f => Sys2Proof.Machine.execStW f s
  | .stD f => Sys2Proof.Machine.execStD f s
  | .vld f => Sys2Proof.Machine.execVld f s
  | .vst f => Sys2Proof.Machine.execVst f s
  | .amoAdd f => Sys2Proof.Machine.execAmoAdd f s
  | .amoAnd f => Sys2Proof.Machine.execAmoAnd f s
  | .amoOr f => Sys2Proof.Machine.execAmoOr f s
  | .amoXor f => Sys2Proof.Machine.execAmoXor f s
  | .amoMin f => Sys2Proof.Machine.execAmoMin f s
  | .amoMax f => Sys2Proof.Machine.execAmoMax f s
  | .amoMinu f => Sys2Proof.Machine.execAmoMinu f s
  | .amoMaxu f => Sys2Proof.Machine.execAmoMaxu f s
  | .amoSwap f => Sys2Proof.Machine.execAmoSwap f s
  | .amocas f => Sys2Proof.Machine.execAmocas f s
  | .tkwait kn => Sys2Proof.Machine.execTkwait kn s
  | .fenceOp mask scope => Sys2Proof.Machine.execFenceOp mask scope s
  | .barArrive stat => Sys2Proof.Machine.execBarArrive stat s
  | .barWait stat => Sys2Proof.Machine.execBarWait stat s
  | .barSync stat => Sys2Proof.Machine.execBarSync stat s
  | .anop => Sys2Proof.Machine.execAnop s
  | .fadd f => Sys2Proof.Machine.execFadd f s
  | .fsub f => Sys2Proof.Machine.execFsub f s
  | .fmul f => Sys2Proof.Machine.execFmul f s
  | .fma f => Sys2Proof.Machine.execFma f s
  | .fmin f => Sys2Proof.Machine.execFmin f s
  | .fmax f => Sys2Proof.Machine.execFmax f s
  | .fabs f => Sys2Proof.Machine.execFabs f s
  | .fneg f => Sys2Proof.Machine.execFneg f s
  | .fcvt f => Sys2Proof.Machine.execFcvt f s
  | .fcmp f => Sys2Proof.Machine.execFcmp f s
  | .vadd f => Sys2Proof.Machine.execVadd f s
  | .vsub f => Sys2Proof.Machine.execVsub f s
  | .vmul f => Sys2Proof.Machine.execVmul f s
  | .vfma f => Sys2Proof.Machine.execVfma f s
  | .vfms f => Sys2Proof.Machine.execVfms f s
  | .vnfma f => Sys2Proof.Machine.execVnfma f s
  | .vmin f => Sys2Proof.Machine.execVmin f s
  | .vmax f => Sys2Proof.Machine.execVmax f s
  | .vabs f => Sys2Proof.Machine.execVabs f s
  | .vneg f => Sys2Proof.Machine.execVneg f s
  | .vrcp f => Sys2Proof.Machine.execVrcp f s
  | .vrsq f => Sys2Proof.Machine.execVrsq f s
  | .vsqrt f => Sys2Proof.Machine.execVsqrt f s
  | .vexp2 f => Sys2Proof.Machine.execVexp2 f s
  | .vlog2 f => Sys2Proof.Machine.execVlog2 f s
  | .vsin f => Sys2Proof.Machine.execVsin f s
  | .vcos f => Sys2Proof.Machine.execVcos f s
  | .vtanh f => Sys2Proof.Machine.execVtanh f s
  | .vcmp f => Sys2Proof.Machine.execVcmp f s
  | .vsel f => Sys2Proof.Machine.execVsel f s
  | .vand f => Sys2Proof.Machine.execVand f s
  | .vor f => Sys2Proof.Machine.execVor f s
  | .vxor f => Sys2Proof.Machine.execVxor f s
  | .vnot f => Sys2Proof.Machine.execVnot f s
  | .vandn f => Sys2Proof.Machine.execVandn f s
  | .vshl f => Sys2Proof.Machine.execVshl f s
  | .vshr f => Sys2Proof.Machine.execVshr f s
  | .vsar f => Sys2Proof.Machine.execVsar f s
  | .vmulh f => Sys2Proof.Machine.execVmulh f s
  | .vmulhu f => Sys2Proof.Machine.execVmulhu f s
  | .vadds f => Sys2Proof.Machine.execVadds f s
  | .vsubs f => Sys2Proof.Machine.execVsubs f s
  | .vcvt f => Sys2Proof.Machine.execVcvt f s
  | .vqnt f => Sys2Proof.Machine.execVqnt f s
  | .vdeq f => Sys2Proof.Machine.execVdeq f s
  | .vperm f => Sys2Proof.Machine.execVperm f s
  | .vpermb f => Sys2Proof.Machine.execVpermb f s
  | .vnibLo f => Sys2Proof.Machine.execVnibLo f s
  | .vnibHi f => Sys2Proof.Machine.execVnibHi f s
  | .vzip f => Sys2Proof.Machine.execVzip f s
  | .vunzip f => Sys2Proof.Machine.execVunzip f s
  | .vslideup f => Sys2Proof.Machine.execVslideup f s
  | .vslidedn f => Sys2Proof.Machine.execVslidedn f s
  | .vbcast f => Sys2Proof.Machine.execVbcast f s
  | .vext f => Sys2Proof.Machine.execVext f s
  | .vins f => Sys2Proof.Machine.execVins f s
  | .vredAdd f => Sys2Proof.Machine.execVredAdd f s
  | .vredMin f => Sys2Proof.Machine.execVredMin f s
  | .vredMax f => Sys2Proof.Machine.execVredMax f s
  | .vscanAdd f => Sys2Proof.Machine.execVscanAdd f s
  | .vscanMin f => Sys2Proof.Machine.execVscanMin f s
  | .vscanMax f => Sys2Proof.Machine.execVscanMax f s
  | .vcompress f => Sys2Proof.Machine.execVcompress f s
  | .vexpand f => Sys2Proof.Machine.execVexpand f s
  | .viota f => Sys2Proof.Machine.execViota f s
  | .vclass f => Sys2Proof.Machine.execVclass f s
  | .mand f => Sys2Proof.Machine.execMand f s
  | .mor f => Sys2Proof.Machine.execMor f s
  | .mxor f => Sys2Proof.Machine.execMxor f s
  | .mnot f => Sys2Proof.Machine.execMnot f s
  | .mandn f => Sys2Proof.Machine.execMandn f s
  | .mmov f => Sys2Proof.Machine.execMmov f s
  | .mfroms f => Sys2Proof.Machine.execMfroms f s
  | .mtos f => Sys2Proof.Machine.execMtos f s
  | .mpop f => Sys2Proof.Machine.execMpop f s
  | .mfirst f => Sys2Proof.Machine.execMfirst f s
  | .movi rd imm => Sys2Proof.Machine.execMovi rd imm s
  | .movhi rd imm => Sys2Proof.Machine.execMovhi rd imm s
  | .sel f => Sys2Proof.Machine.execSel f s
  | .ldO f => Sys2Proof.Machine.execLdO f s
  | .stO f => Sys2Proof.Machine.execStO f s
  | .vldO f => Sys2Proof.Machine.execVldO f s
  | .vstO f => Sys2Proof.Machine.execVstO f s
  | .ldSnap f => Sys2Proof.Machine.execLdSnap f s
  | .vldSnap f => Sys2Proof.Machine.execVldSnap f s
  | .ldFe f => Sys2Proof.Machine.execLdFe f s
  | .ldFeClr f => Sys2Proof.Machine.execLdFeClr f s
  | .vldFe f => Sys2Proof.Machine.execVldFe f s
  | .vldFeClr f => Sys2Proof.Machine.execVldFeClr f s
  | .stFe f => Sys2Proof.Machine.execStFe f s
  | .vstFe f => Sys2Proof.Machine.execVstFe f s
  | .vldx f => Sys2Proof.Machine.execVldx f s
  | .vstx f => Sys2Proof.Machine.execVstx f s
  | .vlds f => Sys2Proof.Machine.execVlds f s
  | .vsts f => Sys2Proof.Machine.execVsts f s
  | .pref f => Sys2Proof.Machine.execPref f s
  | .cacheClean f => Sys2Proof.Machine.execCacheClean f s
  | .cacheInv f => Sys2Proof.Machine.execCacheInv f s
  | .cacheFlush f => Sys2Proof.Machine.execCacheFlush f s
  | .amoSAdd f => Sys2Proof.Machine.execAmoSAdd f s
  | .amoSAnd f => Sys2Proof.Machine.execAmoSAnd f s
  | .amoSOr f => Sys2Proof.Machine.execAmoSOr f s
  | .amoSXor f => Sys2Proof.Machine.execAmoSXor f s
  | .amoSMin f => Sys2Proof.Machine.execAmoSMin f s
  | .amoSMax f => Sys2Proof.Machine.execAmoSMax f s
  | .amoSMinu f => Sys2Proof.Machine.execAmoSMinu f s
  | .amoSMaxu f => Sys2Proof.Machine.execAmoSMaxu f s
  | .amoSSwap f => Sys2Proof.Machine.execAmoSSwap f s
  | .amocasS f => Sys2Proof.Machine.execAmocasS f s
  | .famoAddF32 f => Sys2Proof.Machine.execFamoAddF32 f s
  | .famoAddBf16x2 f => Sys2Proof.Machine.execFamoAddBf16x2 f s
  | .vamoAdd f => Sys2Proof.Machine.execVamoAdd f s
  | .vamoAnd f => Sys2Proof.Machine.execVamoAnd f s
  | .vamoOr f => Sys2Proof.Machine.execVamoOr f s
  | .vamoXor f => Sys2Proof.Machine.execVamoXor f s
  | .vamoMin f => Sys2Proof.Machine.execVamoMin f s
  | .vamoMax f => Sys2Proof.Machine.execVamoMax f s
  | .vamoMinu f => Sys2Proof.Machine.execVamoMinu f s
  | .vamoMaxu f => Sys2Proof.Machine.execVamoMaxu f s
  | .vamoSwap f => Sys2Proof.Machine.execVamoSwap f s
  | .evsig f => Sys2Proof.Machine.execEvsig f s
  | .evwait f => Sys2Proof.Machine.execEvwait f s
  | .evpost f => Sys2Proof.Machine.execEvpost f s
  | .evq f => Sys2Proof.Machine.execEvq f s
  | .evqClr f => Sys2Proof.Machine.execEvqClr f s
  | .snap f => Sys2Proof.Machine.execSnap f s
  | .snaprel f => Sys2Proof.Machine.execSnaprel f s
  | .txbegin f => Sys2Proof.Machine.execTxbegin f s
  | .txcommit f => Sys2Proof.Machine.execTxcommit f s
  | .txabort f => Sys2Proof.Machine.execTxabort f s
  | .txstat f => Sys2Proof.Machine.execTxstat f s
  | .spmap f => Sys2Proof.Machine.execSpmap f s
  | .spunmap f => Sys2Proof.Machine.execSpunmap f s
  | .sppin f => Sys2Proof.Machine.execSppin f s
  | .spunpin f => Sys2Proof.Machine.execSpunpin f s
  | .spfmt f => Sys2Proof.Machine.execSpfmt f s
  | .spmigRes f => Sys2Proof.Machine.execSpmigRes f s
  | .spmigPold f => Sys2Proof.Machine.execSpmigPold f s
  | .spmigHbm f => Sys2Proof.Machine.execSpmigHbm f s
  | .mma f => Sys2Proof.Machine.execMma f s
  | .mmaMask f => Sys2Proof.Machine.execMmaMask f s
  | .mmaMaskFill f => Sys2Proof.Machine.execMmaMaskFill f s
  | .mzero f => Sys2Proof.Machine.execMzero f s
  | .mcvt f => Sys2Proof.Machine.execMcvt f s
  | .mtr f => Sys2Proof.Machine.execMtr f s
  | .mwait f => Sys2Proof.Machine.execMwait f s
  | .mscaleCol f => Sys2Proof.Machine.execMscaleCol f s
  | .mscaleRow f => Sys2Proof.Machine.execMscaleRow f s
  | .sbindIn f => Sys2Proof.Machine.execSbindIn f s
  | .sbindOut f => Sys2Proof.Machine.execSbindOut f s
  | .sgen f => Sys2Proof.Machine.execSgen f s
  | .sunbind f => Sys2Proof.Machine.execSunbind f s
  | .sstat f => Sys2Proof.Machine.execSstat f s
  | .bcopy f => Sys2Proof.Machine.execBcopy f s
  | .bcopyn f => Sys2Proof.Machine.execBcopyn f s
  | .bmcast f => Sys2Proof.Machine.execBmcast f s
  | .bfill f => Sys2Proof.Machine.execBfill f s
  | .bmig f => Sys2Proof.Machine.execBmig f s
  | .bpoll f => Sys2Proof.Machine.execBpoll f s
  | .bwait f => Sys2Proof.Machine.execBwait f s
  | .amsend f => Sys2Proof.Machine.execAmsend f s
  | .amreply f => Sys2Proof.Machine.execAmreply f s
  | .amhinst f => Sys2Proof.Machine.execAmhinst f s
  | .redsend f => Sys2Proof.Machine.execRedsend f s
  | .rtset f => Sys2Proof.Machine.execRtset f s
  | .slotset f => Sys2Proof.Machine.execSlotset f s
  | .cfgtok f => Sys2Proof.Machine.execCfgtok f s
  | .stflush f => Sys2Proof.Machine.execStflush f s
  | .mbpost f => Sys2Proof.Machine.execMbpost f s
  | .mbrd f => Sys2Proof.Machine.execMbrd f s
  | .mbclr f => Sys2Proof.Machine.execMbclr f s
  | .steer f => Sys2Proof.Machine.execSteer f s
  | .steerRet f => Sys2Proof.Machine.execSteerRet f s
  | .mgrd f => Sys2Proof.Machine.execMgrd f s
  | .capclaim f => Sys2Proof.Machine.execCapclaim f s
  | .capclaimEnd f => Sys2Proof.Machine.execCapclaimEnd f s
  | .capclaimSet f => Sys2Proof.Machine.execCapclaimSet f s
  | .tspawn f => Sys2Proof.Machine.execTspawn f s
  | .tdec f => Sys2Proof.Machine.execTdec f s
  | .tsetc f => Sys2Proof.Machine.execTsetc f s
  | .tsetcAdd f => Sys2Proof.Machine.execTsetcAdd f s
  | .erd f => Sys2Proof.Machine.execErd f s
  | .ctxrd f => Sys2Proof.Machine.execCtxrd f s
  | .ctxwr f => Sys2Proof.Machine.execCtxwr f s
  | .tfreeze f => Sys2Proof.Machine.execTfreeze f s
  | .trestore f => Sys2Proof.Machine.execTrestore f s

end Sys2Proof.Machine
end

