-- ==== Sys2Proof/Machine/Lanes.lean ====
section
/-! DEFINITION. The agenda of pending acts (log 1): which acts keep the order of their posting among themselves, and how one is taken. -/

namespace Sys2Proof.Machine

/-- The lane of an act: packets that arrive at one port of a router in one class, tokens of one merge port, messages of one awn core,
strips and posts of one sender at one merge unit, capacity messages of one issuer, granules of one edge, batches between two dies,
writes of one queue pair, class-2 messages of one sender to one die (12 R346, R349, R351, 10 R306, R317, 11 R334, 04 R105, 14 R376). Acts of one lane are performed in the order they were posted; no others have an order. -/
def laneOfAct (i : Instr) : Option (Nat × Nat × Nat) :=
  match i with
  | .routerPacketArrival t p x => some (0, t * 8 + p, x.cls)
  | .adderContributionArrival t p x => some (0, t * 8 + p, x.cls)
  | .statTokenArrival t p _ => some (1, t, p)
  | .awnMessageArrival t _ => some (2, t, 0)
  | .mailboxPostArrival t _ => some (3, t, 0)
  | .returnStripArrival t _ => some (4, t, 0)
  | .capacityClaimArrival c => some (5, c.tile, akey c.issuer)
  | .capacityEndArrival c => some (5, c.tile, akey c.issuer)
  | .capacitySetArrival c => some (5, c.tile, akey c.issuer)
  | .streamEdgeGranuleArrival g => some (6, g.task, g.edge)
  | .leveeBatchArrival d b => some (7, d, b.src)
  | .rdmaWrite r => some (8, r.qp, 0)
  | .decrementArrival k p => some (9, k % 2 ^ 20 / 65536, p.id)
  | .graphOpArrival g => some (9, if g.kind = 3 then g.die else g.target % 2 ^ 20 / 65536, g.sender)
  | .eventOpArrival e => some (10, e.name.toNat, e.src)
  | _ => none

/-- The act of an agenda that its n-th entry's turn performs: the first of that entry's lane; and the agenda without it. -/
def takeAct (n : Nat) (l : List Instr) : Option (Instr × List Instr) :=
  match l[n]? with
  | none => none
  | some i =>
    match laneOfAct i with
    | none => some (i, l.eraseIdx n)
    | some k =>
      match l.findIdx? (fun j => laneOfAct j == some k) with
      | none => some (i, l.eraseIdx n)
      | some m => some ((l[m]?).getD i, l.eraseIdx m)

/-- The order that a rule gives acts of one cycle, as class, resource and rank: claims by host port and queue pair, a heartbeat before a lapse
(14 R383, R384); decrements and graph ops of a die by the sender (11 R325); the requests of the energy account by die (R340); event ops of an entry
by the issuer's tile (R337); capacity claims of an entry by sequence number, then by the issuer's tile (10 R317, 13 R362, R368); at a mailbox posts and
strips after an `mbclr` (10 R312, 13 R371; `orderOfOp`). -/
def orderOf (i : Instr) : Option (Nat × Nat × Nat) :=
  match i with
  | .claim m _ => some (0, 0, m.port.val * 2 ^ 32 + m.qp)
  | .heartbeat _ _ => some (1, 0, 0)
  | .leaseLapse => some (1, 0, 1)
  | .decrementArrival k p => some (2, k % 2 ^ 20 / 65536, p.id)
  | .graphOpArrival g => some (2, if g.kind = 3 then g.die else g.target % 2 ^ 20 / 65536, g.sender)
  | .dispatchDecision d => some (3, 0, d)
  | .taskRetirement t => some (3, 0, dieOf t)
  | .sluiceImageWritten t => some (3, 0, dieOf t)
  | .gangRestore k => some (3, 0, k % 2 ^ 20 / 65536)
  | .frestore _ k _ _ => some (3, 0, k % 2 ^ 20 / 65536)
  | .footprintFetchStart d => some (3, 0, d)
  | .footprintFetchComplete d => some (3, 0, d)
  | .eventOpArrival e => some (4, e.name.toNat, e.src)
  | .capacityClaimArrival c => some (5, c.tile * 256 + c.entry, bits c.operand 31 0 * 4096 + c.issuer.tile)
  | .mailboxPostArrival t _ => some (6, t, 1)
  | .returnStripArrival t _ => some (6, t, 1)
  | _ => none

/-- The order of the ops that a sheaf of an agent issues: an `mbclr` of a tile before posts and strips, and a context's `cwr` of a register of
its tile before the awn core's (07 R168); the event ops of an entry by tile (11 R337), a restore's request of the energy account by die (R340). -/
def orderOfOp (s : State) (i : Instr) : Option (Nat × Nat × Nat) :=
  let a := s.cur
  let event (f : EX) : Option (Nat × Nat × Nat) := some (4, evName f s, a.tile)
  match i with
  | .mbclr _ => some (6, a.tile, 0)
  | .cwr f => if cregIsCtx (cregNum f) then none else some (7, a.tile * 4096 + cregNum f, b2n a.isAwn)
  | .evpost f => event f
  | .evsig f => event f
  | .evwait f => event f
  | .evqClr f => event f
  | .trestore f => some (3, 0, dieOf (s.rs f.rb).toNat)
  | _ => none

/-- An act that a fair turn took and that goes on waiting at the head gives way, with its lane behind it, to the others. -/
def giveWay (i : Instr) (l : List Instr) : List Instr :=
  if l.head? = some i then
    match laneOfAct i with
    | none => l.tail ++ [i]
    | some k => l.filter (fun j => laneOfAct j != some k) ++ l.filter (fun j => laneOfAct j == some k)
  else l

end Sys2Proof.Machine
end

