-- ==== Sys2Proof/Machine/Issue.lean ====
section
/-! DEFINITION. One turn of the package: an act of the agenda, or the issue of one sheaf: choice of the context (02 R34, R182), fetch
(03 R81 to R86, 21 R434 step 2), decoding, debug stops, the ops, the next sheaf's address and the single step (15 R407). -/

namespace Sys2Proof.Machine

/-! ### The choice of the context (02 R34, 15 R394) -/

/-- The earliest cycle of the next sheaf of a tile's control core: one after its last (02 R34). -/
def State.issueTime (s : State) (t : Nat) : Nat := max s.time ((s.tile t).lastIssue + 1)

/-- The clock of an agent runs at a time: no freeze has stopped it (15 R393, R394); an awn core stops only with a fault of its own. -/
def State.clockOn (s : State) (a : Agent) (time : Nat) : Bool :=
  match (s.tile a.tile).frz with
  | some g => if a.isAwn then !g.awn || decide (time < g.stop) else !g.stopped && decide (time < g.stop)
  | none => true

/-- The Ready contexts of every tile, and the awn cores that run a handler; the domains of Frozen tasks are kept above tile 2559. -/
def State.readyAgents (s : State) : List Agent :=
  s.ctxs.filterMap (fun e => if e.2.st == .ready && decide (e.1 < 16 * 2560) then some ⟨e.1 / 16, e.1 % 16⟩ else none)

/-- The context of a tile that issues next: the first Ready one after `last`, in the order 0 to 10; one that yielded
(07 R182) is out of it for its 16 cycles unless it is the only Ready one. -/
def State.pickCtx (s : State) (t : Nat) : Option Agent :=
  let order := (List.range 11).map (fun i => (⟨t, ((s.tile t).last + 1 + i) % 11⟩ : Agent))
  let ready := order.filter (fun a => (s.ctx a).st == .ready)
  ready.find? (fun a => decide ((s.ctx a).yieldUntil ≤ s.issueTime t) || ready.length == 1)

/-- The agents that may issue in this turn: one of each tile, and each awn core, which issues on its own (02 R29). -/
def State.issuers (s : State) : List Agent :=
  let r := s.readyAgents
  let tiles := ((r.filter (fun a => !a.isAwn)).map (·.tile)).dedup
  ((tiles.filterMap s.pickCtx).filter (fun a => s.clockOn a (s.issueTime a.tile))) ++
    (r.filter (fun a => a.isAwn && s.clockOn a s.time))

/-! ### The fetch -/

/-- What a fetch comes to: something, from a state; the act of a fetch fault; or a wait for a line. -/
inductive Fetched (α : Type) where
  | got (s : State) (x : α)
  | fault (i : Instr)
  | waits (s : State) (b : Busy)

/-- What a fetch got, taken further. -/
def Fetched.bind {α β : Type} (x : Fetched α) (f : State → α → Fetched β) : Fetched β :=
  match x with
  | .got s a => f s a
  | .fault i => .fault i
  | .waits s b => .waits s b

/-- The copy of the line of an instruction address that a fill of a tile's instruction cache reads, through the L2 (03 R78, 04 R107, R109). -/
def State.codeLine (s : State) (t : Nat) (l : Leaf) (pa : Nat) : Fetched RemLine :=
  let d := dieOf t
  let owner (s : State) : RemLine :=
    let bs := s.remRead d (pa / 32 * 32) 32
    { data := BitVec.ofNat 256 (leNat (bs.map (·.1))), pois := bs.any (·.2) }
  if l.nc then .got s (owner s)
  else if l.isRem then .got (s.remLine d pa l.entry).1 (s.remLine d pa l.entry).2
  else match s.readLine t pa l.entry false with
    | (s, none) => .waits s (.sharer (pa / 32) (sharerOf t pa))
    | (s, some none) => .got s (owner s)
    | (s, some (some r)) => .got s r

/-- The 32 bytes of the line of an instruction address: the instruction cache's copy while it is held (03 R78), else a new fill. A line
that the fill finds poisoned is the fault `bad`. -/
def State.fetchLine (s : State) (l : Leaf) (pa : Nat) (bad : Instr) : Fetched (BitVec 256) :=
  let t := s.cur.tile
  let fill : Fetched (BitVec 256) := (s.codeLine t l pa).bind (fun s r =>
    if r.pois then .fault bad else .got (if l.nc then s else s.putI t pa r.data) r.data)
  match s.icache.find (tileKey t pa) with
  | some x => if !l.nc && Config.lineHeld s.fc (tileKey t pa) then .got s x else fill
  | none => fill

/-- The state between two steps: no sheaf is in issue. -/
def State.settled (s : State) : State := { s with latch := none, popped := [], npc := none, fate := .ran }

/-- The two words of the sheaf at the pc of the executing agent, or the act of its fetch fault. -/
def State.fetch (s : State) : Fetched (BitVec 64) :=
  let pc := s.me.pc
  if windowOf pc != some 4 then .fault (.instructionFetchFault 0x3003 0 pc)
  else
    let va := offset pc
    match s.translate (.instr s.cur.tile) (s.root s.cur) va with
    | .error e => .fault (.instructionFetchFault 0x3005 e.code pc)
    | .ok l =>
      match l.refuse 4 s.handler with
      | some c => .fault (.instructionFetchFault 0x3006 c pc)
      | none => ((s.noteTlb (.instr s.cur.tile) (s.root s.cur) va l).fetchLine l (l.pa va) (.instructionFetchFault 0x5002 0 pc)).bind
          (fun s x => .got s (x.extractLsb' (8 * (l.pa va % 32)) 64))

/-! ### The ops of a sheaf -/

/-- A wait that an op meets once its tests are over, as it is performed: for a page, a permit, or a line (21 R434). -/
def Wait.late : Wait → Bool
  | .residence .. => true
  | .structural b => match b with
    | .permits _ => true
    | .sharer .. => true
    | .reserved _ => true
    | .line _ => true
    | .handler _ => true
    | _ => false
  | _ => false

/-- Both ops of a pair (06 R145, R146, 21 R436). Each is first tried alone on the state before the sheaf; if one of them must wait the
sheaf waits, if one traps the pair traps, the earlier step first and at one step the C-op's; a wait that the C-op meets as it is performed comes after the
tests of the A-op. Else both take effect: every source is read as it was before the sheaf (00 R5); the events that a converting A-op counts belong to the
count token that its C-op emits (DESIGN CHOICE, log 47: no rule says). -/
def execPair (c a : Instr) (s : State) : Host.Outcome State Fault Refusal :=
  match exec a s with
  | .fault f => .fault f
  | .refused r => .refused r
  | .next sa =>
    match exec c s with
    | .fault f => .fault f
    | .refused r => .refused r
    | .next sc =>
      let late := match sc.me.st with
        | .waiting w => w.late
        | _ => false
      match sc.fate, sa.fate with
      | .trapped m, .trapped n => .next (if n < m then sa else sc)
      | .trapped _, .waits => .next sa
      | .trapped _, .ran => .next sc
      | .waits, .trapped _ => .next (if late then sa else sc)
      | .waits, .waits => .next (if late then sa else sc)
      | .waits, .ran => .next sc
      | .ran, .trapped _ => .next sa
      | .ran, .waits => .next sa
      | .ran, .ran =>
        match exec c sa with
        | .next s' => .next (match s'.fate, s'.me.st with
          | .ran, _ => s'
          | .waits, .waiting w => { s.waitOn w with fate := .waits }
          | _, _ => { s.waitOn (.structural .pair) with fate := .waits })
        | o => o

/-- The ops of a decoded sheaf. -/
def execSheaf (sh : Sheaf) (s : State) : Host.Outcome State Fault Refusal :=
  match sh with
  | .lone l => exec l s
  | .pair c a => execPair c a s
  | .reserved code => exec (.reservedEncoding (BitVec.ofNat 10 code)) s

/-- The ops of a sheaf. -/
def sheafOps : Sheaf → List Instr
  | .lone l => [l]
  | .pair c a => [c, a]
  | .reserved _ => []

/-! ### After the ops -/

/-- The address of the next sheaf: where an op sends control, else after the end test of the hardware loops (07 R178). -/
def State.advance (s : State) (pc : Word) : State :=
  match s.npc with
  | some p => s.setMe { s.me with pc := p }
  | none =>
    let (c, p) := s.me.loopEnd pc 5
    s.setMe { c with pc := p }

/-- What the debug registers of a context in task mode do after a sheaf has issued: SKIP is cleared, and with SS = 1 the context is held
with HIT 9 (R405, R407). -/
def State.stepped (s : State) (act : Bool) : State :=
  if !act then s
  else
    let s := s.setMe (s.me.setCr 0x14 (putBits (s.me.cr 0x14) 3 3 0))
    let s' := s.setMe s.me.hold
    if s.me.dbgSs && s'.me.st != s.me.st then s'.stopHit s.cur 9 else s

/-- The executing agent's sheaf has issued in a cycle: a context is the one of its tile that issued last (02 R34). -/
def State.issued (s : State) (t : Nat) : State :=
  if s.cur.isAwn then s else s.setTile s.cur.tile { s.tile s.cur.tile with last := s.cur.ctx, lastIssue := t }

/-- A context waits for the granules of a full-empty read, which has issued (08 R207). -/
def Ctx.feWaits (c : Ctx) : Bool :=
  match c.st with
  | .waiting (.fullEmpty _) => true
  | _ => false

/-- The end of an issue in cycle `t`: a sheaf that waits has not issued and leaves its pc, but for a full-empty read, which has; one that trapped has its
pc from the trap; one that ran advances. -/
def State.retireSheaf (s : State) (pc : Word) (act : Bool) (t : Nat) : State :=
  match s.fate with
  | .waits => if s.me.feWaits then s.issued t else s
  | .trapped _ => (s.issued t).stepped act
  | .ran => ((s.issued t).advance pc).stepped act

/-- An agent takes its turn to issue, at the earliest in the cycle after its tile's last issue: it is the executing one, and what its sheaf's
sources read is latched. -/
def State.begin (s : State) (a : Agent) : State :=
  { s with time := if a.isAwn then s.time else s.issueTime a.tile, cur := a, latch := some (s.ctx a), popped := [], npc := none, fate := .ran }

/-- The sheaf of the executing agent, fetched and decoded. -/
noncomputable def State.sheaf (s : State) : Fetched Sheaf :=
  s.fetch.bind (fun s w => .got s (decodeSheaf (isV s.cur.tile) (w.extractLsb' 0 32) (w.extractLsb' 32 32)))

/-- The outcome of a sheaf's ops, with its end. -/
def finish (pc : Word) (act : Bool) (t : Nat) (o : Host.Outcome State Fault Refusal) : Host.Outcome State Fault Refusal :=
  match o with
  | .next s => .next (s.retireSheaf pc act t)
  | o => o

/-- The cycle of a sheaf's ops: the next one where an act of this cycle has an order behind one of them. -/
def State.inTurn (s : State) (ops : List Instr) : State := ops.foldl (fun s i => s.inCycle (orderOfOp s i)) s

/-- The issue of one sheaf of an agent. -/
noncomputable def issue (a : Agent) (s : State) : Host.Outcome State Fault Refusal :=
  let s := s.begin a
  let pc := s.me.pc
  let act := s.debugOn
  match s.debugMatch [] with
  | some hit => .next (s.debugStop hit)
  | none =>
    match s.sheaf with
    | .fault i => finish pc act s.time (exec i s)
    | .waits s b => .next { s.waitOn (.structural b) with fate := .waits }
    | .got s sh =>
      match s.debugMatch (sheafOps sh) with
      | some hit => .next (s.debugStop hit)
      | none => finish pc act (s.inTurn (sheafOps sh)).time (execSheaf sh (s.inTurn (sheafOps sh)))

/-! ### Full-empty reads that wait (03 R77, 08 R207) -/

/-- A waiting full-empty read takes the granules of its range that are full; once it has all of them, its destination is written, its sheaf ends, and
its context goes on. Where a scale record that it decodes by has left its frame meanwhile its sheaf issues again, to bring that in (03 R67, R70). -/
def State.serve (s : State) (a : Agent) (r : FeRead) : State :=
  let s := s.takeGranules a r.clr r.win r.off r.len
  if !(s.ctx a).allTaken r.win r.off r.len then s
  else
    let s' := (s.setCtx a (s.ctx a).unwait).begin a
    if !s'.feRecords r then s.setCtx a (s.ctx a).unwait
    else
      let act := s'.debugOn
      let s' := ({ s' with time := s.time }.feLand r).settled
      { ((s'.advance s'.me.pc).stepped act) with cur := s.cur }

/-- The full-empty reads that wait take effect with the step that fills their granules, each tile's in ascending context number (03 R77). -/
def State.serveFills (s : State) : State :=
  s.ctxs.foldl (fun s e =>
    let a : Agent := ⟨e.1 / 16, e.1 % 16⟩
    match e.2.st with
    | .waiting (.fullEmpty r) => if s.agentStopped a then s else s.serve a r
    | .held (some (.fullEmpty r)) => if s.agentStopped a then s else s.serve a r
    | _ => s) s

/-! ### A turn -/

/-- One of a list, by a free number; of a list of one, that one. -/
def pickFree {α : Type} (n : Nat) (l : List α) : Option α :=
  match l with
  | [] => none
  | [a] => some a
  | a :: b :: l => (a :: b :: l)[n % (l.length + 2)]?

/-- A fair turn comes after every `Config.patience` turns of free choice (02 R53; log 1): by turns one that takes the act at the head of the agenda
(some true) and one that lets the next agent in order issue (some false). -/
noncomputable def State.fairTurn (s : State) : Option Bool :=
  if s.rounds % (Config.patience + 1) = Config.patience then some (s.rounds / (Config.patience + 1) % 2 == 0) else none

/-- The next of the agents that may issue after the one that a fair turn chose last. -/
def State.nextIssuer (s : State) (l : List Agent) : Option Agent := (l.find? (fun a => decide (s.lastAgent < akey a))).or l.head?

/-- An issue turn: one of the agents that may issue (log 2); with none, time passes. -/
noncomputable def issueTurn (s : State) : Host.Outcome State Fault Refusal :=
  let pick := match s.issuers with
    | [] => none
    | [a] => some a
    | l => if s.fairTurn = some false then s.nextIssuer l else pickFree (Config.freeTurn s.fc) l
  match pick with
  | some a => issue a { s with fc := s.fc + 1, lastAgent := if s.fairTurn = some false then akey a else s.lastAgent }
  | none => .next { s with fc := s.fc + 1, time := s.time + 1 }

/-- The end of a turn: the full-empty reads whose granules it filled take effect; the records of its revocations are written (22 R463); time passes beyond the least a step takes (log 3); no sheaf is
in issue; what was drawn under the free values' counter `n` is not drawn again (log 1). -/
def stall (n : Nat) (o : Host.Outcome State Fault Refusal) : Host.Outcome State Fault Refusal :=
  match o with
  | .next s => .next { s.settled.serveFills.flushErrs with time := s.time + Config.freeStall n, fc := max s.fc (n + 1), rounds := s.rounds + 1 }
  | o => o

/-- A packet at a router's input can be handled now; a token can. -/
def State.packetReady (s : State) (i : Instr) : Bool :=
  match i with
  | .routerPacketArrival t p x => match s.wayOf t x with
    | .out cs => s.canGo t p x cs
    | _ => true
  | .statTokenArrival t _ k => s.tokenRoom t (rtOut (s.routeEntry t k.route))
  | _ => false

/-- The first act of a lane that can be done now. -/
def State.laneHead (s : State) (k : Nat × Nat × Nat) (l : List Instr) : Option Nat :=
  (l.findIdx? (fun j => laneOfAct j == some k)).bind (fun m => if (l[m]?).any s.packetReady then some m else none)

/-- The classes of one link (12 R348): a token that has waited 64 cycles, then class 2, then class 1, then a token. The act taken, of a flit that a
link brings, gives way to the one that comes before it. -/
def State.linkFirst (s : State) (i : Instr) (rest : List Instr) : Instr × List Instr :=
  let swap (m : Option Nat) : Instr × List Instr := match m with
    | some m => ((rest[m]?).getD i, i :: rest.eraseIdx m)
    | none => (i, rest)
  let old (j : Instr) : Bool := match j with
    | .statTokenArrival _ _ k => decide (k.since + 64 ≤ s.time)
    | _ => false
  match i with
  | .statTokenArrival t p _ =>
    if p = 0 || old i then (i, rest) else swap ((s.laneHead (0, t * 8 + p, 2) rest).or (s.laneHead (0, t * 8 + p, 1) rest))
  | .routerPacketArrival t p x =>
    if p = 0 then (i, rest)
    else swap (((s.laneHead (1, t, p) rest).filter (fun m => (rest[m]?).any old)).or (if x.cls = 1 then s.laneHead (0, t * 8 + p, 2) rest else none))
  | _ => (i, rest)

/-- The act that a turn performs, with the rest of the agenda; none where the turn is an issue. -/
noncomputable def State.pickAct (s : State) : Option (Instr × List Instr) :=
  match s.fairTurn with
  | some true => takeAct 0 s.agenda
  | some false => none
  | none => takeAct (Config.freeChoice s.fc % (s.agenda.length + 1)) s.agenda

/-- An act taken from the agenda is performed, in a cycle that its order allows; one that needs the dies waits while the main input is off (01 R27). -/
noncomputable def perform (i : Instr) (rest : List Instr) (s : State) : Host.Outcome State Fault Refusal :=
  if !s.mainUp && needsMain i then .next { s with agenda := rest ++ [i], fc := s.fc + 1 }
  else match exec i (({ s with agenda := rest, fc := s.fc + 1 } : State).inCycle (orderOf i)) with
  | .next s' => .next (if s.fairTurn = some true then { s' with agenda := giveWay i s'.agenda } else s')
  | o => o

/-- One turn of the package: an act of the agenda, or an issue; an issue where the agenda is empty (log 1). -/
noncomputable def turn (s : State) : Host.Outcome State Fault Refusal :=
  if s.bootFailed then .fault .bootStopped
  else if !s.mainUp && s.agenda.isEmpty then .fault .unpowered
  else if s.agenda.isEmpty then stall s.fc (issueTurn s)
  else match s.pickAct with
    | none => stall s.fc (issueTurn s)
    | some (i, rest) => stall s.fc (perform (s.linkFirst i rest).1 (s.linkFirst i rest).2 s)

end Sys2Proof.Machine
end

