-- ==== Sys2Proof/Machine/Placement.lean ====
section
/-! DEFINITION. The placement of an instruction where the next step fetches: a task that runs on tile 16, whose address space maps the
first GiB onto itself (03 R81 to R83), with context 0 at the sheaf (log 15). -/

namespace Sys2Proof.Machine

/-- The address of the placed sheaf, and of the three page-table pages. -/
def placedPc : Nat := 0x10000
def placedRoot : Nat := 0x1000

/-- The placed task's record: Running, one rank, the address space at `placedRoot` (11 Table — Task record). -/
def placedRecord : BitVec 2048 :=
  setRecD (setRecD 0 1 (wd (6 * 2 ^ 60 + 1 * 2 ^ 55 + 1 * 2 ^ 51))) 3 (wd placedRoot)

/-- The page-table entries: two tables, then a leaf of 1 GiB with RD, WR, EX and US. -/
def State.placeTables (s : State) : State :=
  ((s.memWrite 0x1000 (leBytes 8 0x2001)).memWrite 0x2000 (leBytes 8 0x3001)).memWrite 0x3000 (leBytes 8 0x83F)

/-- The context of the placed task: Ready at the sheaf, in task mode, no debug register armed. -/
def Ctx.placed (c : Ctx) : Ctx :=
  { c.setHm false with st := .ready, pc := wd placedPc, creg := (c.setHm false).creg.filter (fun e => !(8 ≤ e.1 && e.1 ≤ 0x14)), binds := [] }

/-- A machine whose next step issues the sheaf of the 64 bits: no act is pending, and no other agent is Ready. -/
def State.placeSheaf (s : State) (w : Nat) : State :=
  let a : Agent := ⟨16, 0⟩
  let s := { s with bootFailed := false, mainUp := true, agenda := [], tlb := [], icache := [], pois := [],
                    ctxs := s.ctxs.map (fun (e : Nat × Ctx) => if e.2.st == CtxSt.ready then (e.1, e.2.hold) else e) }
  let s := (s.placeTables.memWrite placedPc (leBytes 8 w)).setRecord 0 placedRecord
  let s := s.setTile 16 { s.tile 16 with run := some 0, frz := none }
  s.setCtx a (s.ctx a).placed

end Sys2Proof.Machine
end

