-- ==== Sys2Proof/Machine/Step.lean ====
section
/-! DEFINITION. One step of the package, and the placement of an instruction where the next step fetches. -/

namespace Sys2Proof.Machine

/-- One step: writes become visible on more paths as a free choice says (04 R97), then a turn of Issue.lean. -/
noncomputable def step (s : State) : Host.Outcome State Fault Refusal := turn s.showSome

/-- The instruction whose bits are `w`, the bits above `nbits` zero, stored where the next step fetches (log 15). -/
def State.withFetchWord (s : State) (nbits w : Nat) : State := s.placeSheaf (w % 2 ^ nbits)

end Sys2Proof.Machine
end

