-- ==== Sys2Proof/Safety.lean ====
section
/-! DEFINITION. What the statements call a safe step, and the terms they state completion, conditions and frames in. -/

namespace Sys2Proof

/-- The outcome is a next state. -/
def isNext {σ φ ρ : Type} : Host.Outcome σ φ ρ → Bool
  | .next _ => true
  | _ => false

/-- A safe step. -/
def Safe (s : Machine.State) : Prop := isNext (Machine.step s) = true

end Sys2Proof

namespace Sys2Proof.Machine

/-- The op ran to its effect: it answers this state, and neither trapped nor waits. -/
def ran (s : State) : Host.Outcome State Fault Refusal := .next { s with fate := .ran }

/-- The op trapped at a step of R434. -/
def trapped (s : State) (t : Trap) : Host.Outcome State Fault Refusal := .next { s.takeTrap t with fate := .trapped t.step }

/-- The op waits under a condition, in the state that its partial work leaves. -/
def waits (s : State) (w : Wait) : Host.Outcome State Fault Refusal := .next { s.waitOn w with fate := .waits }

/-- The source s registers hold values: no result is on its way to them and none is poisoned (06 R148, 20 R422). -/
abbrev Readable (s : State) (rs : List (BitVec 5)) : Prop :=
  ∀ r ∈ rs, s.src.pends r.toNat = false ∧ s.src.sPois.find r.toNat = none

/-- A C-op and its A-slot mirror both write a value to a register and do nothing else. -/
def BothWrite (s : State) (c a : Instr) (rd : BitVec 5) (w : Word) : Prop := exec c s = ran (s.ws rd w) ∧ exec a s = ran (s.ws rd w)

/-- The destination of an op that writes one s register and nothing else: integer arithmetic of both slots, bit fields, addresses,
constants, `sel`, `crd` and the reads of identity and time. -/
def registerDest (i : Instr) : Option (BitVec 5) :=
  match i with
  | .addOp f => some f.rd
  | .subOp f => some f.rd
  | .andOp f => some f.rd
  | .orOp f => some f.rd
  | .xorOp f => some f.rd
  | .shl f => some f.rd
  | .shr f => some f.rd
  | .sar f => some f.rd
  | .mulOp f => some f.rd
  | .mulh f => some f.rd
  | .mulhu f => some f.rd
  | .divOp f => some f.rd
  | .divu f => some f.rd
  | .rem f => some f.rd
  | .remu f => some f.rd
  | .minOp f => some f.rd
  | .maxOp f => some f.rd
  | .minu f => some f.rd
  | .maxu f => some f.rd
  | .slt f => some f.rd
  | .sltu f => some f.rd
  | .clz f => some f.rd
  | .ctz f => some f.rd
  | .popc f => some f.rd
  | .addAs f => some f.sd
  | .subAs f => some f.sd
  | .andAs f => some f.sd
  | .orAs f => some f.sd
  | .xorAs f => some f.sd
  | .shlAs f => some f.sd
  | .shrAs f => some f.sd
  | .sarAs f => some f.sd
  | .mulAs f => some f.sd
  | .mulhAs f => some f.sd
  | .mulhuAs f => some f.sd
  | .divAs f => some f.sd
  | .divuAs f => some f.sd
  | .remAs f => some f.sd
  | .remuAs f => some f.sd
  | .minAs f => some f.sd
  | .maxAs f => some f.sd
  | .minuAs f => some f.sd
  | .maxuAs f => some f.sd
  | .sltAs f => some f.sd
  | .sltuAs f => some f.sd
  | .clzAs f => some f.sd
  | .ctzAs f => some f.sd
  | .popcAs f => some f.sd
  | .addi f => some f.rd
  | .andi f => some f.rd
  | .ori f => some f.rd
  | .xori f => some f.rd
  | .shli f => some f.rd
  | .shri f => some f.rd
  | .sari f => some f.rd
  | .slti f => some f.rd
  | .sltiu f => some f.rd
  | .bfx f => some f.rd
  | .bfxs f => some f.rd
  | .bfi f => some f.rd
  | .lea f => some f.rd
  | .leaG f => some f.rd
  | .crd f => some f.rd
  | .movi d _ => some d
  | .movhi d _ => some d
  | .sel f => some (f.fn9.extractLsb' 0 5)
  | .fmin f => some f.sd
  | .fmax f => some f.sd
  | .fabs f => some f.sd
  | .fneg f => some f.sd
  | .fcmp f => some f.sd
  | .hself d => some d
  | .grank d => some d
  | .tid d => some d
  | .clk d => some d
  | .txstat f => some f.rc
  | .erd f => some f.rc
  | .ctxrd f => some f.rc
  | .evq f => some f.rc
  | _ => none

/-- No token register holds an access back: the one its kp names is drained, the one its kw names not full (04 R94, R95). -/
abbrev TokensFree (s : State) (kw kp : BitVec 3) : Prop := s.src.kc kp.toNat = 0 ∧ s.src.kc kw.toNat < 63

/-- An op is a scalar load of a size code: at an aligned address whose access is served with the bytes `bs`, it is outstanding with the bytes'
value, extended as its size says, for its destination (04 R94, 08 R200). -/
def LoadsScalar (s : State) (i : Instr) (v : View) (size ord scope : Nat) (kw : BitVec 3) (rd : BitVec 5) (a : Word) : Prop :=
  a.toNat % sizeBytes size = 0 → ∀ s' bs, loadPieces s v 1 false (podRead ord scope) [(a, sizeBytes size)] a = .ok (s', bs) →
    exec i s = ran ((acquire s' ord scope).issuePost s'.path kw (.s rd.toNat (shape size (leNat (bs.map (·.1)))) (keptS a bs)))

/-- A store to checked places issues in state u and leaves state t: the scratchpad pieces that are still to be written find their pages resident, one
after another, and the granules it makes for stream edges have their permits (02 R33, 08 R196, R198, 11 R335). `pre` is what the op has read before. -/
def StoresPlaces (u : State) (fe : Bool) (kw : BitVec 3) (pre : List (List (Byte × Bool))) (ps qs : List ((Word × Nat) × Place)) (a : Option Word)
    (bs cs : List (Byte × Bool)) (t : State) : Prop :=
  let n := u.me.prog.length - pre.length
  ∃ v w, storeSp u fe a pre n ((spChunks (fe || u.cur.isAwn) ps bs ++ spChunks false qs cs).drop n) = .ok v ∧
    sendMine v (placeGranules ((v.tile v.cur.tile).run.getD 0) ps bs ++ placeGranules ((v.tile v.cur.tile).run.getD 0) qs cs) = .ok w ∧
    t = putPieces w kw ps qs bs cs

/-- A store of byte ranges at address a issues in state u and leaves state t: its ranges pass their checks, and their places are stored to. -/
def Stores (u : State) (fe : Bool) (kw : BitVec 3) (ps qs : List (Word × Nat)) (a : Word) (bs cs : List (Byte × Bool)) (t : State) : Prop :=
  ∃ pl ql, checkAt u u.who a 2 fe ps = .ok pl ∧ checkAt u u.who a 2 false qs = .ok ql ∧
    StoresPlaces u fe kw [] (ps.zip pl) (qs.zip ql) (some a) bs cs t

/-- An op is a scalar store of a size code: at an aligned address that passes its checks, the low bytes of its source are stored, after a
release that the op's ordering asks for (04 R99, 08 R200). -/
def StoresScalar (s : State) (i : Instr) (fe : Bool) (size ord scope : Nat) (kw : BitVec 3) (rd : BitVec 5) (a : Word) : Prop :=
  a.toNat % sizeBytes size = 0 → ∀ pl u t, checkAll s s.who 2 fe [(a, sizeBytes size)] = .ok pl → release s ord scope = .ok u →
    Stores u fe kw [(a, sizeBytes size)] [] a ((leBytes (sizeBytes size) (u.rs rd).toNat).map (fun b => (b, false))) [] t → exec i s = ran t

/-- An op is a vector load: an access that is served leaves it outstanding with the destination's new value (08 R201, R202). -/
def LoadsVector (s : State) (i : Instr) (v : View) (ord scope : Nat) (kw : BitVec 3) (vd : BitVec 5) (a : Word) : Prop :=
  ∀ s' d, loadVec s v false (podRead ord scope) vd a = .ok (s', d) → exec i s = ran ((acquire s' ord scope).issuePost 0 kw d)

/-- An op is a vector store: to a bank without groups 256 raw bytes are stored; to another the 64 lanes are encoded in the bank's format under
its scale records, and an MX bank's records are written too (08 R201, R202). -/
def StoresVector (s : State) (i : Instr) (fe : Bool) (ord scope : Nat) (kw : BitVec 3) (vs : BitVec 5) (a : Word) : Prop :=
  ∀ s0, useV s [vs] = .ok s0 → stripsOk s0 [vs] = .ok () →
    (s0.decodeAt s0.cur.tile a = none → a.toNat % 16 = 0 → ∀ pl s1 t, checkAll s0 s0.who 2 fe (cut a 256) = .ok pl → release s0 ord scope = .ok s1 →
      Stores s1 fe kw (cut a 256) [] a (vBytes (s1.rv vs)) [] t → exec i s = ran t) ∧
    (∀ d, s0.decodeAt s0.cur.tile a = some d → a.toNat % d.len = 0 →
      let mx := fmtTy d.fmt == 11
      let recs := cut d.recAddr d.recLen
      ∀ pl rl s1 s2 rb s3, checkAt s0 s0.who a 2 fe (cut a d.len) = .ok pl → checkAt s0 s0.who a (if mx then 2 else 1) false recs = .ok rl →
        release s0 ord scope = .ok s1 → loadAhead s1 (if mx then [] else recs.zip rl) a = .ok (s2, rb) →
        let e := d.store (isV s2.cur.tile) ((List.range 64).map (fun j => (lane (s2.rv vs) j).toNat)) (rb.flatten.map (·.1)) s2.rm
        StoresPlaces s2 fe kw rb ((cut a d.len).zip pl) (if mx then recs.zip rl else []) (some a) (e.1.map (fun b => (b, false)))
          (e.2.1.map (fun b => (b, false))) s3 →
        exec i s = ran (s3.countV e.2.2))

/-- A full-empty read of checked places reaches pages that are resident, or has taken all it needs: it takes the granules that are full, and once it has
all of them, with the pages of its scale records `rl` resident, its destination takes the value at once; else it waits for the rest (08 R206, R207, 03 R77). -/
def ReadsFullEmpty (s : State) (i : Instr) (r : FeRead) (pl rl : List Place) : Prop :=
  let t := s.feTouch r
  let u := t.takeGranules t.cur r.clr r.win r.off r.len
  reside s s.cur.tile (if s.me.allTaken r.win r.off r.len then [] else pl) r.addr = .ok () →
  (u.me.allTaken r.win r.off r.len = true → reside u u.cur.tile rl r.addr = .ok () → exec i s = ran (u.feLand r)) ∧
  (u.me.allTaken r.win r.off r.len = false → exec i s = .next { u.waitFrom s.me (.fullEmpty r) with fate := .waits })

/-- An op is a full-empty load of n bytes at an aligned range. -/
def LoadsFullEmpty (s : State) (i : Instr) (r : FeRead) (n al : Nat) : Prop :=
  r.addr.toNat % al = 0 → ∀ pl, checkAll s s.who 1 true (cut r.addr n) = .ok pl → ReadsFullEmpty s i r pl []

/-- An op is a full-empty load that decodes 64 elements of a grouped bank by the scale records found when it is performed (08 R202, R206, 03 R67). -/
def DecodesFullEmpty (s : State) (i : Instr) (r : FeRead) (d : DecodeAt) : Prop :=
  r.addr.toNat % d.len = 0 → ∀ pl rl, checkAt s s.who r.addr 1 true (cut r.addr d.len) = .ok pl →
    checkAt s s.who r.addr 1 false (cut d.recAddr d.recLen) = .ok rl → ReadsFullEmpty s i { r with len := d.len, dec := true } pl rl

/-- A v register's value and its lanes' poison from 256 bytes read at lane addresses. -/
def vectorDst (vd : BitVec 5) (addr : Nat → Word) (bs : List (Byte × Bool)) : Dst :=
  .v vd.toNat (BitVec.ofNat 2048 (leNat (bs.map (·.1)))) (poisLanes ((List.range 64).map (fun j => ((bs.drop (4 * j)).take 4).any (·.2))) addr)

/-- A pair-form atomic at a place that passes its checks, its page resident: the location takes `fn` of its old value, which the destination receives,
and while the home of its line holds it back it waits (08 R213, R214, 04 R108, R121). -/
def PairAtomic (s : State) (i : Instr) (f : CR) (fn : Nat → Nat) : Prop :=
  ∀ p, checkAtomic s (s.rs f.ra) 8 = .ok p → reside s s.cur.tile [p] (s.rs f.ra) = .ok () →
    (s.homeBusy p = true → exec i s = waits (s.askHome p) (s.homeWait p)) ∧
    (s.homeBusy p = false →
      let r := atomicAt s 8 p fn
      exec i s = ran (r.1.setMe (r.1.me.putDst (.s f.rd.toNat (BitVec.ofNat 64 r.2.1) (if r.2.2 then some (s.rs f.ra) else none)))))

/-- A lone-form atomic on n bytes: the old value, extended as a load of size code `sz`, goes to rc at completion (08 R215, R216). -/
def LoneAtomic (s : State) (i : Instr) (f : MX) (n sz : Nat) (fn : Nat → Nat) : Prop :=
  ∀ p0 u p, checkAtomic s (eaMX f s) n = .ok p0 → release s f.ord.toNat f.scope.toNat = .ok u → checkAtomic u (eaMX f s) n = .ok p →
    reside u u.cur.tile [p] (eaMX f s) = .ok () →
    (u.homeBusy p = true → exec i s = .next { (u.askHome p).waitFrom s.me (u.homeWait p) with fate := .waits }) ∧
    (u.homeBusy p = false →
      let r := atomicAt u n p fn
      exec i s = ran ((acquire r.1 f.ord.toNat f.scope.toNat).issuePost (acquire r.1 f.ord.toNat f.scope.toNat).path f.kw
        (.s f.rc.toNat (shape sz r.2.1) (if r.2.2 then some (eaMX f s) else none))))

/-- A vector atomic: with every lane's checks passed, the lanes not yet performed are, in ascending order, none of them waiting, and the old values go to
the destination (08 R217, 02 R33). -/
def VectorAtomic (s : State) (i : Instr) (f : MX) (code : Nat) : Prop :=
  ∀ s0 pl s1 s2 r, useV s [f.rb] = .ok s0 → (s0.src.bind f.rc.toNat).bound = false → stripsOk s0 [f.rb] = .ok () →
    let as := (List.range 64).map (fun j => eaMX f s0 + BitVec.ofNat 64 (4 * j))
    (eaMX f s0).toNat % 16 = 0 → as.mapM (checkVamo s0) = .ok pl → release s0 f.ord.toNat f.scope.toNat = .ok s1 →
    vamoLanes code (s1.rv f.rb) s1 s1.me.prog ((((List.range 64).zip as).zip pl).drop s1.me.prog.length) = .ok (s2, r) →
    exec i s = ran ((acquire (s2.setProg []) f.ord.toNat f.scope.toNat).issuePost 0 f.kw (.v f.rc.toNat
      (BitVec.ofNat 2048 (leNat (r.flatten.map (·.1)))) (poisLanes (r.map (fun l => l.any (·.2))) (fun j => (as[j]?).getD 0))))

/-- A word read as a signed number of n bytes. -/
def signedOf (w x : Nat) : Int := if x < 2 ^ (w - 1) then x else (x : Int) - 2 ^ w

/-- An op writes a v register: off the awn core, with its scalar sources readable, its vector sources popped or read, its destination's binding
in order and room for a pushed strip, it writes what `op` gives in the lanes that `op` names and counts its events (09 R244 to R247). -/
def WritesVector (s : State) (i : Instr) (vd : BitVec 5) (mm : BitVec 3) (vs : List (BitVec 5)) (readsVd : Bool) (ss : List (BitVec 5))
    (op : State → VOut) : Prop :=
  s.cur.isAwn = false → Readable s ss → ∀ u t, useV s (vs ++ if readsVd then [vd] else []) = .ok u → destV u vd (mm != 0) readsVd = .ok () →
    stripsOk u vs = .ok () → u.wv vd (op u).v (op u).lanes = .ok t → exec i s = ran (t.countV (op u).evs)

/-- An operand of a matrix op: aligned, inside window `win`, and each page of its n bytes mapped; a destination's page may be outbound (10 R273,
R274). -/
def OperandOk (s : State) (base : Word) (align win n : Nat) (dest : Bool) : Prop :=
  base.toNat % align = 0 ∧ windowOf base = some win ∧ win < 3 ∧ offset base < windowPages (isV s.cur.tile) win * 2048 ∧
    offset base + n ≤ windowPages (isV s.cur.tile) win * 2048 ∧
    ∀ e ∈ Span.entries ⟨win, offset base, n⟩, loc ((s.tile s.cur.tile).spte (pkey win e.1)) ≠ 0 ∨
      (dest = true ∧ (s.outbound s.cur.tile win e.1).isSome = true)

/-- A matrix op is outstanding on path 1 and stands behind the ops the sequencer holds, which starts where it held none (10 R277). -/
def State.holdMatrix (s : State) (f : EX) (m : MatOp) : State :=
  let u := s.issueOp 1 (kwX f) .none
  let v := u.setTile s.cur.tile { u.tile s.cur.tile with mq := (s.tile s.cur.tile).mq ++ [m] }
  if (s.tile s.cur.tile).mq = [] then v.post (.matrixStep s.cur.tile) else v

/-- A transfer of task k is outstanding on path 2: it takes the task's next sequence number, which rc receives (10 R296). -/
def State.startXfer (s : State) (f : EX) (k : Nat) (x : Xfer) : State :=
  let q := (s.task k).nextQ
  let u := s.issueOp 2 (kwX f) .none
  let u := u.setTask k { u.task k with nextQ := q + 1 }
  { u.ws f.rc (BitVec.ofNat 64 q) with xfers := u.xfers ++ [{ x with
      op := s.nextOp, q := q, task := k, agent := s.cur, hand := s.handler, tag := parF f.par 15 0, root := s.root s.cur,
      ring := recCrbase (s.record k), size := 2 ^ recCrlog (s.record k), fmts := (s.tile s.cur.tile).bfmt }] }.post (.transferCompletion s.nextOp)

/-- An op sends a packet in state u on path 4, counted as sent for its launch: an awn core waits while its router refuses it (10 R306, 12 R355, 02 R55). -/
def Sends (s : State) (i : Instr) (u : State) (kw : BitVec 3) (p : Packet) : Prop :=
  u.cur.isAwn = false ∨ u.injectRoom u.cur.tile = true → exec i s = ran ((u.countSent.issueOp 4 kw .none).offer u.cur u.nextOp p)

/-- No sheaf is in issue: nothing of the executing sheaf's own is held (00 R5, log 1). -/
def NoSheafInIssue (s : State) : Prop := s.latch = none ∧ s.popped = [] ∧ s.npc = none ∧ s.fate = .ran

end Sys2Proof.Machine
end

