-- ==== Sys2Proof/Certificates/Slice0/Obligations.lean ====
section
/-! DEFINITION. The statements about the model, each with the rule of spec/ it formalises. -/

open Sys2Proof Sys2Proof.Machine

/-- Every ALU op of the C slot and its mirror of the A slot writes the result of Table — ALU operations to its destination and does nothing else,
whatever its sources hold (07 R169, R170). Counts of leading zeros, trailing zeros and one bits, in both slots: clz and ctz of 0 give 64, and of
another value the place of its highest and lowest one bit (07 R169). -/
def Obligations.ScalarArithmeticResults : Prop :=
  (∀ (s : State) (d ra rb : BitVec 5), Readable s [ra, rb] →
    let a := s.rs ra
    let b := s.rs rb
    let n := b.toNat % 64
    BothWrite s (.addOp ⟨d, ra, rb⟩) (.addAs ⟨d, ra, rb⟩) d (a + b) ∧
    BothWrite s (.subOp ⟨d, ra, rb⟩) (.subAs ⟨d, ra, rb⟩) d (a - b) ∧
    BothWrite s (.andOp ⟨d, ra, rb⟩) (.andAs ⟨d, ra, rb⟩) d (a &&& b) ∧
    BothWrite s (.orOp ⟨d, ra, rb⟩) (.orAs ⟨d, ra, rb⟩) d (a ||| b) ∧
    BothWrite s (.xorOp ⟨d, ra, rb⟩) (.xorAs ⟨d, ra, rb⟩) d (a ^^^ b) ∧
    BothWrite s (.shl ⟨d, ra, rb⟩) (.shlAs ⟨d, ra, rb⟩) d (a <<< n) ∧
    BothWrite s (.shr ⟨d, ra, rb⟩) (.shrAs ⟨d, ra, rb⟩) d (a >>> n) ∧
    BothWrite s (.sar ⟨d, ra, rb⟩) (.sarAs ⟨d, ra, rb⟩) d (a.sshiftRight n) ∧
    BothWrite s (.mulOp ⟨d, ra, rb⟩) (.mulAs ⟨d, ra, rb⟩) d (a * b) ∧
    BothWrite s (.mulh ⟨d, ra, rb⟩) (.mulhAs ⟨d, ra, rb⟩) d (BitVec.ofInt 64 (a.toInt * b.toInt / 2 ^ 64)) ∧
    BothWrite s (.mulhu ⟨d, ra, rb⟩) (.mulhuAs ⟨d, ra, rb⟩) d (BitVec.ofNat 64 (a.toNat * b.toNat / 2 ^ 64)) ∧
    BothWrite s (.divOp ⟨d, ra, rb⟩) (.divAs ⟨d, ra, rb⟩) d (if b = 0 then -1 else BitVec.ofInt 64 (a.toInt.tdiv b.toInt)) ∧
    BothWrite s (.divu ⟨d, ra, rb⟩) (.divuAs ⟨d, ra, rb⟩) d (if b = 0 then -1 else a / b) ∧
    BothWrite s (.rem ⟨d, ra, rb⟩) (.remAs ⟨d, ra, rb⟩) d (if b = 0 then a else BitVec.ofInt 64 (a.toInt.tmod b.toInt)) ∧
    BothWrite s (.remu ⟨d, ra, rb⟩) (.remuAs ⟨d, ra, rb⟩) d (if b = 0 then a else a % b) ∧
    BothWrite s (.minOp ⟨d, ra, rb⟩) (.minAs ⟨d, ra, rb⟩) d (if b.slt a then b else a) ∧
    BothWrite s (.maxOp ⟨d, ra, rb⟩) (.maxAs ⟨d, ra, rb⟩) d (if a.slt b then b else a) ∧
    BothWrite s (.minu ⟨d, ra, rb⟩) (.minuAs ⟨d, ra, rb⟩) d (if b.ult a then b else a) ∧
    BothWrite s (.maxu ⟨d, ra, rb⟩) (.maxuAs ⟨d, ra, rb⟩) d (if a.ult b then b else a) ∧
    BothWrite s (.slt ⟨d, ra, rb⟩) (.sltAs ⟨d, ra, rb⟩) d (if a.slt b then 1 else 0) ∧
    BothWrite s (.sltu ⟨d, ra, rb⟩) (.sltuAs ⟨d, ra, rb⟩) d (if a.ult b then 1 else 0)) ∧
  (∀ (s : State) (d ra rb : BitVec 5), Readable s [ra] →
    ∃ z t p : Nat,
      BothWrite s (.clz ⟨d, ra, rb⟩) (.clzAs ⟨d, ra, rb⟩) d (BitVec.ofNat 64 z) ∧
      BothWrite s (.ctz ⟨d, ra, rb⟩) (.ctzAs ⟨d, ra, rb⟩) d (BitVec.ofNat 64 t) ∧
      BothWrite s (.popc ⟨d, ra, rb⟩) (.popcAs ⟨d, ra, rb⟩) d (BitVec.ofNat 64 p) ∧
      z ≤ 64 ∧ t ≤ 64 ∧
      (∀ i, 64 - z ≤ i → (s.rs ra).getLsbD i = false) ∧ (z < 64 → (s.rs ra).getLsbD (63 - z) = true) ∧
      (∀ i, i < t → (s.rs ra).getLsbD i = false) ∧ (t < 64 → (s.rs ra).getLsbD t = true) ∧
      p = ((List.range 64).filter (fun i => (s.rs ra).getLsbD i)).length)

/-- Division by zero and the signed quotient that overflows (07 R170). -/
def Obligations.DivisionCornerValues : Prop :=
  ∀ (s : State) (d ra rb : BitVec 5), Readable s [ra, rb] →
    (s.rs rb = 0 →
      BothWrite s (.divOp ⟨d, ra, rb⟩) (.divAs ⟨d, ra, rb⟩) d (BitVec.ofInt 64 (-1)) ∧
      BothWrite s (.divu ⟨d, ra, rb⟩) (.divuAs ⟨d, ra, rb⟩) d 0xFFFFFFFFFFFFFFFF ∧
      BothWrite s (.rem ⟨d, ra, rb⟩) (.remAs ⟨d, ra, rb⟩) d (s.rs ra) ∧
      BothWrite s (.remu ⟨d, ra, rb⟩) (.remuAs ⟨d, ra, rb⟩) d (s.rs ra)) ∧
    (s.rs ra = BitVec.ofInt 64 (-2 ^ 63) → s.rs rb = BitVec.ofInt 64 (-1) →
      BothWrite s (.divOp ⟨d, ra, rb⟩) (.divAs ⟨d, ra, rb⟩) d (BitVec.ofInt 64 (-2 ^ 63)) ∧
      BothWrite s (.rem ⟨d, ra, rb⟩) (.remAs ⟨d, ra, rb⟩) d 0)

/-- The immediate forms, the bit fields, the addresses and the constants write what R169 and R171 to R174 say, `lea.g` for an address that is not
private or lies in the context's area (07 R169, R171 to R174). -/
def Obligations.ScalarImmediateResults : Prop :=
  ∀ (s : State) (d ra : BitVec 5) (imm : BitVec 15), Readable s [ra] →
    let f : CI := ⟨d, ra, imm⟩
    let a := s.rs ra
    let n := imm.toNat % 64
    let w := imm.toNat / 64 % 64 + 1
    let at14 := a + (imm.extractLsb' 0 14).signExtend 64
    exec (.addi f) s = ran (s.ws d (a + imm.signExtend 64)) ∧
    exec (.andi f) s = ran (s.ws d (a &&& imm.setWidth 64)) ∧
    exec (.ori f) s = ran (s.ws d (a ||| imm.setWidth 64)) ∧
    exec (.xori f) s = ran (s.ws d (a ^^^ imm.setWidth 64)) ∧
    exec (.shli f) s = ran (s.ws d (a <<< n)) ∧
    exec (.shri f) s = ran (s.ws d (a >>> n)) ∧
    exec (.sari f) s = ran (s.ws d (a.sshiftRight n)) ∧
    exec (.slti f) s = ran (s.ws d (if a.slt (imm.signExtend 64) then 1 else 0)) ∧
    exec (.sltiu f) s = ran (s.ws d (if a.ult (imm.signExtend 64) then 1 else 0)) ∧
    exec (.bfx f) s = ran (s.ws d (BitVec.ofNat 64 (a.toNat / 2 ^ n % 2 ^ w))) ∧
    (∃ x : Int, exec (.bfxs f) s = ran (s.ws d (BitVec.ofInt 64 x)) ∧ -(2 ^ (w - 1) : Int) ≤ x ∧ x < 2 ^ (w - 1) ∧
      x % 2 ^ w = (a.toNat / 2 ^ n % 2 ^ w : Nat)) ∧
    (Readable s [d] → ∃ x : Word, exec (.bfi f) s = ran (s.ws d x) ∧
      ∀ i, i < 64 → x.getLsbD i = if n ≤ i ∧ i < n + w then a.getLsbD (i - n) else (s.rs d).getLsbD i) ∧
    exec (.lea f) s = ran (s.ws d at14) ∧
    (windowOf at14 ≠ some 3 → exec (.leaG f) s = ran (s.ws d at14)) ∧
    (windowOf at14 = some 3 → s.cur.isAwn = false → offset at14 < areaSize (s.runRec s.cur.tile) →
      exec (.leaG f) s = ran (s.ws d (privAlias (s.runRec s.cur.tile) s.cur.ctx (offset at14)))) ∧
    (∀ (t : State) (imm32 : BitVec 32), exec (.movi d imm32) t = ran (t.ws d (imm32.signExtend 64)) ∧
      (Readable t [d] → exec (.movhi d imm32) t = ran (t.ws d (imm32 ++ (t.rs d).extractLsb' 0 32))))

/-- `sel` chooses between two registers (07 R174). -/
def Obligations.SelectChoosesRegister : Prop :=
  ∀ (s : State) (f : EX), Readable s [f.ra, f.rb, f.rc] →
    exec (.sel f) s = ran (s.ws (f.fn9.extractLsb' 0 5) (if s.rs f.ra = 0 then s.rs f.rc else s.rs f.rb))

/-- Scalar floating point: each op's result is the one rounding, by FPCTL.RM, of the exact value of Table — Scalar floating-point operations, its
event counted on the vector unit's converter; minimum, maximum, magnitude and negation are exact (07 R175). -/
def Obligations.ScalarFloatResults : Prop :=
  ∀ (s : State) (f : AF), Readable s [f.sa] → s.cur.isAwn = false →
    let t := f.t.toNat
    let x := scalarNum t (s.rs f.sa)
    let y := scalarNum t (s.rs f.sb)
    let z := scalarNum t (s.rs f.sd)
    let rounded (srcs : List Machine.Num) (v : Machine.Num) : State :=
      let r := (scalarFmt t).result srcs v s.rm s.e4ns
      (s.ws f.sd (BitVec.ofNat 64 r.1)).countV [r.2]
    let exact (v : Machine.Num) : State := s.ws f.sd (BitVec.ofNat 64 ((scalarFmt t).round v 0 false).1)
    (Readable s [f.sb] →
      exec (.fadd f) s = ran (rounded [x, y] (exactSum [x, y])) ∧
      exec (.fsub f) s = ran (rounded [x, y] (exactSum [x, y.neg])) ∧
      exec (.fmul f) s = ran (rounded [x, y] (x.mul y)) ∧
      (Readable s [f.sd] → exec (.fma f) s = ran (rounded [x, y, z] (exactSum [x.mul y, z]))) ∧
      exec (.fmin f) s = ran (exact (if x.isNan then y else if y.isNan then x else if x.below y then x else y)) ∧
      exec (.fmax f) s = ran (exact (if x.isNan then y else if y.isNan then x else if x.below y then y else x)) ∧
      exec (.fcmp f) s = ran (s.ws f.sd (if predicate f.t2.toNat x y then 1 else 0))) ∧
    exec (.fabs f) s = ran (exact (if x.isNeg then x.neg else x)) ∧
    exec (.fneg f) s = ran (exact x.neg) ∧
    (let u := scalarNum f.t2.toNat (s.rs f.sa)
     let r := match scalarTy t with
       | some ty => convertTo u ty s.rm s.e4ns
       | none => if t = 3 then toIntTy u 64 s.rm (-2 ^ 63) (2 ^ 63 - 1) else toIntTy u 64 s.rm 0 (2 ^ 64 - 1)
     exec (.fcvt f) s = ran ((s.ws f.sd (BitVec.ofNat 64 r.1)).countV [r.2]))

/-- The identity reads, `gwork` and `clk` write what R181 gives, with k the record number, slot + 65,536 x die, of the task in the executing
tile's running slot; on the awn core with that slot empty `tid` reads all ones below the tile. Code15[14:10] values 5 to 31 are reserved,
whatever the other word holds (07 R181). -/
def Obligations.IdentityReadResults : Prop :=
  (∀ (s : State) (d : BitVec 5),
    exec (.hself d) s = ran (s.ws d (BitVec.ofNat 64 s.cur.ctx)) ∧
    exec (.grank d) s = ran (s.ws d (BitVec.ofNat 64 ((s.tile s.cur.tile).rank + recRanks (s.runRec s.cur.tile) * 2 ^ 16 +
      recGw (s.runRec s.cur.tile) * 2 ^ 32 + recGh (s.runRec s.cur.tile) * 2 ^ 40))) ∧
    (∀ k, s.taskOf s.cur = some k → exec (.tid d) s = ran (s.ws d (BitVec.ofNat 64 (k + s.ua.pkg * 2 ^ 20 + s.cur.tile * 2 ^ 32)))) ∧
    (s.taskOf s.cur = none → exec (.tid d) s = ran (s.ws d (BitVec.ofNat 64 (2 ^ 30 - 1 + s.cur.tile * 2 ^ 32)))) ∧
    exec (.clk d) s = ran (s.ws d (BitVec.ofNat 64 s.time)) ∧
    (s.taskOf s.cur = none → exec (.gwork d) s = ran (s.ws d (BitVec.allOnes 64))) ∧
    (∀ k, s.taskOf s.cur = some k →
      let rank := (s.tile s.cur.tile).rank
      let done := (s.task k).units.get 0 rank
      let unit := rank + recRanks (s.record k) * done
      (s.cur.isAwn = true ∨ recWork (s.record k) ≤ unit → exec (.gwork d) s = ran (s.ws d (BitVec.allOnes 64))) ∧
      (s.cur.isAwn = false → unit < recWork (s.record k) →
        exec (.gwork d) s = ran ((s.setTask k { s.task k with units := (s.task k).units.set 0 rank (done + 1) }).ws d (BitVec.ofNat 64 unit))))) ∧
  (∀ (v : Bool) (w x : BitVec 32), w.extractLsb' 31 1 = 0 → w.extractLsb' 25 6 = 0x1D → 5 ≤ (w.extractLsb' 10 5).toNat →
    ∃ code, decodeSheaf v w x = .reserved code)

/-- A register op leaves all but its destination as it was: memory byte by byte, poison, every other context, and of its own context the other
registers, the control registers, the vector, mask and token registers, the bindings and the transaction; `erd` alone may bring its tile's energy
counters up to date, and nothing else of a tile (07 R169 to R174, R181, R191). s0 discards what is written to it, and reads 0 (06 R153). -/
def Obligations.RegisterOpFrame : Prop :=
  (∀ (s t : State) (i : Instr) (d : BitVec 5), registerDest i = some d → s.ctxs.wf {} = true → s.tiles.wf {} = true → exec i s = .next t → t.fate = .ran →
    (∀ a, t.memByte a = s.memByte a) ∧ (∀ a, t.linePois a = s.linePois a) ∧
    (∀ b : Agent, akey b ≠ akey s.cur → t.ctx b = s.ctx b) ∧
    (∃ w : Word, t.me = s.me.putS d.toNat w) ∧
    { t with ctxs := s.ctxs, fate := s.fate, tiles := s.tiles } = s ∧
    ((∀ f, i ≠ .erd f) → t.tiles = s.tiles) ∧
    (∀ k, ∃ r a n : Nat, t.tile k = { s.tile k with energyRun := r, energyAll := a, energyAt := n })) ∧
  (∀ (s : State) (w : Word), (s.ws 0 w).me = (s.setMe s.me).me ∧ s.rs 0 = 0 ∧
    ∀ (ra rb : BitVec 5), Readable s [ra, rb] → exec (.addOp ⟨0, ra, rb⟩) s = ran (s.setMe s.me))

/-- Each branch sends control to pc + 8 x sext(off15) where its relation holds and leaves the next sheaf alone where it fails; it writes nothing
else (07 R177). `jal` and `jalr` write pc + 8 and send control to their targets, that of `jalr` computed from the value before its own write; a
target of `jalr` that is not a multiple of 8 traps with the instruction-address misalignment cause (07 R177, 21 R432). -/
def Obligations.ControlTransferResults : Prop :=
  (∀ (s : State) (f : CB), Readable s [f.ra, f.rb] →
    let a := s.rs f.ra
    let b := s.rs f.rb
    let go (c : Bool) : State := if c then s.goto (s.me.pc + 8 * f.off.signExtend 64) else s
    exec (.beq f) s = ran (go (a == b)) ∧
    exec (.bne f) s = ran (go (a != b)) ∧
    exec (.blt f) s = ran (go (decide (a.toInt < b.toInt))) ∧
    exec (.bge f) s = ran (go (decide (b.toInt ≤ a.toInt))) ∧
    exec (.bltu f) s = ran (go (decide (a.toNat < b.toNat))) ∧
    exec (.bgeu f) s = ran (go (decide (b.toNat ≤ a.toNat)))) ∧
  (∀ (s : State) (d ra : BitVec 5) (off : BitVec 20) (imm : BitVec 15),
    exec (.jal d off) s = ran ((s.ws d (s.me.pc + 8)).goto (s.me.pc + 8 * off.signExtend 64)) ∧
    (Readable s [ra] →
      let t := s.rs ra + 8 * imm.signExtend 64
      (t &&& 7 = 0 → exec (.jalr ⟨d, ra, imm⟩) s = ran ((s.ws d (s.me.pc + 8)).goto t)) ∧
      (t &&& 7 ≠ 0 → exec (.jalr ⟨d, ra, imm⟩) s = trapped s ⟨6, 0x3001, 0, t, none⟩)))

/-- `loop`: a count of 0 continues past the body; another count pushes a level with the count, the body's first sheaf and its last, and a fifth
level traps (07 R178). The end test of the innermost hardware loop after the sheaf at LEND: the count falls by one, and while it is not 0 the
next sheaf is the body's first (07 R178). -/
def Obligations.HardwareLoopResults : Prop :=
  (∀ (s : State) (f : CB), Readable s [f.ra] →
    let n := BitVec.ofNat 64 f.off.toNat
    (s.rs f.ra = 0 → exec (.loopOp f) s = ran (s.goto (s.me.pc + 8 * (n + 1)))) ∧
    (s.rs f.ra ≠ 0 → s.me.ldep < 4 →
      exec (.loopOp f) s = ran (s.setMe (s.me.pushLoop (s.rs f.ra) (s.me.pc + 8) (s.me.pc + 8 * n)))) ∧
    (s.rs f.ra ≠ 0 → 4 ≤ s.me.ldep → exec (.loopOp f) s = trapped s ⟨6, 0x7002, 0, 0, none⟩)) ∧
  (∀ (c : Ctx) (a : Word) (fuel : Nat), c.creg.wf 0 = true → c.ldep ≠ 0 → c.cr (lend (c.ldep - 1)) = a → c.cr (lcnt (c.ldep - 1)) ≠ 1 →
    let l := c.ldep - 1
    let r := Ctx.loopEnd a (fuel + 1) c
    r.2 = c.cr (lbeg l) ∧ r.1.cr (lcnt l) = c.cr (lcnt l) - 1 ∧ r.1.ldep = c.ldep)

/-- `nop` changes nothing, and `yield` takes the context out of issue for the 16 cycles after its own (07 R182). ENERGY_COUNTER_UPDATE, once 256
cycles have passed since the last, adds one measured amount, which the spec leaves open (log 10), to the tile's counter, and to the running
task's where one runs; the counters then lag by less than 256 cycles (07 R191). The energy account gains P every 3,600 cycles and never more than
its cap of 10,000 x P; a changed limit takes effect at a refill, with an account above the new cap set to it (11 R339, 01 R22). -/
def Obligations.YieldAndEnergyResults : Prop :=
  (∀ s : State,
    exec .nopOp s = ran s ∧
    exec .yield s = ran ((s.setMe { s.me with yieldUntil := s.time + 17 }).post (.yieldExpiry s.cur)) ∧
    (∀ a : Agent,
      (s.time < (s.ctx a).yieldUntil → exec (.yieldExpiry a) s = .next (s.post (.yieldExpiry a))) ∧
      ((s.ctx a).yieldUntil ≤ s.time → exec (.yieldExpiry a) s = .next (s.setCtx a { s.ctx a with yieldUntil := 0 })))) ∧
  (∀ (s : State) (k : Nat), s.tiles.wf {} = true →
    ∃ (t : State) (e : Nat), exec (.energyCounterUpdate k) s = .next t ∧ (t.tile k).energyAll = (s.tile k).energyAll + e ∧
      (t.tile k).energyRun = (s.tile k).energyRun + (if (s.tile k).run.isSome then e else 0) ∧
      (s.time < (s.tile k).energyAt + 256 → t = s.post (.energyCounterUpdate k)) ∧ t.time < (t.tile k).energyAt + 256 ∧
      t.mem = s.mem ∧ t.ctxs = s.ctxs ∧ t.agenda = s.agenda ++ [.energyCounterUpdate k]) ∧
  (∀ s : State,
    (s.time < s.refillAt → exec .energyRefill s = .next (s.post .energyRefill)) ∧
    (s.refillAt ≤ s.time → ∃ t : State, exec .energyRefill s = .next t ∧ t.power = s.limit ∧ t.refillAt = s.refillAt + 3600 ∧
      t.agenda = s.agenda ++ [.energyRefill] ∧ t.ctxs = s.ctxs ∧ t.mem = s.mem ∧
      (s.budget < 10000 * s.limit → t.budget = min (10000 * (s.limit : Int)) (s.budget + s.limit)) ∧
      (s.limit ≠ s.power → t.budget ≤ 10000 * s.limit)))

/-- `brk` and `trap` take a trap with their cause and their code; from task mode with a handler the context enters handler mode at THVEC, with
TPC the sheaf's address, TCAUSE the cause and code, TADDR 0, and memory and the other registers as before (07 R183). -/
def Obligations.RequestedTrapEntersHandler : Prop :=
  ∀ (s : State) (code : BitVec 10), s.ctxs.wf {} = true → s.cur.isAwn = false → s.me.hm = false → s.me.creg.wf 0 = true →
    s.thvec s.cur.tile ≠ 0 →
    ∀ (i : Instr) (n : BitVec 16), (i = .brk code ∧ n = 1) ∨ (i = .trapOp code ∧ n = 2) →
      ∃ t : State, exec i s = .next t ∧
        t.me.pc = s.thvec s.cur.tile ∧ t.me.hm = true ∧
        t.me.cr 4 = s.me.pc &&& ~~~7 ∧ t.me.cr 3 = 0 ∧
        t.me.cr 2 = BitVec.ofNat 64 (code.toNat * 2 ^ 16 + n.toNat) ∧
        t.me.s = s.me.s ∧ t.me.v = s.me.v ∧ t.mem = s.mem

/-- `eret` in handler mode clears HM and continues at TPC; in task mode it traps with the privilege cause; on the awn core it ends the handler
(07 R165, R184, 10 R305). A trap in handler mode, or with THVEC 0, is a task fault: the tile's record takes it and a freeze is asked for; the
context takes no handler entry (07 R183, 20 R423). A failed fetch and a reserved encoding trap the executing agent, with the cause of the check
that failed, or 0x1001 (21 R434, R438). -/
def Obligations.TrapAndReturnResults : Prop :=
  (∀ s : State,
    (s.cur.isAwn = false → s.me.hm = true → exec .eret s = ran { s.setMe (s.me.setHm false) with npc := some (s.me.cr 4 &&& ~~~7) }) ∧
    (s.cur.isAwn = false → s.me.hm = false → exec .eret s = trapped s ⟨4, 0x2001, 0, 0, none⟩) ∧
    (s.cur.isAwn = true → exec .eret s = ran (s.endHandler s.cur.tile))) ∧
  (∀ (s : State) (t : Trap), (s.me.hm = true ∨ s.thvec s.cur.tile = 0) → t.table = none →
    trapped s t = .next { (s.faultTile s.cur.tile s.cur.ctx t s.me.pc).waitOn (.structural .frozen) with fate := .trapped t.step }) ∧
  (∀ (s : State) (code : BitVec 10) (cause : BitVec 16) (a : Word),
    exec (.reservedEncoding code) s = trapped s ⟨3, 0x1001, code, 0, none⟩ ∧
    ((∀ e, s.walk (s.root s.cur) (offset a) = .error e → cause = 0x3005 → e.table = none) →
      exec (.instructionFetchFault cause code a) s = trapped s ⟨2, cause, code, a, none⟩))

/-- `hstart` on context 0 starts the lowest Free helper at s[ra] with s[rb] in its s1, and returns its number, or 0 where none is Free (07 R179).
`hjoin` completes on a Free helper, frees a Done one, waits for another, and traps on a number outside 1 to 10; `hexit` of a helper whose tokens
are drained makes it Done (07 R180). `texit` of context 0 with no helper at work waits for the task's retirement (07 R185, 02 R39). -/
def Obligations.HelperAndTaskExitResults : Prop :=
  (∀ (s : State) (f : CR), s.cur.ctx = 0 → Readable s [f.ra, f.rb] →
    (s.rs f.ra &&& 7 = 0 → s.freeHelper = none → exec (.hstart f) s = ran (s.ws f.rd 0)) ∧
    (∀ h, s.rs f.ra &&& 7 = 0 → s.freeHelper = some h →
      (s.ctx ⟨s.cur.tile, h⟩).st = .free ∧ 1 ≤ h ∧ h ≤ 10 ∧ (∀ g, 1 ≤ g → g < h → (s.ctx ⟨s.cur.tile, g⟩).st ≠ .free) ∧
      ∃ t : State, exec (.hstart f) s = .next t ∧ t.fate = .ran ∧
        t = { (s.setCtx ⟨s.cur.tile, h⟩ ((s.ctx ⟨s.cur.tile, h⟩).startHelper (s.rs f.ra) (s.rs f.rb)
          (recPwsize (s.runRec s.cur.tile)))).ws f.rd (BitVec.ofNat 64 h) with fate := .ran }) ∧
    (s.rs f.ra &&& 7 ≠ 0 → exec (.hstart f) s = trapped s ⟨6, 0x3001, 0, s.rs f.ra, none⟩)) ∧
  (∀ (s : State) (f : CR),
    (s.cur.ctx = 0 → Readable s [f.ra] →
      let h := (s.rs f.ra).toNat
      let a : Agent := ⟨s.cur.tile, h⟩
      (1 ≤ h → h ≤ 10 → (s.ctx a).st = .free → exec (.hjoin f) s = ran s) ∧
      (1 ≤ h → h ≤ 10 → (s.ctx a).st = .done → exec (.hjoin f) s = ran (s.setCtx a { s.ctx a with st := .free })) ∧
      (1 ≤ h → h ≤ 10 → (s.ctx a).st ≠ .free → (s.ctx a).st ≠ .done → exec (.hjoin f) s = waits s (.join h)) ∧
      (h = 0 ∨ 10 < h → exec (.hjoin f) s = trapped s ⟨6, 0x7001, 1, 0, none⟩)) ∧
    (s.cur.isAwn = false → s.cur.ctx ≠ 0 → s.me.undrained = none →
      exec .hexit s = ran ((s.abortTx s.cur 6).setMe { (s.abortTx s.cur 6).me with st := .done }))) ∧
  (∀ s : State, s.cur.ctx = 0 →
    (s.helpersBusy s.cur.tile = true → exec .texit s = waits s .retire) ∧
    (s.helpersBusy s.cur.tile = false → s.ctxs.wf {} = true →
      ∃ t : State, exec .texit s = .next t ∧ t.fate = .ran ∧ t.me.st = .waiting .retire ∧ t.npc = some s.me.pc ∧
        t.agenda = s.agenda ++ [.taskRetirement s.cur.tile]))

/-- `crd` returns a register in the modes that may read it; elsewhere it traps with the privilege cause (07 R165, R168). `cwr` writes a register
in the modes that may write it; no mode writes one of privilege F, which traps but on the awn core, where it has no effect (that clause is the
model's reading, log 28); a bank format outside Table — Legal bank formats traps and changes nothing (07 R166, R168, 21 R437). -/
def Obligations.ControlRegisterResults : Prop :=
  (∀ (s : State) (f : CI),
    let n := f.imm.toNat % 4096
    (privOf n ≠ 2 ∨ s.handler = true → exec (.crd f) s = ran (s.ws f.rd (s.crRead s.cur n))) ∧
    (privOf n = 2 → s.handler = false → exec (.crd f) s = trapped s ⟨4, 0x2001, 0, 0, none⟩)) ∧
  (∀ (s : State) (f : CI), Readable s [f.ra] →
    let n := f.imm.toNat % 4096
    (privOf n = 0 ∨ (privOf n ≤ 2 ∧ s.handler = true) →
      (∀ buf bank, bfmtBank (isV s.cur.tile) n = some (buf, bank) → bfmtLegal (isV s.cur.tile) buf bank (s.rs f.ra) = true) →
      exec (.cwr f) s = ran (s.crWrite s.cur n (s.rs f.ra))) ∧
    (privOf n = 0 → ∀ buf bank, bfmtBank (isV s.cur.tile) n = some (buf, bank) → bfmtLegal (isV s.cur.tile) buf bank (s.rs f.ra) = false →
      exec (.cwr f) s = trapped s ⟨6, 0x7004, 1, 0, none⟩) ∧
    (s.cur.isAwn = false → privOf n = 3 ∨ (privOf n ≠ 0 ∧ s.handler = false) → exec (.cwr f) s = trapped s ⟨4, 0x2001, 0, 0, none⟩) ∧
    (s.cur.isAwn = true → privOf n = 3 → exec (.cwr f) s = ran s))

/-- The register-write events: the registers change as `cwr` changes them; a TLBINV takes the entries it names out of every TLB, and its writer
waits while a held write or a page-in that used one is to complete (03 R66, R86, R89; 07 R167; 20 R424; 22 R449, R454). `ctxrd` and `ctxwr` in
handler mode read and write another context's register, the target of `ctxwr` being Held or Done; in task mode they trap; `erd` reads an energy
counter (07 R165, R191, R192). -/
def Obligations.RegisterEventAndContextResults : Prop :=
  (∀ (s : State) (a : Agent) (n : BitVec 12) (v : Word),
    (let hit (e : TlbEnt) : Bool := e.asid == bits v 63 48 &&
       (bits v 44 0 == 2 ^ 45 - 1 || e.vpn * 4096 / e.leaf.size == bits v 44 0 * 4096 / e.leaf.size)
     let u : State := { s.cutKept v with tlb := (s.tlb.map (fun e => (e.1, e.2.filter (fun x => !hit x)))).filter (fun e => !e.2.isEmpty) }
     let busy : Bool := u.heldReqs.any (fun h => h.cut && (h.tr.map (·.1)) == some (bits v 63 48)) ||
       u.tiles.any (fun e => e.2.pageIns.any (fun p => p.cut && (p.tr.map (·.1)) == some (bits v 63 48)))
     (busy = false ∨ (s.ctx a).st ≠ .ready → exec (.tlbinvWrite a v) s = .next u) ∧
     (busy = true → (s.ctx a).st = .ready → exec (.tlbinvWrite a v) s = .next ((u.setCtx a { s.ctx a with
       st := .waiting (.structural (.tlbinv (bits v 63 48))) }).post (.contextWaitClear a)))) ∧
    exec (.ctxholdWrite a v) s = .next (s.writeHold a v) ∧
    exec (.ctxrelWrite a v) s = .next (s.writeRel a v) ∧
    (∀ buf bank, bfmtBank (isV a.tile) n.toNat = some (buf, bank) → cregIsCtx n.toNat = false →
      exec (.bfmtWrite a n v) s = .next (if bfmtLegal (isV a.tile) buf bank v then s.writeBfmt a.tile buf bank v else s)) ∧
    (∀ t, s.fselTile (dieOf a.tile) = some t → exec (.frec0ValidClear a) s =
      .next (s.setTile t { s.tile t with frec0 := 0, frec1 := 0, frec2 := 0, frec3 := 0, frecTime := 0 })) ∧
    exec (.efaultValidClear a) s = .next (s.setCtx a (((s.ctx a).setCr 6 0).setCr 7 0)) ∧
    exec (.drlovfClear a) s = .next (s.setDie (dieOf a.tile) { (s.die (dieOf a.tile)).setCr 0x206 0 with drlFail := false }) ∧
    (n ≠ 0x200 → exec (.controlRegisterWrite a n v) s = .next (s.crWrite a n.toNat v)) ∧
    exec (.controlRegisterWrite a 0x200 v) s =
      .next (s.setDie (dieOf a.tile) ((s.die (dieOf a.tile)).setCr 0x200 (v &&& 0xFFFF)))) ∧
  (∀ (s : State) (f : EX), Readable s [f.ra] →
    let n := (s.rs f.ra).toNat
    let c := s.ctx ⟨s.cur.tile, n⟩
    let v := s.rs f.rc
    (s.handler = true → n ≤ 10 → exec (.ctxrd f) s = ran (s.ws f.rc (c.peek (ctxCls f) (ctxNum f)))) ∧
    (s.handler = true → 10 < n → exec (.ctxrd f) s = trapped s ⟨6, 0x7001, 1, 0, none⟩) ∧
    (s.handler = false → exec (.ctxrd f) s = trapped s ⟨4, 0x2001, 0, 0, none⟩ ∧ exec (.ctxwr f) s = trapped s ⟨4, 0x2001, 0, 0, none⟩) ∧
    (Readable s [f.rc] → s.handler = true → n ≤ 10 → (c.st = .done ∨ ∃ w, c.st = .held w) → (ctxCls f = 3 → v.toNat ≤ 63) → (ctxCls f = 5 → v &&& 7 = 0) →
      exec (.ctxwr f) s = ran (s.setCtx ⟨s.cur.tile, n⟩ (c.poke (ctxCls f) (ctxNum f) v))) ∧
    (Readable s [f.rc] → s.handler = true → n ≤ 10 → (c.st = .free ∨ c.st = .ready ∨ ∃ w, c.st = .waiting w) → exec (.ctxwr f) s = trapped s ⟨6, 0x2003, BitVec.ofNat 10 n, 0, none⟩) ∧
    (let u := if parF f.par 3 0 < 2 then s.updateEnergy s.cur.tile else s
     exec (.erd f) s = ran (u.ws f.rc (match parF f.par 3 0 with
       | 0 => BitVec.ofNat 64 (u.tile s.cur.tile).energyRun
       | 1 => BitVec.ofNat 64 (u.tile s.cur.tile).energyAll
       | 2 => BitVec.ofNat 64 (recEest (s.runRec s.cur.tile))
       | 3 => BitVec.ofInt 64 s.budget
       | _ => BitVec.ofNat 64 s.limit))))

/-- The scalar loads: pair forms of every size, the lone form with its ordering, the snapshot form at the stamp its source names (08 R200, R209).
A loaded value is sign-extended by the even size codes and zero-extended by the odd ones (08 R200). The scalar stores: pair forms of every size,
the lone form with its ordering, the full-empty form (08 R200, R206). -/
def Obligations.ScalarAccessResults : Prop :=
  (∀ s : State,
    (∀ f : CM, TokensFree s f.kw f.kp → Readable s [f.ra] →
      LoadsScalar s (.ldB f) (s.view s.cur) 0 0 0 f.kw f.rd (s.rs f.ra + f.off.signExtend 64) ∧
      LoadsScalar s (.ldBu f) (s.view s.cur) 1 0 0 f.kw f.rd (s.rs f.ra + f.off.signExtend 64) ∧
      LoadsScalar s (.ldH f) (s.view s.cur) 2 0 0 f.kw f.rd (s.rs f.ra + f.off.signExtend 64 * 2) ∧
      LoadsScalar s (.ldHu f) (s.view s.cur) 3 0 0 f.kw f.rd (s.rs f.ra + f.off.signExtend 64 * 2) ∧
      LoadsScalar s (.ldW f) (s.view s.cur) 4 0 0 f.kw f.rd (s.rs f.ra + f.off.signExtend 64 * 4) ∧
      LoadsScalar s (.ldWu f) (s.view s.cur) 5 0 0 f.kw f.rd (s.rs f.ra + f.off.signExtend 64 * 4) ∧
      LoadsScalar s (.ldD f) (s.view s.cur) 6 0 0 f.kw f.rd (s.rs f.ra + f.off.signExtend 64 * 8)) ∧
    (∀ f : LM, TokensFree s f.kw f.kp → Readable s [f.ra] →
      LoadsScalar s (.ldO f) (s.view s.cur) f.size.toNat f.ord.toNat f.scope.toNat f.kw f.rd (s.rs f.ra + f.off.signExtend 64)) ∧
    (∀ f : MX, TokensFree s f.kw f.kp → Readable s [f.ra, f.rb] →
      LoadsScalar s (.ldSnap f) (.at (s.rs f.rb).toInt) f.size.toNat f.ord.toNat f.scope.toNat f.kw f.rc (s.rs f.ra + f.off.signExtend 64))) ∧
  (∀ x : Nat,
    (x < 2 ^ 8 → shape 0 x = (BitVec.ofNat 8 x).signExtend 64 ∧ shape 1 x = (BitVec.ofNat 8 x).setWidth 64) ∧
    (x < 2 ^ 16 → shape 2 x = (BitVec.ofNat 16 x).signExtend 64 ∧ shape 3 x = (BitVec.ofNat 16 x).setWidth 64) ∧
    (x < 2 ^ 32 → shape 4 x = (BitVec.ofNat 32 x).signExtend 64 ∧ shape 5 x = (BitVec.ofNat 32 x).setWidth 64) ∧
    (x < 2 ^ 64 → shape 6 x = BitVec.ofNat 64 x)) ∧
  (∀ s : State,
    (∀ f : CM, TokensFree s f.kw f.kp → Readable s [f.ra, f.rd] →
      StoresScalar s (.stB f) false 0 0 0 f.kw f.rd (s.rs f.ra + f.off.signExtend 64) ∧
      StoresScalar s (.stH f) false 2 0 0 f.kw f.rd (s.rs f.ra + f.off.signExtend 64 * 2) ∧
      StoresScalar s (.stW f) false 4 0 0 f.kw f.rd (s.rs f.ra + f.off.signExtend 64 * 4) ∧
      StoresScalar s (.stD f) false 6 0 0 f.kw f.rd (s.rs f.ra + f.off.signExtend 64 * 8)) ∧
    (∀ f : LM, TokensFree s f.kw f.kp → Readable s [f.ra, f.rd] →
      StoresScalar s (.stO f) false f.size.toNat f.ord.toNat f.scope.toNat f.kw f.rd (s.rs f.ra + f.off.signExtend 64)) ∧
    (∀ f : MX, TokensFree s f.kw f.kp → Readable s [f.ra, f.rc] →
      StoresScalar s (.stFe f) true f.size.toNat f.ord.toNat f.scope.toNat f.kw f.rc (s.rs f.ra + f.off.signExtend 64)))

/-- A misaligned scalar or vector access, or atomic, traps with cause 0x3002 and the base-2 logarithm of its alignment, before any other test of
its address (08 R196, 21 R432, R434). -/
def Obligations.MisalignedAccessTraps : Prop :=
  ∀ (s : State) (a : Word),
    (∀ f : CM, TokensFree s f.kw f.kp → Readable s [f.ra, f.rd] →
      ((s.rs f.ra + f.off.signExtend 64 * 2).toNat % 2 ≠ 0 →
        exec (.ldH f) s = trapped s ⟨7, 0x3002, 1, s.rs f.ra + f.off.signExtend 64 * 2, none⟩ ∧
        exec (.stH f) s = trapped s ⟨7, 0x3002, 1, s.rs f.ra + f.off.signExtend 64 * 2, none⟩) ∧
      ((s.rs f.ra + f.off.signExtend 64 * 4).toNat % 4 ≠ 0 →
        exec (.ldW f) s = trapped s ⟨7, 0x3002, 2, s.rs f.ra + f.off.signExtend 64 * 4, none⟩ ∧
        exec (.stW f) s = trapped s ⟨7, 0x3002, 2, s.rs f.ra + f.off.signExtend 64 * 4, none⟩) ∧
      ((s.rs f.ra + f.off.signExtend 64 * 8).toNat % 8 ≠ 0 →
        exec (.ldD f) s = trapped s ⟨7, 0x3002, 3, s.rs f.ra + f.off.signExtend 64 * 8, none⟩ ∧
        exec (.stD f) s = trapped s ⟨7, 0x3002, 3, s.rs f.ra + f.off.signExtend 64 * 8, none⟩)) ∧
    (∀ f : CR, Readable s [f.ra, f.rb] → s.rs f.ra = a → a.toNat % 8 ≠ 0 → exec (.amoAdd f) s = trapped s ⟨7, 0x3002, 3, a, none⟩)

/-- A byte range of a 32-byte line of global memory, on a page of this package without versions that the agent may read, is served with the bytes
of memory and their line's poison, but for the granules of 16 bytes whose newest write the access's path does not see yet, which show what they
held before it (04 R97): on a non-cacheable page always, else where a pointer of the line's home is free and the die's L2 holds no copy of
another die's line; the contexts and tiles are as before, and memory unless a full L2 set lets a copy go (03 R81, R82; 04 R102, R107; 08 R196).
The access is one that starts: a context that has performed pieces of an op goes on from there. A byte range of a 32-byte line of a resident
scratchpad page is served with the page's bytes and poison, but for the granules whose newest write the access's path does not see yet, which
show what they held before it (03 R58, R59, R64; 04 R97; 08 R196). -/
def Obligations.LoadsReadAddressedBytes : Prop :=
  (∀ (s : State) (v : View) (pod : Bool) (a : Word) (n : Nat) (l : Leaf), s.ctxs.wf {} = true → s.me.prog = [] → windowOf a = some 4 → 0 < n →
    a.toNat % 32 + n ≤ 32 →
    s.translate (.data s.cur.tile) (s.root s.cur) (offset a) = .ok l → l.refuse 1 s.handler = none → l.isRem = false → l.ver = false →
    s.heldReqs.any (fun h => h.req.agent == s.cur && h.req.pa / 32 == l.pa (offset a) / 32) = false →
    let pa := l.pa (offset a)
    (l.nc = true ∨ ((s.dir (pa / 32)).ptrs.length < 4 ∧ (dieOf s.cur.tile = homeDie pa ∨ s.rem.find (dieOf s.cur.tile * 2 ^ 60 + pa / 32) = none))) →
    ∃ t bs, loadPieces s v 1 false pod [(a, n)] a = .ok (t, bs) ∧ bs.length = n ∧
      (∀ i, i < n → bs[i]? = some (match s.unseen.find ((pa + i) / 16) with
        | some e => if e.seen.contains s.path then (s.memByte (pa + i), s.linePois pa)
          else (e.old[(pa + i) % 16]?).getD (s.memByte (pa + i), s.linePois pa)
        | none => (s.memByte (pa + i), s.linePois pa))) ∧
      ((l.nc = true ∨ dieOf s.cur.tile = homeDie pa) → t.mem = s.mem) ∧ (∀ b : Agent, t.ctx b = s.ctx b) ∧ t.tiles = s.tiles) ∧
  (∀ (s : State) (v : View) (pod : Bool) (a : Word) (n win : Nat), s.ctxs.wf {} = true → s.me.prog = [] → windowOf a = some win → win < 3 → 0 < n →
    a.toNat % 32 + n ≤ 32 →
    offset a + n ≤ windowPages (isV s.cur.tile) win * 2048 → (s.tile s.cur.tile).run.isSome →
    loc ((s.tile s.cur.tile).spte (pkey win (offset a / 2048))) = 1 →
    let x := s.tile s.cur.tile
    let key := pkey win (offset a / 2048)
    let o := offset a % 2048
    ∃ t bs, loadPieces s v 1 false pod [(a, n)] a = .ok (t, bs) ∧ bs.length = n ∧
      (∀ i, i < n → ∀ now, ((x.page key).read o n)[i]? = some now → bs[i]? = some (match x.unseen.find ((key * 2048 + o + i) / 16) with
        | some e => if e.seen.contains s.path then now else (e.old[(key * 2048 + o + i) % 16]?).getD now
        | none => now)) ∧
      t.mem = s.mem ∧ ∀ b : Agent, t.ctx b = s.ctx b)

/-- A store within a 32-byte line of global memory, on a page of this package without versions that the agent may write and with neither an
overflow nor a commit pending at the line's home: the bytes stored are in memory at their physical address, and every other byte reads as before
(03 R81, R82; 04 R102; 08 R196). -/
def Obligations.GlobalStoreWritesMemory : Prop :=
  ∀ (s : State) (kw : BitVec 3) (a : Word) (bs : List (Byte × Bool)) (l : Leaf), Memory.wf s.mem = true → s.ctxs.wf {} = true →
    s.me.prog = [] → windowOf a = some 4 → bs ≠ [] → a.toNat % 32 + bs.length ≤ 32 →
    s.translate (.data s.cur.tile) (s.root s.cur) (offset a) = .ok l → l.refuse 2 s.handler = none → l.isRem = false → l.ver = false →
    (s.dir (l.pa (offset a) / 32)).ovf = false → s.reserved.find (l.pa (offset a) / 32) = none →
    ∃ t, Stores s false kw [(a, bs.length)] [] a bs [] t ∧
      (∀ b, t.memByte b = if l.pa (offset a) ≤ b ∧ b < l.pa (offset a) + bs.length then ((bs[b - l.pa (offset a)]?).getD (0, false)).1
        else s.memByte b) ∧
      t.me.s = s.me.s ∧ t.me.creg = s.me.creg ∧ t.tiles = s.tiles ∧ (∀ b : Agent, akey b ≠ akey s.cur → t.ctx b = s.ctx b)

/-- The vector loads and stores: pair, lone and snapshot forms, and the full-empty store (08 R201, R202, R206, R209). The strided and indexed
accesses: 64 lanes of 4 bytes, each at its own address, loads leaving the destination outstanding, stores written in ascending order of lane (08
R203 to R205). -/
def Obligations.VectorAccessResults : Prop :=
  (∀ s : State, s.cur.isAwn = false →
    (∀ f : CM, TokensFree s f.kw f.kp → Readable s [f.ra] →
      ((s.src.bind f.rd.toNat).bound = false → LoadsVector s (.vld f) (s.view s.cur) 0 0 f.kw f.rd (s.rs f.ra + f.off.signExtend 64 * 256)) ∧
      StoresVector s (.vst f) false 0 0 f.kw f.rd (s.rs f.ra + f.off.signExtend 64 * 256)) ∧
    (∀ f : LM, TokensFree s f.kw f.kp → Readable s [f.ra] →
      ((s.src.bind f.rd.toNat).bound = false →
        LoadsVector s (.vldO f) (s.view s.cur) f.ord.toNat f.scope.toNat f.kw f.rd (s.rs f.ra + f.off.signExtend 64)) ∧
      StoresVector s (.vstO f) false f.ord.toNat f.scope.toNat f.kw f.rd (s.rs f.ra + f.off.signExtend 64)) ∧
    (∀ f : MX, TokensFree s f.kw f.kp → Readable s [f.ra, f.rb] →
      ((s.src.bind f.rc.toNat).bound = false →
        LoadsVector s (.vldSnap f) (.at (s.rs f.rb).toInt) f.ord.toNat f.scope.toNat f.kw f.rc (s.rs f.ra + f.off.signExtend 64))) ∧
    (∀ f : MX, TokensFree s f.kw f.kp → Readable s [f.ra] →
      StoresVector s (.vstFe f) true f.ord.toNat f.scope.toNat f.kw f.rc (s.rs f.ra + f.off.signExtend 64))) ∧
  (∀ (s : State) (f : MX), s.cur.isAwn = false → TokensFree s f.kw f.kp → Readable s [f.ra] →
    let ord := f.ord.toNat
    let scope := f.scope.toNat
    let loads (i : Instr) (u : State) (as : List Word) : Prop :=
      ∀ pl t bs, as.mapM (checkLane u (u.view u.cur) 1) = .ok pl →
        loadChecked u (u.view u.cur) (podRead ord scope) none ((as.map (fun a => (a, 4))).zip pl) = .ok (t, bs) →
        exec i s = ran ((acquire t ord scope).issuePost 0 f.kw (vectorDst f.rc (fun j => (as[j]?).getD 0) bs))
    let stores (i : Instr) (u : State) (as : List Word) : Prop :=
      ∀ pl s1 t, as.mapM (checkLane u .now 2) = .ok pl → stripsOk u [f.rc] = .ok () → release u ord scope = .ok s1 →
        StoresPlaces s1 false f.kw [] ((as.map (fun a => (a, 4))).zip pl) [] none (vBytes (s1.rv f.rc)) [] t → exec i s = ran t
    (Readable s [f.rb] → (s.src.bind f.rc.toNat).bound = false →
      loads (.vlds f) s ((List.range 64).map (fun j => s.rs f.ra + f.off.signExtend 64 + BitVec.ofNat 64 j * s.rs f.rb))) ∧
    (Readable s [f.rb] → ∀ u, useV s [f.rc] = .ok u →
      stores (.vsts f) u ((List.range 64).map (fun j => u.rs f.ra + f.off.signExtend 64 + BitVec.ofNat 64 j * u.rs f.rb))) ∧
    (∀ u, useV s [f.rb] = .ok u → (u.src.bind f.rc.toNat).bound = false → stripsOk u [f.rb] = .ok () →
      loads (.vldx f) u ((List.range 64).map (fun j => u.rs f.ra + f.off.signExtend 64 + (lane (u.rv f.rb) j).signExtend 64))) ∧
    (∀ u, useV s [f.rc, f.rb] = .ok u → stripsOk u [f.rb] = .ok () →
      stores (.vstx f) u ((List.range 64).map (fun j => u.rs f.ra + f.off.signExtend 64 + (lane (u.rv f.rb) j).signExtend 64))))

/-- The full-empty loads, with and without the clear qualifier, take the full granules of their range and write their destination as they take
effect on the last: a scalar one its register, extended as its size says, a vector one 64 raw lanes or the elements that a grouped bank's format
decodes by the scale records found at that moment (08 R202, R206, R207; 03 R67). A full-empty load of one granule that is not full waits on it,
and takes nothing (08 R207, 02 R32). -/
def Obligations.FullEmptyResults : Prop :=
  (∀ (s : State) (f : MX), TokensFree s f.kw f.kp → Readable s [f.ra] →
    let a := s.rs f.ra + f.off.signExtend 64
    let size := f.size.toNat
    let r (clr : Bool) (n size : Nat) : FeRead := {
      clr := clr, win := (windowOf a).getD 0, off := offset a, len := n, addr := a, rc := f.rc.toNat, size := size, ord := f.ord.toNat,
      scope := f.scope.toNat }
    LoadsFullEmpty s (.ldFe f) (r false (sizeBytes size) size) (sizeBytes size) (sizeBytes size) ∧
    LoadsFullEmpty s (.ldFeClr f) (r true (sizeBytes size) size) (sizeBytes size) (sizeBytes size) ∧
    (s.cur.isAwn = false → (s.src.bind f.rc.toNat).bound = false →
      (s.decodeAt s.cur.tile a = none →
        LoadsFullEmpty s (.vldFe f) (r false 256 7) 256 16 ∧ LoadsFullEmpty s (.vldFeClr f) (r true 256 7) 256 16) ∧
      (∀ d, s.decodeAt s.cur.tile a = some d →
        DecodesFullEmpty s (.vldFe f) (r false d.len 7) d ∧ DecodesFullEmpty s (.vldFeClr f) (r true d.len 7) d)) ∧
    (∀ (u : State) (q : FeRead),
      let bs := u.me.taken q.win q.off q.len
      let v := acquire (u.setMe (u.me.dropTaken q.win q.off q.len)) q.ord q.scope
      (q.size < 7 → u.feLand q = v.setMe (v.me.putDst (.s q.rc (shape q.size (leNat (bs.map (·.1)))) (keptS q.addr bs)))) ∧
      (q.size = 7 → q.dec = false → u.feLand q = v.setMe (v.me.putDst (.v q.rc (BitVec.ofNat 2048 (leNat (bs.map (·.1))))
        (poisLanes ((List.range 64).map (fun j => ((bs.drop (4 * j)).take 4).any (·.2))) (fun j => q.addr + BitVec.ofNat 64 (4 * j)))))) ∧
      (q.size = 7 → q.dec = true → ∀ d, v.decodeAt v.cur.tile q.addr = some d → d.len = q.len →
        let l := d.load (isV v.cur.tile) bs (((v.tile v.cur.tile).seenBy v.path).spRead d.win d.recOff d.recLen) v.rm
        let w := v.countV (l.map (·.2.2))
        u.feLand q = w.setMe (w.me.putDst (.v q.rc (vOfLanes (fun j => BitVec.ofNat 32 ((l[j]?).getD (0, false, none)).1))
          (poisLanes (l.map (·.2.1)) (fun j => q.addr + BitVec.ofNat 64 (j * tyWidth (fmtTy d.fmt) / 8)))))))) ∧
  (∀ (s : State) (f : MX) (win : Nat) (pl : List Place), TokensFree s f.kw f.kp → Readable s [f.ra] → f.size.toNat = 6 → s.tiles.wf {} = true →
    let a := s.rs f.ra + f.off.signExtend 64
    a.toNat % 8 = 0 → windowOf a = some win → checkAll s s.who 1 true (cut a 8) = .ok pl → reside s s.cur.tile pl a = .ok () →
    (s.tile s.cur.tile).granFull win (offset a / 16 * 16) = false → s.me.feTaken.find (granKey win (offset a / 16 * 16)) = none →
    let t := s.setTile s.cur.tile ((s.tile s.cur.tile).touch (pkey win (offset a / 2048)))
    let r (clr : Bool) : FeRead := {
      clr := clr, win := win, off := offset a, len := 8, addr := a, rc := f.rc.toNat, size := 6, ord := f.ord.toNat, scope := f.scope.toNat }
    exec (.ldFe f) s = waits t (.fullEmpty (r false)) ∧ exec (.ldFeClr f) s = waits t (.fullEmpty (r true)))

/-- The pair-form atomics on 64 bits, each with its function of Table — Atomic functions, and compare and swap (08 R213, R214). The lone-form
atomics on 4 or 8 bytes, and the floating-point ones on 4 (08 R213, R215, R216). The vector atomics, by function code (08 R217). -/
def Obligations.AtomicResults : Prop :=
  (∀ (s : State) (f : CR), Readable s [f.ra, f.rb] →
    let b := (s.rs f.rb).toNat
    PairAtomic s (.amoAdd f) f (fun x => (x + b) % 2 ^ 64) ∧
    PairAtomic s (.amoAnd f) f (fun x => x &&& b) ∧
    PairAtomic s (.amoOr f) f (fun x => x ||| b) ∧
    PairAtomic s (.amoXor f) f (fun x => x ^^^ b) ∧
    PairAtomic s (.amoMin f) f (fun x => if signedOf 64 x ≤ signedOf 64 b then x else b) ∧
    PairAtomic s (.amoMax f) f (fun x => if signedOf 64 x ≤ signedOf 64 b then b else x) ∧
    PairAtomic s (.amoMinu f) f (fun x => min x b) ∧
    PairAtomic s (.amoMaxu f) f (fun x => max x b) ∧
    PairAtomic s (.amoSwap f) f (fun _ => b) ∧
    (Readable s [f.rd] → PairAtomic s (.amocas f) f (fun x => if x = (s.rs f.rd).toNat then b else x))) ∧
  (∀ (s : State) (f : MX), TokensFree s f.kw f.kp → Readable s [f.ra, f.rb] →
    let sz := f.size.toNat
    let n := sizeBytes sz
    let w := 8 * n
    let b := (s.rs f.rb).toNat % 2 ^ w
    LoneAtomic s (.amoSAdd f) f n sz (fun x => (x + b) % 2 ^ w) ∧
    LoneAtomic s (.amoSAnd f) f n sz (fun x => x &&& b) ∧
    LoneAtomic s (.amoSOr f) f n sz (fun x => x ||| b) ∧
    LoneAtomic s (.amoSXor f) f n sz (fun x => x ^^^ b) ∧
    LoneAtomic s (.amoSMin f) f n sz (fun x => if signedOf w x ≤ signedOf w b then x else b) ∧
    LoneAtomic s (.amoSMax f) f n sz (fun x => if signedOf w x ≤ signedOf w b then b else x) ∧
    LoneAtomic s (.amoSMinu f) f n sz (fun x => min x b) ∧
    LoneAtomic s (.amoSMaxu f) f n sz (fun x => max x b) ∧
    LoneAtomic s (.amoSSwap f) f n sz (fun _ => b) ∧
    (Readable s [f.rc] → LoneAtomic s (.amocasS f) f n sz (fun x => if x = (s.rs f.rc).toNat % 2 ^ w then b else x)) ∧
    LoneAtomic s (.famoAddF32 f) f 4 5 (famoF32 ((s.rs f.rb).toNat % 2 ^ 32)) ∧
    LoneAtomic s (.famoAddBf16x2 f) f 4 5 (famoBf16 ((s.rs f.rb).toNat % 2 ^ 32))) ∧
  (∀ (s : State) (f : MX), s.cur.isAwn = false → TokensFree s f.kw f.kp → Readable s [f.ra] →
    VectorAtomic s (.vamoAdd f) f 0 ∧ VectorAtomic s (.vamoAnd f) f 1 ∧ VectorAtomic s (.vamoOr f) f 2 ∧ VectorAtomic s (.vamoXor f) f 3 ∧
    VectorAtomic s (.vamoMin f) f 4 ∧ VectorAtomic s (.vamoMax f) f 5 ∧ VectorAtomic s (.vamoMinu f) f 6 ∧ VectorAtomic s (.vamoMaxu f) f 7 ∧
    VectorAtomic s (.vamoSwap f) f 8)

/-- An atomic on n bytes of global memory of this package, on a page without versions: the location holds the function of its old value, which is
answered, and every other byte of memory reads as before (04 R106, 08 R213). -/
def Obligations.GlobalAtomicUpdatesMemory : Prop :=
  ∀ (s : State) (a : Word) (n : Nat) (fn : Nat → Nat) (l : Leaf), Memory.wf s.mem = true → windowOf a = some 4 → 0 < n → n ∣ 32 → a.toNat % n = 0 →
    s.translate (.data s.cur.tile) (s.root s.cur) (offset a) = .ok l → l.refuse 8 s.handler = none → l.isRem = false → l.ver = false →
    localPa (l.pa (offset a)) = true → (s.dir (l.pa (offset a) / 32)).ovf = false → s.reserved.find (l.pa (offset a) / 32) = none → s.heldReqs = [] →
    ∃ p t, checkAtomic s a n = .ok p ∧ reside s s.cur.tile [p] a = .ok () ∧ s.homeBusy p = false ∧
      atomicAt s n p fn = (t, leNat (s.memRead (l.pa (offset a)) n), s.linePois (l.pa (offset a))) ∧
      t.memRead (l.pa (offset a)) n = leBytes n (fn (leNat (s.memRead (l.pa (offset a)) n))) ∧
      ∀ b, (b < l.pa (offset a) ∨ l.pa (offset a) + n ≤ b) → t.memByte b = s.memByte b

/-- A load, store or packet op that has reached its completion point writes its destination and gives its token back; a result that a later sheaf
waits for is written unless a younger op's has taken its place, and a value loaded later takes the place of an older op's result (04 R94, R95; 06
R147, R148). A write or an atomic that reaches its line's home is performed in memory and the line's sharers are invalidated; with OVF set, or
while a commit holds the line, it is held; a read notes its sharer; a fifth sharer sets OVF, and the overflow handler's report invalidates the
sharers, clears OVF and performs what was held, a refusal giving back the sharer last posted; a handler that has failed does neither and is
reported once (04 R102, R103, R106 to R108, R121; 22 R459). -/
def Obligations.CompletionAndHomeResults : Prop :=
  (∀ (s : State) (id : Nat) (o : Op), s.ops.find id = some o → o.need = 0 → (o.path = 0 ∨ o.path = 4) →
    let c := s.ctx o.agent
    let d : Ctx := match o.dst with
      | .late r v => if c.pend.contains (r, id) then c.putS r v else c
      | .s r v p => { c.putDst (.s r v p) with pend := c.pend.filter (fun q => q.1 != r || decide (id < q.2)) }
      | x => { c.putDst x with pend := c.pend }
    exec (.operationCompletion id) s =
      .next { s.setCtx o.agent (if o.kw = 0 then d else { d with k := d.k.set 0 o.kw (d.k.get 0 o.kw - 1) }) with ops := s.ops.del id }) ∧
  (∀ (s : State) (r : MemReq),
    let d := dieOf r.agent.tile
    let w := 8 * r.len
    let old := leNat (s.memRead r.pa r.len)
    let b := r.operand.toNat % 2 ^ w
    let new := if r.op = 9 then (if old = r.expected.toNat % 2 ^ w then b else old) else amoFn r.op w old b
    let shut : Prop := (s.dir (r.pa / 32)).ovf = true ∨ (s.reserved.find (r.pa / 32)).isSome = true
    (r.kind = 0 → r.pa < 2 ^ 40 → r.data ≠ [] → r.pa % 32 + r.data.length ≤ 32 → ¬ shut → exec (.memoryRequestArrival r) s =
      .next ((if r.ver then s.stampLine (r.pa / 32) (max s.time ((s.ver (r.pa / 32)).stamp + 1)) else s).hideMem none r.pa r.data.length
        |>.lineWrite r.pa r.data r.poisoned
        |>.invalidateSharers d r.pa)) ∧
    (r.kind = 1 → r.pa < 2 ^ 40 → 0 < r.len → r.pa % 32 + r.len ≤ 32 → ¬ shut → exec (.memoryRequestArrival r) s =
      .next ((if r.ver then s.stampLine (r.pa / 32) (max s.time ((s.ver (r.pa / 32)).stamp + 1)) else s).hideMem none r.pa r.len
        |>.lineWrite r.pa (leBytes r.len new) false
        |>.invalidateSharers d r.pa)) ∧
    (r.kind ≤ 1 → r.pa < 2 ^ 40 → 0 < (if r.kind = 0 then r.data.length else r.len) → r.pa % 32 + (if r.kind = 0 then r.data.length else r.len) ≤ 32 →
      shut → exec (.memoryRequestArrival r) s = .next (s.holdReq r none)) ∧
    (r.kind = 2 → r.pa < 2 ^ 40 → (s.dir (r.pa / 32)).ptrs.contains r.sharer = false → (s.dir (r.pa / 32)).table.contains r.sharer = false →
      (s.dir (r.pa / 32)).ptrs.length < 4 → exec (.memoryRequestArrival r) s = .next (s.setDir (r.pa / 32) { s.dir (r.pa / 32) with
        home := r.home, ptrs := (s.dir (r.pa / 32)).ptrs ++ [r.sharer] })) ∧
    (r.kind = 2 → r.pa < 2 ^ 40 →
      ((s.dir (r.pa / 32)).ptrs.contains r.sharer = true ∨ (s.dir (r.pa / 32)).table.contains r.sharer = true →
        exec (.memoryRequestArrival r) s = .next s) ∧
      ((s.dir (r.pa / 32)).ptrs.contains r.sharer = false → (s.dir (r.pa / 32)).table.contains r.sharer = false → 4 ≤ (s.dir (r.pa / 32)).ptrs.length →
        exec (.memoryRequestArrival r) s = .next (if s.agenda.contains (.directoryOverflow (r.pa / 32) r.sharer) then s
          else s.post (.directoryOverflow (r.pa / 32) r.sharer)))) ∧
    (s.dirs.wf {} = true → (s.invalidateSharers d r.pa).dir (r.pa / 32) = {} ∧ (s.invalidateSharers d r.pa).mem = s.mem) ∧
    (∀ line sharer, (s.dir line).ptrs.length = 4 → (s.dir line).ptrs.contains sharer = false → (s.dir line).table.contains sharer = false →
      s.handlerFailed (s.dir line).home line = false →
      exec (.directoryOverflow line sharer) s = .next (s.setDir line { s.dir line with ovf := true, table := (s.dir line).table ++ [sharer] })) ∧
    (∀ line sharer, (s.dir line).ptrs.contains sharer = true ∨ (s.dir line).table.contains sharer = true →
      exec (.directoryOverflow line sharer) s = .next s) ∧
    (∀ line sharer, (s.dir line).ptrs.length = 4 → (s.dir line).ptrs.contains sharer = false → (s.dir line).table.contains sharer = false →
      s.handlerFailed (s.dir line).home line = true → exec (.directoryOverflow line sharer) s = .next (s.reportHandler (s.dir line).home)) ∧
    (∀ line refuse, ((s.dir line).ovf = false → exec (.overflowHandlerReport line refuse) s = .next s) ∧
      ((s.dir line).ovf = true → s.handlerFailed (s.dir line).home line = true →
        exec (.overflowHandlerReport line refuse) s = .next (s.reportHandler (s.dir line).home))) ∧
    (∀ line, (s.dir line).ovf = true → s.handlerFailed (s.dir line).home line = false →
      exec (.overflowHandlerReport line true) s = .next (s.setDir line { s.dir line with table := (s.dir line).table.dropLast }) ∧
      exec (.overflowHandlerReport line false) s =
        .next (((s.invalidateSharers (homeDie (line * 32)) (line * 32)).crossAll (homeDie (line * 32))).performHeld line)))

/-- Prefetch and the cache operations: a prefetch that fails its checks, or names no global memory, is dropped, with the record of a poisoned
table line that ended its walk; the instruction-cache form drops the met lines, the port form closes the context's store stream port (08 R210 to
R212, 22 R448). `tkwait` and `fence` complete once nothing they name is outstanding, and wait before that; at package scope every other die has
then applied the invalidations that the executing die knows of, and at pod scope the die's dirty remote bytes are with their owners and its clean
remote lines gone; from then on the reads of every path of the mask see the writes that the context made on a path of it (04 R95, R97, R98, R105,
R110, R111; 08 R219, R220). -/
def Obligations.CacheAndFenceResults : Prop :=
  (∀ s : State,
    (∀ f : LM, TokensFree s f.kw f.kp → Readable s [f.ra] →
      (∀ p, checkPiece s s.who (s.rs f.ra + f.off.signExtend 64) 1 1 false = .ok p → (∀ va l, p ≠ .glob va l) →
        exec (.pref f) s = ran (s.issuePost s.path f.kw .none)) ∧
      (∀ t, checkPiece s s.who (s.rs f.ra + f.off.signExtend 64) 1 1 false = .error (.trap t) →
        exec (.pref f) s = ran ((s.reportTable t).issuePost (s.reportTable t).path f.kw .none))) ∧
    (∀ (f : LM) (va : Nat) (l : Leaf), TokensFree s f.kw f.kp → Readable s [f.ra] →
      checkPiece s s.who (s.rs f.ra + f.off.signExtend 64) 1 1 false = .ok (.glob va l) →
      exec (.pref f) s = ran ((s.prefetch f.rd.toNat va l).issuePost (s.prefetch f.rd.toNat va l).path f.kw .none)) ∧
    (∀ f : MXC, TokensFree s f.m.kw f.m.kp → Readable s [f.m.ra, f.m.rb] →
      let ls := s.leavesAt (bits s.who.root 43 12 * 4096) 0 4
      let rs := cacheRanges s (s.rs f.m.ra + f.m.off.signExtend 64) (s.rs f.m.rb).toNat
      let met (key : Nat) : Bool := rs.any (fun r => linesMet ls r.1 r.2 key)
      let gone (u : State) : State := if f.icache then u.invalidateI met f.m.scope.toNat else u.invalidate met f.m.scope.toNat
      let shut (u : State) : State := if f.port then u.closePort u.cur else u
      let done (u : State) : State := u.issuePost u.path f.m.kw .none
      exec (.cacheClean f) s = ran (done (shut (s.cleanLines met))) ∧
      exec (.cacheInv f) s = ran (done (shut (gone s))) ∧
      exec (.cacheFlush f) s = ran (done (shut (gone (s.cleanLines met)))))) ∧
  (∀ (s : State) (k : BitVec 3) (m : BitVec 6) (scope : BitVec 3),
    let paths := if m = 0 then 63 else m.toNat
    let d := dieOf s.cur.tile
    (s.src.kc k.toNat = 0 → exec (.tkwait k) s = ran s) ∧
    (s.src.kc k.toNat ≠ 0 → exec (.tkwait k) s = waits s (.token k.toNat)) ∧
    (s.fenceBusy s.cur paths scope.toNat = false → scope.toNat ≤ 2 → exec (.fenceOp m scope) s = ran (s.showFenced s.cur paths)) ∧
    (s.fenceBusy s.cur paths scope.toNat = false → scope = 3 → exec (.fenceOp m scope) s = ran ((s.crossAll d).showFenced s.cur paths)) ∧
    (s.fenceBusy s.cur paths scope.toNat = false → scope = 4 →
      exec (.fenceOp m scope) s = ran ((((s.crossAll d).podRelease d).showFenced s.cur paths).podAcquire s.cur.tile)) ∧
    (∀ u : State, ∀ e ∈ (u.showFenced s.cur paths).unseen, e.2.writer.agent = s.cur → paths.testBit e.2.writer.path = true →
      ∀ p, p < 6 → paths.testBit p = true → e.2.seen.contains p = true) ∧
    (s.fenceBusy s.cur paths scope.toNat = true → exec (.fenceOp m scope) s = waits s (.structural (.fence paths scope.toNat))))

/-- The gang barrier: an arrival of context 0 with nothing outstanding sets ARR and is counted for its rank; `bar.wait` completes while ARR is 0
and waits while it is 1; a barrier every rank of which has arrived ends the phase of all, ARR and SREQ cleared (08 R221 to R224). -/
def Obligations.GangBarrierResults : Prop :=
  ∀ (s : State) (st : Bool), s.cur.ctx = 0 →
    (s.me.arr = false → exec (.barWait st) s = ran s) ∧
    (s.me.arr = true → exec (.barWait st) s = waits s .barrier ∧ exec (.barArrive st) s = waits s .barrier ∧ exec (.barSync st) s = waits s .barrier) ∧
    (s.me.arr = false → s.fenceBusy s.cur 63 2 = false →
      let v0 := s.showFenced s.cur 63
      let u0 := if st then (v0.setMe (v0.me.setCr 0x18 (putBits (v0.me.cr 0x18) 1 1 1))).emitAll v0.cur.tile else v0
      let u := u0.setMe (u0.me.setCr 0x18 (putBits (u0.me.cr 0x18) 0 0 1))
      (u.taskOf u.cur = none → exec (.barArrive st) s = ran (u.setMe u.me.phaseDone)) ∧
      ∀ k, u.taskOf u.cur = some k →
        let v := u.setTask k { u.task k with arrived := (u.tile u.cur.tile).rank :: (u.task k).arrived }
        let w := if v.allArrived k = false then v else if recRanks (v.record k) = 1 then v.completePhase k else v.post (.barrierPhaseComplete k)
        exec (.barArrive st) s = ran w ∧ exec (.barSync st) s = ran (if w.me.arr then w.waitOn .barrier else w)) ∧
    (∀ k, s.allArrived k = true → (s.task k).tiles ≠ [] → (∀ t ∈ (s.task k).tiles, (s.tile t).run = some k ∧ s.stoppedTile t = false) →
      exec (.barrierPhaseComplete k) s = .next ((((s.task k).tiles.foldl (fun u t => u.setCtx ⟨t, 0⟩ (u.ctx ⟨t, 0⟩).phaseDone) s)).setTask k
        { ((s.task k).tiles.foldl (fun u t => u.setCtx ⟨t, 0⟩ (u.ctx ⟨t, 0⟩).phaseDone) s).task k with arrived := [] }))

/-- `snap` asks every die for a hold and waits for the last acknowledgement, 24 cycles later and no earlier than cycle 16 (the model's choice,
log 29); it then gives a live stamp, 16 below the time base, and ends the hold; it gives all ones where 1,024 are live or its hold failed.
`snaprel` releases a stamp the task holds with status 0 and answers 5 for another (04 R114, 08 R230, R231; 22 R462). The transaction ops:
`txbegin` takes a live start stamp as `snap` does and opens a transaction, or answers all ones, and traps inside another; `txcommit` answers
status 2 with none open, 3 where the write set was lost, 1 and writes nothing, its reservations given back, where its start stamp is no longer
live or a home has a newer version or another commit's reservation, and 0 for an empty write set; else it reserves every line, takes one stamp,
installs a line at each issue, each reservation ending with its line, and answers 0 with the last, once every die has applied its invalidations;
`txabort` ends it with state 4; `txstat` reads its state, start and commit stamps (04 R119 to R121; 08 R232 to R235; the steps are the model's,
log 29). -/
def Obligations.SnapshotAndTransactionResults : Prop :=
  (∀ (s : State) (f : EX),
    let free : State := { s with holds := s.holds.del (akey s.cur) }
    (s.holds.find (akey s.cur) = none → 1024 ≤ s.live.length → exec (.snap f) s = ran (s.ws f.rc (BitVec.allOnes 64))) ∧
    (s.holds.find (akey s.cur) = none → s.live.length < 1024 →
      exec (.snap f) s = waits { s with holds := s.holds.put (akey s.cur) (s.time, false) } (.structural .hold)) ∧
    (∀ since, s.holds.find (akey s.cur) = some (since, true) → exec (.snap f) s = ran (free.ws f.rc (BitVec.allOnes 64))) ∧
    (∀ since, s.holds.find (akey s.cur) = some (since, false) →
      (s.time < max 16 (since + 24) → exec (.snap f) s = waits s (.structural .hold)) ∧
      (max 16 (since + 24) ≤ s.time → 1024 ≤ s.live.length → exec (.snap f) s = ran (free.ws f.rc (BitVec.allOnes 64))) ∧
      (max 16 (since + 24) ≤ s.time → s.live.length < 1024 → ∃ u : State, exec (.snap f) s = ran (u.ws f.rc (BitVec.ofNat 64 (s.time - 16))) ∧
        u.time = s.time ∧ u.live = s.live ++ [(s.time - 16, s.snapOwner s.cur)] ∧ u.holds = s.holds.del (akey s.cur) ∧ u.mem = s.mem ∧
        u.ctxs = s.ctxs ∧ u.vers = s.vers)) ∧
    (Readable s [f.ra] →
      (s.live.contains ((s.rs f.ra).toNat, s.snapOwner s.cur) = true →
        exec (.snaprel f) s = ran ((s.dropLive (s.rs f.ra).toNat (s.snapOwner s.cur)).ws f.rc 0)) ∧
      (s.live.contains ((s.rs f.ra).toNat, s.snapOwner s.cur) = false → exec (.snaprel f) s = ran (s.ws f.rc 5)))) ∧
  (∀ (s : State) (f : EX), s.cur.isAwn = false →
    (s.me.txo = true → exec (.txbegin f) s = trapped s ⟨6, 0x6004, 0, 0, none⟩) ∧
    (s.me.txo = false →
      (s.holds.find (akey s.cur) = none → 1024 ≤ s.live.length → exec (.txbegin f) s = ran (s.ws f.rc (BitVec.allOnes 64))) ∧
      (s.holds.find (akey s.cur) = none → s.live.length < 1024 →
        exec (.txbegin f) s = waits { s with holds := s.holds.put (akey s.cur) (s.time, false) } (.structural .hold)) ∧
      (∀ since, s.holds.find (akey s.cur) = some (since, true) →
        exec (.txbegin f) s = ran (({ s with holds := s.holds.del (akey s.cur) } : State).ws f.rc (BitVec.allOnes 64))) ∧
      (∀ since, s.holds.find (akey s.cur) = some (since, false) →
        (s.time < max 16 (since + 24) → exec (.txbegin f) s = waits s (.structural .hold)) ∧
        (max 16 (since + 24) ≤ s.time → ∀ v n, s.takeStamp (.tx s.cur) = some (v, n) →
          let u : State := { v with holds := v.holds.del (akey s.cur) }
          exec (.txbegin f) s = ran ((u.setMe ({ u.me with tx := { state := 1, start := n, commit := u.me.tx.commit, lines := [] } }.setTxo true)).ws f.rc
            (BitVec.ofNat 64 n))))) ∧
    exec (.txabort f) s = ran (s.abortTx s.cur 4) ∧
    (f.fn9.toNat % 4 = 0 → exec (.txstat f) s = ran (s.ws f.rc (BitVec.ofNat 64 (s.me.tx.state + 16 * s.me.tx.lines.length)))) ∧
    (f.fn9.toNat % 4 = 1 → exec (.txstat f) s = ran (s.ws f.rc (BitVec.ofNat 64 s.me.tx.start))) ∧
    (2 ≤ f.fn9.toNat % 4 → exec (.txstat f) s = ran (s.ws f.rc (BitVec.ofNat 64 s.me.tx.commit))) ∧
    (let d := dieOf s.cur.tile
     let u := s.crossAll d
     let x := s.me.tx
     s.heldReqs = [] →
      (s.me.txo = false → exec (.txcommit f) s = ran (u.ws f.rc 2)) ∧
      (s.me.txo = true → x.state = 5 → exec (.txcommit f) s = ran ((u.endTx s.cur 5 x.commit true).ws f.rc 3)) ∧
      (s.me.txo = true → x.state ≠ 5 → x.granted = none →
        (x.lines = [] → s.live.contains (x.start, .tx s.cur) = true → exec (.txcommit f) s = ran ((u.endTx s.cur 2 x.commit true).ws f.rc 0)) ∧
        (s.live.contains (x.start, .tx s.cur) = false ∨ (s.allReserved s.cur s.me = false ∧ s.conflicts s.cur s.me = true) →
          exec (.txcommit f) s = ran (((u.releaseAll s.cur).endTx s.cur 3 x.commit true).ws f.rc 1)) ∧
        (x.lines ≠ [] → s.allReserved s.cur s.me = false → s.live.contains (x.start, .tx s.cur) = true → s.conflicts s.cur s.me = false →
          exec (.txcommit f) s = waits (u.reserveLines s.cur s.me) (.structural .commit)) ∧
        (x.lines ≠ [] → s.allReserved s.cur s.me = true → s.live.contains (x.start, .tx s.cur) = true →
          exec (.txcommit f) s = .next { (u.grantCommit s.cur).waitFrom s.me (.structural .commit) with fate := .waits })) ∧
      (s.me.txo = true → x.state ≠ 5 → ∀ n, x.granted = some n →
        (x.lines.find? (fun e => !x.done.contains e.1) = none → exec (.txcommit f) s = ran (((u.endTx s.cur 2 n true).crossAll d).ws f.rc 0)) ∧
        (∀ e, x.lines.find? (fun e => !x.done.contains e.1) = some e → (s.dir e.1).ovf = true →
          exec (.txcommit f) s = .next { (u.askHandler e.1).waitFrom s.me (.structural (.handler [e.1])) with fate := .waits }) ∧
        (∀ e, x.lines.find? (fun e => !x.done.contains e.1) = some e → (s.dir e.1).ovf = false →
          let v := u.installLine s.cur e.1 n e.2
          let w := v.setCtx s.cur { v.ctx s.cur with tx := { (v.ctx s.cur).tx with done := e.1 :: (v.ctx s.cur).tx.done } }
          (w.me.installed = true → exec (.txcommit f) s = ran (((w.endCommit s.cur).crossAll d).ws f.rc 0)) ∧
          (w.me.installed = false → exec (.txcommit f) s = .next { w.waitFrom s.me (.structural .commit) with fate := .waits })))))

/-- The event ops of a context: a post or a signal acts on the entry and answers its status, counted as a message sent and received; a wait on a
Fired entry completes; `evq` reads the entry, `evq.clr` reads it and clears it (08 R226 to R229). What posts and signals do to an entry: a post
makes it Pending and adds up, one past 65,535 is refused with status 3; a signal lowers the count, fires the entry at 0 and an Idle one at once,
and one above the count is refused (08 R226). -/
def Obligations.EventResults : Prop :=
  (∀ (s : State) (f : EX), Readable s [f.ra] →
    let e := (s.rs f.ra).toNat % 65536
    let n := parF f.par 15 0
    exec (.evpost f) s = ran ((s.eventPost e n).1.countEvent.ws f.rc (BitVec.ofNat 64 (s.eventPost e n).2)) ∧
    (s.fenceBusy s.cur 63 3 = false →
      let u := (s.crossAll (dieOf s.cur.tile)).showFenced s.cur 63
      exec (.evsig f) s = ran ((u.eventSig e n).1.countEvent.ws f.rc (BitVec.ofNat 64 (u.eventSig e n).2))) ∧
    (s.fenceBusy s.cur 63 3 = true → exec (.evsig f) s = waits s (.structural (.fence 63 3))) ∧
    exec (.evq f) s = ran (s.ws f.rc (s.event e).value) ∧
    (s.cur.isAwn = false →
      ((s.event e).state = 2 → exec (.evwait f) s = ran s) ∧
      ((s.event e).state ≠ 2 → exec (.evwait f) s = ran ((s.placeWaiter e (.ctx s.cur)).waitOn (.event (BitVec.ofNat 16 e)))) ∧
      exec (.evqClr f) s = ran ((s.setEvent e { s.event e with state := 0, count := 0 }).ws f.rc (s.event e).value)) ∧
    (∀ m : EventOp, exec (.eventOpArrival m) s = .next (if m.op = 0 then (s.eventPost m.name.toNat m.amount).1 else
      if m.op = 1 then (s.eventSig m.name.toNat m.amount).1 else s.eventClear m.name.toNat))) ∧
  (∀ (s : State) (e n : Nat),
    (∀ c, c = (if (s.event e).state = 1 then (s.event e).count + n else n) →
      (c ≤ 65535 → s.eventPost e n = (s.setEvent e { s.event e with state := 1, count := c }, 0)) ∧
      (65535 < c → s.eventPost e n = (s, 3))) ∧
    ((s.event e).state = 0 → s.eventSig e n = (s.fire e, 0)) ∧
    ((s.event e).state = 2 → s.eventSig e n = (s, 0)) ∧
    ((s.event e).state = 1 → (s.event e).count < n → s.eventSig e n = (s, 3)) ∧
    ((s.event e).state = 1 → (s.event e).count = n → s.eventSig e n = (s.fire e, 0)) ∧
    ((s.event e).state = 1 → n < (s.event e).count → s.eventSig e n = (s.setEvent e { s.event e with count := (s.event e).count - n }, 0)))

/-- What a vector op writes: in the lanes it names the register takes the new value, and every other lane keeps the old one; nothing else of the
machine changes but the poison of those lanes (09 R245, 20 R421). The elements of a packed register are those of the list (09 R244). -/
def Obligations.VectorWriteMergesLanes : Prop :=
  (∀ (s : State) (vd : BitVec 5) (v : VReg) (m : BitVec 64), s.ctxs.wf {} = true → s.me.v.wf 0 = true → (s.me.bind vd.toNat).bound = false →
    ∃ t, s.wv vd v m = .ok t ∧
      (∀ i, i < 64 → lane (t.me.v.get 0 vd.toNat) i = if m.getLsbD i then lane v i else lane (s.me.v.get 0 vd.toNat) i) ∧
      (∀ r, r ≠ vd.toNat → t.me.v.get 0 r = s.me.v.get 0 r) ∧
      t.me = { s.me with v := t.me.v, vPois := t.me.vPois } ∧ { t with ctxs := s.ctxs } = s) ∧
  (∀ (w : Nat) (xs : List Nat) (e : Nat), 0 < w → w * xs.length ≤ 2048 → e < xs.length → elem (vPack w xs) w e = ((xs[e]?).getD 0) % 2 ^ w)

/-- The element-wise arithmetic: floating types round the exact result once by FPCTL.RM and count its event; minimum, maximum, magnitude and
negation are exact; integer types wrap at the element's width, the saturating forms clamp to the type's range (09 R252, R253, R258, R259). The
special functions apply theirs to the elements of active lanes, rounding by FPCTL.RM and counting events; the value of a result is open where the
spec gives only a bound (09 R254; log 9). -/
def Obligations.VectorArithmeticResults : Prop :=
  (∀ (s : State) (f : AV),
    let ty := f.ty.toNat
    let w := tyWidth ty
    let fm := ftOf ty
    let sv (x : Nat) : Int := intOf (tySigned ty) w x
    let clamp (x : Int) : Nat := bitsOfInt w (max (tyMin ty) (min (tyMax ty) x))
    let act (u : State) : BitVec 64 := u.rmask f.mm
    let rounded (n : Nat) (fl : Machine.Num → Machine.Num → Machine.Num → Machine.Num) (int : Nat → Nat → Nat) (u : State) : VOut :=
      elemOp w (act u) (fun x y z => if isFT ty then fm.result ([fm.decode x, fm.decode y, fm.decode z].take n)
        (fl (fm.decode x) (fm.decode y) (fm.decode z)) u.rm false else (int x y, none)) (u.rv f.va) (u.rv f.vb) (u.rv f.vd)
    let exact (fl : Machine.Num → Machine.Num → Machine.Num) (int : Nat → Nat → Nat) (u : State) : VOut :=
      elemOp w (act u) (fun x y _ => if isFT ty then ((fm.round (fl (fm.decode x) (fm.decode y)) 0 false).1, none) else (int x y, none))
        (u.rv f.va) (u.rv f.vb) 0
    let two (i : Instr) (op : State → VOut) : Prop := WritesVector s i f.vd f.mm [f.va, f.vb] false [] op
    let one (i : Instr) (op : State → VOut) : Prop := WritesVector s i f.vd f.mm [f.va] false [] op
    let three (i : Instr) (op : State → VOut) : Prop := WritesVector s i f.vd f.mm [f.va, f.vb] true [] op
    two (.vadd f) (rounded 2 (fun x y _ => exactSum [x, y]) (fun x y => (x + y) % 2 ^ w)) ∧
    two (.vsub f) (rounded 2 (fun x y _ => exactSum [x, y.neg]) (fun x y => (x + 2 ^ w - y) % 2 ^ w)) ∧
    two (.vmul f) (rounded 2 (fun x y _ => x.mul y) (fun x y => x * y % 2 ^ w)) ∧
    three (.vfma f) (rounded 3 (fun x y z => exactSum [x.mul y, z]) (fun _ _ => 0)) ∧
    three (.vfms f) (rounded 3 (fun x y z => exactSum [x.mul y, z.neg]) (fun _ _ => 0)) ∧
    three (.vnfma f) (rounded 3 (fun x y z => exactSum [(x.mul y).neg, z]) (fun _ _ => 0)) ∧
    two (.vmin f) (exact (minMax true) (fun x y => if sv x ≤ sv y then x else y)) ∧
    two (.vmax f) (exact (minMax false) (fun x y => if sv x ≤ sv y then y else x)) ∧
    one (.vabs f) (exact (fun x _ => x.abs) (fun x _ => bitsOfInt w ((sv x).natAbs : Int))) ∧
    one (.vneg f) (exact (fun x _ => x.neg) (fun x _ => (2 ^ w - x) % 2 ^ w)) ∧
    two (.vshl f) (exact (fun x _ => x) (fun x y => x * 2 ^ (y % w) % 2 ^ w)) ∧
    two (.vshr f) (exact (fun x _ => x) (fun x y => x / 2 ^ (y % w))) ∧
    two (.vsar f) (exact (fun x _ => x) (fun x y => bitsOfInt w (intOf true w x / (2 ^ (y % w) : Nat)))) ∧
    two (.vmulh f) (exact (fun x _ => x) (fun x y => bitsOfInt w (sv x * sv y / (2 ^ w : Nat)))) ∧
    two (.vmulhu f) (exact (fun x _ => x) (fun x y => bitsOfInt w (sv x * sv y / (2 ^ w : Nat)))) ∧
    two (.vadds f) (exact (fun x _ => x) (fun x y => clamp (sv x + sv y))) ∧
    two (.vsubs f) (exact (fun x _ => x) (fun x y => clamp (sv x - sv y)))) ∧
  (∀ (s : State) (f : AV),
    let fm := ftOf f.ty.toNat
    let applied (i : Instr) (fn : Nat) : Prop := WritesVector s i f.vd f.mm [f.va] false [] (fun u =>
      elemOp (tyWidth f.ty.toNat) (u.rmask f.mm) (fun x _ _ => specialFn fn fm (fm.decode x) u.rm) (u.rv f.va) 0 0)
    applied (.vrcp f) 0 ∧ applied (.vrsq f) 1 ∧ applied (.vsqrt f) 2 ∧ applied (.vexp2 f) 3 ∧ applied (.vlog2 f) 4 ∧ applied (.vsin f) 5 ∧
    applied (.vcos f) 6 ∧ applied (.vtanh f) 7)

/-- The bitwise and lane-wise ops: logic, the select, the permutes of lanes and bytes, nibbles, slides, compress, expand and iota (09 R256, R257,
R262, R263, R265, R269). -/
def Obligations.VectorLaneOpResults : Prop :=
  ∀ (s : State) (f : AV),
    let all := BitVec.allOnes 64
    let lanes (i : Instr) (vs : List (BitVec 5)) (rd : Bool) (m : State → BitVec 64) (F : State → Nat → BitVec 32) : Prop :=
      WritesVector s i f.vd f.mm vs rd [] (fun u => ⟨vOfLanes (F u), m u, []⟩)
    let bytes (i : Instr) (vs : List (BitVec 5)) (F : State → Nat → Nat) : Prop :=
      WritesVector s i f.vd f.mm vs false [] (fun u => ⟨vPack 8 ((List.range 256).map (F u)), u.rmask f.mm, []⟩)
    let act (u : State) : BitVec 64 := u.rmask f.mm
    let a (u : State) (i : Nat) : BitVec 32 := lane (u.rv f.va) i
    let b (u : State) (i : Nat) : BitVec 32 := lane (u.rv f.vb) i
    let below (u : State) (i : Nat) : Nat := popCount ((act u).toNat % 2 ^ i) 64
    let set (u : State) : List Nat := (List.range 64).filter (fun i => (act u).getLsbD i)
    lanes (.vand f) [f.va, f.vb] false act (fun u i => a u i &&& b u i) ∧
    lanes (.vor f) [f.va, f.vb] false act (fun u i => a u i ||| b u i) ∧
    lanes (.vxor f) [f.va, f.vb] false act (fun u i => a u i ^^^ b u i) ∧
    lanes (.vandn f) [f.va, f.vb] false act (fun u i => a u i &&& ~~~(b u i)) ∧
    lanes (.vnot f) [f.va] false act (fun u i => ~~~(a u i)) ∧
    lanes (.vsel f) [f.va, f.vb] false (fun _ => all) (fun u i => if (act u).getLsbD i then a u i else b u i) ∧
    lanes (.vperm f) [f.va, f.vb] false act (fun u i => a u ((b u i).toNat % 64)) ∧
    bytes (.vpermb f) [f.va, f.vb] (fun u k => elem (u.rv f.va) 8 (elem (u.rv f.vb) 8 k)) ∧
    bytes (.vnibLo f) [f.va] (fun u k => bitsOfInt 8 (intOf (tySigned f.ty.toNat) 4 (elem (u.rv f.va) 8 k % 16))) ∧
    bytes (.vnibHi f) [f.va] (fun u k => bitsOfInt 8 (intOf (tySigned f.ty.toNat) 4 (elem (u.rv f.va) 8 k / 16))) ∧
    lanes (.vslideup f) [f.va, f.vb] true (fun u => act u &&& ~~~(lanesBelow (b u 0).toNat)) (fun u i => a u (i - (b u 0).toNat)) ∧
    lanes (.vslidedn f) [f.va, f.vb] false act (fun u i => if i + (b u 0).toNat ≤ 63 then a u (i + (b u 0).toNat) else 0) ∧
    lanes (.vcompress f) [f.va] true (fun u => lanesBelow (set u).length) (fun u i => a u (((set u)[i]?).getD 0)) ∧
    lanes (.vexpand f) [f.va] true act (fun u i => a u (below u i)) ∧
    lanes (.viota f) [] false (fun _ => all) (fun u i => BitVec.ofNat 32 (below u i))

/-- The element ops: class, broadcast, insertion, scans, and the conversions, which quantize and convert as 05 says and count their events (09
R260, R261, R266, R268, R270). The ops that write something else than one v register: compares to a mask, the pairs of `vzip` and `vunzip`,
element extraction and the reductions to an s register (09 R255, R264, R266, R267). -/
def Obligations.VectorElementAndReductionResults : Prop :=
  (∀ (s : State) (f : AV) (g : AVF),
    let ty := f.ty.toNat
    let w := tyWidth ty
    let fm := ftOf ty
    let act (u : State) : BitVec 64 := u.rmask f.mm
    let scan (fn : Nat) (u : State) : VOut :=
      let xs := scanList fn ty u.rm ((List.range (elems w)).map (fun e =>
        if (act u).getLsbD (laneOf w e) then some (elem (u.rv f.va) w e) else none)) []
      ⟨vPack w (xs.map (·.1)), act u, xs.map (·.2)⟩
    WritesVector s (.vclass f) f.vd f.mm [f.va] false [] (fun u =>
      elemOp w (act u) (fun x _ _ => (classOf fm (fm.decode x), none)) (u.rv f.va) 0 0) ∧
    WritesVector s (.vbcast f) f.vd f.mm [] false [f.va] (fun u =>
      ⟨vPack w (List.replicate (elems w) ((u.rs f.va).toNat % 2 ^ w)), act u, []⟩) ∧
    WritesVector s (.vins f) f.vd f.mm [] true [f.va, f.vb] (fun u =>
      if (u.rs f.vb).toNat ≥ elems w then ⟨u.rv f.vd, 0, []⟩
      else ⟨vPack w ((List.range (elems w)).map (fun j => if j = (u.rs f.vb).toNat then (u.rs f.va).toNat % 2 ^ w else elem (u.rv f.vd) w j)),
        act u &&& BitVec.ofNat 64 (2 ^ laneOf w (u.rs f.vb).toNat), []⟩) ∧
    WritesVector s (.vscanAdd f) f.vd f.mm [f.va] false [] (scan 0) ∧
    WritesVector s (.vscanMin f) f.vd f.mm [f.va] false [] (scan 1) ∧
    WritesVector s (.vscanMax f) f.vd f.mm [f.va] false [] (scan 2) ∧
    WritesVector s (.vcvt g) g.vd g.mm [g.va] (tyWidth g.ty.toNat < tyWidth g.fn.toNat) [] (cvtV g) ∧
    WritesVector s (.vqnt g) g.vd g.mm [g.va, g.vb] false [] (qntV g) ∧
    WritesVector s (.vdeq g) g.vd g.mm [g.va, g.vb] false [] (deqV g)) ∧
  (∀ (s : State) (f : AV) (g : AVF), s.cur.isAwn = false →
    let ty := f.ty.toNat
    let w := tyWidth ty
    (∀ u, useV s [g.va, g.vb] = .ok u → stripsOk u [g.va, g.vb] = .ok () →
      let val (v : VReg) (i : Nat) : Machine.Num := decodeTy g.ty.toNat (lane v i).toNat
      let md : BitVec 3 := g.vd.extractLsb' 0 3
      exec (.vcmp g) s = ran (u.wmask md (maskOf (u.rmask g.mm) (u.me.m.get 0 md.toNat)
        (fun i => predicate g.fn.toNat (val (u.rv g.va) i) (val (u.rv g.vb) i))))) ∧
    (∀ u t v, useV s [f.va, f.vb] = .ok u → destV u f.vd (f.mm != 0) false = .ok () → destV u (f.vd + 1) (f.mm != 0) false = .ok () →
      stripsOk u [f.va, f.vb] = .ok () →
      let zip := (List.range (elems w)).flatMap (fun e => [elem (u.rv f.va) w e, elem (u.rv f.vb) w e])
      (u.wv f.vd (vPack w (zip.take (elems w))) (u.rmask f.mm) = .ok t → t.wv (f.vd + 1) (vPack w (zip.drop (elems w))) (u.rmask f.mm) = .ok v →
        exec (.vzip f) s = ran v) ∧
      (u.wv f.vd (vPack w ((unzipSeq w (u.rv f.va) (u.rv f.vb)).take (elems w))) (u.rmask f.mm) = .ok t →
        t.wv (f.vd + 1) (vPack w ((unzipSeq w (u.rv f.va) (u.rv f.vb)).drop (elems w))) (u.rmask f.mm) = .ok v → exec (.vunzip f) s = ran v)) ∧
    (∀ u, Readable s [f.vb] → useV s [f.va] = .ok u → stripsOk u [f.va] = .ok () →
      exec (.vext f) s = ran (u.ws f.vd (if (u.rs f.vb).toNat ≥ elems w then 0 else
        BitVec.ofNat 64 (bitsOfInt 64 (intOf (tySigned ty) w (elem (u.rv f.va) w (u.rs f.vb).toNat)))))) ∧
    (∀ u, useV s [f.va] = .ok u → stripsOk u [f.va] = .ok () →
      let r (fn : Nat) : Nat × Option Nat := reduce fn ty 64 u.rm (activeElems w (u.rmask f.mm) (u.rv f.va))
      exec (.vredAdd f) s = ran ((u.ws f.vd (BitVec.ofNat 64 (r 0).1)).countV [(r 0).2]) ∧
      exec (.vredMin f) s = ran ((u.ws f.vd (BitVec.ofNat 64 (r 1).1)).countV [(r 1).2]) ∧
      exec (.vredMax f) s = ran ((u.ws f.vd (BitVec.ofNat 64 (r 2).1)).countV [(r 2).2])))

/-- The mask ops, off the awn core, and `anop` (09 R271, 06 R155). A vector op on the awn core traps with cause 0x2002, CODE 0 (09 R251, 21
R432). A write to a vector register bound for input, and a read of one bound for output, trap with the binding cause and the register's number
(09 R247, 21 R432). -/
def Obligations.MaskOpsAndVectorTraps : Prop :=
  (∀ (s : State) (f : AM), s.cur.isAwn = false →
    let a := s.rmask f.ma
    let b := s.rmask f.mb
    exec (.mand f) s = ran (s.wmask f.md (a &&& b)) ∧
    exec (.mor f) s = ran (s.wmask f.md (a ||| b)) ∧
    exec (.mxor f) s = ran (s.wmask f.md (a ^^^ b)) ∧
    exec (.mandn f) s = ran (s.wmask f.md (a &&& ~~~b)) ∧
    exec (.mnot f) s = ran (s.wmask f.md (~~~a)) ∧
    exec (.mmov f) s = ran (s.wmask f.md a) ∧
    (Readable s [f.sreg] → exec (.mfroms f) s = ran (s.wmask f.md (s.rs f.sreg))) ∧
    exec (.mtos f) s = ran (s.ws f.sreg a) ∧
    exec (.mpop f) s = ran (s.ws f.sreg (BitVec.ofNat 64 (popCount a.toNat 64))) ∧
    exec (.mfirst f) s = ran (s.ws f.sreg (BitVec.ofNat 64 (lowBit a.toNat 64))) ∧
    exec .anop s = ran s) ∧
  (∀ (s : State) (f : AV) (g : AM) (h : AF), s.cur.isAwn = true →
    ∀ i ∈ [Instr.vadd f, .vmul f, .vfma f, .vrcp f, .vsel f, .vperm f, .vzip f, .vext f, .vredAdd f, .mand g, .mpop g, .fadd h, .fcmp h],
      exec i s = trapped s ⟨4, 0x2002, 0, 0, none⟩) ∧
  (∀ (s : State) (f : AV), s.cur.isAwn = false → f.mm = 0 →
    (∀ r ∈ [f.va, f.vb], (s.me.bind r.toNat).bound = false ∧ (s.src.bind r.toNat).bound = false ∧
      ∀ l, l < 64 → s.src.vPois.find (64 * r.toNat + l) = none) →
    (s.src.bind f.vd.toNat).bound = true → (s.src.bind f.vd.toNat).out = false →
    exec (.vadd f) s = trapped s ⟨6, 0x7003, BitVec.ofNat 10 f.vd.toNat, 0, none⟩ ∧
    exec (.vand f) s = trapped s ⟨6, 0x7003, BitVec.ofNat 10 f.vd.toNat, 0, none⟩)

/-- A matrix op off the awn core, with its tokens free, its sources readable, its operands aligned, inside their windows and mapped, and its
formats as its entry asks, is held behind the ops the sequencer holds; `mwait` completes once the context has none there (10 R273 to R286). A
step of the matrix engine performs the next step of the first op held: a tile whose clock has stopped steps nothing; an absent page delays it; a
fault ends the op; else, over the operands as path 1 sees them (04 R97), the array's columns load their records, and once each granule written to
an outbound page has its permit the writes are made and the events counted on the matrix engine's converter, and after its last step the op
completes (10 R276, R277, R279, 11 R335, 22 R454). A step of `mzero` writes zeros to the rows of its block (10 R282). -/
def Obligations.MatrixResults : Prop :=
  (∀ (s : State) (f : EX), s.cur.isAwn = false → TokensFree s (kwX f) (kpX f) →
    let t := s.cur.tile
    let B := blockEdge t
    let mb := parF f.par 31 24
    let nb := parF f.par 23 16
    let mn := mb * nb * B * B
    let K := parF f.par 15 0
    let kp := 32 * ((K + 32 - 1) / 32)
    let a := s.rs f.ra
    let b := s.rs f.rb
    let c := s.rs f.rc
    let bytes (fm : Word) (n : Nat) : Nat := n * tyWidth (fmtTy fm) / 8
    let first (x : Word) : Word := s.fmtAt t ((windowOf x).getD 0) (offset x)
    let fmts (x : Word) (n : Nat) : List Word := s.spanFmts t ⟨(windowOf x).getD 0, offset x, n⟩
    let op (kind : Nat) : MatOp := { op := s.nextOp, kind := kind, ctx := s.cur.ctx, mb := mb, nb := nb }
    let product (kind : Nat) (i : Instr) (msk : Word) (masked : Prop) : Prop :=
      ∀ g pk, OperandOk s a 256 0 (bytes (first a) (mb * B * kp)) false → OperandOk s b 256 1 (bytes (first b) (nb * B * kp)) false →
        OperandOk s c 256 2 (mb * B * (nb * B) * 4) false → masked →
        (∀ fm ∈ fmts a (bytes (first a) (mb * B * kp)), fmtKey fm = fmtKey (first a)) →
        (∀ fm ∈ fmts b (bytes (first b) (nb * B * kp)), fmtKey fm = fmtKey (first b)) →
        (∀ fm ∈ fmts c (mb * B * (nb * B) * 4), fmtKey fm = fmtKey (first c)) →
        pairing (first a) (first b) (first c) = some (g, pk) → (pk = 2 → K % g = 0) →
        exec i s = ran (s.holdMatrix f { op kind with a := a, w := b, c := c, msk := msk, k := K, fmtA := first a, fmtW := first b })
    ((s.tile t).mq.length < 4 →
      (Readable s [f.ra, f.rb, f.rc] → product 0 (.mma f) 0 True) ∧
      (Readable s [f.ra, f.rb, f.rc, f.rc + 1] →
        product 1 (.mmaMask f) (s.rs (f.rc + 1)) (OperandOk s (s.rs (f.rc + 1)) 16 2 (mb * B * (nb * B) / 8) false) ∧
        product 2 (.mmaMaskFill f) (s.rs (f.rc + 1)) (OperandOk s (s.rs (f.rc + 1)) 16 2 (mb * B * (nb * B) / 8) false)) ∧
      (Readable s [f.ra] → ∀ w, OperandOk s a 256 w (mn * 4) true → (∀ fm ∈ fmts a (mn * 4), fmtKey fm = fmtKey (first a)) →
        exec (.mzero f) s = ran (s.holdMatrix f { op 3 with c := a })) ∧
      (Readable s [f.ra, f.rb] →
        (∀ w v, OperandOk s a 256 w (mn * 4) false → (∀ fm ∈ fmts a (mn * 4), fmtKey fm = fmtKey (first a) ∧ (fmtTy fm = 0 ∨ fmtTy fm = 6)) →
          OperandOk s b 256 v (bytes (first b) mn) true → (∀ fm ∈ fmts b (bytes (first b) mn), fmtKey fm = fmtKey (first b) ∧ fmtTy fm ≠ 14) →
          exec (.mcvt f) s = ran (s.holdMatrix f { op 4 with c := a, w := b, fmtW := first b })) ∧
        (∀ w v, OperandOk s a 256 w (bytes (first a) mn) false → OperandOk s b 256 v (bytes (first a) mn) true → fmtGsz (first a) = 0 →
          (∀ fm ∈ fmts a (bytes (first a) mn) ++ fmts b (bytes (first a) mn), fm = first a) →
          exec (.mtr f) s = ran (s.holdMatrix f { op 5 with c := a, w := b, fmtW := first a })) ∧
        (OperandOk s a 256 2 (mn * 4) false → (∀ fm ∈ fmts a (mn * 4), fmtTy fm = 6 ∧ fmtKey fm = fmtKey (first a)) →
          (OperandOk s b 256 2 (nb * B * 4) false → (∀ fm ∈ fmts b (nb * B * 4), fmtKey fm = fmtKey (first b)) →
            exec (.mscaleCol f) s = ran (s.holdMatrix f { op 6 with c := a, w := b })) ∧
          (OperandOk s b 256 2 (mb * B * 4) false → (∀ fm ∈ fmts b (mb * B * 4), fmtKey fm = fmtKey (first b)) →
            exec (.mscaleRow f) s = ran (s.holdMatrix f { op 7 with c := a, w := b }))))) ∧
    ((s.tile t).mq.any (fun m => m.ctx == s.cur.ctx) = false → exec (.mwait f) s = ran s) ∧
    ((s.tile t).mq.any (fun m => m.ctx == s.cur.ctx) = true → exec (.mwait f) s = waits s .matrix)) ∧
  (∀ (s : State) (t : Nat),
    (s.stoppedTile t = true ∨ (s.tile t).mq = [] → exec (.matrixStep t) s = .next s) ∧
    (∀ m rest, s.stoppedTile t = false → (s.tile t).mq = m :: rest →
      let st := matStep t m s
      (∀ e, s.engineNeed t st.reads st.spans = .error e → exec (.matrixStep t) s = .next ((s.engineFault ⟨t, m.ctx⟩ 1 e).matDone t m rest)) ∧
      (∀ u, s.engineNeed t st.reads st.spans = .ok (some u) → exec (.matrixStep t) s = .next (u.post (.matrixStep t))) ∧
      (s.engineNeed t st.reads st.spans = .ok none →
        let u0 := s.engineTouch t st.reads
        let seen0 := u0.setTile t ((u0.tile t).seenBy 1)
        let u := u0.setTile t ((u0.tile t).loadPe (st.pe seen0))
        let seen := seen0.setTile t ((u.tile t).seenBy 1)
        let r := st.run seen
        let scales := if m.kind = 4 && !r.1.isEmpty then mcvtScales t m seen else []
        let out := (r.1 ++ scales).flatMap (fun w => u.engineGranules t w.1 w.2.1 w.2.2)
        (∀ v n e, u.sendRest ⟨t, m.ctx⟩ m.sent out = (v, n, some e) →
          exec (.matrixStep t) s = .next ((v.setTile t { v.tile t with mq := { m with sent := n } :: rest }).post (.matrixStep t))) ∧
        (∀ v n, u.sendRest ⟨t, m.ctx⟩ m.sent out = (v, n, none) →
          let x := (v.matWrite ⟨t, m.ctx⟩ r.1).plainStore ⟨t, m.ctx⟩ scales
          let y := x.setTile t ((x.tile t).countAll 1 r.2.1)
          let w := if m.kind = 4 then y.emitStats t 1 else y
          (m.steps ≤ m.step + 1 → exec (.matrixStep t) s = .next (w.matDone t m rest)) ∧
          (m.step + 1 < m.steps → exec (.matrixStep t) s =
            .next ((w.setTile t { w.tile t with mq := { r.2.2 with step := m.step + 1, sent := 0 } :: rest }).post (.matrixStep t))))) ∧
      (m.kind = 3 → ∀ u, ∀ x ∈ (st.run u).1, x.1 = (windowOf m.c).getD 2 ∧ x.2.2 = List.replicate (4 * blockEdge t) (0, false))))

/-- `sgen` sets a level of a v register's generator; `sbind` binds an unbound register to a plain bank or another window while a stream unit is
free, and an input binding fetches; `sunbind` ends a binding, an output one with strips queued once they are written; `sstat` reads a binding (10
R287 to R290, R294, R295). The stream units: an input binding's next strip joins its queue, one that fails its check stands in its place, in fe
mode an empty granule delays it and full ones are emptied, and one that finds no frame for its page is an engine fault too; an output binding's
first strip is written with its granules set full once each that goes out over an edge has its permit, and one that fails its check ends the
binding's work; a binding that `sunbind` closes ends once its strips are performed (10 R290 to R294, 11 R335, 22 R451, R454). -/
def Obligations.StreamResults : Prop :=
  (∀ (s : State) (f : EX), s.cur.isAwn = false →
    let r := f.rc.toNat
    let a := s.rs f.ra
    let ls := s.src.genLevels r (parF f.par 3 0)
    let b : Binding := { bound := true, fe := f.fn9.getLsbD 1, base := a, levels := ls, hand := s.handler }
    (Readable s [f.ra] →
      exec (.sgen f) s = ran (s.setMe { s.me with levels := s.me.levels.set {} (8 * r + f.fn9.toNat % 8) ⟨f.par.toNat, a⟩ }) ∧
      ((s.src.bind r).bound = false → a.toNat % 16 = 0 → (∀ l ∈ ls, l.stride.toNat % 16 = 0) → s.unitsUsed s.cur.tile < 16 →
        (checkBase s false a = .ok () → exec (.sbindIn f) s = ran ((s.setMe (s.me.setBind r b)).post (.streamStripFetch s.cur r))) ∧
        (checkBase s true a = .ok () → exec (.sbindOut f) s = ran (s.setMe (s.me.setBind r { b with out := true })))) ∧
      ((s.src.bind r).bound = true → exec (.sbindIn f) s = trapped s ⟨6, 0x7003, BitVec.ofNat 10 r, 0, none⟩ ∧
        exec (.sbindOut f) s = trapped s ⟨6, 0x7003, BitVec.ofNat 10 r, 0, none⟩)) ∧
    (TokensFree s (kwX f) (kpX f) →
      let x := s.me.bind r
      let off : Binding := { x with bound := false, queue := [], port := none, writes := [], sent := 0 }
      let shut := s.closeBindPort s.cur x
      let u := s.issueOp 3 (kwX f) .none
      (x.bound = false → exec (.sunbind f) s = ran s) ∧
      (x.bound = true → (x.out = false ∨ (x.queue = [] ∧ s.writesHeld x = false)) → exec (.sunbind f) s = ran (shut.setMe (shut.me.setBind r off))) ∧
      (x.bound = true → x.out = true → (x.queue ≠ [] ∨ s.writesHeld x = true) → exec (.sunbind f) s =
        ran ((u.setMe ((u.me.setBind r { off with closing := some s.nextOp }).setBind (32 + s.nextOp) { x with closing := some s.nextOp })).post
          (.streamStripWrite u.cur (32 + s.nextOp))))) ∧
    (let y := s.src.bind f.rb.toNat
     exec (.sstat f) s = ran (s.ws f.rc (BitVec.ofNat 64 (y.last.toNat + (if y.exh then 2 ^ 8 else 0) + (if y.out then 2 ^ 9 else 0) +
       (if y.bound then 2 ^ 10 else 0) + (y.moved % 2 ^ 32) * 2 ^ 32))))) ∧
  (∀ (s : State) (a : Agent) (r : Nat),
    let b := (s.ctx a).bind r
    let w : Who := ⟨a, s.root a, b.hand, true, 3, []⟩
    let at_ := b.addr b.reached
    (s.stoppedTile a.tile = true ∨ b.bound = false → exec (.streamStripFetch a r) s = .next s ∧ exec (.streamStripWrite a r) s = .next s) ∧
    (s.stoppedTile a.tile = false → b.bound = true → b.out = false → b.queue.length < 4 → b.reached < b.total →
      (∀ t, checkStrip s w 1 b.fe at_ = .error (.trap t) → exec (.streamStripFetch a r) s = .next (s.putStrip a r { err := some t })) ∧
      (∀ pl, checkStrip s w 1 b.fe at_ = .ok pl → s.engineReside a.tile pl at_ = .ok none →
        (b.fe = true → s.stripFull a.tile ((cut at_ 256).zip pl) = false → exec (.streamStripFetch a r) s = .next (s.stripWaits a r (.streamStripFetch a r))) ∧
        (∀ u bs, (b.fe = false ∨ s.stripFull a.tile ((cut at_ 256).zip pl) = true) → readAll s w (s.taskView a.tile) false ((cut at_ 256).zip pl) = .ok (u, bs) →
          exec (.streamStripFetch a r) s = .next ((if b.fe then u.stripClear a.tile ((cut at_ 256).zip pl) else u).putStrip a r (stripOf at_ bs)))) ∧
      (∀ pl u, checkStrip s w 1 b.fe at_ = .ok pl → s.engineReside a.tile pl at_ = .ok (some u) →
        exec (.streamStripFetch a r) s = .next (u.stripWaits a r (.streamStripFetch a r))) ∧
      (∀ pl t, checkStrip s w 1 b.fe at_ = .ok pl → s.engineReside a.tile pl at_ = .error t →
        exec (.streamStripFetch a r) s = .next ((s.engineFault a 3 t).putStrip a r { err := some t }))) ∧
    (∀ st q, s.stoppedTile a.tile = false → b.bound = true → b.out = true → b.queue = st :: q →
      (∀ t, checkStrip s w 2 false at_ = .error (.trap t) → exec (.streamStripWrite a r) s = .next (s.strandBinding a r t)) ∧
      (∀ pl, checkStrip s w 2 false at_ = .ok pl → s.engineReside a.tile pl at_ = .ok none →
        let ps := (cut at_ 256).zip pl
        let out := placeGranules (((s.tile a.tile).run).getD 0) ps (vBytes st.data)
        (∀ v n e, s.sendRest a b.sent out = (v, n, some e) → exec (.streamStripWrite a r) s =
          .next ((v.setCtx a ((v.ctx a).setBind r { (v.ctx a).bind r with sent := n })).stripWaits a r (.streamStripWrite a r))) ∧
        (∀ v n, s.sendRest a b.sent out = (v, n, none) →
          let u := (writeAll (v.openPart a 3) w false true v.nextOp ps (vBytes st.data)).shutPart v.nextOp
          let b' := { (u.ctx a).bind r with
            queue := q, reached := b.reached + 1, port := portOf b.port ps, sent := 0, began := false, writes := v.nextOp :: b.writes.filter u.opNeeds }
          let x := u.setCtx a ((u.ctx a).setBind r b')
          exec (.streamStripWrite a r) s = .next (if b.closing = none ∧ q = [] then x else x.post (.streamStripWrite a r))))) ∧
    (s.stoppedTile a.tile = false → b.bound = true → b.out = true → b.queue = [] →
      (b.closing = none → exec (.streamStripWrite a r) s = .next s) ∧
      (∀ id, b.closing = some id →
        (s.writesHeld b = true → exec (.streamStripWrite a r) s = .next (s.post (.streamStripWrite a r))) ∧
        (s.writesHeld b = false → exec (.streamStripWrite a r) s = .next (s.endBinding a r b id)))))

/-- A transfer op of a task with a completion ring, with its operands aligned and checked, issues: it takes the next sequence number and the
engine has it to perform, a copy that overlaps its destination with the source as it stands at issue (22 R464); `bpoll` reads the status of a
transfer and `bwait` waits while it is 0 (10 R296 to R304). The engine's step for a transfer: a stopped tile's waits; one with every destination
done completes, with status 1, or 2 where poisoned bytes were moved: its record is written, and once that is performed its token is given back;
else the next chunk is read or written; a `bmig` moves an image (10 R296, R298, R303). -/
def Obligations.TransferResults : Prop :=
  (∀ (s : State) (f : EX),
    let a := s.rs f.ra
    let b := s.rs f.rb
    let n := (s.rs f.rc).toNat
    let x0 : Xfer := { op := 0, q := 0, task := 0, agent := s.cur, kind := 0 }
    (∀ k, s.taskOf s.cur = some k → recCrlog (s.record k) ≠ 0 → TokensFree s (kwX f) (kpX f) →
      let room (u : State) : Prop := u.taskOf u.cur = some k ∧ u.taskXfers k < 2 ^ recCrlog (u.record k) ∧ u.tileXfers u.cur.tile < 32
      let copies (i : Instr) (u : State) (x : Xfer) : Prop :=
        let m := (u.tile u.cur.tile).bfmt
        let v := isV u.cur.tile
        let y : Xfer := { x with checked := true, dsts := x.dsts.map (fun d => { d with fmts := m }) }
        let dn := convLen (convOf v v m m x.src (x.dsts.headD ⟨0, none, []⟩).addr x.row) x.row
        (overlaps y.pairs x.row dn = false → room u → exec i s = ran (u.startXfer f k y)) ∧
        (overlaps y.pairs x.row dn = true → ∀ p w, captureRows x.row u y.pairs = .ok (p, w) → room p →
          exec i s = ran (p.startXfer f k { y with whole := some w }))
      (Readable s [f.ra, f.rb, f.rc] → n ≤ 2 ^ 32 - 16 → n % 16 = 0 →
        (a.toNat % 16 = 0 → b.toNat % 16 = 0 → ∀ k1 kept, checkRange s s.who 1 a n = .ok k1 → checkRows s [(a, b)] n = .ok kept →
          copies (.bcopy f) s { x0 with src := a, dsts := [{ addr := b }], row := n, kept := kept }) ∧
        (b.toNat % 16 = 0 → room s → ∀ kept, checkRange s s.who 2 b n = .ok kept →
          exec (.bfill f) s = ran (s.startXfer f k { x0 with kind := 3, pat := a, dsts := [{ addr := b }], row := n, checked := true, kept := kept })) ∧
        (a.toNat % 16 = 0 → b.toNat % 16 = 0 → ∀ kept p h0 u h v es, checkRange s s.who 1 a n = .ok kept → peekPieces s s.who (cut b 8) = .ok (p, h0) →
          (∀ hb, peeked h0 = some hb → ∃ pl, checkAt s s.who b 1 false (listBytes b hb) = .ok pl) →
          loadPieces s (s.view s.cur) 1 false false (cut b 8) b = .ok (u, h) →
          let c := fieldOf (h.map (·.1)) 0 2
          1 ≤ c → c ≤ 8 → fieldOf (h.map (·.1)) 2 6 = 0 → loadPieces u (u.view u.cur) 1 false false (cut (b + 8) (16 * c)) b = .ok (v, es) →
          let ents := (List.range c).map (fun e => (BitVec.ofNat 64 (fieldOf (es.map (·.1)) (16 * e) 8), fieldOf (es.map (·.1)) (16 * e + 8) 2,
            fieldOf (es.map (·.1)) (16 * e + 10) 6))
          (∀ e ∈ ents, (e.2.1 = 0xFFFF ∨ e.2.1 < recRanks (v.runRec v.cur.tile)) ∧ e.2.2 = 0) → room v →
          exec (.bmcast f) s = ran (v.startXfer f k
            { x0 with agent := v.cur, kind := 2, src := a, row := n, dsts := ents.map (fun e => { addr := e.1, rank := some e.2.1 }), kept := kept }))) ∧
      (Readable s [f.ra] → a.toNat % 64 = 0 → ∀ p h0 u bs, peekPieces s s.who (cut a 64) = .ok (p, h0) →
        (∀ hb, peeked h0 = some hb → ∃ x, descXfer s hb = .ok x) → loadPieces s (s.view s.cur) 1 false false (cut a 64) a = .ok (u, bs) →
        let w (o : Nat) : Nat := fieldOf (bs.map (·.1)) o 8
        let h (o : Nat) : Nat := fieldOf (bs.map (·.1)) o 4
        let x : Xfer := { x0 with
          agent := u.cur, kind := 1, src := BitVec.ofNat 64 (w 0), dsts := [{ addr := BitVec.ofNat 64 (w 8) }], row := h 16,
          rows := h 20, planes := h 40, sRow := BitVec.ofNat 64 (w 24), dRow := BitVec.ofNat 64 (w 32), sPlane := BitVec.ofNat 64 (w 48),
          dPlane := BitVec.ofNat 64 (w 56) }
        w 0 % 16 = 0 → w 8 % 16 = 0 → h 16 % 16 = 0 → 16 ≤ h 16 → h 16 ≤ 2 ^ 32 - 16 → 1 ≤ h 20 → h 20 ≤ 65535 → w 24 % 16 = 0 → w 32 % 16 = 0 →
        1 ≤ h 40 → h 40 ≤ 65535 → h 44 = 0 → w 48 % 16 = 0 → w 56 % 16 = 0 → ∀ kept, checkRows u x.pairs (h 16) = .ok kept →
        copies (.bcopyn f) u { x with kept := kept }) ∧
      (Readable s [f.ra, f.rb] → s.cur.isAwn = false → s.me.hm = true → a.toNat < 2560 → b.toNat < 2560 → room s →
        exec (.bmig f) s = ran (s.startXfer f k { x0 with kind := 4, tile0 := a.toNat, tile1 := b.toNat }))) ∧
    (Readable s [f.ra] →
      (s.taskOf s.cur = none → exec (.bpoll f) s = ran (s.ws f.rc 0xFF) ∧ exec (.bwait f) s = trapped s ⟨6, 0x7006, 0, 0, none⟩) ∧
      (∀ k, s.taskOf s.cur = some k →
        exec (.bpoll f) s = ran (s.ws f.rc (BitVec.ofNat 64
          (if (s.task k).nextQ ≤ a.toNat ∨ a.toNat + 2 ^ recCrlog (s.record k) < (s.task k).nextQ then 0xFF else (s.task k).qStat.get 0 a.toNat))) ∧
        (a.toNat < (s.task k).nextQ → s.pollQ k a.toNat ≠ 0 → exec (.bwait f) s = ran s) ∧
        (a.toNat < (s.task k).nextQ → s.pollQ k a.toNat = 0 → exec (.bwait f) s = waits s (.transfer a.toNat)) ∧
        ((s.task k).nextQ ≤ a.toNat → exec (.bwait f) s = trapped s ⟨6, 0x7006, 0, 0, none⟩)))) ∧
  (∀ (s : State) (id : Nat),
    (s.xfers.find? (fun x => x.op == id) = none → exec (.transferCompletion id) s = .next s) ∧
    (∀ x, s.xfers.find? (fun x => x.op == id) = some x →
      (x.kind ≠ 5 → s.stoppedTile x.agent.tile = true → (s.tile x.agent.tile).run = some x.task → exec (.transferCompletion id) s = .next s) ∧
      ((x.kind = 5 ∨ s.stoppedTile x.agent.tile = false ∨ (s.tile x.agent.tile).run ≠ some x.task) → ∀ st, x.fin = some st →
        (s.opNeeds x.op = true → exec (.transferCompletion id) s = .next (s.keepXfer x)) ∧
        (s.opNeeds x.op = false → exec (.transferCompletion id) s = .next (s.endXfer x st))) ∧
      ((x.kind = 5 ∨ s.stoppedTile x.agent.tile = false ∨ (s.tile x.agent.tile).run ≠ some x.task) → x.fin = none →
        (x.kind = 4 → exec (.transferCompletion id) s = .next (s.migrate x)) ∧
        (x.kind ≠ 4 → x.checked = false → exec (.transferCompletion id) s = .next (s.checkDsts x)) ∧
        (x.kind ≠ 4 → x.checked = true → x.dsts[x.dst]? = none →
          (s.opNeeds x.op = false → exec (.transferCompletion id) s = .next (s.finishXfer x (if x.pois then 2 else 1) 0 x.done)) ∧
          (s.opNeeds x.op = true → exec (.transferCompletion id) s = .next (s.keepXfer x))) ∧
        (x.kind ≠ 4 → x.checked = true → ∀ d, x.dsts[x.dst]? = some d → x.row = 0 → exec (.transferCompletion id) s = .next (s.finishXfer x 1 0 0)) ∧
        (x.kind ≠ 4 → x.checked = true → ∀ d, x.dsts[x.dst]? = some d → x.row ≠ 0 → s.runsThere x d = true →
          let c := if x.kind = 3 ∨ x.kind = 5 then none
            else convOf (isV x.agent.tile) (isV ((s.dstTile x d).getD 0)) x.fmts d.fmts (x.srcAt x.pos) (x.dstAt d x.pos) x.row
          (x.held = [] → exec (.transferCompletion id) s = .next (s.readChunk x c (x.chunk c (x.dstAt d x.pos) (Config.freePick s.fc)))) ∧
          (x.held ≠ [] → ∃ n, exec (.transferCompletion id) s = .next (s.writeChunk x d c n) ∧
            (c = none → n = x.held.length) ∧ ∀ a b, c = some (a, b) → n = min (x.row - x.off) (16 * tyWidth (fmtTy a)))) ∧
        (x.kind ≠ 4 → x.checked = true → ∀ d, x.dsts[x.dst]? = some d → x.row ≠ 0 → s.runsThere x d = false →
          let t := (s.dstTile x d).getD 0
          (s.stoppedTile t = true → (s.tile t).run = some x.task → exec (.transferCompletion id) s = .next (s.keepXfer x)) ∧
          (s.stoppedTile t = false ∨ (s.tile t).run ≠ some x.task →
            exec (.transferCompletion id) s = .next (s.failXfer x ⟨8, 0x8001, 0, d.addr, none⟩))))) ∧
    (∀ x st code n, x.kind ≠ 5 → x.conv = false → x.port = none →
      let u := s.putRecord x st code n
      let v : State := { u with xfers := u.xfers.filter (fun y => y.op != x.op) }
      (u.opNeeds x.op = true → s.finishXfer x st code n = u.keepXfer { x with fin := some st }) ∧
      (u.opNeeds x.op = false → s.finishXfer x st code n =
        (v.setTask x.task { v.task x.task with qStat := (v.task x.task).qStat.set 0 x.q st }).completeOp x.op)))

/-- The page ops on a range that lies in a scratchpad window, with no page-in under way: the first status, in the order 5, 1, 2, 3, 4, whose test
fails is written and nothing else; else the pages take the entries the op gives them and status 0 is written, and `spmig` waits first for the
write-outs of resident pages, a page whose write-out an access has abandoned keeping its place with status 6. Page ops wait while page-ins are
under way. `spfmt` writes a legal format to a bank at rest and waits for one in use. A page-in that completes puts its page in its frame once its
victim is written out, looks for another frame where that fails or an access abandoned it, and one that names no page-in under way changes
nothing (08 R237 to R243, 03 R69, R72). -/
def Obligations.PageOpResults : Prop :=
  (∀ (s : State) (f : EX), s.cur.isAwn = false →
    let t := s.cur.tile
    let x := s.tile t
    let n := parF f.par 12 0
    let a := s.rs f.ra
    let b := (s.rs f.rb).toNat / 2048
    let keys := pageKeys f s
    (Readable s [f.ra, f.rb] → ∀ win, a.toNat % 2048 = 0 → windowOf a = some win → win < 3 → offset a / 2048 + n ≤ windowPages (isV t) win →
      let status (st : Nat) : Host.Outcome State Fault Refusal := ran (s.ws f.rc (BitVec.ofNat 64 st))
      let absent := keys.any (fun k => loc (x.spte k) == 0)
      let pins := keys.any (fun k => pinned (x.spte k))
      let crowded := keys.any (fun k => decide (framesPerBank (isV t) win ≤
        s.pinsOf t ((x.pinAll keys true).spt) win (bankOfPage (isV t) win (k % 8192))))
      let foot := keys.any (s.inFoot t)
      let out := keys.filter (fun k => loc (x.spte k) == 1)
      (x.pageIns ≠ [] → ∀ i ∈ [Instr.spunmap f, .sppin f, .spunpin f, .spmigRes f, .spmigPold f], exec i s = waits s (.structural .pageIns)) ∧
      (x.pageIns = [] → (s.openOuts t).any (fun o => o.ctx != s.cur.ctx) = false →
        ((flX f = true ∨ checkBacking s f [1, 2] = .ok ()) → keys.any (fun k => loc (x.spte k) != 0) = true → exec (.spmap f) s = status 1) ∧
        (keys.any (fun k => loc (x.spte k) != 0) = false →
          (flX f = true → s.freeSlots t < keys.length → exec (.spmap f) s = status 3) ∧
          (flX f = true → keys.length ≤ s.freeSlots t → exec (.spmap f) s = ran ((keys.foldl (fun u k => u.takeSlot t k {}) s).ws f.rc 0)) ∧
          (flX f = false → checkBacking s f [1, 2] = .ok () → exec (.spmap f) s =
            ran ((s.setTile t (keys.zipIdx.foldl (fun u p => u.setSpte p.1 (mkSpte 3 false false (b + p.2))) x)).ws f.rc 0))) ∧
        (foot = true → exec (.spunmap f) s = status 5 ∧ exec (.spunpin f) s = status 5) ∧
        (foot = false →
          (pins = true → exec (.spunmap f) s = status 1) ∧
          (pins = false → exec (.spunmap f) s = ran ((keys.foldl (fun u k => u.leavePage t k 0) s).ws f.rc 0)) ∧
          (absent = true → exec (.spunpin f) s = status 1) ∧
          (absent = false → exec (.spunpin f) s = ran ((s.setTile t (x.pinAll keys false)).ws f.rc 0))) ∧
        (absent = true → exec (.sppin f) s = status 1 ∧ exec (.spmigRes f) s = status 1) ∧
        (absent = false →
          (crowded = true → exec (.sppin f) s = status 2) ∧
          ((∀ k ∈ keys, loc (x.spte k) = 1) → (crowded = false → exec (.sppin f) s = ran ((s.setTile t (x.pinAll keys true)).ws f.rc 0)) ∧
            exec (.spmigRes f) s = ran (s.ws f.rc 0)) ∧
          (∀ u, crowded = false → bringIn s keys true = .ok u → exec (.sppin f) s = ran ((u.setTile t ((u.tile t).pinAll keys true)).ws f.rc 0)) ∧
          (∀ u, bringIn s keys false = .ok u → exec (.spmigRes f) s = ran (u.ws f.rc 0))) ∧
        (let short := decide (s.freeSlots t < (keys.filter (fun k => loc (x.spte k) == 3 || (loc (x.spte k) == 1 && loc (x.home.get 0 k) != 2))).length)
         let empty := keys.any (fun k => k / 8192 != 1 && (loc (x.spte k) == 1 || loc (x.spte k) == 2) &&
           ((if loc (x.spte k) = 1 then x.page k else (s.die (dieOf t)).polder.get {} (place (x.spte k))).full != BitVec.allOnes 128))
         let begun (v u : State) (kept : List Nat) : Prop := out = [] ∧ u = v ∧ kept = [] ∨ out ≠ [] ∧ ∃ o, v.myOuts out = some o ∧
           u = v.setTile v.cur.tile { v.tile v.cur.tile with outs := none } ∧ kept = (o.pages.filter (·.2)).map (·.1)
         let wait (v : State) : Host.Outcome State Fault Refusal :=
           let u := v.setTile v.cur.tile { v.tile v.cur.tile with
             outs := some { ctx := v.cur.ctx, pc := v.me.pc, pages := out.map (fun k => (k, false)) } }
           .next { u.waitFrom s.me (.structural .pageOuts) with fate := .waits }
         let done (u : State) (kept : List Nat) : Host.Outcome State Fault Refusal := ran (u.ws f.rc (if kept = [] then 0 else 6))
         (s.myOuts out = none → (absent = true ∨ pins = true → exec (.spmigPold f) s = status 1) ∧
           (absent = false → pins = false → short = true → exec (.spmigPold f) s = status 3) ∧
           (absent = false → pins = false → short = false → out ≠ [] → ∀ v away, pagesAway t s (keys.filter (fun k => loc (x.spte k) == 3)) = .ok (v, away) →
             v.myOuts out = none → exec (.spmigPold f) s = wait v)) ∧
         ((absent = false ∧ pins = false ∧ short = false ∨ (s.myOuts out).isSome = true) → ∀ v away u kept,
           pagesAway t s (keys.filter (fun k => loc (x.spte k) == 3)) = .ok (v, away) → begun v u kept →
           exec (.spmigPold f) s = done (keys.foldl (State.toPolder t kept away) u) kept) ∧
         (checkBacking s f [2] = .ok () →
           let read := pagesAway t s ((pagesToBacking x b [] keys).map (·.1))
           (s.myOuts out = none → (absent = true ∨ pins = true → exec (.spmigHbm f) s = status 1) ∧
             (absent = false → pins = false → empty = true → exec (.spmigHbm f) s = status 4) ∧
             (absent = false → pins = false → empty = false → out ≠ [] → ∀ v away, read = .ok (v, away) → v.myOuts out = none →
               exec (.spmigHbm f) s = wait v)) ∧
           ((absent = false ∧ pins = false ∧ empty = false ∨ (s.myOuts out).isSome = true) → ∀ v away u kept, read = .ok (v, away) → begun v u kept →
             let move := pagesToBacking x b kept keys
             (∀ w, writeBacking t (s.rs f.rb) away u move = (w, none) →
               exec (.spmigHbm f) s = done (move.foldl (fun v p => v.leavePage t p.1 (mkSpte 3 false false (b + p.2))) w) kept) ∧
             (∀ w e, writeBacking t (s.rs f.rb) away u move = (w, some e) → exec (.spmigHbm f) s = trapped w e)))))) ∧
    (Readable s [f.rb] →
      let bank := parF f.par 7 0
      let buf := parF f.par 9 8
      (bfmtLegal (isV t) buf bank (s.rs f.rb) = false → exec (.spfmt f) s = trapped s ⟨6, 0x7004, 1, 0, none⟩) ∧
      (bfmtLegal (isV t) buf bank (s.rs f.rb) = true →
        (s.bankBusy t buf bank = false → exec (.spfmt f) s = ran (s.writeBfmt t buf bank (s.rs f.rb))) ∧
        (s.bankBusy t buf bank = true → exec (.spfmt f) s = waits s (.structural (.bank buf bank))))) ∧
    (∀ (v : State) k pg kept range pin (away : SMap Page),
      (loc ((v.tile t).spte k) = 2 ∨ k ∈ kept → State.toPolder t kept away v k = v) ∧
      (loc ((v.tile t).spte k) = 1 → k ∉ kept → State.toPolder t kept away v k = v.moveToPolder t k ((v.tile t).page k)) ∧
      (loc ((v.tile t).spte k) ≠ 1 → loc ((v.tile t).spte k) ≠ 2 → k ∉ kept → State.toPolder t kept away v k = v.moveToPolder t k (away.get {} k)) ∧
      (∀ q rest, let dst := s.rs f.rb + BitVec.ofNat 64 (2048 * q)
        let page := if loc ((v.tile t).spte k) = 1 then (v.tile t).page k else away.get {} k
        (∀ w, v.pageOut t page (offset dst) v.handler = .ok w →
          writeBacking t (s.rs f.rb) away v ((k, q) :: rest) = writeBacking t (s.rs f.rb) away w rest) ∧
        (∀ e, v.pageOut t page (offset dst) v.handler = .error e →
          writeBacking t (s.rs f.rb) away v ((k, q) :: rest) = (v, some { e with addr := dst }))) ∧
      (v.tiles.wf {} = true → (v.tile t).spt.wf 0 = true → loc ((v.tile t).spte k) = 1 → loc ((v.tile t).home.get 0 k) = 2 →
        ((v.moveToPolder t k pg).tile t).spte k = mkSpte 2 false false (place ((v.tile t).home.get 0 k))) ∧
      (loc ((v.tile v.cur.tile).spte k) < 2 → bringPage range pin v k = .ok v) ∧
      (∀ u fr, loc ((v.tile v.cur.tile).spte k) = 2 →
        v.frameBeside v.cur.tile (k / 8192) (bankOfPage (isV v.cur.tile) (k / 8192) (k % 8192)) range = some (u, fr) →
        bringPage range pin v k = .ok (u.fillPage v.cur.tile k fr pin
          ((v.die (dieOf v.cur.tile)).polder.get {} (place ((v.tile v.cur.tile).spte k))))))) ∧
  (∀ (s : State) (t win page : Nat),
    let x := s.tile t
    let key := win * 8192 + page
    (x.pageIns.find? (fun p => p.win == win && p.page == page) = none → exec (.pageInComplete t win page) s = .next s) ∧
    (∀ p, x.pageIns.find? (fun p => p.win == win && p.page == page) = some p →
      let rest := s.setTile t { x with pageIns := x.pageIns.filter (fun q => !(q.win == win && q.page == page)) }
      (loc (x.spte key) < 2 → exec (.pageInComplete t win page) s = .next rest) ∧
      (2 ≤ loc (x.spte key) →
        let others := x.pageIns.filter (fun q => !(q.win == win && q.page == page))
        let again : State := match rest.chooseFrame t win (bankOfPage (isV t) win page) with
          | none => rest
          | some (fr, v) => (rest.setTile t { x with pageIns := others ++ [{ p with
              frame := fr, victim := v.map (fun k => (false, k)), abandoned := false }] }).post (.pageInComplete t win page)
        (p.abandoned = true → exec (.pageInComplete t win page) s = .next again) ∧
        (p.abandoned = false →
          (p.victim = none → exec (.pageInComplete t win page) s = .next (s.bringIn t p)) ∧
          (∀ b k, p.victim = some (b, k) →
            (loc (x.spte k) ≠ 1 → exec (.pageInComplete t win page) s = .next (s.bringIn t p)) ∧
            (∀ u, loc (x.spte k) = 1 → pinned (x.spte k) = false → s.evict t k = some u →
              exec (.pageInComplete t win page) s = .next (u.bringIn t p)) ∧
            (loc (x.spte k) = 1 → pinned (x.spte k) = true ∨ s.evict t k = none → exec (.pageInComplete t win page) s = .next again))))) ∧
    (∀ p u pg, s.sourcePage t (s.taskView t) (x.spte (pkey p.win p.page)) (p.tr.map (·.2)) 0 = .ok (u, pg) →
      s.bringIn t p = (u.setTile t { u.tile t with pageIns := (u.tile t).pageIns.filter (fun q => !(q.win == p.win && q.page == p.page)) }).fillPage t
        (pkey p.win p.page) p.frame p.pin pg) ∧
    (s.tiles.wf {} = true → x.spt.wf 0 = true → x.frames.wf {} = true → ∀ frame pin pg,
      let u := s.fillPage t key frame pin pg
      (u.tile t).spte key = mkSpte 1 pin false frame ∧ (u.tile t).frame (key / 8192) frame = pg ∧ u.mem = s.mem ∧ u.ctxs = s.ctxs))

/-- Dimension-order routing takes a packet to its destination: at another tile the port chosen leads to a router one hop nearer, columns before
rows; at the destination it is t (12 R343, R346). -/
def Obligations.DimensionOrderReachesDestination : Prop :=
  (∀ t, t < 2560 → dimOrder t t false = 0) ∧
  ∀ t dest, t < 2560 → dest < 2560 → t ≠ dest → ∃ u, joins t (dimOrder t dest false) = .router u ∧ u < 2560 ∧
    joins u (facing (dimOrder t dest false)) = .router t ∧
    ((gridX u : Int) - gridX dest).natAbs + ((gridY u : Int) - gridY dest).natAbs + 1 =
      ((gridX t : Int) - gridX dest).natAbs + ((gridY t : Int) - gridY dest).natAbs ∧
    (gridX t ≠ gridX dest → gridY u = gridY t)

/-- The message ops: `amsend` and `redsend` with their tokens free and their operands readable and legal offer their packet to the tile's router
and are counted as sent for their launch, a handler once the router accepts; `amreply` answers the message being handled, and traps off the awn
core; `amhinst` writes a handler entry of the tile, or of every tile of the gang (10 R306 to R308, 12 R355, 02 R55). The awn queue: a message
that has room enters it, its payload in the lowest free slot, and another waits; the oldest starts its handler once no other runs, at the address
of its entry with its words in s1 to s4, and one whose entry holds 0 is dropped and reported; a mailbox post goes to its slot as it comes to the
head (10 R305, R312, 12 R355, 03 R487). -/
def Obligations.MessageAndAwnResults : Prop :=
  (∀ (s : State) (f : EX),
    let byRoute := parF f.par 16 16 == 1
    let header (u : State) (kind : Nat) : Packet :=
      { cls := 1, kind := kind, src := u.cur.tile, srcPkg := u.ua.pkg, pkg := u.ua.pkg, rank := (u.tile u.cur.tile).rank, launch := u.launchOf u.cur }
    let message (u : State) : Packet := { header u 0 with
      dest := if byRoute then 0 else bits (u.rs f.ra) 11 0, pkg := if byRoute then u.ua.pkg else bits (u.rs f.ra) 21 12,
      byRoute := byRoute, route := parF f.par 15 8, handler := parF f.par 7 0, arg := u.rs f.rb }
    let reaches (u : State) : Prop := byRoute = true ∨ (bits (u.rs f.ra) 11 0 < 2560 ∧ u.knownPkg (bits (u.rs f.ra) 21 12) = true)
    (TokensFree s (kwX f) (kpX f) →
      (Readable s [f.ra, f.rb] → flX f = false → reaches s → Sends s (.amsend f) s (kwX f) (message s)) ∧
      (Readable s [f.ra, f.rb] → flX f = true → s.cur.isAwn = false → ∀ u, useV s [f.rc] = .ok u → reaches u → stripsOk u [f.rc] = .ok () →
        Sends s (.amsend f) u (kwX f) { message u with hasPayload := true, payload := u.rv f.rc }) ∧
      (s.cur.isAwn = true → flX f = false → Readable s [f.rb] →
        ((s.tile s.cur.tile).msg = none → exec (.amreply f) s = ran s) ∧
        (∀ m slot, (s.tile s.cur.tile).msg = some (m, slot) →
          Sends s (.amreply f) s (kwX f) { header s 0 with dest := m.src, pkg := m.srcPkg, handler := parF f.par 7 0, arg := s.rs f.rb })) ∧
      (s.cur.isAwn = false → exec (.amreply f) s = trapped s ⟨4, 0x2002, if s.cur.ctx = 0 then 2 else 1, 0, none⟩) ∧
      (s.cur.isAwn = false → Readable s [f.ra] → ∀ u, useV s [f.rc] = .ok u → bits (u.rs f.ra) 63 56 = 0 → stripsOk u [f.rc] = .ok () →
        let p : Packet := { header u 1 with
          byRoute := true, route := parF f.par 7 0, rtype := parF f.par 9 8, hdr := u.rs f.ra, hasPayload := true, payload := u.rv f.rc }
        let a := feedbackAddr (u.rs f.ra)
        (flX f = false → Sends s (.redsend f) u (kwX f) p) ∧
        (flX f = true → ∀ pl v bs, checkAll u u.who 1 false (cut a 256) = .ok pl → reside u u.cur.tile pl a = .ok () →
          readAll u u.who .now false ((cut a 256).zip pl) = .ok (v, bs) →
          Sends s (.redsend f) (writeAll v v.who false false v.nextOp ((cut a 256).zip pl) (codeContribution p bs).2) (kwX f) (codeContribution p bs).1))) ∧
    (let h := parF f.par 7 0
     let put (u : State) (t : Nat) : State := u.setTile t { u.tile t with
       handlers := if h < 240 then (u.tile t).handlers.set 0 h (s.rs f.ra) else (u.tile t).handlers.put h (s.rs f.ra) }
     Readable s [f.ra] → (h < 240 ∨ s.handler = true) →
       (flX f = false ∨ s.taskOf s.cur = none → exec (.amhinst f) s = ran ((put s s.cur.tile).ws f.rc 0)) ∧
       (∀ k, flX f = true → s.taskOf s.cur = some k → exec (.amhinst f) s = ran (((s.task k).tiles.foldl put s).ws f.rc 0)))) ∧
  (∀ (s : State) (t : Nat) (p : Packet),
    let x := s.tile t
    ((16 ≤ x.awnQ.length ∨ (p.hasPayload = true ∧ ∀ k, k < 16 → x.slots.get false k = true)) →
      exec (.awnMessageArrival t p) s = .next (s.again (.awnMessageArrival t p))) ∧
    (x.awnQ.length < 16 → p.hasPayload = false →
      exec (.awnMessageArrival t p) s = .next ((s.setTile t { x with awnQ := x.awnQ ++ [(p, none)] }).post (.handlerStart t))) ∧
    (∀ k, x.awnQ.length < 16 → p.hasPayload = true → k < 16 → x.slots.get false k = false → (∀ j, j < k → x.slots.get false j = true) →
      let u := s.putPayload t k (plainPayload p) (plainPois p)
      exec (.awnMessageArrival t p) s = .next ((u.setTile t { u.tile t with awnQ := x.awnQ ++ [(p, some k)], slots := x.slots.set false k true }).post
        (.handlerStart t))) ∧
    (s.awnStopped t = true ∨ x.awnQ = [] → exec (.handlerStart t) s = .next s) ∧
    (∀ slot q, x.msg.isSome = true → x.awnQ = (p, slot) :: q → p.kind ≠ 4 → exec (.handlerStart t) s = .next s) ∧
    (∀ slot q, s.awnStopped t = false → x.awnQ = (p, slot) :: q → p.kind = 4 →
      exec (.handlerStart t) s = .next (((s.setTile t { x with awnQ := q }).post (.mailboxPostArrival t p)).post (.handlerStart t))) ∧
    (∀ slot q, x.msg = none → s.awnStopped t = false → x.awnQ = (p, slot) :: q → p.kind ≠ 4 →
      let u := s.setTile t { x with awnQ := q }
      let h := u.handlerAt t (p.handler % 256)
      (h = 0 → exec (.handlerStart t) s = .next (u.dropMessage t p slot)) ∧
      (h ≠ 0 → s.tiles.wf {} = true → s.ctxs.wf {} = true → ∃ v : State, exec (.handlerStart t) s = .next v ∧
        (v.tile t).msg = some (p, slot) ∧ (v.tile t).awnQ = q ∧ (v.ctx ⟨t, 15⟩).st = .ready ∧ (v.ctx ⟨t, 15⟩).pc = h &&& ~~~7 ∧
        v.launches = (s.onLaunch p.launch (fun l => l.receive (akey ⟨t, 15⟩) 1)).launches ∧ v.mem = s.mem ∧
        ((s.ctx ⟨t, 15⟩).s.wf 0 = true → (v.ctx ⟨t, 15⟩).s.get 0 1 = (if p.kind = 1 then p.hdr else p.arg) ∧ (v.ctx ⟨t, 15⟩).s.get 0 2 = senderWord p ∧
          (v.ctx ⟨t, 15⟩).s.get 0 3 = (match slot with | some k => slotAddr t k | none => 0) ∧ (v.ctx ⟨t, 15⟩).s.get 0 4 = p.hdr))))

/-- A router: a credit that arrives is taken back, and from the tile's own port lets waiting packets in; a packet of an address goes by dimension
order; one whose ports all have room leaves by each at its turn, its credits returned, and another waits in its place; a discarded one is
counted; a contained router passes nothing (12 R345, R346, R350, R354, 20 R426). The merges of the fabric: a contribution of a port that the
adder's set names joins its sum, and a copy of one of the port's last 64 is dropped; a full sum leaves under the entry's next route class once
port t has room for it; a count token joins the merge of its tree, which ends with a token from each port, or 4,096 cycles after its first;
elsewhere a token goes on by its class's ports, and is discarded where there is none (12 R350, R356, R358, 05 R141; the count of tokens: log 47). -/
def Obligations.FabricResults : Prop :=
  (∀ (s : State) (t port cls : Nat) (p : Packet),
    let x := s.tile t
    let u := s.setTile t { x with credits := x.credits.set 0 (port * 4 + cls) (x.credits.get 0 (port * 4 + cls) - 1) }
    exec (.creditArrival t port cls) s = .next (if port = 0 then u.drain t else u) ∧
    (p.byRoute = false → p.pkg = s.ua.pkg → p.dest < 2560 → s.wayOf t p = .out [(dimOrder t p.dest false, p)]) ∧
    (x.contained = true → exec (.routerPacketArrival t port p) s = .next s) ∧
    (x.contained = false →
      (s.wayOf t p = .drop → exec (.routerPacketArrival t port p) s = .next (((s.returnCredits t port p).dropTurn t port p.cls).discard t p.route p.kind)) ∧
      (s.wayOf t p = .adder →
        exec (.routerPacketArrival t port p) s = .next ((s.dropTurn t port p.cls).again (.adderContributionArrival t port p))) ∧
      (∀ cs, s.wayOf t p = .out cs → (∃ c ∈ cs, s.canLeave t c = false) ∨ x.hasTurn port p.cls (turnsFor t cs) = false →
        exec (.routerPacketArrival t port p) s = .next ((s.takeTurn t port p.cls (turnsFor t cs)).again (.routerPacketArrival t port p))) ∧
      (∀ cs, s.wayOf t p = .out cs → (∀ c ∈ cs, s.canLeave t c = true) → x.hasTurn port p.cls (turnsFor t cs) = true →
        let v := cs.foldl (fun v c => v.leave t c) ((s.returnCredits t port p).dropTurn t port p.cls)
        (1 < cs.length → p.kind ≤ 2 →
          exec (.routerPacketArrival t port p) s = .next (v.onLaunch p.launch (fun l => l.send (akey ⟨t, 15⟩) (cs.length - 1)))) ∧
        (cs.length ≤ 1 ∨ 2 < p.kind → exec (.routerPacketArrival t port p) s = .next v)))) ∧
  (∀ (s : State) (t port cls : Nat) (p : Packet) (k : CountToken),
    let x := s.tile t
    let e := s.routeEntry t p.route
    (x.contained = true → exec (.adderContributionArrival t port p) s = .next s ∧ exec (.statTokenArrival t port k) s = .next s) ∧
    ((s.die (dieOf t)).contained.get 0 (16 + t % 160) ≠ 0 → exec (.adderContributionArrival t port p) s = .next s) ∧
    (x.contained = false → (s.die (dieOf t)).contained.get 0 (16 + t % 160) = 0 → s.wayOf t p ≠ .adder →
      exec (.adderContributionArrival t port p) s = .next ((s.dropTurn t (6 + port) p.cls).again (.routerPacketArrival t port p))) ∧
    (x.contained = false →
      let g := s.routeEntry t k.route
      let ps := if rtMode g = 1 then [bits g 26 24] else rtOut g
      rtMode g ≠ 2 → (rtMode g ≠ 0 ∨ rtAdd g = false) →
        (ps = [] → exec (.statTokenArrival t port k) s = .next ((s.tokenCredit t port).discard t k.route 7)) ∧
        (ps ≠ [] → s.tokenRoom t ps = true →
          exec (.statTokenArrival t port k) s = .next (ps.foldl (fun u o => u.sendToken t k o) (s.tokenCredit t port))) ∧
        (ps ≠ [] → s.tokenRoom t ps = false → exec (.statTokenArrival t port k) s = .next (s.again (.statTokenArrival t port k)))) ∧
    (x.contained = false → (s.die (dieOf t)).contained.get 0 (16 + t % 160) = 0 → s.wayOf t p = .adder →
      let done := (s.returnCredits t port p).dropTurn t (6 + port) p.cls
      ((rtIn e).contains port = false ∨ (x.seen.get [] port).contains (contribId p) = true →
        exec (.adderContributionArrival t port p) s = .next done) ∧
      ((rtIn e).contains port = true → (x.seen.get [] port).contains (contribId p) = false →
        (∀ q, x.adder.find? (isPartial p) = some q → q.ports.find port = none → s.sumRoom t port p e q = true →
          exec (.adderContributionArrival t port p) s = .next (done.addContribution t port p e q)) ∧
        (∀ q, x.adder.find? (isPartial p) = some q → q.ports.find port = none → s.sumRoom t port p e q = false →
          exec (.adderContributionArrival t port p) s = .next (s.sumWaits t port p false)) ∧
        (∀ q, x.adder.find? (isPartial p) = some q → (q.ports.find port).isSome = true →
          exec (.adderContributionArrival t port p) s = .next (s.sumWaits t port p true)) ∧
        (x.adder.find? (isPartial p) = none →
          let q : Partial := ⟨p.route, redColl p.hdr, redStep p.hdr, []⟩
          (x.adder.length < 8 → s.sumRoom t port p e q = true →
            exec (.adderContributionArrival t port p) s = .next (done.addContribution t port p e q)) ∧
          (x.adder.length < 8 → s.sumRoom t port p e q = false → exec (.adderContributionArrival t port p) s = .next (s.sumWaits t port p false)) ∧
          (8 ≤ x.adder.length → exec (.adderContributionArrival t port p) s = .next (s.sumWaits t port p true))))) ∧
    (∀ q, flitsOf (adderSum ((q.ports.put 0 p).map (·.2)) p) ≤ flitsOf p → x.sentFlits 0 p.cls ≤ 16 → x.hasTurn 6 p.cls [5] = true →
      s.sumRoom t 0 p e q = true) ∧
    (x.contained = false →
      let g := s.routeEntry t k.route
      let key := k.route * 65536 + k.tree
      let n := x.statNodes.get {} key
      let m := n.add port s.time k
      rtMode g = 2 ∨ (rtMode g = 0 ∧ rtAdd g = true) →
      let c := s.tokenCredit t port
      ((rtIn g).contains port = false → exec (.statTokenArrival t port k) s = .next c) ∧
      ((rtIn g).contains port = true →
        ((∀ i ∈ rtIn g, m.ports.get 0 i ≠ 0) → exec (.statTokenArrival t port k) s = .next (c.statDone t k.route key m)) ∧
        ((∃ i ∈ rtIn g, m.ports.get 0 i = 0) →
          let u := c.setTile t { c.tile t with statNodes := x.statNodes.set {} key m }
          exec (.statTokenArrival t port k) s = .next (if n.open_ then u else u.post (.statMergeTimeout t k.route))))) ∧
    ((∀ n : StatNode, (n.add port s.time k).tokens = n.tokens + k.tokens ∧ ∀ i, i < 5 →
      (n.add port s.time k).counts[i]? = some (min 0xFFFFFFFF ((n.counts[i]?).getD 0 + (k.counts[i]?).getD 0))) ∧
     (let open_ := x.statNodes.filter (fun (e : Nat × StatNode) => e.1 / 65536 == cls)
      let due := open_.filter (fun e => decide (e.2.since + 4096 ≤ s.time))
      let u := due.foldl (fun u e => u.statDone t cls e.1 e.2) s
      ((∀ e ∈ open_, e.2.since + 4096 ≤ s.time) → due = open_ ∧ exec (.statMergeTimeout t cls) s = .next u) ∧
      ((∃ e ∈ open_, s.time < e.2.since + 4096) → exec (.statMergeTimeout t cls) s = .next (u.post (.statMergeTimeout t cls))))))

/-- The configuration ops: `rtset` and `slotset` write a legal entry of the next load for a tile the executing agent may configure, or of the
memory port, with status 0, and else status 4 and nothing; `cfgtok` starts the wavefront of another load at the tile's router, waits for one its
tile has started, and answers 4 for the present load; a router takes on its next tables once the token has come on every circuit and none of its
slots has a flit from before it to forward, sends the token on along its circuits, and answers the `cfgtok` of its tile; a wavefront that has
reached all routers of a die gives the die its number (10 R309, R310; 12 R347, R351; 02 R51). Steps of a die's hardware: a slot-table cycle comes
to the next slot, from the slot counter on, in which a router has a flit, and moves one flit per router and slot one hop, behind the
configuration tokens at the next router; contained units lose flits; the memory port grants three bursts, the first to the stream its slot names
where that waits; of the batches that wait at a die with the one that arrives the first that passes the clock test is applied, which advances its
sender's clock by one and no other, then those that pass it after that, and the others wait on (12 R347, R348, R352; 04 R105). -/
def Obligations.ConfigurationAndDieResults : Prop :=
  (∀ (s : State) (f : EX),
    let a := (s.rs f.ra).toNat
    let e := s.rs f.rb
    let i := parF f.par 7 0
    let d := dieOf s.cur.tile
    let n := parF f.par 15 0
    let t := s.cur.tile
    (Readable s [f.ra, f.rb] →
      (s.mayConfigure a = true → rtLegal a e = true →
        exec (.rtset f) s = ran ((s.setTile a { s.tile a with rtNext := (s.tile a).rtNext.set 0 i e }).ws f.rc 0)) ∧
      (s.mayConfigure a = false ∨ rtLegal a e = false → exec (.rtset f) s = ran (s.ws f.rc 4)) ∧
      ((s.rs f.ra).getLsbD 12 = true → dieOf (a - 4096) = d → portLegal e = true →
        exec (.slotset f) s = ran ((s.setDie d { s.die d with portNext := (s.die d).portNext.set 0 i e }).ws f.rc 0)) ∧
      ((s.rs f.ra).getLsbD 12 = false → s.mayConfigure a = true → slotLegal a e = true →
        exec (.slotset f) s = ran ((s.setTile a { s.tile a with slNext := (s.tile a).slNext.set 0 i e }).ws f.rc 0)) ∧
      ((s.rs f.ra).getLsbD 12 = false → s.mayConfigure a = false ∨ slotLegal a e = false → exec (.slotset f) s = ran (s.ws f.rc 4))) ∧
    (n = (s.tile t).load → exec (.cfgtok f) s = ran (s.ws f.rc 4)) ∧
    (n ≠ (s.tile t).load → (s.tile t).cfgWait = none → exec (.cfgtok f) s =
      ran (((s.setTile t { s.tile t with cfgWait := some (s.cur, f.rc.toNat, s.nextOp) }).awaitResult f.rc).giveToken t 0 n)) ∧
    (n ≠ (s.tile t).load → (s.tile t).cfgWait.isSome = true → exec (.cfgtok f) s = waits s (.structural .config)) ∧
    exec (.stflush f) s = ran (s.emitAll t) ∧
    (∀ r m, let x := s.tile r
      (x.load = m ∨ x.contained = true ∨ x.tokensIn m = false → exec (.configWavefrontArrival r m) s = .next s) ∧
      (x.load ≠ m → x.contained = false → x.tokensIn m = true →
        ((∃ sl, sl < 256 ∧ (s.slotFlit r sl).isSome = true) →
          exec (.configWavefrontArrival r m) s = .next (s.post (.configWavefrontArrival r m))) ∧
        ((∀ sl, sl < 256 → s.slotFlit r sl = none) →
          let u := s.setTile r { x.pastTokens m with load := m, rtCur := x.rtNext, slCur := x.slNext, statRecs := [], cfgWait := none }
          let v := (s.downstream r).foldl (fun v w => v.giveToken w.1 w.2 m) u
          (x.cfgWait = none → exec (.configWavefrontArrival r m) s = .next (v.dieLoad r m)) ∧
          (∀ b c id, x.cfgWait = some (b, c, id) →
            exec (.configWavefrontArrival r m) s = .next ((v.giveResult b c id 0).dieLoad r m))))) ∧
    (∀ r m, let y := s.die (dieOf r)
      let w := (r :: y.waves.get [] m).dedup
      (w.length = 160 → s.dieLoad r m = (s.setDie (dieOf r) { y with load := m, portCur := y.portNext, waves := y.waves.del m }).post
        (.dispatchDecision (dieOf r))) ∧
      (w.length ≠ 160 → s.dieLoad r m = s.setDie (dieOf r) { y with waves := y.waves.set [] m w })) ∧
    (∀ (x : Tile) (m port q : Nat), (q, port) ∈ (x.pastTokens m).tokens ↔ ((q, port) ∈ x.tokens ∧ q ≠ m)) ∧
    (∀ (x : Tile) (m i : Nat) (g : EdgeGranule), x.c0[i]? = some g → (m, 0) ∈ x.tokens →
      ((x.pastTokens m).c0[i]?).map (·.behind) = some (g.behind - 1))) ∧
  (∀ (s : State) (d : Nat),
    (s.slotTiles d = [] → exec (.slotTableCycle d) s = .next s) ∧
    (let ts := s.slotTiles d
     let v := ts.foldl (fun v t => v.flushClosed t) s
     let step (u : State) : Host.Outcome State Fault Refusal := .next (if u.slotTiles d = [] then u else u.postSlots d)
     (v.nextSlot d ts = none → exec (.slotTableCycle d) s = step (v.setDie d { v.die d with slotAt := max (v.die d).slotAt v.time })) ∧
     (∀ c, v.nextSlot d ts = some c → (v.die d).slotAt ≤ c ∧ (∃ t ∈ ts, (v.slotFlit t (c % 256)).isSome = true) ∧
       (∀ n, (v.die d).slotAt ≤ n → n < c → ∀ t ∈ ts, v.slotFlit t (n % 256) = none) ∧
       exec (.slotTableCycle d) s = step (ts.foldl (fun u t => u.slotTile t (c % 256))
         ({ v with time := max v.time c }.setDie d { v.die d with slotAt := c + 1 })))) ∧
    (∀ t slot, s.slotFlit t slot = none → s.slotTile t slot = s) ∧
    (∀ t slot x g, s.slotFlit t slot = some (x, g) →
      s.slotTile t slot = (s.setTile t x).forward t (slOut ((s.tile t).slCur.get 0 slot)) slot g) ∧
    (∀ t slot out g, (joins t out = .own → s.forward t out slot g = s.post (.streamEdgeGranuleArrival g)) ∧
      (∀ u, joins t out = .router u → let x := s.tile u
        (s.edgeShut t out = true → s.forward t out slot g = s.loseFlits (dieOf t) (out - 1) 1) ∧
        (s.edgeShut t out = false → x.contained = true → s.forward t out slot g = s.loseFlits (dieOf u) (256 + u % 160) 1) ∧
        (s.edgeShut t out = false → x.contained = false → s.forward t out slot g = (s.setTile u { x with
          link := x.link ++ [(facing out, (slot + (if dieOf u = dieOf t then 1 else 25)) % 256, { g with behind := x.behindOf (facing out) })] }).postSlots
            (dieOf u)))) ∧
    (let x := s.die d
     let e := x.portCur.get 0 (s.time % 256)
     let k := bits e 7 0 * 8 + bits e 10 8
     (e.getLsbD 15 = true → x.portWait.get 0 k ≠ 0 → exec (.memoryPortGrant d) s =
       .next (s.setDie d ({ x with portWait := x.portWait.set 0 k (x.portWait.get 0 k - 1) }.grantNext.grantNext))) ∧
     (e.getLsbD 15 = false ∨ x.portWait.get 0 k = 0 → exec (.memoryPortGrant d) s = .next (s.setDie d (x.grantNext.grantNext.grantNext)))) ∧
    (∀ b : Batch, s.dies.wf {} = true → (s.die d).vc.wf 0 = true →
      let x := s.die d
      let l := x.batches ++ [b]
      let u := s.setDie d { x with batches := l }
      (l.findIdx? x.batchOk = none → exec (.leveeBatchArrival d b) s = .next u) ∧
      (∀ i c, l.findIdx? x.batchOk = some i → l[i]? = some c → exec (.leveeBatchArrival d b) s =
        .next (((u.setDie d { x with batches := l.eraseIdx i }).applyBatch d c).applyBatches d x.batches.length)) ∧
      ∀ c : Batch, ∀ j, ((s.applyBatch d c).die d).vc.get 0 j = x.vc.get 0 j + (if j = c.src then 1 else 0)))

/-- The ops of expert routing: `mbpost` sends an entry to a V-tile's mailbox; `mbrd` reads an entry of a slot, all ones where there is none, and
under 15 its count and sequence number; `mbclr` empties slots and gives them their place; `steer` and `steer.ret` send a strip; `mgrd` reads the
next merged slot, or 0; the capacity ops send their request and wait for its answer (10 R312 to R317, 13 R367, R372). What expert routing's
messages do where they arrive: a mailbox entry takes its place by priority, with those beyond the depth dropped; a returned strip the slot has no
row for is discarded and reported, another joins its rows, and the last completes a strip, which is written or waits for a stopped tile, a page
or a permit; a capacity claim is granted, denied or held, the ends decide the round, and a set starts one; a contained tile keeps a capacity
request waiting (10 R312, R315 to R317; 13 R367, R368, R371). -/
def Obligations.ExpertRoutingResults : Prop :=
  (∀ (s : State) (f : EX),
    let header (u : State) (kind : Nat) : Packet :=
      { cls := 1, kind := kind, src := u.cur.tile, srcPkg := u.ua.pkg, pkg := u.ua.pkg, rank := (u.tile u.cur.tile).rank, launch := u.launchOf u.cur }
    let t := s.cur.tile
    let v := bits (s.rs f.ra) 11 0
    let room : Prop := s.cur.isAwn = false ∨ s.injectRoom t = true
    (Readable s [f.ra, f.rb, f.rc] → v < 2560 → isV v = true → bits (s.rs f.rb) 63 48 = 0 → room → exec (.mbpost f) s = ran ((s.issueOp 4 0 .none).offer
      s.cur s.nextOp { header s 4 with
        poster := some s.cur, dest := v, arg := s.rs f.rb, handler := bits (s.rs f.ra) 19 12, payload := BitVec.ofNat 2048 (bits (s.rs f.rc) 31 0) })) ∧
    (s.cur.isAwn = false → isV t = true →
      (Readable s [f.ra] →
        let m := (s.tile t).mbox.get {} (bits (s.rs f.ra) 7 0)
        let j := parF f.par 3 0
        (j = 15 → exec (.mbrd f) s = ran (s.ws f.rc (BitVec.ofNat 64 (m.entries.length + m.seq * 2 ^ 32)))) ∧
        (∀ e, j ≠ 15 → m.entries[j]? = some e → exec (.mbrd f) s = ran (s.ws f.rc (BitVec.ofNat 64 (e.1.toNat + e.2 * 2 ^ 32)))) ∧
        (j ≠ 15 → m.entries[j]? = none → exec (.mbrd f) s = ran (s.ws f.rc (BitVec.allOnes 64)))) ∧
      (Readable s [f.ra, f.rb] →
        let k := (s.rs f.ra).toNat
        let n := parF f.par 8 0
        let b := s.rs f.rb
        k + n ≤ 256 → b.toNat % 256 = 0 → (windowOf b = some 4 ∨ (windowOf b = some 0 ∧ offset b < windowPages true 0 * 2048)) →
          exec (.mbclr f) s = ran ((s.setTile t ((List.range n).foldl (fun x i => x.setSlot (k + i)
            { depth := parF f.par 12 9, seq := (x.slot (k + i)).seq, base := b, strips := parF f.par 20 13 }) (s.tile t))).ws f.rc 0)) ∧
      ((s.tile t).nextSlot s.ops = none → exec (.mgrd f) s = ran (s.ws f.rc 0)) ∧
      (∀ k m, (s.tile t).nextSlot s.ops = some (k, m) →
        let u := s.drlAppend (dieOf t) (s.tile t).mergePort (asidOf (s.tileRoot t)) 4 (s.slotTid t)
        exec (.mgrd f) s = ran ((u.setTile t ({ u.tile t with mergePort := none }.setSlot k { m with returned := true })).ws f.rc
          (BitVec.ofNat 64 (2 ^ 63 + m.seq * 2 ^ 8 + k))))) ∧
    (s.cur.isAwn = false → TokensFree s (kwX f) (kpX f) → Readable s [f.ra, f.rb] →
      ∀ u, useV s [f.rc] = .ok u → stripsOk u [f.rc] = .ok () →
      (bits (u.rs f.ra) 63 47 = 0 → Sends s (.steer f) u (kwX f) { header u 2 with
        byRoute := true, route := parF f.par 7 0, arg := u.rs f.ra, hdr := BitVec.ofNat 64 (bits (u.rs f.rb) 31 0), hasPayload := true,
        payload := u.rv f.rc }) ∧
      (bits (s.rs f.ra) 63 47 = 0 → bits (s.rs f.ra) 27 16 < 2560 → isV (bits (s.rs f.ra) 27 16) = true →
        exec (.steerRet f) s = ran ((u.issueOp 4 (kwX f) .none).offer u.cur u.nextOp { header u 3 with
          dest := bits (s.rs f.ra) 27 16, arg := s.rs f.ra, hdr := BitVec.ofNat 64 (bits (u.rs f.rb) 31 0), hasPayload := true,
          payload := u.rv f.rc }))) ∧
    (Readable s [f.ra, f.rb] → v < 2560 → isV v = true → room →
      let m : CapMsg := { tile := v, entry := bits (s.rs f.ra) 19 12, operand := s.rs f.rb, issuer := s.cur, op := s.nextOp }
      let o : Op := { agent := s.cur, path := 4, kw := 0, dst := .late f.rc.toNat 0, need := 1 }
      let u := s.issueOp 4 0 (.late f.rc.toNat 0)
      let w := { u.setMe (u.me.pendOn f.rc.toNat s.nextOp) with ops := u.ops.put s.nextOp o }
      let asks (kind : Nat) (i : Instr) : Prop :=
        exec i s = ran (w.offer s.cur s.nextOp { header s 8 with dest := v, arg := s.rs f.rb, cap := some (kind, m) })
      asks 0 (.capclaim f) ∧ asks 1 (.capclaimEnd f) ∧ (bits (s.rs f.rb) 63 29 = 0 → asks 2 (.capclaimSet f)))) ∧
  (∀ (s : State) (t : Nat) (p : Packet) (c : CapMsg),
    (let k := p.handler % 256
     let m := (s.tile t).slot k
     exec (.mailboxPostArrival t p) s = .next (s.setTile t ((s.tile t).setSlot k { m with
       entries := (insertEntry (p.arg.setWidth 32, bits p.arg 47 32) m.entries).take m.depth, seq := p.payload.toNat % 2 ^ 32, src := p.src, posted := true }))) ∧
    (∀ (e : BitVec 32 × Nat) (l : List (BitVec 32 × Nat)), (insertEntry e l).length = l.length + 1 ∧ ∀ x, x ∈ insertEntry e l ↔ x = e ∨ x ∈ l) ∧
    (let k := bits p.arg 35 28
     let j := bits p.arg 38 36
     let e := bits p.arg 46 39
     let m := (s.tile t).slot k
     let bad := decide (m.entries.length ≤ j) || decide (m.strips ≤ e) || m.rows.any (fun r => r.1 == j && r.2.1 == e)
     let m' := { m with rows := m.rows ++ [(j, e, p.hdr.setWidth 32, p.payload, p.pois != 0)] }
     (bad = true → exec (.returnStripArrival t p) s = .next (s.dropStrip t k j e)) ∧
     (bad = false → (m'.rowsOf e).length < m'.entries.length → exec (.returnStripArrival t p) s = .next (s.setTile t ((s.tile t).setSlot k m'))) ∧
     (bad = false → m'.entries.length ≤ (m'.rowsOf e).length →
       (∀ u, s.writeMerged t k e m' = (u, true) →
         (((u.tile t).slot k).written.contains e = true → exec (.returnStripArrival t p) s = .next u) ∧
         (((u.tile t).slot k).written.contains e = false → exec (.returnStripArrival t p) s = .next (u.setTile t ((u.tile t).setSlot k m')))) ∧
       (∀ u, s.writeMerged t k e m' = (u, false) → exec (.returnStripArrival t p) s = .next (u.again (.returnStripArrival t p))) ∧
       (s.stoppedTile t = true → s.writeMerged t k e m' = (s, false)))) ∧
    (let e := (s.tile c.tile).cap c.entry
     let put (e' : CapEnt) : State := s.setTile c.tile ((s.tile c.tile).setCap c.entry e')
     ((s.tile c.tile).contained = true →
       exec (.capacityClaimArrival c) s = .next (s.again (.capacityClaimArrival c)) ∧
       exec (.capacityEndArrival c) s = .next (s.again (.capacityEndArrival c)) ∧
       exec (.capacitySetArrival c) s = .next (s.again (.capacitySetArrival c))) ∧
     ((s.tile c.tile).contained = false →
       (e.decided = true ∨ e.cap ≤ e.granted → exec (.capacityClaimArrival c) s = .next (s.reply c (BitVec.allOnes 64))) ∧
       (e.decided = false → e.granted < e.cap → e.unordered = true →
         exec (.capacityClaimArrival c) s = .next ((put { e with granted := e.granted + 1 }).reply c (BitVec.ofNat 64 e.granted))) ∧
       (e.decided = false → e.granted < e.cap → e.unordered = false → exec (.capacityClaimArrival c) s =
         .next (put { e with held := e.held ++ [⟨bits c.operand 31 0, c⟩] })) ∧
       (let u := s.reply c 0
        let cs := e.held.foldl (fun l x => insertClaim x l) []
        (e.decided = true ∨ e.ends + 1 < e.srcs → exec (.capacityEndArrival c) s =
          .next (u.setTile c.tile ((u.tile c.tile).setCap c.entry { e with ends := e.ends + 1 }))) ∧
        (e.decided = false → e.srcs ≤ e.ends + 1 → exec (.capacityEndArrival c) s =
          .next ((u.setTile c.tile ((u.tile c.tile).setCap c.entry { e with
            ends := e.ends + 1, decided := true, held := [], granted := min e.cap (e.granted + cs.length) })).grantHeld e.cap e.granted cs))) ∧
       exec (.capacitySetArrival c) s = .next ((put { cap := bits c.operand 15 0, srcs := bits c.operand 27 16, unordered := c.operand.getLsbD 28 }).reply
         c 0))) ∧
    (∀ v, s.reply c v = s.offer ⟨c.tile, 15⟩ c.op {
      cls := 1, kind := 9, src := c.tile, srcPkg := s.ua.pkg, pkg := s.ua.pkg, dest := c.issuer.tile, arg := v,
      cap := some (3, { c with operand := v }) }) ∧
    (∀ v q, q.kind = 9 → q.cap = some (3, { c with operand := v }) → s.deliver t q = s.answer c.op v))

/-- A context that waits under a condition that has cleared is Ready, and one Held in it keeps no wait; while the condition holds it waits on; a
context without a wait, or of a stopped tile, stays as it is. A structural wait clears once what it waits for no longer stands (02 R32). -/
def Obligations.WaitClearResults : Prop :=
  ∀ (s : State) (a : Agent),
    (s.agentStopped a = true → exec (.contextWaitClear a) s = .next s) ∧
    ((s.ctx a).st = .free ∨ (s.ctx a).st = .ready ∨ (s.ctx a).st = .done ∨ (s.ctx a).st = .held none → exec (.contextWaitClear a) s = .next s) ∧
    (s.agentStopped a = false → ∀ w, (s.ctx a).st = .waiting w ∨ (s.ctx a).st = .held (some w) →
      let u := (s.waitClears a w).1
      ((s.waitClears a w).2 = true → exec (.contextWaitClear a) s = .next (u.setCtx a (u.ctx a).unwait)) ∧
      ((s.waitClears a w).2 = false → exec (.contextWaitClear a) s = .next (u.post (.contextWaitClear a)))) ∧
    (∀ (c : Ctx) w, (c.st = .waiting w → c.unwait.st = .ready) ∧ (c.st = .held (some w) → c.unwait.st = .held none)) ∧
    (∀ k, s.waitClears a (.token k) = (s, (s.ctx a).kc k == 0)) ∧
    (∀ k, s.waitClears a (.tokenFull k) = (s, decide ((s.ctx a).kc k < 63))) ∧
    s.waitClears a .barrier = (s, !(s.ctx a).arr) ∧
    (∀ h, (s.waitClears a (.join h)).2 = true ↔ (s.ctx ⟨a.tile, h⟩).st = .done ∨ (s.ctx ⟨a.tile, h⟩).st = .free) ∧
    (∀ b, s.waitClears a (.structural b) = (s, !s.busy a b)) ∧
    (∀ rs, s.busy a (.result rs) = true ↔ ∃ r ∈ rs, (s.ctx a).pends r = true) ∧
    (s.busy a .matrix = true ↔ 4 ≤ (s.tile a.tile).mq.length)

/-- The graph ops. Behind its fence one on a record of this package leaves for its dispatcher with its result register waiting, counted by its
launch if it is a `tdec`; one for another package leaves the package, and its result register takes the answer; an identifier beyond 2^30 gets
status 5. At the dispatcher a decrement and a set act on a Pending record of the issuer's address space (a set also on an Eligible one) and
answer 0, and else the status that applies, changing nothing; a spawn makes a task of a template of that space, with its overflow blocks, and
answers its identifier, and else answers the refusal form (07 R186 to R190, 11 R323). What another package answers is a free choice among the
codes (log 20). A decrement that arrives counts as received for its launch; at a Pending record with a counter above 0 it takes 1 from it; at any
other slot it is reported as condition 1 and changes no record (11 R325, 23 R471). -/
def Obligations.GraphResults : Prop :=
  ((∀ (s : State) (f : EX),
    let free (scope : Nat) : Prop := s.fenceBusy s.cur 63 scope = false
    let h := (s.rs f.ra).toNat
    let n := parF f.par 11 0
    let sent (u : State) (g : GraphOp) : State :=
      ((u.onLaunch g.launch (fun l => l.send (akey u.cur) (b2n (g.kind == 0)))).awaitResult f.rc).post (.graphOpArrival { g with op := u.nextOp })
    let away (u : State) (g : GraphOp) : State :=
      (({ u with outbox := u.outbox ++ [{ cls := 2, kind := 5, pkg := h / 2 ^ 20, srcPkg := s.ua.pkg, arg := wd (h + g.amount * 2 ^ 32) }] } : State).onLaunch
        g.launch (fun l => (l.send (akey u.cur) (b2n (g.kind == 0))).receive (akey u.cur) (b2n (g.kind == 0)))).ws f.rc
          (awayAnswer g.kind (h / 2 ^ 20) (Config.freePick u.fc))
    (Readable s [f.ra] →
      (free 3 → (h / 2 ^ 20 = s.ua.pkg ∨ 2 ^ 30 ≤ h) →
        let u := (s.performAt s.cur.tile 3).showFenced s.cur 63
        (h < 2 ^ 30 → exec (.tdec f) s = ran (sent u (graphOp s f 0 n)) ∧ exec (.tsetc f) s = ran (sent u (graphOp s f 1 n)) ∧
          exec (.tsetcAdd f) s = ran (sent u (graphOp s f 2 n))) ∧
        (2 ^ 30 ≤ h → exec (.tdec f) s = ran (u.ws f.rc 5) ∧ exec (.tsetc f) s = ran (u.ws f.rc 5) ∧ exec (.tsetcAdd f) s = ran (u.ws f.rc 5))) ∧
      (free 4 → h / 2 ^ 20 ≠ s.ua.pkg → h < 2 ^ 30 →
        let u := ((s.performAt s.cur.tile 4).showFenced s.cur 63).podAcquire s.cur.tile
        exec (.tdec f) s = ran (away u (graphOp s f 0 n)) ∧ exec (.tsetc f) s = ran (away u (graphOp s f 1 n)) ∧
        exec (.tsetcAdd f) s = ran (away u (graphOp s f 2 n)))) ∧
    (∀ ps, Readable s [f.ra, f.rb] → free (if graphAway (graphOp s f 3 0) s.ua.pkg then 4 else 3) → checkAll s s.who 1 false (cut (s.rs f.rb) (16 * (f.fn9.toNat % 256))) = .ok ps →
      let u := if graphAway (graphOp s f 3 0) s.ua.pkg then ((s.performAt s.cur.tile 4).showFenced s.cur 63).podAcquire s.cur.tile
        else (s.performAt s.cur.tile 3).showFenced s.cur 63
      ∀ v bs, loadPieces u (u.view u.cur) 1 false false (cut (s.rs f.rb) (16 * (f.fn9.toNat % 256))) (s.rs f.rb) = .ok (v, bs) →
        ∃ g : GraphOp, exec (.tspawn f) s = ran (v.sendGraph f g) ∧ g.kind = 3 ∧ g.target = (v.rs f.ra).toNat ∧ g.amount = n ∧ g.issuer = v.cur ∧ g.rc = f.rc ∧
          g.renames.length = f.fn9.toNat % 256 ∧ g.die = (if f.par.getLsbD 20 then parF f.par 19 16 else (v.rs f.ra).toNat / 65536 % 16)) ∧
    (∀ (u : State) (g : GraphOp), (2 ^ 30 ≤ g.target → u.sendGraph f g = u.ws f.rc (if g.kind = 3 then 0xFFFFFFFFFFFFFF05 else 5)) ∧
      (g.target / 2 ^ 20 = u.ua.pkg → g.target < 2 ^ 30 → u.sendGraph f g = sent u g))) ∧
  (∀ (s : State) (m : GraphOp),
    let k := m.target % 2 ^ 20
    let r := s.record k
    let st := s.slotState k
    let u := s.onLaunch m.launch (fun l => l.receive (dieKey (k / 65536)) 1)
    (m.kind = 0 → exec (.graphOpArrival m) s = .next ((u.applyGraph m).1.giveResult m.issuer m.rc.toNat m.op (u.applyGraph m).2)) ∧
    (m.kind ≠ 0 → exec (.graphOpArrival m) s = .next ((s.applyGraph m).1.giveResult m.issuer m.rc.toNat m.op (s.applyGraph m).2)) ∧
    (m.kind ≠ 3 → (st = 0 ∨ 9 ≤ st → s.applyGraph m = (s, 5)) ∧
      (0 < st → st < 9 → asidOf (recRoot r) ≠ m.asid → s.applyGraph m = (s, 2)) ∧
      (0 < st → st < 9 → asidOf (recRoot r) = m.asid →
        (m.kind = 0 → recState r = 2 → recCnt r < m.amount → s.applyGraph m = (s, 3)) ∧
        (m.kind = 0 → recState r = 2 → m.amount ≤ recCnt r → s.applyGraph m = (s.setCount k (recCnt r - m.amount), 0)) ∧
        (m.kind = 0 → recState r ≠ 2 → s.applyGraph m = (s, 4)) ∧
        (m.kind ≠ 0 → recState r ≠ 2 → recState r ≠ 3 → s.applyGraph m = (s, 4)) ∧
        (m.kind = 1 → (recState r = 2 ∨ recState r = 3) → m.amount ≤ 4095 → s.applyGraph m = (s.setCount k m.amount, 0)) ∧
        (m.kind = 2 → (recState r = 2 ∨ recState r = 3) → recCnt r + m.amount ≤ 4095 →
          s.applyGraph m = (s.setCount k (recCnt r + m.amount), 0)) ∧
        (m.kind = 2 → (recState r = 2 ∨ recState r = 3) → 4095 < recCnt r + m.amount → s.applyGraph m = (s, 3)))) ∧
    (m.kind = 3 →
      (st = 0 ∨ 9 ≤ st → s.applyGraph m = (s, 0xFFFFFFFFFFFFFF05)) ∧
      (0 < st → st < 9 → asidOf (recRoot r) ≠ m.asid → s.applyGraph m = (s, 0xFFFFFFFFFFFFFF02)) ∧
      (0 < st → st < 9 → asidOf (recRoot r) = m.asid → st ≠ 1 → s.applyGraph m = (s, 0xFFFFFFFFFFFFFF04)) ∧
      (st = 1 → asidOf (recRoot r) = m.asid →
        let blocks := (s.blocksOf k).map s.record
        (s.allocMany m.die (blocks.length + 1) = none → s.applyGraph m = (s, 0xFFFFFFFFFFFFFF01)) ∧
        (∀ v j js, s.allocMany m.die (blocks.length + 1) = some (v, j :: js) →
          let n := spawnRecord m r js.head?
          let w := (((v.putBlocks m.renames blocks js).setRecord j n).setTask j { owner := m.launch })
          ((s.refuses j n).isSome = true → s.applyGraph m = (s, 0xFFFFFFFFFFFFFF04)) ∧
          (s.refuses j n = none → s.applyGraph m = (if m.amount = 0 then w.countZero j else w, BitVec.ofNat 64 (s.tid j)))))) ∧
    (m.amount ≤ 4095 → recState (spawnRecord m r none) = 2 ∧ recCnt (spawnRecord m r none) = m.amount))) ∧
  (∀ (s : State) (target : Nat) (sender : DecSender),
    let k := target % 2 ^ 20
    let u := s.onLaunch sender.launch (fun l => l.receive (dieKey (k / 65536)) 1)
    let st := s.slotState k
    (st = 2 → recCnt (s.record k) ≠ 0 → exec (.decrementArrival target sender) s = .next (u.setCount k (recCnt (s.record k) - 1))) ∧
    ((st ≠ 2 ∨ recCnt (s.record k) = 0) → exec (.decrementArrival target sender) s =
      .next (u.report none { cls := 2, reach := 1, detail := [(64, 1, 1), (68, 4, sender.id), (72, 4, target), (76, 1, st)] })))

/-- The dispatcher's decisions and fetches: none while quiesced; the first Eligible task that can be staged is, requests to pre-empt are raised,
and a decision stays due while an Eligible task is left; a footprint page is fetched through its task's address space into each of its frames,
one fetch of a die after another, none in the cycle in which it was queued, and a fetch that fails its translation or permission is a fetch fault
(11 R327 to R330, R489; 02 R45, R48; 14 R392; 16 R410). -/
def Obligations.DispatcherResults : Prop :=
  ∀ (s : State) (d : Nat),
    (s.owner.quiesced = true → exec (.dispatchDecision d) s = .next s) ∧
    (s.owner.quiesced = false → s.recsIn d 3 = [] → exec (.dispatchDecision d) s = .next s) ∧
    (∀ (u : State) k ks, (∀ v, u.tryStage k false = some v → u.stageFirst (k :: ks) = some v) ∧
      (u.tryStage k false = none → ∀ v, u.tryStage k true = some v → u.stageFirst (k :: ks) = some v) ∧
      (u.tryStage k false = none → u.tryStage k true = none → u.stageFirst (k :: ks) = u.stageFirst ks)) ∧
    (s.owner.quiesced = false → s.recsIn d 3 ≠ [] →
      let u := s.takePrios d
      let v := (u.stageFirst (u.eligible d)).getD u
      let w := (v.eligible d).foldl (fun w k => w.request k) v
      exec (.dispatchDecision d) s = .next (if w.recsIn d 3 = [] then w else w.wake d)) ∧
    (let u := (s.recsIn d 4).foldl (fun u k => (u.placePages k).checkRunnable k) s
     let x := u.die d
     (x.fetchQ.findIdx? (fun f => f.started.isNone) = none → exec (.footprintFetchStart d) s = .next (u.wakeFetch d)) ∧
     (∀ i f, x.fetchQ.findIdx? (fun f => f.started.isNone) = some i → x.fetchQ[i]? = some f →
       ((∃ g ∈ x.fetchQ, g.started.isSome = true) ∨ u.time ≤ f.queued → exec (.footprintFetchStart d) s = .next (u.wakeFetch d)) ∧
       (∀ c, (∀ g ∈ x.fetchQ, g.started = none) → f.queued < u.time → u.fetchLeaf f = .error c → exec (.footprintFetchStart d) s = .next ((u.failFetch d i f c.1 c.2.1 c.2.2).wakeFetch d)) ∧
       (∀ l, (∀ g ∈ x.fetchQ, g.started = none) → f.queued < u.time → u.fetchLeaf f = .ok l → exec (.footprintFetchStart d) s = .next ((((u.noteTlb f.tlb f.root f.src l).setDie d
         { x with fetchQ := x.fetchQ.modify i (fun f => { f with started := some l }) }).post (.footprintFetchComplete d)).wakeFetch d)))) ∧
    (let x := s.die d
     (x.fetchQ.findIdx? (fun f => f.started.isSome) = none → exec (.footprintFetchComplete d) s = .next s) ∧
     (∀ i f l, x.fetchQ.findIdx? (fun f => f.started.isSome) = some i → x.fetchQ[i]? = some f →
       (f.started = some l ∧ f.cut = false ∨ f.cut = true ∧ s.fetchLeaf f = .ok l) →
       (∀ w v, s.unitLines d .now l (BitVec.ofNat 64 f.src) 64 (l.pa f.src) = .error (.wait w v) →
         exec (.footprintFetchComplete d) s = .next (v.post (.footprintFetchComplete d))) ∧
       (∀ v bs, s.unitLines d .now l (BitVec.ofNat 64 f.src) 64 (l.pa f.src) = .ok (v, bs) →
         let live := f.dsts.filter (fun d => !d.gone)
         let u := v.setDie d { v.die d with fetchQ := (v.die d).fetchQ.eraseIdx i }
         let w := live.foldl (fun w y => w.fillStaged y.tile y.key y.frame (Page.ofBytes bs) (mkSpte 3 false false (f.src / 2048))) u
         exec (.footprintFetchComplete d) s =
           .next (((live.map (fun y => y.task)).dedup.foldl (fun w k => w.checkRunnable k) (w.fetchWritten d)).wakeFetch d))))

/-- The start and the end of a task's run: a Runnable task whose tiles are free of a running task enters Running on every rank; context 0 starts
at the record's address with its arguments in s1 to s4 and its private area's base in s30; a rank retires once `texit` waits and its work is
settled, and with the last one the task ends; a request to pre-empt freezes a task that has run past its budget (02 R37, R39, R43, R49; 11 R332). -/
def Obligations.TaskRunResults : Prop :=
  ∀ (s : State) (t : Nat),
    ((s.tile t).staged = none → exec (.taskEnterRunning t) s = .next s) ∧
    (∀ k, (s.tile t).staged = some k →
      (s.slotState k ≠ 5 ∨ s.owner.quiesced = true → exec (.taskEnterRunning t) s = .next s) ∧
      (s.slotState k = 5 → s.owner.quiesced = false → (∀ u ∈ (s.task k).tiles, (s.tile u).run = none ∧ (s.tile u).staged = some k) →
        let entered (u : State) (st : Option Nat) : State :=
          let u := u.setTask k { u.task k with
            bad := [], clocked := [], started := u.time, eff := u.effPrio k, nextQ := 0, qStat := [], units := [], arrived := [], retired := [], stamp := st, serial := u.nextOp }
          let v := { u.multicast k with nextOp := u.nextOp + 1 }
          ((s.task k).tiles.foldl (fun w x => w.startRank k x) (v.setRecState k 6)).wake (k / 65536)
        (recSnap (s.record k) = false → exec (.taskEnterRunning t) s = .next (entered s none)) ∧
        (recSnap (s.record k) = true →
          let h := s.snapStep (taskHoldKey k) (.task k)
          (∀ st, h.2 = some (some st) → exec (.taskEnterRunning t) s = .next (entered h.1 (some st))) ∧
          ((∀ st, h.2 ≠ some (some st)) → exec (.taskEnterRunning t) s = .next (h.1.post (.taskEnterRunning t))))) ∧
      ((∃ u ∈ (s.task k).tiles, (s.tile u).run ≠ none ∨ (s.tile u).staged ≠ some k) → exec (.taskEnterRunning t) s = .next s)) ∧
    (∀ r : BitVec 2048, (startCtx r).st = .ready ∧ (startCtx r).pc = BitVec.ofNat 64 (recF r 0 56 3 * 8) ∧
      (∀ i, i < 4 → (startCtx r).s.get 0 (1 + i) = recD r (8 + i)) ∧
      (startCtx r).s.get 0 30 = 0x9000000000000000 + BitVec.ofNat 64 (areaSize r) ∧ (startCtx r).hm = false) ∧
    (∀ k, (s.tile t).run = some k → s.stoppedTile t = false → (s.ctx ⟨t, 0⟩).st = .waiting .retire → (s.tile t).frz = none →
      (s.unsettled t k = true → exec (.taskRetirement t) s = .next (s.post (.taskRetirement t))) ∧
      (s.unsettled t k = false →
        let c := s.closeRank t
        let u := if (c.successors k).any (fun j => j / 65536 != c.ua.pkg * 16 + dieOf t) then (c.crossAll (dieOf t)).podRelease (dieOf t) else c
        let r := (u.tile t).rank
        let done := if (u.task k).retired.contains r then (u.task k).retired else r :: (u.task k).retired
        let v := u.setTask k { u.task k with retired := done }
        exec (.taskRetirement t) s =
          .next (if (List.range (u.task k).tiles.length).all (fun x => done.contains x) then v.endTask k else v))) ∧
    (∀ k, s.slotState k = 6 → (s.recsIn (k / 65536) 3).any (fun j => (s.task j).preempt == some k) = true → recWdog (s.record k) ≠ 0 →
      (∀ u ∈ (s.task k).tiles, (s.tile u).frz = none) →
      (recWdog (s.record k) < (s.task k).ran + (s.time - (s.task k).started) → exec (.watchdogExpiry k) s = .next (s.freezeTask k)) ∧
      ((s.task k).ran + (s.time - (s.task k).started) ≤ recWdog (s.record k) → exec (.watchdogExpiry k) s = .next (s.post (.watchdogExpiry k))))

/-- Freezing a tile: a request to a tile with a running task sets the stopping point six cycles on; at it the clocks stop, the record of the
fault is written and the dike starts; with every answer and fill in the caches are dropped and the sluice writes the image; where that meets a
fault the tile stays frozen and `tfreeze` gets status 4 (15 R394 to R399, R401). `tfreeze` and `trestore` in handler mode, their operands aligned
and their ranges permitted: a freeze of the executing tile is refused with status 1, waits while another is on its way to the tile, and else
leaves for it; there one meets no task (status 2), an image (status 3), a freeze that answers another, or it starts or joins the freeze; a
restore of an image that is refused answers its status, and else places the rank, with status 0 at once where its tile restarts at once and else
as it restarts. In task mode both trap (15 R394, R401, R402; 07 R193; 21 R440). The dispatcher's own restores: a task it froze waits for the
account, for higher tasks, for tiles and for a held line of a page, is restored, or is reported with the status that refuses it (23 R479, R484). -/
def Obligations.FreezeAndRestoreResults : Prop :=
  (∀ (s : State) (t : Nat) (image : Option Word),
    (∀ a q, (s.tile t).ask = some q → exec (.freezeRequestArrival t (some a)) s = .next (s.takeAsk t q)) ∧
    (image = none ∨ (s.tile t).ask = none → (s.tile t).run = none → exec (.freezeRequestArrival t image) s = .next s) ∧
    (image = none ∨ (s.tile t).ask = none → (s.tile t).run ≠ none → ∀ g, (s.tile t).frz = some g →
      exec (.freezeRequestArrival t image) s = .next (s.setTile t { s.tile t with frz := some g })) ∧
    (image = none ∨ (s.tile t).ask = none → (s.tile t).run ≠ none → (s.tile t).frz = none → exec (.freezeRequestArrival t image) s =
      .next ((s.setTile t { s.tile t with frz := some { stop := s.time + 6, image := image, root := Config.firmwareSpace (dieOf t) } }).post
        (.freezeStoppingPoint t))) ∧
    (∀ g, (s.tile t).frz = some g → g.stopped = false →
      let u : State := { s.setTile t { s.tile t with frz := some { g with stopped := true } } with time := max s.time g.stop }
      (g.awn = false → g.report = none → exec (.freezeStoppingPoint t) s = .next { u with agenda := s.agenda ++ [.dikeComplete t] }) ∧
      exec (.freezeStoppingPoint t) s = .next ((if g.awn then (u.writeFault t).reportHandler t else u.writeFault t).post (.dikeComplete t))) ∧
    (∀ (u : State) g (r : ErrRec) n, (u.tile t).frz = some g → g.report = some (n, r) →
      let v := u.setTile t { u.tile t with frz := some { g with report := none } }
      (∀ k, (u.tile t).run = some k → u.writeFault t = v.reportTask k { r with image := g.image.getD (v.imageAt t) }) ∧
      ((u.tile t).run = none → u.writeFault t = v.report none r)) ∧
    (∀ g k, (s.tile t).frz = some g → (s.tile t).run = some k → g.stopped = true → g.dike = false →
      let v := (s.tile t).pageIns.foldl (fun v p => v.finishPageIn t p.win p.page) s
      let es := if (s.tile t).rank = 0 then v.inboundEdges k else []
      let w := es.foldl (fun w e => if (w.task e.1).held.get false e.2 then w else w.askHold e.1 e.2 true) v
      (w.awaitsResponse t = true ∨ w.filling t = true ∨ (w.tile t).pageIns ≠ [] ∨ (∃ e ∈ es, w.edgeQuiet e.1 e.2 = false) →
        exec (.dikeComplete t) s = .next (w.post (.dikeComplete t))) ∧
      (w.awaitsResponse t = false → w.filling t = false → (w.tile t).pageIns = [] → (∀ e ∈ es, w.edgeQuiet e.1 e.2 = true) → (w.tile t).frz = some g →
        let u := (w.settleSnapshots t).dropCaches t
        exec (.dikeComplete t) s = .next ((u.setTile t { u.tile t with frz := some { g with dike := true } }).post (.sluiceImageWritten t)))) ∧
    (∀ g k, (s.tile t).frz = some g → (s.tile t).run = some k → g.dike = true → g.imaged = false →
      let kept := (s.tile t).imaged g.lean
      let segs := segments s.fc kept
      let bs := s.imageHeader t k g segs ++ segs.flatMap (fun x => x.2)
      let addr := g.image.getD (s.imageAt t)
      let root := if g.image.isSome then g.root else Config.firmwareSpace (dieOf t)
      let w := s.putImage (dieOf t) root (offset addr) (chunksOf 32 (bs.length / 32 + 1) bs)
      (w.2 = false → exec (.sluiceImageWritten t) s = .next (w.1.answerFreeze t 4)) ∧
      (w.2 = true →
        let im : Image := {
          task := k, rank := (s.tile t).rank, from_ := t, bytes := bs, ctxs := w.1.ctxs.filter (fun e => e.1 / 16 == t && e.1 % 16 ≤ 10),
          ops := w.1.domainOps t, tile := kept, xfers := w.1.xfers.filter (fun y => y.kind != 5 && y.agent.tile == t && y.task == k) }
        let u := w.1.drlAppend (dieOf t) (portAdd none (offset addr) bs.length) (asidOf root) 5 (w.1.tid k)
        let y := u.task k
        let v := ({ u with images := u.images.put w.1.nextOp im, nextOp := w.1.nextOp + 1 }).setTask k { y with
          images := y.images.put (s.tile t).rank addr, roots := y.roots.put (s.tile t).rank root,
          imageId := y.imageId.put (s.tile t).rank (w.1.nextOp + 1) }
        let z := v.setTile t { v.tile t with frz := some { g with imaged := true } }
        let whole := (z.task k).tiles.all (fun r => ((z.tile r).frz.map (fun g => g.imaged)).getD false)
        exec (.sluiceImageWritten t) s = .next (if whole then z.toFrozen k else z)))) ∧
  (∀ (s : State) (f : EX), Readable s [f.ra, f.rb] →
    let a := s.rs f.ra
    let b := s.rs f.rb
    (s.handler = false → exec (.tfreeze f) s = trapped s ⟨4, 0x2001, 0, 0, none⟩ ∧ exec (.trestore f) s = trapped s ⟨4, 0x2001, 0, 0, none⟩) ∧
    (s.handler = true → a.toNat < 2560 → b.toNat % 4096 = 0 → windowOf b = some 4 → checkArea s b = .ok () →
      let t := a.toNat
      let q : Freeze := { stop := 0, image := some b, root := s.root s.cur, lean := f.fn9.getLsbD 0, asker := some (s.cur, f.rc.toNat, s.nextOp) }
      let u := s.awaitResult f.rc
      (t = s.cur.tile → exec (.tfreeze f) s = ran (s.ws f.rc 1)) ∧
      (t ≠ s.cur.tile → (s.tile t).ask = none → (∀ g, (s.tile t).frz = some g → g.asker = none) →
        exec (.tfreeze f) s = ran ((u.setTile t { u.tile t with ask := some q }).post (.freezeRequestArrival t (some b)))) ∧
      (t ≠ s.cur.tile → (s.tile t).ask ≠ none ∨ (∃ g, (s.tile t).frz = some g ∧ g.asker ≠ none) →
        exec (.tfreeze f) s = waits s (.structural (.asker t)))) ∧
    (∀ t q, let v := s.setTile t { s.tile t with ask := none }
      ((s.tile t).run = none → (∀ g, (s.tile t).frz = some g → g.imaged = false) → s.takeAsk t q = v.answerAsker q 2) ∧
      (∀ g, (s.tile t).frz = some g → g.imaged = true → s.takeAsk t q = v.answerAsker q 3) ∧
      (∀ k, (s.tile t).run = some k → (s.tile t).frz = none →
        s.takeAsk t q = ((v.setTask k { v.task k with auto := false }).freezeTile t q).freezeGang t) ∧
      (∀ k g, (s.tile t).run = some k → (s.tile t).frz = some g → g.imaged = false →
        (g.asker ≠ none → s.takeAsk t q = s.post (.freezeRequestArrival t q.image)) ∧
        (g.asker = none → let w := v.setTile t { v.tile t with frz := some { g with image := q.image, root := q.root, lean := q.lean, asker := q.asker } }
          s.takeAsk t q = if g.dike && !w.agenda.contains (.sluiceImageWritten t) then w.post (.sluiceImageWritten t) else w)) ∧
      (∀ (p : Agent × Nat × Nat) n, q.asker = some p → s.answerAsker q n = s.giveResult p.1 p.2.1 p.2.2 (BitVec.ofNat 64 n))) ∧
    (s.handler = true → b.toNat < 2560 → a.toNat % 4096 = 0 → windowOf a = some 4 → ∀ pl, checkPiece s s.who a 256 1 false = .ok pl →
      exec (.trestore f) s = (match s.findImage (s.root s.cur) (offset a) b.toNat with
        | .error st => ran (s.ws f.rc (BitVec.ofNat 64 st))
        | .ok (id, im) =>
          if s.lastRank im.task im.rank && !s.admits (s.restoreCost im.task) then waits s (.structural (.restore im.task))
          else match readOrigins b.toNat im.task s (omitted (((im.tables (dieOf b.toNat)).map (·.1)).getD [])) with
            | .error (.trap c) => let v := s.reportTable c
              ran (v.ws f.rc 7)
            | .error (.wait w v) => settle s (.error (.wait w v))
            | .ok (v, m) => (match v.placeRank id im b.toNat m with
              | .error st => ran (v.ws f.rc (BitVec.ofNat 64 st))
              | .ok u =>
                let w := if u.allBack im.task then u.startGang im.task else u
                ran (if v.lastRank im.task im.rank then w.ws f.rc 0 else w.awaitRestart f b.toNat))))) ∧
  (∀ (s : State) (k : Nat),
    ((s.slotState k ≠ 7 ∨ (s.task k).auto = false ∨ (s.task k).faulted = true ∨ s.owner.quiesced = true) → exec (.gangRestore k) s = .next s) ∧
    (s.slotState k = 7 → (s.task k).auto = true → (s.task k).faulted = false → s.owner.quiesced = false →
      (s.outranked k = true ∨ s.admits (s.restoreCost k) = false → exec (.gangRestore k) s = .next (s.post (.gangRestore k))) ∧
      (s.outranked k = false → s.admits (s.restoreCost k) = true →
        (s.homesFor k (s.imagesInOrder k) [] = none → exec (.gangRestore k) s = .next (s.post (.gangRestore k))) ∧
        (∀ l, s.homesFor k (s.imagesInOrder k) [] = some l →
          (∀ v u, s.restoreTask k l = .ok (v, .ok u) → exec (.gangRestore k) s = .next u) ∧
          (∀ w v, s.restoreTask k l = .error (.wait w v) → exec (.gangRestore k) s = .next (v.post (.gangRestore k))) ∧
          (∀ v st, s.restoreTask k l = .ok (v, .error st) →
            exec (.gangRestore k) s = .next ((v.setTask k { s.task k with auto := false }).restoreRefused k st))))))

/-- A granule of a stream edge is written to the consumer's empty granule, which is full then and keeps its producer's count, and waits while
that is full or the consumer is on no tile; one of a closed edge, or without a consumer, is acknowledged; an acknowledged granule gives its edge
a permit back; a consumer's hold, or its end, is kept for the edge (11 R334, R335; 02 R55; 15 R396; 23 R470). -/
def Obligations.StreamEdgeResults : Prop :=
  ∀ (s : State) (g : EdgeGranule) (k i : Nat) (h : Bool) (m : Option (Nat × Nat)),
    ((s.task g.task).closed.get false g.edge = true ∨ s.peerEdge g.task g.edge = none →
      exec (.streamEdgeGranuleArrival g) s = .next (s.acknowledge g.task g.edge g.maker)) ∧
    (∀ c j, (s.task g.task).closed.get false g.edge = false → s.peerEdge g.task g.edge = some (c, j) →
      let r := regionPlace (recEdge (s.record g.task) g.edge) (recEdge (s.record c) j) g.gran
      (s.regionTable c = none → exec (.streamEdgeGranuleArrival g) s = .next (s.again (.streamEdgeGranuleArrival g))) ∧
      (∀ t running spt, s.regionTable c = some (t, running, spt) →
        let e := spt.get 0 r.1
        let p := (s.tile t).frame (r.1 / 8192) (place e)
        (loc e ≠ 1 ∨ p.full.getLsbD r.2 = true →
          exec (.streamEdgeGranuleArrival g) s = .next (s.again (.streamEdgeGranuleArrival g))) ∧
        (loc e = 1 → p.full.getLsbD r.2 = false → (∀ z, (s.tile t).frz = some z → z.imaged = false) → exec (.streamEdgeGranuleArrival g) s =
          .next (s.setTile t (((s.tile t).putRegion running r.1 e (p.putGranule r.2 g.data g.mask g.poisoned)).putMaker running (r.1 * 128 + r.2) g.maker))))) ∧
    (∀ (p : Page) (n : Nat) (d : BitVec 128), n < 128 → (p.putGranule n d (BitVec.allOnes 16) false).full.getLsbD n = true ∧
      ∀ j, j ≠ n → (p.putGranule n d (BitVec.allOnes 16) false).full.getLsbD j = p.full.getLsbD j) ∧
    exec (.permitReturn k ⟨i, m⟩) s = .next (s.acknowledge k i m) ∧
    (s.tasks.wf {} = true → (s.task k).permits.wf 0 = true → m = none →
      ((s.acknowledge k i m).task k).permits.get 0 i = (s.task k).permits.get 0 i - 1) ∧
    exec (.producerHoldArrival k i h) s = .next (s.setTask k { s.task k with held := (s.task k).held.set false i h })

/-- A doorbell of a queue that is read has every packet up to the written index read, and a write index more than the ring's size ahead stops the
queue; an error queue, a stopped queue and a quiesced package are not read, and none is while an update pauses the active complex. A packet with
an offence is complete and reported, and another is started by its type's act (14 R378, R380; 23 R474, R475). A packet that may start is started
behind its acquire scope: NOP and FENCE complete at once, a SIGNAL signals its event and completes, a WAIT completes on a Fired event and is
parked on another, a COPY of permitted ranges is given to the engine, a LAUNCH writes its record into a free slot, a GRAPH its records, with
those of counter 0 Eligible at once, and one that is refused is rejected with the offence at its lowest byte, the slots that were written freed
again; a completed packet acts its release scope, moves the read index and signals its completion event (14 R380 to R382). -/
def Obligations.CommandQueueResults : Prop :=
  (∀ (s : State) (q : Nat),
    (s.queue q = none → exec (.commandQueueDoorbell q) s = .next s) ∧
    (∀ x, s.queue q = some x → s.cx.pause ≠ none → exec (.commandQueueDoorbell q) s = .next (s.post (.commandQueueDoorbell q))) ∧
    (∀ x, s.queue q = some x → s.cx.pause = none →
      (x.isErr = true ∨ x.stopped = true ∨ s.owner.quiesced = true → exec (.commandQueueDoorbell q) s = .next s) ∧
      (x.isErr = false → x.stopped = false → s.owner.quiesced = false → (s.cx.failedA = false ∨ s.cx.failedB = false) → ∀ w, s.writeIndex x = some w →
        (x.size < ahead w x.read → exec (.commandQueueDoorbell q) s = .next (s.stopQueue q w)) ∧
        (ahead w x.read ≤ x.size → exec (.commandQueueDoorbell q) s =
          .next ((List.range (ahead w x.read - ahead x.write x.read)).foldl (fun u i => u.readPacket q ((x.write + i) % 2 ^ 32)) s))) ∧
      (∀ i,
        let keep (p : BitVec 1024) : State := s.setQueue q { x with pkts := x.pkts.put i p, write := (i + 1) % 2 ^ 32 }
        (s.packetAt x i = none → s.readPacket q i = (keep 0).rejectPacket q i 0 (0, 3)) ∧
        (∀ p o, s.packetAt x i = some p → firstOffence (s.offences q x p) = some o → s.readPacket q i = (keep p).rejectPacket q i (pkTag p) o) ∧
        (∀ p, s.packetAt x i = some p → firstOffence (s.offences q x p) = none → s.readPacket q i = (keep p).post (packetAct q i p)) ∧
        (∀ p, packetBad p = [] ∨ pkType p ≠ 1 → s.offences q x p = packetBad p)))) ∧
  (∀ (s : State) (q i : Nat) (x : Queue) (p : BitVec 1024), s.queue q = some x → x.pkts.find i = some p → x.status.get 0 i = 0 →
    let u := (s.acquireScope (pkAcquire p)).markPacket q i 1
    let e := pk p 16 2
    (x.mayStart i (pkBarrier p) = false → exec (packetAct q i p) s = .next (s.post (packetAct q i p))) ∧
    (x.mayStart i (pkBarrier p) = true →
      (pkType p = 0 → exec (.nopPacket q i) s = .next (u.completePacket q i)) ∧
      (pkType p = 6 → exec (.fencePacket q i) s = .next (u.completePacket q i)) ∧
      (pkType p = 4 → exec (.signalPacket q i) s = .next ((u.eventSig e (pk p 18 2)).1.completePacket q i)) ∧
      (pkType p = 5 → (u.event e).state = 2 → exec (.waitPacket q i) s = .next (u.completePacket q i)) ∧
      (∀ y, pkType p = 5 → (u.event e).state ≠ 2 → u.queue q = some y → exec (.waitPacket q i) s =
        .next ((u.setQueue q { y with parked := y.parked ++ [(i, e)] }).spillWaiter e (.queue q))) ∧
      (∀ ks kd, pkType p = 3 → u.rangeLeaves x.desc.gvroot 1 (pk p 16 8) (pk p 32 8) = some ks →
        u.rangeLeaves x.desc.gvroot 2 (pk p 24 8) (pk p 32 8) = some kd → pk p 32 8 ≠ 0 → ∃ d, d < 16 ∧ exec (.copyPacket q i) s = .next (({ u with
          xfers := u.xfers ++ [({
            op := u.nextOp, q := q, task := i, agent := ⟨d * 160, 14⟩, hand := true, kind := 5, root := x.desc.gvroot,
            src := BitVec.ofNat 64 (pk p 16 8), dsts := [{ addr := BitVec.ofNat 64 (pk p 24 8) }], row := pk p 32 8, checked := true,
            kept := (ks ++ kd).dedup } : Xfer)],
          nextOp := u.nextOp + 1, ops := u.ops.put u.nextOp { agent := ⟨d * 160, 14⟩, path := 2, kw := 0 } }).post (.transferCompletion u.nextOp))) ∧
      (pkType p = 3 → u.rangeOk x.desc.gvroot 1 (pk p 16 8) (pk p 32 8) = false →
        exec (.copyPacket q i) s = .next (s.rejectPacket q i (pkTag p) (16, 4))) ∧
      (pkType p = 3 → u.rangeOk x.desc.gvroot 1 (pk p 16 8) (pk p 32 8) = true → u.rangeOk x.desc.gvroot 2 (pk p 24 8) (pk p 32 8) = false →
        exec (.copyPacket q i) s = .next (s.rejectPacket q i (pkTag p) (24, 4))) ∧
      (pkType p = 3 → pk p 32 8 = 0 →
        exec (.copyPacket q i) s = .next (u.completePacket q i)) ∧
      (∀ o, pkType p = 1 → firstOffence (u.launchBad q x p) = some o → exec (.launchPacket q i) s = .next (s.rejectPacket q i (pkTag p) o)) ∧
      (pkType p = 1 → firstOffence (u.launchBad q x p) = none →
        (u.allocSlot (pk p 26 1 / 4 % 16) = none → exec (.launchPacket q i) s = .next (s.post (.launchPacket q i))) ∧
        (∀ v k, u.allocSlot (pk p 26 1 / 4 % 16) = some (v, k) → exec (.launchPacket q i) s =
          .next ((((v.setRecord k (launchRecord q x p ((v.launchFoot x p).getD 0))).noteTaken (pk p 26 1 / 4 % 16) q i).beginLaunch q i [k]).countZero k))) ∧
      (pkType p = 2 → u.readRange x.desc.gvroot (257 * pk p 24 4 / 4096 + 2) (pk p 16 8) (257 * pk p 24 4) = none →
        exec (.graphPacket q i) s = .next (s.rejectPacket q i (pkTag p) (16, 3))) ∧
      (pkType p = 2 → ∀ bs, u.readRange x.desc.gvroot (257 * pk p 24 4 / 4096 + 2) (pk p 16 8) (257 * pk p 24 4) = some bs →
        let n := pk p 24 4
        let es := (List.range n).map (graphEntry bs)
        let die (j : Nat) : Nat := (((bs.drop (256 * n))[j]?).getD 0).toNat
        let recs := (graphRecords es die n).1
        let bad := (graphRecords es die n).2 ++ graphBad es die n recs ++ recordsBad q x (pkQp p) es recs
        let found := if (∀ j < n, die j ≤ 15) then u.allocFor die (List.range n) else none
        let refused (o : Offence) (dies : List Nat) : Prop := exec (.graphPacket q i) s =
          .next ((s.takeAndFree (if o.2 = 2 then dies else [])).rejectPacket q i (pkTag p) (o.1 % 65536, o.2))
        (found = none → firstOffence bad = none → exec (.graphPacket q i) s = .next (s.post (.graphPacket q i))) ∧
        (∀ o, found = none → firstOffence bad = some o → refused o []) ∧
        (∀ v slots, found = some (v, slots) →
        let w := v.writeGraph q x (pkQp p) es recs slots
        let ks := (slots.filter (fun e => recs.any (fun p => p.1 == e.1))).map (fun e => e.2)
        let y := ((slots.map (fun e => e.2 / 65536)).dedup).foldl (fun y d => y.noteTaken d q i) w
        let run := ks.filter (fun k => recState (w.record k) = 2)
        (∀ o, firstOffence (bad ++ w.graphRefused recs slots) = some o → refused o ((List.range n).map die)) ∧
        (firstOffence (bad ++ w.graphRefused recs slots) = none →
          (run = [] → exec (.graphPacket q i) s = .next (y.completePacket q i)) ∧
          (run ≠ [] → exec (.graphPacket q i) s = .next (run.foldl (fun z k =>
            if recState (z.record k) = 2 ∧ recCnt (z.record k) = 0 then z.countZero k else z) (y.beginLaunch q i run))))))) ∧
    s.takeAndFree [] = s ∧
    (∀ ds v l, s.allocFor id ds = some (v, l) → s.takeAndFree ds = l.foldl (fun u e => u.freeSlot e.2) v) ∧
    (let v := (s.cleanLines (fun _ => true)).markPacket q i 2
     exec (.packetCompletion q i) s = .next (if pk p 10 1 % 2 = 1 then (v.eventSig (pk p 8 2) 1).1 else v)))

/-- Control messages answer their sender: status 1 to one who may not send them, 2 where they are malformed, 3 where the state refuses them, and
0 with their effect: a claim elects its sender, a heartbeat renews the lease, a handover names a successor, a queue is created, destroyed or
given a priority, the power limit is set, a region is registered. A lease that has lapsed has no owner any more as a message is looked at. A SEND
that is too short or too long for its type, of a type that does not exist, or with non-zero bytes where the table has zeros is malformed; the
reply has its type plus 0x8000 (14 R377, R383 to R387; 01 R22). Ownership ends three heartbeat intervals after the last heartbeat, while no
update pauses, with a new claim nonce, and a handover one second after it was opened; neither acts before (14 R384, R387). -/
def Obligations.OwnerMessageResults : Prop :=
  (∀ (s : State) (m : Msg),
    let owner := s.owner.digest = some m.key
    let answer (u : State) (typ st : Nat) : Host.Outcome State Fault Refusal := .next { u with
      replies := u.replies ++ [{ qp := m.qp, tag := m.tag, status := st, data := [], type := typ + 0x8000 }], qps := bindPort u.qps m.qp m.port,
      hosts := bindQp u.hosts m.qp m.key }
    exec (.reservedControlMessage m) s = answer s (m.typ % 2 ^ 15) 2 ∧
    (∀ c : ClaimBody,
      let d := Config.sha384 (leBytes 96 c.pub.toNat)
      let u := s.due
      ((∃ x, u.owner.digest = some x) → (u.owner.heir ≠ some d ∨ u.owner.heirAt ≤ u.time) → exec (.claim m c) s = answer u 1 1) ∧
      ((u.owner.digest = none ∨ (u.owner.heir = some d ∧ u.time < u.owner.heirAt)) →
        (c.chain.length = 0 ∨ 3888 < c.chain.length → exec (.claim m c) s = answer u 1 2) ∧
        (1 ≤ c.chain.length → c.chain.length ≤ 3888 → exec (.claim m c) s = (if u.claimValid c then answer (u.elect d) 1 0 else answer u 1 1) ∧
          (u.elect d).owner.digest = some d ∧ (u.elect d).owner.beatAt = u.time))) ∧
    (¬ owner → s.lapsed = false → s.cx.pause = none → ∀ ms watts q prio desc reg heir, exec (.heartbeat m ms) s = answer s 2 1 ∧
      exec (.handover m heir) s = answer s 3 1 ∧ exec (.qcreate m q desc) s = answer s 4 1 ∧ exec (.qdestroy m q) s = answer s 5 1 ∧
      exec (.qprio m q prio) s = answer s 6 1 ∧ exec (.setlimit m watts) s = answer s 7 1 ∧
      exec (.mreg m reg) s = answer s 8 1 ∧ exec (.quiesce m) s = answer s 10 1 ∧ exec (.resume m) s = answer s 11 1) ∧
    (s.lapsed = true → ∀ ms watts q prio desc reg heir, exec (.heartbeat m ms) s = answer s.lapse 2 1 ∧ exec (.handover m heir) s = answer s.lapse 3 1 ∧
      exec (.qcreate m q desc) s = answer s.lapse 4 1 ∧ exec (.qdestroy m q) s = answer s.lapse 5 1 ∧ exec (.qprio m q prio) s = answer s.lapse 6 1 ∧
      exec (.setlimit m watts) s = answer s.lapse 7 1 ∧ exec (.mreg m reg) s = answer s.lapse 8 1 ∧ exec (.quiesce m) s = answer s.lapse 10 1 ∧
      exec (.resume m) s = answer s.lapse 11 1) ∧
    (s.cx.pause ≠ none → ∀ ms, exec (.heartbeat m ms) s = .next (s.post (.heartbeat m ms))) ∧
    (owner → s.lapsed = false →
      (∀ ms, s.cx.pause = none → (ms ≠ 0 ∧ (ms < 10 ∨ 10000 < ms)) → exec (.heartbeat m ms) s = answer s 2 2) ∧
      (∀ ms, s.cx.pause = none → (ms = 0 ∨ (10 ≤ ms ∧ ms ≤ 10000)) → exec (.heartbeat m ms) s =
        answer { s with owner := { s.owner with beatAt := s.time, beatMs := if ms = 0 then s.owner.beatMs else ms } } 2 0) ∧
      (∀ d, exec (.handover m d) s = answer { s with
        owner := { s.owner with heir := some d, heirAt := s.time + 1000 * 3600000 }, agenda := s.agenda ++ [.handoverLapse] } 3 0) ∧
      (∀ w, w < 1000 ∨ 6000 < w → exec (.setlimit m w) s = answer s 7 2) ∧
      (∀ w, 1000 ≤ w → w ≤ 6000 → exec (.setlimit m w) s = answer { s with limit := w } 7 0) ∧
      (∀ q d, q ≤ 1023 → descBad d = false → s.queue q = none → s.errqOk q d.errq = true →
        let e := match s.queue d.errq with
          | some x => s.setQueue d.errq { x with isErr := true }
          | none => s
        let u := e.setQueue q { desc := d, base := d.base, size := 2 ^ d.log, prio := d.prio, isErr := e.queues.any (fun x => x.2.desc.errq == q) }
        let v : State := { u with qps := bindPort u.qps d.qp m.port, hosts := bindQp u.hosts d.qp m.key }
        exec (.qcreate m q d) s = answer (if v.agenda.contains .queueWaitCycleSweep then v else
          { v with sweepAt := v.time + 3600000 }.post .queueWaitCycleSweep) 4 0) ∧
      (∀ q d, q ≤ 1023 → descBad d = false → (s.queue q).isSome = true ∨ s.errqOk q d.errq = false → exec (.qcreate m q d) s = answer s 4 3) ∧
      (∀ q d prio, 1023 < q → exec (.qcreate m q d) s = answer s 4 2 ∧ exec (.qdestroy m q) s = answer s 5 2 ∧ exec (.qprio m q prio) s = answer s 6 2) ∧
      (∀ q d, descBad d = true → exec (.qcreate m q d) s = answer s 4 2) ∧
      (∀ q prio, 7 < prio → exec (.qprio m q prio) s = answer s 6 2) ∧
      (∀ q, q ≤ 1023 → s.queue q = none → exec (.qdestroy m q) s = answer s 5 3) ∧
      (∀ q x, q ≤ 1023 → s.queue q = some x →
        (x.pkts = [] → (x.isErr = true ∨ x.stopped = true ∨ s.unread x = false) → exec (.qdestroy m q) s = answer { s with queues := s.queues.del q } 5 0) ∧
        (x.pkts ≠ [] ∨ (x.isErr = false ∧ x.stopped = false ∧ s.unread x = true) → exec (.qdestroy m q) s = .next (s.post (.qdestroy m q)))) ∧
      (∀ q prio, q ≤ 1023 → prio ≤ 7 → (s.queue q = none ∨ ∃ x, s.queue q = some x ∧ x.stopped = true) → exec (.qprio m q prio) s = answer s 6 3) ∧
      (∀ q prio x, q ≤ 1023 → prio ≤ 7 → s.queue q = some x → x.stopped = false →
        let u := s.setQueue q { x with prio := prio }
        let mine := (u.recs.filter (fun e => recQv e.2 && recQueue e.2 == q && (u.slotState e.1 == 2 || u.slotState e.1 == 3))).map (fun e => e.1)
        exec (.qprio m q prio) s = answer (mine.foldl (fun v k =>
          let w := v.setTask k { v.task k with newPrio := some prio }
          if w.slotState k = 3 then w.wake (k / 65536) else w) u) 6 0) ∧
      (∀ r : RegionDesc, 2 ^ 57 ≤ r.base.toNat ∨ r.base.toNat % 4096 ≠ 0 ∨ r.len % 4096 ≠ 0 ∨ r.len < 4096 ∨ 7 < r.rights.toNat ∨ 65535 < r.asid →
        exec (.mreg m r) s = answer s 8 2) ∧
      (∀ r : RegionDesc, r.base.toNat < 2 ^ 57 → r.base.toNat % 4096 = 0 → r.len % 4096 = 0 → 4096 ≤ r.len → r.rights.toNat ≤ 7 → r.asid ≤ 65535 →
        exec (.mreg m r) s = .next { s with
          regions := s.regions.put s.freshKey { desc := r, key := s.freshKey },
          replies := s.replies ++ [{ qp := m.qp, tag := m.tag, status := 0, data := leBytes 4 s.freshKey, type := 0x8008 }],
          qps := bindPort s.qps m.qp m.port, hosts := bindQp s.hosts m.qp m.key })) ∧
    (∀ (qps : SMap Nat) qp (port : Fin 8), (qps.find qp = some 256 → bindPort qps qp port = qps) ∧
      (qps.find qp ≠ some 256 → (qps.length < 4096 ∨ (qps.find qp).isSome = true → bindPort qps qp port = qps.put qp port.val) ∧
        (4096 ≤ qps.length → qps.find qp = none → bindPort qps qp port = qps))) ∧
    (∀ key qp port carried bs,
      let typ := leNat (bs.take 2)
      let a := sendAct key qp port carried bs
      let msg : Msg := { key := key, qp := qp, port := port, tag := leNat ((bs.drop 4).take 4), typ := typ }
      (bs.length < 8 ∨ 4096 < bs.length ∨ typ = 0 ∨ 15 < typ ∨ leNat ((bs.drop 2).take 2) ≠ 0 ∨ (∃ n, bodyBytes typ = some n ∧ bs.length < 8 + n) →
        a = .reservedControlMessage msg) ∧
      (typ = 2 → 12 ≤ bs.length → bs.length ≤ 4096 → leNat ((bs.drop 2).take 2) = 0 → a = .heartbeat msg (leNat ((bs.drop 8).take 4))) ∧
      (typ = 3 → 56 ≤ bs.length → bs.length ≤ 4096 → leNat ((bs.drop 2).take 2) = 0 →
        a = .handover msg (BitVec.ofNat 384 (leNat ((bs.drop 8).take 48)))) ∧
      (typ = 10 → 8 ≤ bs.length → bs.length ≤ 4096 → leNat ((bs.drop 2).take 2) = 0 → a = .quiesce msg) ∧
      (∀ z, z ∈ bodyZeros typ → leNat (((bs.drop 8).drop z.1).take z.2) ≠ 0 → a = .reservedControlMessage msg)) ∧
    (∀ r : Reply, r.bytes.take 8 = leBytes 2 r.type ++ leBytes 1 r.status ++ leBytes 1 0 ++ leBytes 4 r.tag ∧ r.bytes.drop 8 = r.data)) ∧
  (∀ (s : State) (d : BitVec 384),
    (s.owner.digest = none → exec .leaseLapse s = .next s) ∧
    (s.owner.heir = none → exec .handoverLapse s = .next s) ∧
    (s.owner.digest = some d → s.cx.pause ≠ none → exec .leaseLapse s = .next (s.post .leaseLapse)) ∧
    (s.lapsed = true ↔ (∃ d, s.owner.digest = some d) ∧ s.cx.pause = none ∧ s.owner.beatAt + 3 * s.owner.beatMs * 3600000 < s.time) ∧
    (s.owner.digest = some d → s.cx.pause = none →
      (s.time < s.owner.beatAt + 3 * s.owner.beatMs * 3600000 → exec .leaseLapse s = .next (s.post .leaseLapse)) ∧
      (s.owner.beatAt + 3 * s.owner.beatMs * 3600000 ≤ s.time → ∃ t : State, exec .leaseLapse s = .next t ∧ t.owner.digest = none ∧ t.owner.heir = none ∧
        t.owner.nonce = Config.nonce s.fc ∧
        t.queues = s.queues ∧ t.tasks = s.tasks ∧ t.recs = s.recs ∧ t.mem = s.mem)) ∧
    (s.owner.heir = some d →
      (s.time < s.owner.heirAt → exec .handoverLapse s = .next (s.post .handoverLapse)) ∧
      (s.owner.heirAt ≤ s.time → exec .handoverLapse s = .next { s with owner := { s.owner with heir := none } })))

/-- The other messages of an owner and of anyone: an image that verifies is booted and measured by the standby before the version check can
refuse it; then the active complex pauses until it stands at a packet boundary, and the standby becomes active with the lease longer by the
pause; quiescence freezes what runs and answers once nothing does, and resuming, after that, ends it; reports and status answer anyone; a Frozen
task without an image is made Eligible again, another is restored from its images once the account admits it and tiles are free, and one that is
discarded leaves its slot with a report once its transfers are complete (14 R388, R389, R390, R392; 23 R467 to R470, R489). -/
def Obligations.ManagementMessageResults : Prop :=
  ∀ (s : State) (m : Msg),
    let owner := s.owner.digest = some m.key ∧ s.lapsed = false
    (∀ b : UpdateBody, owner → s.cx.pause = none → (b.reg = 0 ∧ b.digest = 0 ∨ (5 ≤ b.reg ∧ b.reg ≤ 7)) → b.addr.toNat < 2 ^ 57 →
      let good := s.stageValid b = true ∧ s.cx.standbyRuns = true
      let u := s.extendMr (2 - s.cx.active) b.stage.digest
      (¬ good → exec (.update m b) s = .next (s.answerTo m 9 3 [])) ∧
      (good → s.cx.version < b.minVer ∨ b.maxVer < s.cx.version → exec (.update m b) s = .next (u.answerTo m 9 3 [])) ∧
      (good → b.minVer ≤ s.cx.version → s.cx.version ≤ b.maxVer → exec (.update m b) s =
        .next (({ u with cx := { u.cx with pause := some (s.time, m) } } : State).post (.update m b)))) ∧
    (∀ (b : UpdateBody) since m', s.cx.pause = some (since, m') →
      (m' ≠ m ∨ (∃ e ∈ s.queues, ∃ p ∈ e.2.pkts, e.2.status.get 0 p.1 = 0) → exec (.update m b) s = .next (s.post (.update m b))) ∧
      (m' = m → (∀ e ∈ s.queues, ∀ p ∈ e.2.pkts, e.2.status.get 0 p.1 ≠ 0) →
        let now := 1 - s.cx.active
        let u := ({ s with cx := { s.cx with active := now, version := Config.freePick s.fc % 2 ^ 32, pause := none },
                           owner := { s.owner with beatAt := s.owner.beatAt + (s.time - since) } } : State).extendMr (2 - now) b.stage.digest
        let v := if b.reg = 0 then u else u.extendMr b.reg b.digest
        exec (.update m b) s = .next ((v.queues.foldl (fun (y : State) (e : Nat × Queue) => y.post (.commandQueueDoorbell e.1)) v).answerTo m 9 0 []))) ∧
    (owner →
      let quiet : State := { s with owner := { s.owner with quiesced := true } }
      (s.tasksIn 6 = [] → exec (.quiesce m) s = .next (quiet.answerTo m 10 0 [])) ∧
      (s.tasksIn 6 ≠ [] → s.owner.quiesced = true → exec (.quiesce m) s = .next (quiet.post (.quiesce m))) ∧
      (s.tasksIn 6 ≠ [] → s.owner.quiesced = false →
        exec (.quiesce m) s = .next (((s.tasksIn 6).foldl (fun u k => u.freezeTask k) quiet).post (.quiesce m))) ∧
      (s.quiescing = true → exec (.resume m) s = .next (s.post (.resume m))) ∧
      (s.quiescing = true ↔ s.owner.quiesced = true ∧ ∃ m', Instr.quiesce m' ∈ s.agenda) ∧
      (let u : State := { s with owner := { s.owner with quiesced := false } }
       let v := ((u.tasksIn 7).filter (fun k => (u.task k).auto && !(u.task k).faulted)).foldl (fun v k => v.post (.gangRestore k)) u
       let w := (v.tasksIn 5).foldl (fun w k => w.post (.taskEnterRunning ((w.task k).tiles.headD 0))) v
       let x := ((w.tasksIn 3).map (fun k => k / 65536)).dedup.foldl (fun x d => x.wake d) w
       s.quiescing = false →
         exec (.resume m) s = .next ((x.queues.foldl (fun (y : State) (e : Nat × Queue) => y.post (.commandQueueDoorbell e.1)) x).answerTo m 11 0 []))) ∧
    (∀ b : UpdateBody, owner → s.cx.pause = none →
      ((b.reg ≠ 0 ∧ b.reg < 5) ∨ 7 < b.reg ∨ (b.reg = 0 ∧ b.digest ≠ 0) ∨ 2 ^ 57 ≤ b.addr.toNat) → exec (.update m b) s = .next (s.answerTo m 9 2 [])) ∧
    (∀ b task tile clear send, s.owner.digest ≠ some m.key → s.lapsed = false → (s.cx.pause = none → exec (.update m b) s = .next (s.answerTo m 9 1 [])) ∧
      exec (.frestore m task tile clear) s = .next (s.answerTo m 14 1 []) ∧ exec (.fdiscard m task send) s = .next (s.answerTo m 15 1 [])) ∧
    (∀ b task tile clear send, s.lapsed = true → exec (.update m b) s = .next (s.lapse.answerTo m 9 1 []) ∧
      exec (.frestore m task tile clear) s = .next (s.lapse.answerTo m 14 1 []) ∧ exec (.fdiscard m task send) s = .next (s.lapse.answerTo m 15 1 [])) ∧
    (∀ n : BitVec 256,
      let body := leBytes 32 n.toNat ++ leBytes 2 0x0A10 ++ leBytes 6 0 ++ (List.range 8).flatMap (fun i => leBytes 48 (s.mr.get 0 i).toNat) ++
        leBytes 4 s.cx.version ++ leBytes 4 0 ++ leBytes 8 s.time
      let cert := Config.deviceCert.take 3544
      exec (.report m n) s = .next (s.answerTo m 12 0
        (body ++ leBytes 96 (Config.deviceSign (Config.sha384 body)).toNat ++ leBytes 2 cert.length ++ leBytes 6 0 ++ cert))) ∧
    (∀ first,
      let u := s.due
      let o := u.owner
      let qs := (u.queues.filter (fun e => decide (first ≤ e.1))).take 332
      exec (.status m first) s = .next (u.answerTo m 13 0 (leBytes 48 ((o.digest.map BitVec.toNat).getD 0) ++
        leBytes 1 (if o.digest = none then 0 else if o.heir ≠ none then 2 else 1) ++ leBytes 3 0 ++ leBytes 4 o.beatMs ++ leBytes 32 o.nonce.toNat ++
        leBytes 8 (BitVec.ofInt 64 u.budget).toNat ++ leBytes 4 u.limit ++ leBytes 4 qs.length ++
        qs.flatMap (fun e => leBytes 2 e.1 ++ leBytes 1 e.2.prio ++ leBytes 1 0 ++ leBytes 4 e.2.read ++ leBytes 4 ((u.writeIndex e.2).getD 0))))) ∧
    (∀ task tile clear, owner → tile < 2560 ∨ tile = 0xFFFF → task / 2 ^ 20 = s.ua.pkg → s.slotState (task % 2 ^ 20) = 7 →
      (s.task (task % 2 ^ 20)).imageId ≠ [] →
      let k := task % 2 ^ 20
      let u := if clear then s.clearFaults k else s
      (u.admits (u.restoreCost k) = false ∨ u.frestoreHomes k tile = none →
        exec (.frestore m task tile clear) s = .next (s.post (.frestore m task tile clear))) ∧
      (∀ l, u.admits (u.restoreCost k) = true → u.frestoreHomes k tile = some l →
        (∀ w v, u.restoreTask k l = .ok (w, .ok v) → exec (.frestore m task tile clear) s = .next (v.answerTo m 14 0 [])) ∧
        (∀ w v, u.restoreTask k l = .error (.wait w v) → exec (.frestore m task tile clear) s = .next (v.post (.frestore m task tile clear))) ∧
        (∀ v st, u.restoreTask k l = .ok (v, .error st) →
          exec (.frestore m task tile clear) s = .next ((({ v with tiles := s.tiles } : State).restoreRefused k st).answerTo m 14 3 [])))) ∧
    (∀ task tile clear, owner → 2560 ≤ tile → tile ≠ 0xFFFF →
      (task / 2 ^ 20 ≠ s.ua.pkg ∨ s.slotState (task % 2 ^ 20) ≠ 7 ∨ (s.task (task % 2 ^ 20)).imageId ≠ []) →
      exec (.frestore m task tile clear) s = .next (s.answerTo m 14 2 [])) ∧
    (∀ task tile clear, owner → task / 2 ^ 20 = s.ua.pkg → s.slotState (task % 2 ^ 20) = 7 →
      (s.task (task % 2 ^ 20)).imageId = [] →
      let k := task % 2 ^ 20
      exec (.frestore m task tile clear) s = .next ((((s.setRecord k (setRecD (setRecF (s.record k) 1 63 60 3) 23 (BitVec.ofNat 64 s.time))).setTask k
        { s.task k with faulted := false }).wake (k / 65536)).answerTo m 14 0 [])) ∧
    (∀ task tile clear, owner → (tile < 2560 ∨ tile = 0xFFFF) → (task / 2 ^ 20 ≠ s.ua.pkg ∨ s.slotState (task % 2 ^ 20) ≠ 7) →
      exec (.frestore m task tile clear) s = .next (s.answerTo m 14 3 [])) ∧
    (∀ task send, owner → task / 2 ^ 20 = s.ua.pkg →
      (s.slotState (task % 2 ^ 20) = 2 ∨ s.slotState (task % 2 ^ 20) = 3 ∨ s.slotState (task % 2 ^ 20) = 7) →
      let k := task % 2 ^ 20
      let l := s.taskImages k
      let shelves := l.map (fun e => shelf e.1)
      let u := ((((s.dropImages k).dropWaiters shelves).dropStamps k shelves).freePlaces l).reconcile k (l.map (fun e => e.2))
      let done := l.foldl (fun (v : Option State) e => v.bind (fun v => v.settleXfers k e.2)) (some u.1)
      (∀ v, done = some v →
        let w := (v.clearShelves shelves).retireRecord k send
        exec (.fdiscard m task send) s = .next ((w.report (some (recQueue (s.record k)))
          { cls := 1, reach := 2, task := (v.clearShelves shelves).tid k, detail := discardDetail send u.2 }).answerTo m 15 0 [])) ∧
      (done = none → exec (.fdiscard m task send) s =
        .next ((((s.dirs.filter (fun e => e.2.ovf)).map (fun e => e.1)).foldl (fun v n => v.askHandler n) s).post (.fdiscard m task send)))) ∧
    (∀ task send, owner →
      (task / 2 ^ 20 ≠ s.ua.pkg ∨ (s.slotState (task % 2 ^ 20) ≠ 2 ∧ s.slotState (task % 2 ^ 20) ≠ 3 ∧ s.slotState (task % 2 ^ 20) ≠ 7)) →
      exec (.fdiscard m task send) s = .next (s.answerTo m 15 3 []))

/-- An RDMA request whose key grants its right over its range is performed through the region's address space and answered, waits while a home of
its lines holds writes back, and rings the queues whose write index it writes; one without that grant or permission, or of a host that is not the
owner and would change memory, is refused, and one of a poisoned line answered with an error; on a queue pair in the error state nothing happens
(14 R375, R376, R378). UALink: the first bring-up gives the package its number and pod, and a later one nothing; transactions on this package's
memory are performed at its homes and answered, wait while a home holds writes back, and ones outside it or too long are refused; a timed-out
port is contained and reported; a lost host port's queue pairs are in the error state (14 R391; 23 R481, R482). -/
def Obligations.HostLinkResults : Prop :=
  (∀ (s : State) (r : Rdma),
    let va := r.va.toNat
    let reply (u : State) (data : List Byte) : State := { u with replies := u.replies ++ [{ qp := r.qp, tag := 0, status := 0, data := data }] }
    (s.qpUp r.qp = false → exec (.rdmaWrite r) s = .next s ∧ exec (.rdmaRead r) s = .next s ∧ exec (.rdmaCompareAndSwap r) s = .next s ∧
      exec (.rdmaFetchAndAdd r) s = .next s ∧ exec (.rdmaUnsupportedRequest r.qp) s = .next s) ∧
    (s.qpUp r.qp = true →
      exec (.rdmaUnsupportedRequest r.qp) s = .next { s with replies := s.replies ++ [{ qp := r.qp, tag := 0, status := 2, data := [] }] } ∧
      (s.grant r 1 r.data.length = none → exec (.rdmaWrite r) s = .next (s.rdmaNak r.qp)) ∧
      (s.grant r 0 r.len = none → exec (.rdmaRead r) s = .next (s.rdmaNak r.qp)) ∧
      (s.grant r 2 8 = none → exec (.rdmaCompareAndSwap r) s = .next (s.rdmaNak r.qp) ∧ exec (.rdmaFetchAndAdd r) s = .next (s.rdmaNak r.qp)) ∧
      (∀ root, s.grant r 1 r.data.length = some root → s.rangeOk root 2 va r.data.length = true →
        (s.shutIn root va r.data.length = [] → exec (.rdmaWrite r) s =
          .next ((reply ((s.writeRange root (cut r.va r.data.length) r.data).crossAll 0) []).ringDoorbells (asidOf root) va r.data.length)) ∧
        (s.shutIn root va r.data.length ≠ [] → exec (.rdmaWrite r) s = .next (s.outsideWait (s.shutIn root va r.data.length) (.rdmaWrite r)))) ∧
      (∀ root, s.grant r 1 r.data.length = some root → s.rangeOk root 2 va r.data.length = false → exec (.rdmaWrite r) s = .next (s.rdmaNak r.qp)) ∧
      (∀ root, s.grant r 0 r.len = some root →
        (s.rangeOk root 1 va r.len = false → exec (.rdmaRead r) s = .next (s.rdmaNak r.qp)) ∧
        (∀ a, s.rangeOk root 1 va r.len = true → s.poisonIn root va r.len = some a → exec (.rdmaRead r) s = .next (s.poisonReply r.qp a)) ∧
        (s.rangeOk root 1 va r.len = true → s.poisonIn root va r.len = none →
          exec (.rdmaRead r) s = .next (reply s ((s.readRange root (r.len / 4096 + 2) va r.len).getD [])))) ∧
      (∀ root i, s.grant r 2 8 = some root → (i = .rdmaCompareAndSwap r ∨ i = .rdmaFetchAndAdd r) →
        (va % 8 ≠ 0 ∨ s.rangeOk root 8 va 8 = false → exec i s = .next (s.rdmaNak r.qp)) ∧
        (va % 8 = 0 → s.rangeOk root 8 va 8 = true →
          (∀ a, s.poisonIn root va 8 = some a → exec i s = .next (s.poisonReply r.qp a)) ∧
          (s.poisonIn root va 8 = none → s.shutIn root va 8 ≠ [] → exec i s = .next (s.outsideWait (s.shutIn root va 8) i)))) ∧
      (∀ root bs, s.grant r 2 8 = some root → va % 8 = 0 → s.rangeOk root 8 va 8 = true → s.poisonIn root va 8 = none →
        (s.readRange root 2 va 8).getD [] = bs → s.shutIn root va 8 = [] →
        let old := leNat bs
        let put (n : Nat) : State := (reply ((s.writeRange root (cut r.va 8) (leBytes 8 n)).crossAll 0) (leBytes 8 old)).ringDoorbells (asidOf root) va 8
        exec (.rdmaCompareAndSwap r) s = .next (put (if old = r.compare.toNat then r.operand.toNat else old)) ∧
        exec (.rdmaFetchAndAdd r) s = .next (put ((old + r.operand.toNat) % 2 ^ 64)))) ∧
    (∀ right n, (s.hosts.find r.qp).getD (Config.qpHost r.qp) = s.hostOf r.qp ∧
      (right ≠ 0 → s.due.owner.digest ≠ some (s.hostOf r.qp) → s.grant r right n = none) ∧
      (s.regions.find r.rkey = none → s.grant r right n = none) ∧
      (∀ g, s.regions.find r.rkey = some g → g.desc.rights.getLsbD right = false ∨ va < g.desc.base.toNat ∨
        g.desc.base.toNat + g.desc.len < va + n ∨ (g.desc.qp ≠ r.qp ∧ g.desc.qp ≠ 0xFFFFFFFF) → s.grant r right n = none))) ∧
  (∀ (s : State) (r : UaReq) (port n : Nat) (hp : Fin 8) (pod : List Nat),
    let reply (u : State) (st : Nat) (data : List Byte) : State :=
      { u with replies := u.replies ++ [{ qp := 2 ^ 32, tag := 0, status := st, data := data }] }
    (s.ua.up = true → exec (.ualinkBringup port pod) s = .next s) ∧
    (1023 < port → exec (.ualinkBringup port pod) s = .next s) ∧
    (s.ua.up = false → port ≤ 1023 → exec (.ualinkBringup port pod) s =
      .next { s with ua := { pkg := port, pod := pod.filter (fun p => p < 1024), up := true, failed := [] } }) ∧
    (2 ^ 40 < r.pa + r.len → exec (.ualinkRead r) s = .next (reply s 1 []) ∧ exec (.ualinkAtomic r) s = .next (reply s 1 [])) ∧
    (r.pa + r.len ≤ 2 ^ 40 → r.len ≤ 256 → (linePieces r.pa r.len).find? (fun p => s.linePois p.1) = none →
      exec (.ualinkRead r) s = .next (reply s 0 (s.memRead r.pa r.len))) ∧
    (r.pa + r.len ≤ 2 ^ 40 → r.len ≠ 0 → r.pa % 32 + r.len ≤ 32 → s.linePois r.pa = false → s.shutAt r.pa r.len = [] →
      exec (.ualinkAtomic r) s = .next (reply ((s.performReq none {
        kind := 1, agent := unitOf (homeDie r.pa), pa := r.pa, op := r.op, len := r.len,
        operand := r.operand, ver := s.versioned r.pa }).crossHomes r.pa r.len) 0 (s.memRead r.pa r.len))) ∧
    (r.msg = 0 → 2 ^ 40 < r.pa + r.data.length → exec (.ualinkWrite r) s = .next (reply s 1 [])) ∧
    (256 < r.len → exec (.ualinkRead r) s = .next (reply s 1 []) ∧ exec (.ualinkAtomic r) s = .next (reply s 1 [])) ∧
    (r.len = 0 ∨ 32 < r.pa % 32 + r.len → exec (.ualinkAtomic r) s = .next (reply s 1 [])) ∧
    (∀ a : UaReq, a.msg = 0 → 256 < a.data.length → exec (.ualinkWrite a) s = .next (reply s 1 [])) ∧
    (r.msg = 0 → r.pa + r.data.length ≤ 2 ^ 40 → r.data.length ≤ 256 →
      (s.shutAt r.pa r.data.length = [] → exec (.ualinkWrite r) s = .next (reply ((s.maskedWrites (linePieces r.pa r.data.length) r.data
        (if r.mask = [] then List.replicate r.data.length true else r.mask)).crossHomes r.pa r.data.length) 0 [])) ∧
      (s.shutAt r.pa r.data.length ≠ [] → exec (.ualinkWrite r) s = .next (s.outsideWait (s.shutAt r.pa r.data.length) (.ualinkWrite r)))) ∧
    (r.pa + r.len ≤ 2 ^ 40 → r.len ≠ 0 → r.pa % 32 + r.len ≤ 32 → s.linePois r.pa = false → s.shutAt r.pa r.len ≠ [] →
      exec (.ualinkAtomic r) s = .next (s.outsideWait (s.shutAt r.pa r.len) (.ualinkAtomic r))) ∧
    (∀ p, r.pa + r.len ≤ 2 ^ 40 → r.len ≤ 256 → (linePieces r.pa r.len).find? (fun p => s.linePois p.1) = some p →
      exec (.ualinkRead r) s = .next (s.poisonReply (2 ^ 32) p.1)) ∧
    (r.pa + r.len ≤ 2 ^ 40 → r.len ≠ 0 → r.pa % 32 + r.len ≤ 32 → s.linePois r.pa = true →
      exec (.ualinkAtomic r) s = .next (s.poisonReply (2 ^ 32) r.pa)) ∧
    (r.msg = 1 → exec (.ualinkWrite r) s = .next (s.post (.decrementArrival r.target ⟨r.sender, none⟩))) ∧
    (r.msg = 2 → exec (.ualinkWrite r) s = .next (s.post (.eventOpArrival r.ev))) ∧
    (r.msg = 3 → let e := entryTile (r.pkt.dest % 2560)
      let p : Packet := { r.pkt with launch := none }
      (s.roomFor e.1 (8 + e.2) p = true → exec (.ualinkWrite r) s = .next ((s.useCredits e.1 (8 + e.2) p).post (.routerPacketArrival e.1 e.2 p))) ∧
      (s.roomFor e.1 (8 + e.2) p = false → exec (.ualinkWrite r) s = .next (s.again (.ualinkWrite r)))) ∧
    exec (.ualinkTimeout port n) s = .next (({ s with ua := { s.ua with failed := s.ua.failed.set false (port % 16) true } }).report none
      { cls := 5, reach := 5, detail := [(64, 1, 9), (68, 1, port % 16), (72, 4, n)] }) ∧
    exec (.hostPortLinkFailure hp n) s = .next (({ s with qps := s.qps.map (fun (e : Nat × Nat) => if e.2 = hp.val then (e.1, 256) else e) }).report none
      { cls := 5, reach := 5, detail := [(64, 1, 10), (68, 1, hp.val),
        (72, 4, (s.qps.filter (fun (e : Nat × Nat) => e.2 = hp.val)).length)] }))

/-- The watch over the package: three missed beats or an error of the active complex make the other active; two sweeps that agree on idleness and
totals end a launch whose tasks have retired, and a tile that lingers in both is stuck and reported once; each cycle of waiting queues found
twice is reported once (23 R473, R480; 02 R55 to R57). -/
def Obligations.WatchResults : Prop :=
  ∀ (s : State) (id : Nat),
    (s.cx.missed < 2 → exec (.complexFailover false) s = .next { s with cx := { s.cx with missed := s.cx.missed + 1 } }) ∧
    (∀ e, (e = true ∨ 2 ≤ s.cx.missed) →
      let dead : Machine.Complex := if s.cx.active = 0 then { s.cx with failedA := true } else { s.cx with failedB := true }
      let other := if s.cx.active = 0 then s.cx.failedB else s.cx.failedA
      (other = true → exec (.complexFailover e) s = .next { s with cx := dead }) ∧
      (other = false → exec (.complexFailover e) s =
        .next ((({ s with cx := { dead with active := 1 - s.cx.active, missed := 0, pause := none } } : State).handOn).report none
          { cls := 5, reach := 5, detail := [(64, 1, 11), (68, 1, 1 - s.cx.active), (72, 4, s.cx.version)] }))) ∧
    (s.launches.find id = none → exec (.launchSweep id) s = .next s) ∧
    (∀ l, s.launches.find id = some l → l.ended = true → exec (.launchSweep id) s = .next s) ∧
    (∀ l, s.launches.find id = some l → l.ended = false →
      let same := l.sweeps ≠ 0 ∧ l.totals = (l.lastSent, l.lastRecv)
      let now := (s.tiles.map Prod.fst).filter (s.lingers id l)
      let l' : Launch := { l with sweeps := l.sweeps + 1, idle := s.launchIdle id, lastSent := l.totals.1, lastRecv := l.totals.2, states := now }
      (¬ same → exec (.launchSweep id) s = .next (({ s with launches := s.launches.put id { l' with ended := false, stuck := [] } } : State).post (.launchSweep id))) ∧
      (same → (∀ t ∈ now, l.states.contains t = false) →
        (s.launchIdle id = true → l.idle = true → l.totals.1 = l.totals.2 → l.tasks = [] → exec (.launchSweep id) s =
          .next (({ s with launches := s.launches.put id { l' with ended := true, stuck := [] } } : State).post (.packetCompletion l.queue l.idx))) ∧
        ((s.launchIdle id = false ∨ l.idle = false ∨ l.totals.1 ≠ l.totals.2 ∨ l.tasks ≠ []) → exec (.launchSweep id) s =
          .next (({ s with launches := s.launches.put id { l' with ended := false, stuck := [] } } : State).post (.launchSweep id)))) ∧
      (same → (∃ t ∈ now, l.states.contains t = true) →
        let stuck := now.filter (fun t => l.states.contains t)
        let u := (stuck.filter (fun t => !l.stuck.contains t)).foldl (fun u t => u.stuckRec id l t l.totals.1) s
        exec (.launchSweep id) s =
          .next (({ u with launches := u.launches.put id { l' with ended := false, stuck := stuck } } : State).post (.launchSweep id)))) ∧
    (∀ (l : Launch) t, s.lingers id l t = true ↔ (s.tileIdle id t = true ∧ l.balanceAt t ≠ 0) ∨ s.quiescent id t = true) ∧
    (s.time < s.sweepAt → exec .queueWaitCycleSweep s = .next (s.post .queueWaitCycleSweep)) ∧
    (s.sweepAt ≤ s.time →
      let cs := s.queueCycles
      let rep (c : List Nat) : ErrRec := { cls := 6, reach := 5, detail := [(64, 1, 5), (68, 1, c.length)] ++ c.zipIdx.map (fun p => (72 + 2 * p.2, 2, p.1)) }
      let u : State := { s with
        sweepAt := s.time + 3600000, waitCycle := cs.map (fun c => if c ∈ s.waitCycle ∨ 4096 :: c ∈ s.waitCycle then 4096 :: c else c) }
      let v := (cs.filter (fun c => decide (c ∈ s.waitCycle))).foldl (fun (v : State) c => v.report none (rep c)) u
      exec .queueWaitCycleSweep s = .next (if v.queues = [] then v else v.post .queueWaitCycleSweep)) ∧
    (∀ c, c ∈ s.queueCycles → 2 ≤ c.length ∧ ∀ k ∈ s.tasksIn 6, recQueue (s.record k) ∉ c)

/-- Reset, power, boot and errors found: a package reset leaves every register at its reset value and memory and its poison as they were; a boot
stage that verifies is measured and one that fails stops the boot, so that no step follows; without both inputs nothing is kept; an error in data
poisons it, one in a control unit contains it; corrected errors are counted (00 R7; 01 R27; 14 R389; 20 R418 to R427; 23 R483). -/
def Obligations.PackageEventResults : Prop :=
  ∀ s : State,
    (∃ t : State, exec .packageReset s = .next t ∧ t.mem = s.mem ∧ t.pois = s.pois ∧ t.ctxs = [] ∧ t.tiles = [] ∧ t.dies = [] ∧ t.recs = [] ∧
      t.queues = [] ∧ t.owner = {} ∧ t.ua = {} ∧ t.mr = [] ∧ t.budget = 50000000 ∧ t.limit = 5000 ∧ t.time = 0 ∧ t.agenda = [.energyRefill]) ∧
    (∃ t : State, exec (.powerInputChange false false) s = .next t ∧ t.mem = [] ∧ t.ctxs = [] ∧ t.queues = [] ∧ t.mainUp = false ∧
      step t = .fault .unpowered) ∧
    (s.mainUp = true → ∃ t : State, exec (.powerInputChange false true) s = .next t ∧ t.owner = s.owner ∧ t.queues = s.queues ∧ t.regions = s.regions ∧
      t.agenda = s.agenda.filter keptByA ∧ t.mr = s.mr ∧ t.budget = s.budget ∧ t.limit = s.limit ∧ t.launches = s.launches ∧ t.mem = [] ∧ t.ctxs = [] ∧ t.tiles = [] ∧ t.dies = [] ∧ t.mainUp = false) ∧
    (s.mainUp = false → exec (.powerInputChange false true) s = .next { s with standbyUp := true }) ∧
    (s.mainUp = false → ∀ b, ∃ t : State, exec (.powerInputChange true b) s = .next t ∧ t.mainUp = true ∧ t.mem = s.mem ∧ t.owner = s.owner) ∧
    (s.mainUp = true → ∀ b, exec (.powerInputChange true b) s = .next { s with standbyUp := b }) ∧
    (∀ reg x, 3 < reg → exec (.measuredBootStage reg x) s = .next s) ∧
    (∀ reg x, reg ≤ 3 → if Config.ecdsaVerify Config.vendorKey x.digest x.sigR x.sigS then exec (.measuredBootStage reg x) s = .next (s.extendMr reg x.digest)
      else ∃ t, exec (.measuredBootStage reg x) s = .next t ∧ step t = .fault .bootStopped) ∧
    (∀ x y z, let found (n : Nat) : Host.Outcome State Fault Refusal := exec (.uncorrectableError { unit := n, x := x, y := y, z := z }) s
      (x < 2 ^ 40 → found 0 = .next (s.setLinePois x true)) ∧
      (x < 2560 → y < 3 → z / 128 < frameCount (isV x) y → let p := (s.tile x).frame y (z / 128)
        found 1 = .next (s.setTile x ((s.tile x).setFrame y (z / 128) { p with pois := setBit p.pois (z % 128) true }))) ∧
      (x < 2560 → (s.tile x).contained = false →
        let n := (s.tile x).c0.length + (s.tile x).link.length
        let u := s.setTile x { s.tile x with contained := true, adder := [], c0 := [], link := [] }
        found 2 = .next ((u.loseFlits (dieOf x) (256 + x % 160) n).report none
          { cls := 5, reach := 4, tile := x, detail := if n = 0 then [] else [(72, 4, n)] })) ∧
      (x < 2560 → (s.tile x).contained = true → found 2 = .next s) ∧
      (x < 2560 → found 3 = .next ((s.setTile x { s.tile x with adder := [] }).containDie (dieOf x) (16 + x % 160) x)) ∧
      (x < 64 → found 4 = .next (s.containDie (x / 4) (x % 4) 0xFFFF)) ∧
      (x < 16 → found 5 = .next (s.containDie x 4 0xFFFF) ∧ found 8 = .next (s.poisonSlot x y z) ∧ found 13 = .next (s.poisonCopy x y)) ∧
      (x < 2560 → found 6 = .next (s.stateFault x 14) ∧ found 7 = .next (s.stateFault x 15) ∧ found 10 = .next (s.poisonWaiting x y z) ∧
        found 12 = .next (s.poisonFlit x y)) ∧
      found 9 = .next (s.poisonVersion x y) ∧ found 11 = .next (s.poisonArrival x y z) ∧ found 14 = .next (s.poisonEntry x)) ∧
    (∀ x y : Nat, (s.rem.find (remKey x (y * 32)) = none → s.poisonCopy x y = s) ∧
      (∀ l, s.rem.find (remKey x (y * 32)) = some l → s.poisonCopy x y = s.setRem (remKey x (y * 32)) { l with pois := true })) ∧
    (∀ d key tile, let x := s.die d
      (x.contained.get 0 key ≠ 0 → s.containDie d key tile = s) ∧
      (x.contained.get 0 key = 0 → s.containDie d key tile =
        (s.setDie d { x with contained := x.contained.set 0 key 1 }).report none { cls := 5, reach := 4, tile := tile })) ∧
    (∀ d, let c := (s.die d).cr 0x20D
      let n := min 0xFFFFFFFF (bits c 31 0 + 1)
      let u := s.setDie d ((s.die d).setCr 0x20D (putBits c 31 0 n))
      (bits c 31 0 = 0xFFFFFFFF ∨ n % 2 ^ bits c 36 32 ≠ 0 → exec (.correctedError d) s = .next u) ∧
      (bits c 31 0 ≠ 0xFFFFFFFF → n % 2 ^ bits c 36 32 = 0 → exec (.correctedError d) s = .next (u.report none { cls := 3, reach := 0 })))

/-- A step of a package whose agenda is empty, with one agent that may issue, whose clock-time debug registers match nothing and whose fetch
gives two words, issues the ops those words decode to: a lone op's effect, a pair's, or the trap of a reserved encoding, followed by the address
of the next sheaf and the end of the turn. First some writes may become visible on more paths (`State.showSome`, 04 R97; log 53). With no
full-empty read waiting and no revocation to record, the turn's end changes the time and the model's own counters alone (06 R143 to R146; 21
R434; log 1, log 2, log 3). -/
def Obligations.StepRunsDecodedSheaf : Prop :=
  ∀ (s0 u : State) (a : Agent) (w : BitVec 64), let s := s0.showSome
    s.bootFailed = false → s.mainUp = true → s.agenda = [] → s.issuers = [a] →
    ∀ last, last = (if s.fairTurn = some false then akey a else s.lastAgent) →
    let b := ({ s with fc := s.fc + 1, lastAgent := last } : State).begin a
    (b.debugMatch [] = none) → b.fetch = .got u w →
    let sh := decodeSheaf (isV u.cur.tile) (w.extractLsb' 0 32) (w.extractLsb' 32 32)
    u.debugMatch (sheafOps sh) = none →
    let v := u.inTurn (sheafOps sh)
    step s0 = stall s.fc (finish b.me.pc b.debugOn v.time (match sh with
      | .lone i => exec i v
      | .pair c a => execPair c a v
      | .reserved code => exec (.reservedEncoding (BitVec.ofNat 10 code)) v)) ∧
    (∀ i t, sh = .lone i → exec i v = .next t → t.fate = .ran → b.debugOn = false →
      let z := ((t.issued v.time).advance b.me.pc).settled
      (∀ e ∈ z.ctxs, ∀ r, e.2.st ≠ .waiting (.fullEmpty r) ∧ e.2.st ≠ .held (some (.fullEmpty r))) → z.errs = [] →
      step s0 = .next { z with time := z.time + Config.freeStall s.fc, fc := max z.fc (s.fc + 1), rounds := z.rounds + 1 }) ∧
    (∀ t : State, ∀ τ, (t.cur.isAwn = true → t.issued τ = t) ∧
      (t.cur.isAwn = false → t.issued τ = t.setTile t.cur.tile { t.tile t.cur.tile with last := t.cur.ctx, lastIssue := τ }) ∧
      (∀ p, t.npc = some p → t.advance b.me.pc = t.setMe { t.me with pc := p }) ∧
      (t.npc = none → t.advance b.me.pc = t.setMe { (Ctx.loopEnd b.me.pc 5 t.me).1 with pc := (Ctx.loopEnd b.me.pc 5 t.me).2 }))

/-- A powered package that has booted always goes on: a step ends in a next state, whatever its data, and stops only after a boot stage failed,
or without the main input and with nothing pending (14 R389, 01 R27). -/
def Obligations.StepStopsOnlyWithoutBootOrPower : Prop :=
  (∀ (i : Instr) (s : State), ∃ t, exec i s = .next t) ∧
  ∀ s : State, (∃ t, step s = .next t) ∨ (s.bootFailed = true ∧ step s = .fault .bootStopped) ∨
    (s.mainUp = false ∧ s.agenda = [] ∧ step s = .fault .unpowered)

/-- No sheaf is in issue between two steps: the latch of sources, the strips popped, the next address and the op's fate are set only within a
step. Every step keeps this (log 1). -/
def Obligations.StepKeepsNoSheafInIssue : Prop :=
  ∀ s t : State, NoSheafInIssue s → step s = .next t → NoSheafInIssue t ∧ s.fc < t.fc

/-- Right after reset no sheaf is in issue, memory is in canonical form, every register and table reads its reset value, the account is full and
the first refill is due (00 R7; 01 R22; 03; 07; 11 R339; log 5, log 6). -/
def Obligations.ResetState : Prop :=
  NoSheafInIssue State.reset ∧ Memory.wf State.reset.mem = true ∧
  (∀ a, (State.reset.ctx a).st = .free ∧ (∀ n, (State.reset.ctx a).cr n = 0) ∧ ∀ r, (State.reset.ctx a).s.get 0 r = 0) ∧
  (∀ d, (State.reset.die d).cr 0x200 = 244 ∧ (State.reset.die d).cr 0x201 = 4 ∧ (State.reset.die d).cr 0x203 = 6) ∧
  (∀ t bank, (State.reset.tile t).fmt 0 bank = 7 ∧ (State.reset.tile t).fmt 1 bank = 7 ∧ (State.reset.tile t).fmt 2 bank = 6) ∧
  State.reset.limit = 5000 ∧ State.reset.budget = 10000 * 5000 ∧ (∀ a, State.reset.memByte a = 0)

/-- On a tile of either kind, the words the encoder gives a well-formed instruction, with its operands at any value, decode to it: alone, or
beside the op that does nothing in its slot (06 R143, R149 to R152, R161). -/
def Obligations.DecodeEncodeAgree : Prop :=
  ∀ (i : Instr) (v : Bool) (w : BitVec 64), i.wf v = true → encode i = some w →
    decodeSheaf v (w.extractLsb' 0 32) (w.extractLsb' 32 32) = .pair i .anop ∨
    decodeSheaf v (w.extractLsb' 0 32) (w.extractLsb' 32 32) = .pair .nopOp i ∨
    decodeSheaf v (w.extractLsb' 0 32) (w.extractLsb' 32 32) = .lone i

/-- The encodings the spec works out, word by word, decode to the ops it gives them, and a sheaf of all ones is reserved (06 Table — Encoding of
a pair; 07, 08, 09, 10 worked values; 06 R157). -/
def Obligations.DecodeWords : Prop :=
  ∀ v : Bool,
    decodeSheaf v 0b0_100100_00101_00100_001_000_000000100#32 0b000100_00001_00010_00011_000_0110_0000#32 =
      .pair (.ldW ⟨5, 4, 1, 0, 4⟩) (.vadd ⟨1, 2, 3, 0, 6⟩) ∧
    decodeSheaf v 0x8829005C#32 0x10#32 = .lone (.ldO ⟨5, 4, 0, 0, 1, 3, 4, 16⟩) ∧
    decodeSheaf v 0#32 0#32 = .pair .nopOp .anop ∧
    decodeSheaf v 0x80200000#32 0x100#32 = .lone (.movi 4 0x100) ∧
    decodeSheaf v 0x81200000#32 0x90000000#32 = .lone (.movhi 4 0x90000000) ∧
    decodeSheaf v 0x34600002#32 0#32 = .pair (.loopOp ⟨6, 0, 2⟩) .anop ∧
    decodeSheaf v 0x66000018#32 0#32 = .pair (.fenceOp 3 0) .anop ∧
    decodeSheaf v 0x9431C600#32 0x401C0200#32 = .lone (.vlds ⟨6, 7, 3, 2, 0, 0, 0, 7, 512⟩) ∧
    decodeSheaf v 0#32 0x1C853270#32 = .pair .nopOp (.vfma ⟨4, 5, 6, 2, 7⟩) ∧
    decodeSheaf v 0#32 0x80309008#32 = .pair .nopOp (.mpop ⟨0, 3, 0, 9⟩) ∧
    decodeSheaf v 0xB8214C40#32 0x02020040#32 = .lone (.mma ⟨4, 5, 6, 0x40, 0x02020040⟩) ∧
    decodeSheaf v 0xD7000000#32 0#32 = .lone (.stflush ⟨0, 0, 0, 0, 0⟩) ∧
    decodeSheaf v 0xFFFFFFFF#32 0xFFFFFFFF#32 = .reserved 1
end

