-- ==== Sys2Proof/Laws/Maps.lean ====
section
/-! SUPPORT. Laws of the finite maps: what a key reads as after a write, and that writes keep the canonical form. -/

namespace Sys2Proof

variable {α : Type}

/-- Reading a key after an entry is put in. -/
@[simp] theorem SMap.find_put (m : SMap α) (i j : Nat) (v : α) : (m.put i v).find j = if j = i then some v else m.find j := by
  induction m with
  | nil =>
    simp only [SMap.put, SMap.find]
    split_ifs <;> rfl
  | cons e m ih =>
    obtain ⟨k, w⟩ := e
    simp only [SMap.put]
    split_ifs with h1 h2 <;> simp only [SMap.find, ih] <;> split_ifs <;> first | rfl | omega

/-- Every entry of a map whose keys rise from `lo` has a key of at least `lo`. -/
theorem SMap.find_below [DecidableEq α] {d : α} {lo : Nat} {m : SMap α} (h : m.wfFrom d lo = true) {i : Nat} (hi : i < lo) : m.find i = none := by
  cases m with
  | nil => rfl
  | cons e m =>
    obtain ⟨k, w⟩ := e
    simp only [SMap.wfFrom, Bool.and_eq_true, decide_eq_true_eq] at h
    simp only [SMap.find]
    split_ifs <;> first | rfl | omega

/-- A bound on the keys may be lowered. -/
theorem SMap.wfFrom_mono [DecidableEq α] {d : α} {lo lo' : Nat} {m : SMap α} (h : m.wfFrom d lo = true) (hl : lo' ≤ lo) : m.wfFrom d lo' = true := by
  cases m with
  | nil => rfl
  | cons e m =>
    obtain ⟨k, w⟩ := e
    simp only [SMap.wfFrom, Bool.and_eq_true, decide_eq_true_eq] at h ⊢
    exact ⟨⟨by omega, h.1.2⟩, h.2⟩

/-- Reading a key of a canonical map after a key is taken out. -/
theorem SMap.find_del [DecidableEq α] {d : α} {lo : Nat} {m : SMap α} (h : m.wfFrom d lo = true) (i j : Nat) :
    (m.del i).find j = if j = i then none else m.find j := by
  induction m generalizing lo with
  | nil => simp [SMap.del, SMap.find]
  | cons e m ih =>
    obtain ⟨k, w⟩ := e
    simp only [SMap.wfFrom, Bool.and_eq_true, decide_eq_true_eq] at h
    simp only [SMap.del]
    split_ifs with h1 h2 h3 h4
    · subst h1 h2
      exact SMap.find_below h.2 (Nat.lt_succ_self _)
    · subst h1
      simp only [SMap.find, h2, if_false]
      split_ifs with h5
      · exact SMap.find_below h.2 (by omega)
      · rfl
    · subst h4
      simp [SMap.find, h1, h3]
    · rfl
    all_goals simp only [SMap.find, ih h.2]
    all_goals split_ifs <;> first | rfl | omega

/-- Putting in an entry that is not the default keeps the canonical form. -/
theorem SMap.wfFrom_put [DecidableEq α] {d : α} {lo : Nat} {m : SMap α} (h : m.wfFrom d lo = true) {i : Nat} {v : α} (hv : v ≠ d) (hi : lo ≤ i) :
    (m.put i v).wfFrom d lo = true := by
  induction m generalizing lo with
  | nil => simp [SMap.put, SMap.wfFrom, hv, hi]
  | cons e m ih =>
    obtain ⟨k, w⟩ := e
    simp only [SMap.wfFrom, Bool.and_eq_true, decide_eq_true_eq] at h
    simp only [SMap.put]
    split_ifs with h1 h2 <;> simp only [SMap.wfFrom, Bool.and_eq_true, decide_eq_true_eq]
    · subst h1
      exact ⟨⟨hi, hv⟩, h.2⟩
    · exact ⟨⟨hi, hv⟩, ⟨⟨by omega, h.1.2⟩, h.2⟩⟩
    · exact ⟨h.1, ih h.2 (by omega)⟩

/-- Taking out an entry keeps the canonical form. -/
theorem SMap.wfFrom_del [DecidableEq α] {d : α} {lo : Nat} {m : SMap α} (h : m.wfFrom d lo = true) (i : Nat) : (m.del i).wfFrom d lo = true := by
  induction m generalizing lo with
  | nil => rfl
  | cons e m ih =>
    obtain ⟨k, w⟩ := e
    have h' := h
    simp only [SMap.wfFrom, Bool.and_eq_true, decide_eq_true_eq] at h
    simp only [SMap.del]
    split_ifs with h1 h2
    · exact SMap.wfFrom_mono h.2 (by omega)
    · exact h'
    · simp only [SMap.wfFrom, Bool.and_eq_true, decide_eq_true_eq]
      exact ⟨h.1, ih h.2⟩

/-- A write keeps the canonical form. -/
theorem SMap.wf_set [DecidableEq α] {d : α} {m : SMap α} (h : m.wf d = true) (i : Nat) (v : α) : (m.set d i v).wf d = true := by
  unfold SMap.set
  split_ifs with hv
  · exact SMap.wfFrom_del h i
  · exact SMap.wfFrom_put h hv (Nat.zero_le i)

/-- A read after a write, in a canonical map. -/
theorem SMap.get_set [DecidableEq α] {d : α} {m : SMap α} (h : m.wf d = true) (i j : Nat) (v : α) :
    (m.set d i v).get d j = if j = i then v else m.get d j := by
  unfold SMap.set SMap.get
  by_cases hv : v = d
  · rw [if_pos hv, SMap.find_del h]
    split_ifs <;> simp [hv]
  · rw [if_neg hv, SMap.find_put]
    split_ifs <;> simp

/-- A read of the key written, in any map: what was written unless it is the default. -/
theorem SMap.get_set_self_of_ne [DecidableEq α] {d : α} (m : SMap α) (i : Nat) {v : α} (hv : v ≠ d) : (m.set d i v).get d i = v := by
  simp [SMap.set, SMap.get, hv]

end Sys2Proof
end

