-- ==== Sys2Proof/Laws/State.lean ====
section
/-! SUPPORT. What each update of the state leaves of every field of it, one lemma a field; what the parts read as after an update. -/

namespace Sys2Proof.Machine

/-! ### `setCtx` -/

@[simp] theorem State.setCtx_tiles (s : State) (a : Agent) (c : Ctx) : (s.setCtx a c).tiles = s.tiles := rfl
@[simp] theorem State.setCtx_dies (s : State) (a : Agent) (c : Ctx) : (s.setCtx a c).dies = s.dies := rfl
@[simp] theorem State.setCtx_mem (s : State) (a : Agent) (c : Ctx) : (s.setCtx a c).mem = s.mem := rfl
@[simp] theorem State.setCtx_pois (s : State) (a : Agent) (c : Ctx) : (s.setCtx a c).pois = s.pois := rfl
@[simp] theorem State.setCtx_unseen (s : State) (a : Agent) (c : Ctx) : (s.setCtx a c).unseen = s.unseen := rfl
@[simp] theorem State.setCtx_vers (s : State) (a : Agent) (c : Ctx) : (s.setCtx a c).vers = s.vers := rfl
@[simp] theorem State.setCtx_live (s : State) (a : Agent) (c : Ctx) : (s.setCtx a c).live = s.live := rfl
@[simp] theorem State.setCtx_revoked (s : State) (a : Agent) (c : Ctx) : (s.setCtx a c).revoked = s.revoked := rfl
@[simp] theorem State.setCtx_tlb (s : State) (a : Agent) (c : Ctx) : (s.setCtx a c).tlb = s.tlb := rfl
@[simp] theorem State.setCtx_icache (s : State) (a : Agent) (c : Ctx) : (s.setCtx a c).icache = s.icache := rfl
@[simp] theorem State.setCtx_rem (s : State) (a : Agent) (c : Ctx) : (s.setCtx a c).rem = s.rem := rfl
@[simp] theorem State.setCtx_dirs (s : State) (a : Agent) (c : Ctx) : (s.setCtx a c).dirs = s.dirs := rfl
@[simp] theorem State.setCtx_heldReqs (s : State) (a : Agent) (c : Ctx) : (s.setCtx a c).heldReqs = s.heldReqs := rfl
@[simp] theorem State.setCtx_l1 (s : State) (a : Agent) (c : Ctx) : (s.setCtx a c).l1 = s.l1 := rfl
@[simp] theorem State.setCtx_holds (s : State) (a : Agent) (c : Ctx) : (s.setCtx a c).holds = s.holds := rfl
@[simp] theorem State.setCtx_reserved (s : State) (a : Agent) (c : Ctx) : (s.setCtx a c).reserved = s.reserved := rfl
@[simp] theorem State.setCtx_errs (s : State) (a : Agent) (c : Ctx) : (s.setCtx a c).errs = s.errs := rfl
@[simp] theorem State.setCtx_recs (s : State) (a : Agent) (c : Ctx) : (s.setCtx a c).recs = s.recs := rfl
@[simp] theorem State.setCtx_tasks (s : State) (a : Agent) (c : Ctx) : (s.setCtx a c).tasks = s.tasks := rfl
@[simp] theorem State.setCtx_ops (s : State) (a : Agent) (c : Ctx) : (s.setCtx a c).ops = s.ops := rfl
@[simp] theorem State.setCtx_nextOp (s : State) (a : Agent) (c : Ctx) : (s.setCtx a c).nextOp = s.nextOp := rfl
@[simp] theorem State.setCtx_xfers (s : State) (a : Agent) (c : Ctx) : (s.setCtx a c).xfers = s.xfers := rfl
@[simp] theorem State.setCtx_budget (s : State) (a : Agent) (c : Ctx) : (s.setCtx a c).budget = s.budget := rfl
@[simp] theorem State.setCtx_limit (s : State) (a : Agent) (c : Ctx) : (s.setCtx a c).limit = s.limit := rfl
@[simp] theorem State.setCtx_power (s : State) (a : Agent) (c : Ctx) : (s.setCtx a c).power = s.power := rfl
@[simp] theorem State.setCtx_refillAt (s : State) (a : Agent) (c : Ctx) : (s.setCtx a c).refillAt = s.refillAt := rfl
@[simp] theorem State.setCtx_owner (s : State) (a : Agent) (c : Ctx) : (s.setCtx a c).owner = s.owner := rfl
@[simp] theorem State.setCtx_queues (s : State) (a : Agent) (c : Ctx) : (s.setCtx a c).queues = s.queues := rfl
@[simp] theorem State.setCtx_regions (s : State) (a : Agent) (c : Ctx) : (s.setCtx a c).regions = s.regions := rfl
@[simp] theorem State.setCtx_qps (s : State) (a : Agent) (c : Ctx) : (s.setCtx a c).qps = s.qps := rfl
@[simp] theorem State.setCtx_hosts (s : State) (a : Agent) (c : Ctx) : (s.setCtx a c).hosts = s.hosts := rfl
@[simp] theorem State.setCtx_launches (s : State) (a : Agent) (c : Ctx) : (s.setCtx a c).launches = s.launches := rfl
@[simp] theorem State.setCtx_cx (s : State) (a : Agent) (c : Ctx) : (s.setCtx a c).cx = s.cx := rfl
@[simp] theorem State.setCtx_mr (s : State) (a : Agent) (c : Ctx) : (s.setCtx a c).mr = s.mr := rfl
@[simp] theorem State.setCtx_bootFailed (s : State) (a : Agent) (c : Ctx) : (s.setCtx a c).bootFailed = s.bootFailed := rfl
@[simp] theorem State.setCtx_mainUp (s : State) (a : Agent) (c : Ctx) : (s.setCtx a c).mainUp = s.mainUp := rfl
@[simp] theorem State.setCtx_standbyUp (s : State) (a : Agent) (c : Ctx) : (s.setCtx a c).standbyUp = s.standbyUp := rfl
@[simp] theorem State.setCtx_ua (s : State) (a : Agent) (c : Ctx) : (s.setCtx a c).ua = s.ua := rfl
@[simp] theorem State.setCtx_replies (s : State) (a : Agent) (c : Ctx) : (s.setCtx a c).replies = s.replies := rfl
@[simp] theorem State.setCtx_outbox (s : State) (a : Agent) (c : Ctx) : (s.setCtx a c).outbox = s.outbox := rfl
@[simp] theorem State.setCtx_mgmt (s : State) (a : Agent) (c : Ctx) : (s.setCtx a c).mgmt = s.mgmt := rfl
@[simp] theorem State.setCtx_images (s : State) (a : Agent) (c : Ctx) : (s.setCtx a c).images = s.images := rfl
@[simp] theorem State.setCtx_waitCycle (s : State) (a : Agent) (c : Ctx) : (s.setCtx a c).waitCycle = s.waitCycle := rfl
@[simp] theorem State.setCtx_sweepAt (s : State) (a : Agent) (c : Ctx) : (s.setCtx a c).sweepAt = s.sweepAt := rfl
@[simp] theorem State.setCtx_time (s : State) (a : Agent) (c : Ctx) : (s.setCtx a c).time = s.time := rfl
@[simp] theorem State.setCtx_agenda (s : State) (a : Agent) (c : Ctx) : (s.setCtx a c).agenda = s.agenda := rfl
@[simp] theorem State.setCtx_fc (s : State) (a : Agent) (c : Ctx) : (s.setCtx a c).fc = s.fc := rfl
@[simp] theorem State.setCtx_rounds (s : State) (a : Agent) (c : Ctx) : (s.setCtx a c).rounds = s.rounds := rfl
@[simp] theorem State.setCtx_lastAgent (s : State) (a : Agent) (c : Ctx) : (s.setCtx a c).lastAgent = s.lastAgent := rfl
@[simp] theorem State.setCtx_cycleAt (s : State) (a : Agent) (c : Ctx) : (s.setCtx a c).cycleAt = s.cycleAt := rfl
@[simp] theorem State.setCtx_cycle (s : State) (a : Agent) (c : Ctx) : (s.setCtx a c).cycle = s.cycle := rfl
@[simp] theorem State.setCtx_cur (s : State) (a : Agent) (c : Ctx) : (s.setCtx a c).cur = s.cur := rfl
@[simp] theorem State.setCtx_latch (s : State) (a : Agent) (c : Ctx) : (s.setCtx a c).latch = s.latch := rfl
@[simp] theorem State.setCtx_popped (s : State) (a : Agent) (c : Ctx) : (s.setCtx a c).popped = s.popped := rfl
@[simp] theorem State.setCtx_npc (s : State) (a : Agent) (c : Ctx) : (s.setCtx a c).npc = s.npc := rfl
@[simp] theorem State.setCtx_fate (s : State) (a : Agent) (c : Ctx) : (s.setCtx a c).fate = s.fate := rfl

/-! ### `setTile` -/

@[simp] theorem State.setTile_ctxs (s : State) (k : Nat) (x : Tile) : (s.setTile k x).ctxs = s.ctxs := rfl
@[simp] theorem State.setTile_dies (s : State) (k : Nat) (x : Tile) : (s.setTile k x).dies = s.dies := rfl
@[simp] theorem State.setTile_mem (s : State) (k : Nat) (x : Tile) : (s.setTile k x).mem = s.mem := rfl
@[simp] theorem State.setTile_pois (s : State) (k : Nat) (x : Tile) : (s.setTile k x).pois = s.pois := rfl
@[simp] theorem State.setTile_unseen (s : State) (k : Nat) (x : Tile) : (s.setTile k x).unseen = s.unseen := rfl
@[simp] theorem State.setTile_vers (s : State) (k : Nat) (x : Tile) : (s.setTile k x).vers = s.vers := rfl
@[simp] theorem State.setTile_live (s : State) (k : Nat) (x : Tile) : (s.setTile k x).live = s.live := rfl
@[simp] theorem State.setTile_revoked (s : State) (k : Nat) (x : Tile) : (s.setTile k x).revoked = s.revoked := rfl
@[simp] theorem State.setTile_tlb (s : State) (k : Nat) (x : Tile) : (s.setTile k x).tlb = s.tlb := rfl
@[simp] theorem State.setTile_icache (s : State) (k : Nat) (x : Tile) : (s.setTile k x).icache = s.icache := rfl
@[simp] theorem State.setTile_rem (s : State) (k : Nat) (x : Tile) : (s.setTile k x).rem = s.rem := rfl
@[simp] theorem State.setTile_dirs (s : State) (k : Nat) (x : Tile) : (s.setTile k x).dirs = s.dirs := rfl
@[simp] theorem State.setTile_heldReqs (s : State) (k : Nat) (x : Tile) : (s.setTile k x).heldReqs = s.heldReqs := rfl
@[simp] theorem State.setTile_l1 (s : State) (k : Nat) (x : Tile) : (s.setTile k x).l1 = s.l1 := rfl
@[simp] theorem State.setTile_holds (s : State) (k : Nat) (x : Tile) : (s.setTile k x).holds = s.holds := rfl
@[simp] theorem State.setTile_reserved (s : State) (k : Nat) (x : Tile) : (s.setTile k x).reserved = s.reserved := rfl
@[simp] theorem State.setTile_errs (s : State) (k : Nat) (x : Tile) : (s.setTile k x).errs = s.errs := rfl
@[simp] theorem State.setTile_recs (s : State) (k : Nat) (x : Tile) : (s.setTile k x).recs = s.recs := rfl
@[simp] theorem State.setTile_tasks (s : State) (k : Nat) (x : Tile) : (s.setTile k x).tasks = s.tasks := rfl
@[simp] theorem State.setTile_ops (s : State) (k : Nat) (x : Tile) : (s.setTile k x).ops = s.ops := rfl
@[simp] theorem State.setTile_nextOp (s : State) (k : Nat) (x : Tile) : (s.setTile k x).nextOp = s.nextOp := rfl
@[simp] theorem State.setTile_xfers (s : State) (k : Nat) (x : Tile) : (s.setTile k x).xfers = s.xfers := rfl
@[simp] theorem State.setTile_budget (s : State) (k : Nat) (x : Tile) : (s.setTile k x).budget = s.budget := rfl
@[simp] theorem State.setTile_limit (s : State) (k : Nat) (x : Tile) : (s.setTile k x).limit = s.limit := rfl
@[simp] theorem State.setTile_power (s : State) (k : Nat) (x : Tile) : (s.setTile k x).power = s.power := rfl
@[simp] theorem State.setTile_refillAt (s : State) (k : Nat) (x : Tile) : (s.setTile k x).refillAt = s.refillAt := rfl
@[simp] theorem State.setTile_owner (s : State) (k : Nat) (x : Tile) : (s.setTile k x).owner = s.owner := rfl
@[simp] theorem State.setTile_queues (s : State) (k : Nat) (x : Tile) : (s.setTile k x).queues = s.queues := rfl
@[simp] theorem State.setTile_regions (s : State) (k : Nat) (x : Tile) : (s.setTile k x).regions = s.regions := rfl
@[simp] theorem State.setTile_qps (s : State) (k : Nat) (x : Tile) : (s.setTile k x).qps = s.qps := rfl
@[simp] theorem State.setTile_hosts (s : State) (k : Nat) (x : Tile) : (s.setTile k x).hosts = s.hosts := rfl
@[simp] theorem State.setTile_launches (s : State) (k : Nat) (x : Tile) : (s.setTile k x).launches = s.launches := rfl
@[simp] theorem State.setTile_cx (s : State) (k : Nat) (x : Tile) : (s.setTile k x).cx = s.cx := rfl
@[simp] theorem State.setTile_mr (s : State) (k : Nat) (x : Tile) : (s.setTile k x).mr = s.mr := rfl
@[simp] theorem State.setTile_bootFailed (s : State) (k : Nat) (x : Tile) : (s.setTile k x).bootFailed = s.bootFailed := rfl
@[simp] theorem State.setTile_mainUp (s : State) (k : Nat) (x : Tile) : (s.setTile k x).mainUp = s.mainUp := rfl
@[simp] theorem State.setTile_standbyUp (s : State) (k : Nat) (x : Tile) : (s.setTile k x).standbyUp = s.standbyUp := rfl
@[simp] theorem State.setTile_ua (s : State) (k : Nat) (x : Tile) : (s.setTile k x).ua = s.ua := rfl
@[simp] theorem State.setTile_replies (s : State) (k : Nat) (x : Tile) : (s.setTile k x).replies = s.replies := rfl
@[simp] theorem State.setTile_outbox (s : State) (k : Nat) (x : Tile) : (s.setTile k x).outbox = s.outbox := rfl
@[simp] theorem State.setTile_mgmt (s : State) (k : Nat) (x : Tile) : (s.setTile k x).mgmt = s.mgmt := rfl
@[simp] theorem State.setTile_images (s : State) (k : Nat) (x : Tile) : (s.setTile k x).images = s.images := rfl
@[simp] theorem State.setTile_waitCycle (s : State) (k : Nat) (x : Tile) : (s.setTile k x).waitCycle = s.waitCycle := rfl
@[simp] theorem State.setTile_sweepAt (s : State) (k : Nat) (x : Tile) : (s.setTile k x).sweepAt = s.sweepAt := rfl
@[simp] theorem State.setTile_time (s : State) (k : Nat) (x : Tile) : (s.setTile k x).time = s.time := rfl
@[simp] theorem State.setTile_agenda (s : State) (k : Nat) (x : Tile) : (s.setTile k x).agenda = s.agenda := rfl
@[simp] theorem State.setTile_fc (s : State) (k : Nat) (x : Tile) : (s.setTile k x).fc = s.fc := rfl
@[simp] theorem State.setTile_rounds (s : State) (k : Nat) (x : Tile) : (s.setTile k x).rounds = s.rounds := rfl
@[simp] theorem State.setTile_lastAgent (s : State) (k : Nat) (x : Tile) : (s.setTile k x).lastAgent = s.lastAgent := rfl
@[simp] theorem State.setTile_cycleAt (s : State) (k : Nat) (x : Tile) : (s.setTile k x).cycleAt = s.cycleAt := rfl
@[simp] theorem State.setTile_cycle (s : State) (k : Nat) (x : Tile) : (s.setTile k x).cycle = s.cycle := rfl
@[simp] theorem State.setTile_cur (s : State) (k : Nat) (x : Tile) : (s.setTile k x).cur = s.cur := rfl
@[simp] theorem State.setTile_latch (s : State) (k : Nat) (x : Tile) : (s.setTile k x).latch = s.latch := rfl
@[simp] theorem State.setTile_popped (s : State) (k : Nat) (x : Tile) : (s.setTile k x).popped = s.popped := rfl
@[simp] theorem State.setTile_npc (s : State) (k : Nat) (x : Tile) : (s.setTile k x).npc = s.npc := rfl
@[simp] theorem State.setTile_fate (s : State) (k : Nat) (x : Tile) : (s.setTile k x).fate = s.fate := rfl

/-! ### `setDie` -/

@[simp] theorem State.setDie_ctxs (s : State) (k : Nat) (x : Die) : (s.setDie k x).ctxs = s.ctxs := rfl
@[simp] theorem State.setDie_tiles (s : State) (k : Nat) (x : Die) : (s.setDie k x).tiles = s.tiles := rfl
@[simp] theorem State.setDie_mem (s : State) (k : Nat) (x : Die) : (s.setDie k x).mem = s.mem := rfl
@[simp] theorem State.setDie_pois (s : State) (k : Nat) (x : Die) : (s.setDie k x).pois = s.pois := rfl
@[simp] theorem State.setDie_unseen (s : State) (k : Nat) (x : Die) : (s.setDie k x).unseen = s.unseen := rfl
@[simp] theorem State.setDie_vers (s : State) (k : Nat) (x : Die) : (s.setDie k x).vers = s.vers := rfl
@[simp] theorem State.setDie_live (s : State) (k : Nat) (x : Die) : (s.setDie k x).live = s.live := rfl
@[simp] theorem State.setDie_revoked (s : State) (k : Nat) (x : Die) : (s.setDie k x).revoked = s.revoked := rfl
@[simp] theorem State.setDie_tlb (s : State) (k : Nat) (x : Die) : (s.setDie k x).tlb = s.tlb := rfl
@[simp] theorem State.setDie_icache (s : State) (k : Nat) (x : Die) : (s.setDie k x).icache = s.icache := rfl
@[simp] theorem State.setDie_rem (s : State) (k : Nat) (x : Die) : (s.setDie k x).rem = s.rem := rfl
@[simp] theorem State.setDie_dirs (s : State) (k : Nat) (x : Die) : (s.setDie k x).dirs = s.dirs := rfl
@[simp] theorem State.setDie_heldReqs (s : State) (k : Nat) (x : Die) : (s.setDie k x).heldReqs = s.heldReqs := rfl
@[simp] theorem State.setDie_l1 (s : State) (k : Nat) (x : Die) : (s.setDie k x).l1 = s.l1 := rfl
@[simp] theorem State.setDie_holds (s : State) (k : Nat) (x : Die) : (s.setDie k x).holds = s.holds := rfl
@[simp] theorem State.setDie_reserved (s : State) (k : Nat) (x : Die) : (s.setDie k x).reserved = s.reserved := rfl
@[simp] theorem State.setDie_errs (s : State) (k : Nat) (x : Die) : (s.setDie k x).errs = s.errs := rfl
@[simp] theorem State.setDie_recs (s : State) (k : Nat) (x : Die) : (s.setDie k x).recs = s.recs := rfl
@[simp] theorem State.setDie_tasks (s : State) (k : Nat) (x : Die) : (s.setDie k x).tasks = s.tasks := rfl
@[simp] theorem State.setDie_ops (s : State) (k : Nat) (x : Die) : (s.setDie k x).ops = s.ops := rfl
@[simp] theorem State.setDie_nextOp (s : State) (k : Nat) (x : Die) : (s.setDie k x).nextOp = s.nextOp := rfl
@[simp] theorem State.setDie_xfers (s : State) (k : Nat) (x : Die) : (s.setDie k x).xfers = s.xfers := rfl
@[simp] theorem State.setDie_budget (s : State) (k : Nat) (x : Die) : (s.setDie k x).budget = s.budget := rfl
@[simp] theorem State.setDie_limit (s : State) (k : Nat) (x : Die) : (s.setDie k x).limit = s.limit := rfl
@[simp] theorem State.setDie_power (s : State) (k : Nat) (x : Die) : (s.setDie k x).power = s.power := rfl
@[simp] theorem State.setDie_refillAt (s : State) (k : Nat) (x : Die) : (s.setDie k x).refillAt = s.refillAt := rfl
@[simp] theorem State.setDie_owner (s : State) (k : Nat) (x : Die) : (s.setDie k x).owner = s.owner := rfl
@[simp] theorem State.setDie_queues (s : State) (k : Nat) (x : Die) : (s.setDie k x).queues = s.queues := rfl
@[simp] theorem State.setDie_regions (s : State) (k : Nat) (x : Die) : (s.setDie k x).regions = s.regions := rfl
@[simp] theorem State.setDie_qps (s : State) (k : Nat) (x : Die) : (s.setDie k x).qps = s.qps := rfl
@[simp] theorem State.setDie_hosts (s : State) (k : Nat) (x : Die) : (s.setDie k x).hosts = s.hosts := rfl
@[simp] theorem State.setDie_launches (s : State) (k : Nat) (x : Die) : (s.setDie k x).launches = s.launches := rfl
@[simp] theorem State.setDie_cx (s : State) (k : Nat) (x : Die) : (s.setDie k x).cx = s.cx := rfl
@[simp] theorem State.setDie_mr (s : State) (k : Nat) (x : Die) : (s.setDie k x).mr = s.mr := rfl
@[simp] theorem State.setDie_bootFailed (s : State) (k : Nat) (x : Die) : (s.setDie k x).bootFailed = s.bootFailed := rfl
@[simp] theorem State.setDie_mainUp (s : State) (k : Nat) (x : Die) : (s.setDie k x).mainUp = s.mainUp := rfl
@[simp] theorem State.setDie_standbyUp (s : State) (k : Nat) (x : Die) : (s.setDie k x).standbyUp = s.standbyUp := rfl
@[simp] theorem State.setDie_ua (s : State) (k : Nat) (x : Die) : (s.setDie k x).ua = s.ua := rfl
@[simp] theorem State.setDie_replies (s : State) (k : Nat) (x : Die) : (s.setDie k x).replies = s.replies := rfl
@[simp] theorem State.setDie_outbox (s : State) (k : Nat) (x : Die) : (s.setDie k x).outbox = s.outbox := rfl
@[simp] theorem State.setDie_mgmt (s : State) (k : Nat) (x : Die) : (s.setDie k x).mgmt = s.mgmt := rfl
@[simp] theorem State.setDie_images (s : State) (k : Nat) (x : Die) : (s.setDie k x).images = s.images := rfl
@[simp] theorem State.setDie_waitCycle (s : State) (k : Nat) (x : Die) : (s.setDie k x).waitCycle = s.waitCycle := rfl
@[simp] theorem State.setDie_sweepAt (s : State) (k : Nat) (x : Die) : (s.setDie k x).sweepAt = s.sweepAt := rfl
@[simp] theorem State.setDie_time (s : State) (k : Nat) (x : Die) : (s.setDie k x).time = s.time := rfl
@[simp] theorem State.setDie_agenda (s : State) (k : Nat) (x : Die) : (s.setDie k x).agenda = s.agenda := rfl
@[simp] theorem State.setDie_fc (s : State) (k : Nat) (x : Die) : (s.setDie k x).fc = s.fc := rfl
@[simp] theorem State.setDie_rounds (s : State) (k : Nat) (x : Die) : (s.setDie k x).rounds = s.rounds := rfl
@[simp] theorem State.setDie_lastAgent (s : State) (k : Nat) (x : Die) : (s.setDie k x).lastAgent = s.lastAgent := rfl
@[simp] theorem State.setDie_cycleAt (s : State) (k : Nat) (x : Die) : (s.setDie k x).cycleAt = s.cycleAt := rfl
@[simp] theorem State.setDie_cycle (s : State) (k : Nat) (x : Die) : (s.setDie k x).cycle = s.cycle := rfl
@[simp] theorem State.setDie_cur (s : State) (k : Nat) (x : Die) : (s.setDie k x).cur = s.cur := rfl
@[simp] theorem State.setDie_latch (s : State) (k : Nat) (x : Die) : (s.setDie k x).latch = s.latch := rfl
@[simp] theorem State.setDie_popped (s : State) (k : Nat) (x : Die) : (s.setDie k x).popped = s.popped := rfl
@[simp] theorem State.setDie_npc (s : State) (k : Nat) (x : Die) : (s.setDie k x).npc = s.npc := rfl
@[simp] theorem State.setDie_fate (s : State) (k : Nat) (x : Die) : (s.setDie k x).fate = s.fate := rfl

/-! ### `setTask` -/

@[simp] theorem State.setTask_ctxs (s : State) (k : Nat) (x : Task) : (s.setTask k x).ctxs = s.ctxs := rfl
@[simp] theorem State.setTask_tiles (s : State) (k : Nat) (x : Task) : (s.setTask k x).tiles = s.tiles := rfl
@[simp] theorem State.setTask_dies (s : State) (k : Nat) (x : Task) : (s.setTask k x).dies = s.dies := rfl
@[simp] theorem State.setTask_mem (s : State) (k : Nat) (x : Task) : (s.setTask k x).mem = s.mem := rfl
@[simp] theorem State.setTask_pois (s : State) (k : Nat) (x : Task) : (s.setTask k x).pois = s.pois := rfl
@[simp] theorem State.setTask_unseen (s : State) (k : Nat) (x : Task) : (s.setTask k x).unseen = s.unseen := rfl
@[simp] theorem State.setTask_vers (s : State) (k : Nat) (x : Task) : (s.setTask k x).vers = s.vers := rfl
@[simp] theorem State.setTask_live (s : State) (k : Nat) (x : Task) : (s.setTask k x).live = s.live := rfl
@[simp] theorem State.setTask_revoked (s : State) (k : Nat) (x : Task) : (s.setTask k x).revoked = s.revoked := rfl
@[simp] theorem State.setTask_tlb (s : State) (k : Nat) (x : Task) : (s.setTask k x).tlb = s.tlb := rfl
@[simp] theorem State.setTask_icache (s : State) (k : Nat) (x : Task) : (s.setTask k x).icache = s.icache := rfl
@[simp] theorem State.setTask_rem (s : State) (k : Nat) (x : Task) : (s.setTask k x).rem = s.rem := rfl
@[simp] theorem State.setTask_dirs (s : State) (k : Nat) (x : Task) : (s.setTask k x).dirs = s.dirs := rfl
@[simp] theorem State.setTask_heldReqs (s : State) (k : Nat) (x : Task) : (s.setTask k x).heldReqs = s.heldReqs := rfl
@[simp] theorem State.setTask_l1 (s : State) (k : Nat) (x : Task) : (s.setTask k x).l1 = s.l1 := rfl
@[simp] theorem State.setTask_holds (s : State) (k : Nat) (x : Task) : (s.setTask k x).holds = s.holds := rfl
@[simp] theorem State.setTask_reserved (s : State) (k : Nat) (x : Task) : (s.setTask k x).reserved = s.reserved := rfl
@[simp] theorem State.setTask_errs (s : State) (k : Nat) (x : Task) : (s.setTask k x).errs = s.errs := rfl
@[simp] theorem State.setTask_recs (s : State) (k : Nat) (x : Task) : (s.setTask k x).recs = s.recs := rfl
@[simp] theorem State.setTask_ops (s : State) (k : Nat) (x : Task) : (s.setTask k x).ops = s.ops := rfl
@[simp] theorem State.setTask_nextOp (s : State) (k : Nat) (x : Task) : (s.setTask k x).nextOp = s.nextOp := rfl
@[simp] theorem State.setTask_xfers (s : State) (k : Nat) (x : Task) : (s.setTask k x).xfers = s.xfers := rfl
@[simp] theorem State.setTask_budget (s : State) (k : Nat) (x : Task) : (s.setTask k x).budget = s.budget := rfl
@[simp] theorem State.setTask_limit (s : State) (k : Nat) (x : Task) : (s.setTask k x).limit = s.limit := rfl
@[simp] theorem State.setTask_power (s : State) (k : Nat) (x : Task) : (s.setTask k x).power = s.power := rfl
@[simp] theorem State.setTask_refillAt (s : State) (k : Nat) (x : Task) : (s.setTask k x).refillAt = s.refillAt := rfl
@[simp] theorem State.setTask_owner (s : State) (k : Nat) (x : Task) : (s.setTask k x).owner = s.owner := rfl
@[simp] theorem State.setTask_queues (s : State) (k : Nat) (x : Task) : (s.setTask k x).queues = s.queues := rfl
@[simp] theorem State.setTask_regions (s : State) (k : Nat) (x : Task) : (s.setTask k x).regions = s.regions := rfl
@[simp] theorem State.setTask_qps (s : State) (k : Nat) (x : Task) : (s.setTask k x).qps = s.qps := rfl
@[simp] theorem State.setTask_hosts (s : State) (k : Nat) (x : Task) : (s.setTask k x).hosts = s.hosts := rfl
@[simp] theorem State.setTask_launches (s : State) (k : Nat) (x : Task) : (s.setTask k x).launches = s.launches := rfl
@[simp] theorem State.setTask_cx (s : State) (k : Nat) (x : Task) : (s.setTask k x).cx = s.cx := rfl
@[simp] theorem State.setTask_mr (s : State) (k : Nat) (x : Task) : (s.setTask k x).mr = s.mr := rfl
@[simp] theorem State.setTask_bootFailed (s : State) (k : Nat) (x : Task) : (s.setTask k x).bootFailed = s.bootFailed := rfl
@[simp] theorem State.setTask_mainUp (s : State) (k : Nat) (x : Task) : (s.setTask k x).mainUp = s.mainUp := rfl
@[simp] theorem State.setTask_standbyUp (s : State) (k : Nat) (x : Task) : (s.setTask k x).standbyUp = s.standbyUp := rfl
@[simp] theorem State.setTask_ua (s : State) (k : Nat) (x : Task) : (s.setTask k x).ua = s.ua := rfl
@[simp] theorem State.setTask_replies (s : State) (k : Nat) (x : Task) : (s.setTask k x).replies = s.replies := rfl
@[simp] theorem State.setTask_outbox (s : State) (k : Nat) (x : Task) : (s.setTask k x).outbox = s.outbox := rfl
@[simp] theorem State.setTask_mgmt (s : State) (k : Nat) (x : Task) : (s.setTask k x).mgmt = s.mgmt := rfl
@[simp] theorem State.setTask_images (s : State) (k : Nat) (x : Task) : (s.setTask k x).images = s.images := rfl
@[simp] theorem State.setTask_waitCycle (s : State) (k : Nat) (x : Task) : (s.setTask k x).waitCycle = s.waitCycle := rfl
@[simp] theorem State.setTask_sweepAt (s : State) (k : Nat) (x : Task) : (s.setTask k x).sweepAt = s.sweepAt := rfl
@[simp] theorem State.setTask_time (s : State) (k : Nat) (x : Task) : (s.setTask k x).time = s.time := rfl
@[simp] theorem State.setTask_agenda (s : State) (k : Nat) (x : Task) : (s.setTask k x).agenda = s.agenda := rfl
@[simp] theorem State.setTask_fc (s : State) (k : Nat) (x : Task) : (s.setTask k x).fc = s.fc := rfl
@[simp] theorem State.setTask_rounds (s : State) (k : Nat) (x : Task) : (s.setTask k x).rounds = s.rounds := rfl
@[simp] theorem State.setTask_lastAgent (s : State) (k : Nat) (x : Task) : (s.setTask k x).lastAgent = s.lastAgent := rfl
@[simp] theorem State.setTask_cycleAt (s : State) (k : Nat) (x : Task) : (s.setTask k x).cycleAt = s.cycleAt := rfl
@[simp] theorem State.setTask_cycle (s : State) (k : Nat) (x : Task) : (s.setTask k x).cycle = s.cycle := rfl
@[simp] theorem State.setTask_cur (s : State) (k : Nat) (x : Task) : (s.setTask k x).cur = s.cur := rfl
@[simp] theorem State.setTask_latch (s : State) (k : Nat) (x : Task) : (s.setTask k x).latch = s.latch := rfl
@[simp] theorem State.setTask_popped (s : State) (k : Nat) (x : Task) : (s.setTask k x).popped = s.popped := rfl
@[simp] theorem State.setTask_npc (s : State) (k : Nat) (x : Task) : (s.setTask k x).npc = s.npc := rfl
@[simp] theorem State.setTask_fate (s : State) (k : Nat) (x : Task) : (s.setTask k x).fate = s.fate := rfl

/-! ### `setQueue` -/

@[simp] theorem State.setQueue_ctxs (s : State) (k : Nat) (x : Queue) : (s.setQueue k x).ctxs = s.ctxs := rfl
@[simp] theorem State.setQueue_tiles (s : State) (k : Nat) (x : Queue) : (s.setQueue k x).tiles = s.tiles := rfl
@[simp] theorem State.setQueue_dies (s : State) (k : Nat) (x : Queue) : (s.setQueue k x).dies = s.dies := rfl
@[simp] theorem State.setQueue_mem (s : State) (k : Nat) (x : Queue) : (s.setQueue k x).mem = s.mem := rfl
@[simp] theorem State.setQueue_pois (s : State) (k : Nat) (x : Queue) : (s.setQueue k x).pois = s.pois := rfl
@[simp] theorem State.setQueue_unseen (s : State) (k : Nat) (x : Queue) : (s.setQueue k x).unseen = s.unseen := rfl
@[simp] theorem State.setQueue_vers (s : State) (k : Nat) (x : Queue) : (s.setQueue k x).vers = s.vers := rfl
@[simp] theorem State.setQueue_live (s : State) (k : Nat) (x : Queue) : (s.setQueue k x).live = s.live := rfl
@[simp] theorem State.setQueue_revoked (s : State) (k : Nat) (x : Queue) : (s.setQueue k x).revoked = s.revoked := rfl
@[simp] theorem State.setQueue_tlb (s : State) (k : Nat) (x : Queue) : (s.setQueue k x).tlb = s.tlb := rfl
@[simp] theorem State.setQueue_icache (s : State) (k : Nat) (x : Queue) : (s.setQueue k x).icache = s.icache := rfl
@[simp] theorem State.setQueue_rem (s : State) (k : Nat) (x : Queue) : (s.setQueue k x).rem = s.rem := rfl
@[simp] theorem State.setQueue_dirs (s : State) (k : Nat) (x : Queue) : (s.setQueue k x).dirs = s.dirs := rfl
@[simp] theorem State.setQueue_heldReqs (s : State) (k : Nat) (x : Queue) : (s.setQueue k x).heldReqs = s.heldReqs := rfl
@[simp] theorem State.setQueue_l1 (s : State) (k : Nat) (x : Queue) : (s.setQueue k x).l1 = s.l1 := rfl
@[simp] theorem State.setQueue_holds (s : State) (k : Nat) (x : Queue) : (s.setQueue k x).holds = s.holds := rfl
@[simp] theorem State.setQueue_reserved (s : State) (k : Nat) (x : Queue) : (s.setQueue k x).reserved = s.reserved := rfl
@[simp] theorem State.setQueue_errs (s : State) (k : Nat) (x : Queue) : (s.setQueue k x).errs = s.errs := rfl
@[simp] theorem State.setQueue_recs (s : State) (k : Nat) (x : Queue) : (s.setQueue k x).recs = s.recs := rfl
@[simp] theorem State.setQueue_tasks (s : State) (k : Nat) (x : Queue) : (s.setQueue k x).tasks = s.tasks := rfl
@[simp] theorem State.setQueue_ops (s : State) (k : Nat) (x : Queue) : (s.setQueue k x).ops = s.ops := rfl
@[simp] theorem State.setQueue_nextOp (s : State) (k : Nat) (x : Queue) : (s.setQueue k x).nextOp = s.nextOp := rfl
@[simp] theorem State.setQueue_xfers (s : State) (k : Nat) (x : Queue) : (s.setQueue k x).xfers = s.xfers := rfl
@[simp] theorem State.setQueue_budget (s : State) (k : Nat) (x : Queue) : (s.setQueue k x).budget = s.budget := rfl
@[simp] theorem State.setQueue_limit (s : State) (k : Nat) (x : Queue) : (s.setQueue k x).limit = s.limit := rfl
@[simp] theorem State.setQueue_power (s : State) (k : Nat) (x : Queue) : (s.setQueue k x).power = s.power := rfl
@[simp] theorem State.setQueue_refillAt (s : State) (k : Nat) (x : Queue) : (s.setQueue k x).refillAt = s.refillAt := rfl
@[simp] theorem State.setQueue_owner (s : State) (k : Nat) (x : Queue) : (s.setQueue k x).owner = s.owner := rfl
@[simp] theorem State.setQueue_regions (s : State) (k : Nat) (x : Queue) : (s.setQueue k x).regions = s.regions := rfl
@[simp] theorem State.setQueue_qps (s : State) (k : Nat) (x : Queue) : (s.setQueue k x).qps = s.qps := rfl
@[simp] theorem State.setQueue_hosts (s : State) (k : Nat) (x : Queue) : (s.setQueue k x).hosts = s.hosts := rfl
@[simp] theorem State.setQueue_launches (s : State) (k : Nat) (x : Queue) : (s.setQueue k x).launches = s.launches := rfl
@[simp] theorem State.setQueue_cx (s : State) (k : Nat) (x : Queue) : (s.setQueue k x).cx = s.cx := rfl
@[simp] theorem State.setQueue_mr (s : State) (k : Nat) (x : Queue) : (s.setQueue k x).mr = s.mr := rfl
@[simp] theorem State.setQueue_bootFailed (s : State) (k : Nat) (x : Queue) : (s.setQueue k x).bootFailed = s.bootFailed := rfl
@[simp] theorem State.setQueue_mainUp (s : State) (k : Nat) (x : Queue) : (s.setQueue k x).mainUp = s.mainUp := rfl
@[simp] theorem State.setQueue_standbyUp (s : State) (k : Nat) (x : Queue) : (s.setQueue k x).standbyUp = s.standbyUp := rfl
@[simp] theorem State.setQueue_ua (s : State) (k : Nat) (x : Queue) : (s.setQueue k x).ua = s.ua := rfl
@[simp] theorem State.setQueue_replies (s : State) (k : Nat) (x : Queue) : (s.setQueue k x).replies = s.replies := rfl
@[simp] theorem State.setQueue_outbox (s : State) (k : Nat) (x : Queue) : (s.setQueue k x).outbox = s.outbox := rfl
@[simp] theorem State.setQueue_mgmt (s : State) (k : Nat) (x : Queue) : (s.setQueue k x).mgmt = s.mgmt := rfl
@[simp] theorem State.setQueue_images (s : State) (k : Nat) (x : Queue) : (s.setQueue k x).images = s.images := rfl
@[simp] theorem State.setQueue_waitCycle (s : State) (k : Nat) (x : Queue) : (s.setQueue k x).waitCycle = s.waitCycle := rfl
@[simp] theorem State.setQueue_sweepAt (s : State) (k : Nat) (x : Queue) : (s.setQueue k x).sweepAt = s.sweepAt := rfl
@[simp] theorem State.setQueue_time (s : State) (k : Nat) (x : Queue) : (s.setQueue k x).time = s.time := rfl
@[simp] theorem State.setQueue_agenda (s : State) (k : Nat) (x : Queue) : (s.setQueue k x).agenda = s.agenda := rfl
@[simp] theorem State.setQueue_fc (s : State) (k : Nat) (x : Queue) : (s.setQueue k x).fc = s.fc := rfl
@[simp] theorem State.setQueue_rounds (s : State) (k : Nat) (x : Queue) : (s.setQueue k x).rounds = s.rounds := rfl
@[simp] theorem State.setQueue_lastAgent (s : State) (k : Nat) (x : Queue) : (s.setQueue k x).lastAgent = s.lastAgent := rfl
@[simp] theorem State.setQueue_cycleAt (s : State) (k : Nat) (x : Queue) : (s.setQueue k x).cycleAt = s.cycleAt := rfl
@[simp] theorem State.setQueue_cycle (s : State) (k : Nat) (x : Queue) : (s.setQueue k x).cycle = s.cycle := rfl
@[simp] theorem State.setQueue_cur (s : State) (k : Nat) (x : Queue) : (s.setQueue k x).cur = s.cur := rfl
@[simp] theorem State.setQueue_latch (s : State) (k : Nat) (x : Queue) : (s.setQueue k x).latch = s.latch := rfl
@[simp] theorem State.setQueue_popped (s : State) (k : Nat) (x : Queue) : (s.setQueue k x).popped = s.popped := rfl
@[simp] theorem State.setQueue_npc (s : State) (k : Nat) (x : Queue) : (s.setQueue k x).npc = s.npc := rfl
@[simp] theorem State.setQueue_fate (s : State) (k : Nat) (x : Queue) : (s.setQueue k x).fate = s.fate := rfl

/-! ### `setRecord` -/

@[simp] theorem State.setRecord_ctxs (s : State) (k : Nat) (x : BitVec 2048) : (s.setRecord k x).ctxs = s.ctxs := rfl
@[simp] theorem State.setRecord_tiles (s : State) (k : Nat) (x : BitVec 2048) : (s.setRecord k x).tiles = s.tiles := rfl
@[simp] theorem State.setRecord_dies (s : State) (k : Nat) (x : BitVec 2048) : (s.setRecord k x).dies = s.dies := rfl
@[simp] theorem State.setRecord_mem (s : State) (k : Nat) (x : BitVec 2048) : (s.setRecord k x).mem = s.mem := rfl
@[simp] theorem State.setRecord_pois (s : State) (k : Nat) (x : BitVec 2048) : (s.setRecord k x).pois = s.pois := rfl
@[simp] theorem State.setRecord_unseen (s : State) (k : Nat) (x : BitVec 2048) : (s.setRecord k x).unseen = s.unseen := rfl
@[simp] theorem State.setRecord_vers (s : State) (k : Nat) (x : BitVec 2048) : (s.setRecord k x).vers = s.vers := rfl
@[simp] theorem State.setRecord_live (s : State) (k : Nat) (x : BitVec 2048) : (s.setRecord k x).live = s.live := rfl
@[simp] theorem State.setRecord_revoked (s : State) (k : Nat) (x : BitVec 2048) : (s.setRecord k x).revoked = s.revoked := rfl
@[simp] theorem State.setRecord_tlb (s : State) (k : Nat) (x : BitVec 2048) : (s.setRecord k x).tlb = s.tlb := rfl
@[simp] theorem State.setRecord_icache (s : State) (k : Nat) (x : BitVec 2048) : (s.setRecord k x).icache = s.icache := rfl
@[simp] theorem State.setRecord_rem (s : State) (k : Nat) (x : BitVec 2048) : (s.setRecord k x).rem = s.rem := rfl
@[simp] theorem State.setRecord_dirs (s : State) (k : Nat) (x : BitVec 2048) : (s.setRecord k x).dirs = s.dirs := rfl
@[simp] theorem State.setRecord_heldReqs (s : State) (k : Nat) (x : BitVec 2048) : (s.setRecord k x).heldReqs = s.heldReqs := rfl
@[simp] theorem State.setRecord_l1 (s : State) (k : Nat) (x : BitVec 2048) : (s.setRecord k x).l1 = s.l1 := rfl
@[simp] theorem State.setRecord_holds (s : State) (k : Nat) (x : BitVec 2048) : (s.setRecord k x).holds = s.holds := rfl
@[simp] theorem State.setRecord_reserved (s : State) (k : Nat) (x : BitVec 2048) : (s.setRecord k x).reserved = s.reserved := rfl
@[simp] theorem State.setRecord_errs (s : State) (k : Nat) (x : BitVec 2048) : (s.setRecord k x).errs = s.errs := rfl
@[simp] theorem State.setRecord_tasks (s : State) (k : Nat) (x : BitVec 2048) : (s.setRecord k x).tasks = s.tasks := rfl
@[simp] theorem State.setRecord_ops (s : State) (k : Nat) (x : BitVec 2048) : (s.setRecord k x).ops = s.ops := rfl
@[simp] theorem State.setRecord_nextOp (s : State) (k : Nat) (x : BitVec 2048) : (s.setRecord k x).nextOp = s.nextOp := rfl
@[simp] theorem State.setRecord_xfers (s : State) (k : Nat) (x : BitVec 2048) : (s.setRecord k x).xfers = s.xfers := rfl
@[simp] theorem State.setRecord_budget (s : State) (k : Nat) (x : BitVec 2048) : (s.setRecord k x).budget = s.budget := rfl
@[simp] theorem State.setRecord_limit (s : State) (k : Nat) (x : BitVec 2048) : (s.setRecord k x).limit = s.limit := rfl
@[simp] theorem State.setRecord_power (s : State) (k : Nat) (x : BitVec 2048) : (s.setRecord k x).power = s.power := rfl
@[simp] theorem State.setRecord_refillAt (s : State) (k : Nat) (x : BitVec 2048) : (s.setRecord k x).refillAt = s.refillAt := rfl
@[simp] theorem State.setRecord_owner (s : State) (k : Nat) (x : BitVec 2048) : (s.setRecord k x).owner = s.owner := rfl
@[simp] theorem State.setRecord_queues (s : State) (k : Nat) (x : BitVec 2048) : (s.setRecord k x).queues = s.queues := rfl
@[simp] theorem State.setRecord_regions (s : State) (k : Nat) (x : BitVec 2048) : (s.setRecord k x).regions = s.regions := rfl
@[simp] theorem State.setRecord_qps (s : State) (k : Nat) (x : BitVec 2048) : (s.setRecord k x).qps = s.qps := rfl
@[simp] theorem State.setRecord_hosts (s : State) (k : Nat) (x : BitVec 2048) : (s.setRecord k x).hosts = s.hosts := rfl
@[simp] theorem State.setRecord_launches (s : State) (k : Nat) (x : BitVec 2048) : (s.setRecord k x).launches = s.launches := rfl
@[simp] theorem State.setRecord_cx (s : State) (k : Nat) (x : BitVec 2048) : (s.setRecord k x).cx = s.cx := rfl
@[simp] theorem State.setRecord_mr (s : State) (k : Nat) (x : BitVec 2048) : (s.setRecord k x).mr = s.mr := rfl
@[simp] theorem State.setRecord_bootFailed (s : State) (k : Nat) (x : BitVec 2048) : (s.setRecord k x).bootFailed = s.bootFailed := rfl
@[simp] theorem State.setRecord_mainUp (s : State) (k : Nat) (x : BitVec 2048) : (s.setRecord k x).mainUp = s.mainUp := rfl
@[simp] theorem State.setRecord_standbyUp (s : State) (k : Nat) (x : BitVec 2048) : (s.setRecord k x).standbyUp = s.standbyUp := rfl
@[simp] theorem State.setRecord_ua (s : State) (k : Nat) (x : BitVec 2048) : (s.setRecord k x).ua = s.ua := rfl
@[simp] theorem State.setRecord_replies (s : State) (k : Nat) (x : BitVec 2048) : (s.setRecord k x).replies = s.replies := rfl
@[simp] theorem State.setRecord_outbox (s : State) (k : Nat) (x : BitVec 2048) : (s.setRecord k x).outbox = s.outbox := rfl
@[simp] theorem State.setRecord_mgmt (s : State) (k : Nat) (x : BitVec 2048) : (s.setRecord k x).mgmt = s.mgmt := rfl
@[simp] theorem State.setRecord_images (s : State) (k : Nat) (x : BitVec 2048) : (s.setRecord k x).images = s.images := rfl
@[simp] theorem State.setRecord_waitCycle (s : State) (k : Nat) (x : BitVec 2048) : (s.setRecord k x).waitCycle = s.waitCycle := rfl
@[simp] theorem State.setRecord_sweepAt (s : State) (k : Nat) (x : BitVec 2048) : (s.setRecord k x).sweepAt = s.sweepAt := rfl
@[simp] theorem State.setRecord_time (s : State) (k : Nat) (x : BitVec 2048) : (s.setRecord k x).time = s.time := rfl
@[simp] theorem State.setRecord_agenda (s : State) (k : Nat) (x : BitVec 2048) : (s.setRecord k x).agenda = s.agenda := rfl
@[simp] theorem State.setRecord_fc (s : State) (k : Nat) (x : BitVec 2048) : (s.setRecord k x).fc = s.fc := rfl
@[simp] theorem State.setRecord_rounds (s : State) (k : Nat) (x : BitVec 2048) : (s.setRecord k x).rounds = s.rounds := rfl
@[simp] theorem State.setRecord_lastAgent (s : State) (k : Nat) (x : BitVec 2048) : (s.setRecord k x).lastAgent = s.lastAgent := rfl
@[simp] theorem State.setRecord_cycleAt (s : State) (k : Nat) (x : BitVec 2048) : (s.setRecord k x).cycleAt = s.cycleAt := rfl
@[simp] theorem State.setRecord_cycle (s : State) (k : Nat) (x : BitVec 2048) : (s.setRecord k x).cycle = s.cycle := rfl
@[simp] theorem State.setRecord_cur (s : State) (k : Nat) (x : BitVec 2048) : (s.setRecord k x).cur = s.cur := rfl
@[simp] theorem State.setRecord_latch (s : State) (k : Nat) (x : BitVec 2048) : (s.setRecord k x).latch = s.latch := rfl
@[simp] theorem State.setRecord_popped (s : State) (k : Nat) (x : BitVec 2048) : (s.setRecord k x).popped = s.popped := rfl
@[simp] theorem State.setRecord_npc (s : State) (k : Nat) (x : BitVec 2048) : (s.setRecord k x).npc = s.npc := rfl
@[simp] theorem State.setRecord_fate (s : State) (k : Nat) (x : BitVec 2048) : (s.setRecord k x).fate = s.fate := rfl

/-! ### `memSet` -/

@[simp] theorem State.memSet_ctxs (s : State) (k : Nat) (x : Byte) : (s.memSet k x).ctxs = s.ctxs := rfl
@[simp] theorem State.memSet_tiles (s : State) (k : Nat) (x : Byte) : (s.memSet k x).tiles = s.tiles := rfl
@[simp] theorem State.memSet_dies (s : State) (k : Nat) (x : Byte) : (s.memSet k x).dies = s.dies := rfl
@[simp] theorem State.memSet_pois (s : State) (k : Nat) (x : Byte) : (s.memSet k x).pois = s.pois := rfl
@[simp] theorem State.memSet_unseen (s : State) (k : Nat) (x : Byte) : (s.memSet k x).unseen = s.unseen := rfl
@[simp] theorem State.memSet_vers (s : State) (k : Nat) (x : Byte) : (s.memSet k x).vers = s.vers := rfl
@[simp] theorem State.memSet_live (s : State) (k : Nat) (x : Byte) : (s.memSet k x).live = s.live := rfl
@[simp] theorem State.memSet_revoked (s : State) (k : Nat) (x : Byte) : (s.memSet k x).revoked = s.revoked := rfl
@[simp] theorem State.memSet_tlb (s : State) (k : Nat) (x : Byte) : (s.memSet k x).tlb = s.tlb := rfl
@[simp] theorem State.memSet_icache (s : State) (k : Nat) (x : Byte) : (s.memSet k x).icache = s.icache := rfl
@[simp] theorem State.memSet_rem (s : State) (k : Nat) (x : Byte) : (s.memSet k x).rem = s.rem := rfl
@[simp] theorem State.memSet_dirs (s : State) (k : Nat) (x : Byte) : (s.memSet k x).dirs = s.dirs := rfl
@[simp] theorem State.memSet_heldReqs (s : State) (k : Nat) (x : Byte) : (s.memSet k x).heldReqs = s.heldReqs := rfl
@[simp] theorem State.memSet_l1 (s : State) (k : Nat) (x : Byte) : (s.memSet k x).l1 = s.l1 := rfl
@[simp] theorem State.memSet_holds (s : State) (k : Nat) (x : Byte) : (s.memSet k x).holds = s.holds := rfl
@[simp] theorem State.memSet_reserved (s : State) (k : Nat) (x : Byte) : (s.memSet k x).reserved = s.reserved := rfl
@[simp] theorem State.memSet_errs (s : State) (k : Nat) (x : Byte) : (s.memSet k x).errs = s.errs := rfl
@[simp] theorem State.memSet_recs (s : State) (k : Nat) (x : Byte) : (s.memSet k x).recs = s.recs := rfl
@[simp] theorem State.memSet_tasks (s : State) (k : Nat) (x : Byte) : (s.memSet k x).tasks = s.tasks := rfl
@[simp] theorem State.memSet_ops (s : State) (k : Nat) (x : Byte) : (s.memSet k x).ops = s.ops := rfl
@[simp] theorem State.memSet_nextOp (s : State) (k : Nat) (x : Byte) : (s.memSet k x).nextOp = s.nextOp := rfl
@[simp] theorem State.memSet_xfers (s : State) (k : Nat) (x : Byte) : (s.memSet k x).xfers = s.xfers := rfl
@[simp] theorem State.memSet_budget (s : State) (k : Nat) (x : Byte) : (s.memSet k x).budget = s.budget := rfl
@[simp] theorem State.memSet_limit (s : State) (k : Nat) (x : Byte) : (s.memSet k x).limit = s.limit := rfl
@[simp] theorem State.memSet_power (s : State) (k : Nat) (x : Byte) : (s.memSet k x).power = s.power := rfl
@[simp] theorem State.memSet_refillAt (s : State) (k : Nat) (x : Byte) : (s.memSet k x).refillAt = s.refillAt := rfl
@[simp] theorem State.memSet_owner (s : State) (k : Nat) (x : Byte) : (s.memSet k x).owner = s.owner := rfl
@[simp] theorem State.memSet_queues (s : State) (k : Nat) (x : Byte) : (s.memSet k x).queues = s.queues := rfl
@[simp] theorem State.memSet_regions (s : State) (k : Nat) (x : Byte) : (s.memSet k x).regions = s.regions := rfl
@[simp] theorem State.memSet_qps (s : State) (k : Nat) (x : Byte) : (s.memSet k x).qps = s.qps := rfl
@[simp] theorem State.memSet_hosts (s : State) (k : Nat) (x : Byte) : (s.memSet k x).hosts = s.hosts := rfl
@[simp] theorem State.memSet_launches (s : State) (k : Nat) (x : Byte) : (s.memSet k x).launches = s.launches := rfl
@[simp] theorem State.memSet_cx (s : State) (k : Nat) (x : Byte) : (s.memSet k x).cx = s.cx := rfl
@[simp] theorem State.memSet_mr (s : State) (k : Nat) (x : Byte) : (s.memSet k x).mr = s.mr := rfl
@[simp] theorem State.memSet_bootFailed (s : State) (k : Nat) (x : Byte) : (s.memSet k x).bootFailed = s.bootFailed := rfl
@[simp] theorem State.memSet_mainUp (s : State) (k : Nat) (x : Byte) : (s.memSet k x).mainUp = s.mainUp := rfl
@[simp] theorem State.memSet_standbyUp (s : State) (k : Nat) (x : Byte) : (s.memSet k x).standbyUp = s.standbyUp := rfl
@[simp] theorem State.memSet_ua (s : State) (k : Nat) (x : Byte) : (s.memSet k x).ua = s.ua := rfl
@[simp] theorem State.memSet_replies (s : State) (k : Nat) (x : Byte) : (s.memSet k x).replies = s.replies := rfl
@[simp] theorem State.memSet_outbox (s : State) (k : Nat) (x : Byte) : (s.memSet k x).outbox = s.outbox := rfl
@[simp] theorem State.memSet_mgmt (s : State) (k : Nat) (x : Byte) : (s.memSet k x).mgmt = s.mgmt := rfl
@[simp] theorem State.memSet_images (s : State) (k : Nat) (x : Byte) : (s.memSet k x).images = s.images := rfl
@[simp] theorem State.memSet_waitCycle (s : State) (k : Nat) (x : Byte) : (s.memSet k x).waitCycle = s.waitCycle := rfl
@[simp] theorem State.memSet_sweepAt (s : State) (k : Nat) (x : Byte) : (s.memSet k x).sweepAt = s.sweepAt := rfl
@[simp] theorem State.memSet_time (s : State) (k : Nat) (x : Byte) : (s.memSet k x).time = s.time := rfl
@[simp] theorem State.memSet_agenda (s : State) (k : Nat) (x : Byte) : (s.memSet k x).agenda = s.agenda := rfl
@[simp] theorem State.memSet_fc (s : State) (k : Nat) (x : Byte) : (s.memSet k x).fc = s.fc := rfl
@[simp] theorem State.memSet_rounds (s : State) (k : Nat) (x : Byte) : (s.memSet k x).rounds = s.rounds := rfl
@[simp] theorem State.memSet_lastAgent (s : State) (k : Nat) (x : Byte) : (s.memSet k x).lastAgent = s.lastAgent := rfl
@[simp] theorem State.memSet_cycleAt (s : State) (k : Nat) (x : Byte) : (s.memSet k x).cycleAt = s.cycleAt := rfl
@[simp] theorem State.memSet_cycle (s : State) (k : Nat) (x : Byte) : (s.memSet k x).cycle = s.cycle := rfl
@[simp] theorem State.memSet_cur (s : State) (k : Nat) (x : Byte) : (s.memSet k x).cur = s.cur := rfl
@[simp] theorem State.memSet_latch (s : State) (k : Nat) (x : Byte) : (s.memSet k x).latch = s.latch := rfl
@[simp] theorem State.memSet_popped (s : State) (k : Nat) (x : Byte) : (s.memSet k x).popped = s.popped := rfl
@[simp] theorem State.memSet_npc (s : State) (k : Nat) (x : Byte) : (s.memSet k x).npc = s.npc := rfl
@[simp] theorem State.memSet_fate (s : State) (k : Nat) (x : Byte) : (s.memSet k x).fate = s.fate := rfl

/-! ### `setLinePois` -/

@[simp] theorem State.setLinePois_ctxs (s : State) (k : Nat) (x : Bool) : (s.setLinePois k x).ctxs = s.ctxs := rfl
@[simp] theorem State.setLinePois_tiles (s : State) (k : Nat) (x : Bool) : (s.setLinePois k x).tiles = s.tiles := rfl
@[simp] theorem State.setLinePois_dies (s : State) (k : Nat) (x : Bool) : (s.setLinePois k x).dies = s.dies := rfl
@[simp] theorem State.setLinePois_mem (s : State) (k : Nat) (x : Bool) : (s.setLinePois k x).mem = s.mem := rfl
@[simp] theorem State.setLinePois_unseen (s : State) (k : Nat) (x : Bool) : (s.setLinePois k x).unseen = s.unseen := rfl
@[simp] theorem State.setLinePois_vers (s : State) (k : Nat) (x : Bool) : (s.setLinePois k x).vers = s.vers := rfl
@[simp] theorem State.setLinePois_live (s : State) (k : Nat) (x : Bool) : (s.setLinePois k x).live = s.live := rfl
@[simp] theorem State.setLinePois_revoked (s : State) (k : Nat) (x : Bool) : (s.setLinePois k x).revoked = s.revoked := rfl
@[simp] theorem State.setLinePois_tlb (s : State) (k : Nat) (x : Bool) : (s.setLinePois k x).tlb = s.tlb := rfl
@[simp] theorem State.setLinePois_icache (s : State) (k : Nat) (x : Bool) : (s.setLinePois k x).icache = s.icache := rfl
@[simp] theorem State.setLinePois_rem (s : State) (k : Nat) (x : Bool) : (s.setLinePois k x).rem = s.rem := rfl
@[simp] theorem State.setLinePois_dirs (s : State) (k : Nat) (x : Bool) : (s.setLinePois k x).dirs = s.dirs := rfl
@[simp] theorem State.setLinePois_heldReqs (s : State) (k : Nat) (x : Bool) : (s.setLinePois k x).heldReqs = s.heldReqs := rfl
@[simp] theorem State.setLinePois_l1 (s : State) (k : Nat) (x : Bool) : (s.setLinePois k x).l1 = s.l1 := rfl
@[simp] theorem State.setLinePois_holds (s : State) (k : Nat) (x : Bool) : (s.setLinePois k x).holds = s.holds := rfl
@[simp] theorem State.setLinePois_reserved (s : State) (k : Nat) (x : Bool) : (s.setLinePois k x).reserved = s.reserved := rfl
@[simp] theorem State.setLinePois_errs (s : State) (k : Nat) (x : Bool) : (s.setLinePois k x).errs = s.errs := rfl
@[simp] theorem State.setLinePois_recs (s : State) (k : Nat) (x : Bool) : (s.setLinePois k x).recs = s.recs := rfl
@[simp] theorem State.setLinePois_tasks (s : State) (k : Nat) (x : Bool) : (s.setLinePois k x).tasks = s.tasks := rfl
@[simp] theorem State.setLinePois_ops (s : State) (k : Nat) (x : Bool) : (s.setLinePois k x).ops = s.ops := rfl
@[simp] theorem State.setLinePois_nextOp (s : State) (k : Nat) (x : Bool) : (s.setLinePois k x).nextOp = s.nextOp := rfl
@[simp] theorem State.setLinePois_xfers (s : State) (k : Nat) (x : Bool) : (s.setLinePois k x).xfers = s.xfers := rfl
@[simp] theorem State.setLinePois_budget (s : State) (k : Nat) (x : Bool) : (s.setLinePois k x).budget = s.budget := rfl
@[simp] theorem State.setLinePois_limit (s : State) (k : Nat) (x : Bool) : (s.setLinePois k x).limit = s.limit := rfl
@[simp] theorem State.setLinePois_power (s : State) (k : Nat) (x : Bool) : (s.setLinePois k x).power = s.power := rfl
@[simp] theorem State.setLinePois_refillAt (s : State) (k : Nat) (x : Bool) : (s.setLinePois k x).refillAt = s.refillAt := rfl
@[simp] theorem State.setLinePois_owner (s : State) (k : Nat) (x : Bool) : (s.setLinePois k x).owner = s.owner := rfl
@[simp] theorem State.setLinePois_queues (s : State) (k : Nat) (x : Bool) : (s.setLinePois k x).queues = s.queues := rfl
@[simp] theorem State.setLinePois_regions (s : State) (k : Nat) (x : Bool) : (s.setLinePois k x).regions = s.regions := rfl
@[simp] theorem State.setLinePois_qps (s : State) (k : Nat) (x : Bool) : (s.setLinePois k x).qps = s.qps := rfl
@[simp] theorem State.setLinePois_hosts (s : State) (k : Nat) (x : Bool) : (s.setLinePois k x).hosts = s.hosts := rfl
@[simp] theorem State.setLinePois_launches (s : State) (k : Nat) (x : Bool) : (s.setLinePois k x).launches = s.launches := rfl
@[simp] theorem State.setLinePois_cx (s : State) (k : Nat) (x : Bool) : (s.setLinePois k x).cx = s.cx := rfl
@[simp] theorem State.setLinePois_mr (s : State) (k : Nat) (x : Bool) : (s.setLinePois k x).mr = s.mr := rfl
@[simp] theorem State.setLinePois_bootFailed (s : State) (k : Nat) (x : Bool) : (s.setLinePois k x).bootFailed = s.bootFailed := rfl
@[simp] theorem State.setLinePois_mainUp (s : State) (k : Nat) (x : Bool) : (s.setLinePois k x).mainUp = s.mainUp := rfl
@[simp] theorem State.setLinePois_standbyUp (s : State) (k : Nat) (x : Bool) : (s.setLinePois k x).standbyUp = s.standbyUp := rfl
@[simp] theorem State.setLinePois_ua (s : State) (k : Nat) (x : Bool) : (s.setLinePois k x).ua = s.ua := rfl
@[simp] theorem State.setLinePois_replies (s : State) (k : Nat) (x : Bool) : (s.setLinePois k x).replies = s.replies := rfl
@[simp] theorem State.setLinePois_outbox (s : State) (k : Nat) (x : Bool) : (s.setLinePois k x).outbox = s.outbox := rfl
@[simp] theorem State.setLinePois_mgmt (s : State) (k : Nat) (x : Bool) : (s.setLinePois k x).mgmt = s.mgmt := rfl
@[simp] theorem State.setLinePois_images (s : State) (k : Nat) (x : Bool) : (s.setLinePois k x).images = s.images := rfl
@[simp] theorem State.setLinePois_waitCycle (s : State) (k : Nat) (x : Bool) : (s.setLinePois k x).waitCycle = s.waitCycle := rfl
@[simp] theorem State.setLinePois_sweepAt (s : State) (k : Nat) (x : Bool) : (s.setLinePois k x).sweepAt = s.sweepAt := rfl
@[simp] theorem State.setLinePois_time (s : State) (k : Nat) (x : Bool) : (s.setLinePois k x).time = s.time := rfl
@[simp] theorem State.setLinePois_agenda (s : State) (k : Nat) (x : Bool) : (s.setLinePois k x).agenda = s.agenda := rfl
@[simp] theorem State.setLinePois_fc (s : State) (k : Nat) (x : Bool) : (s.setLinePois k x).fc = s.fc := rfl
@[simp] theorem State.setLinePois_rounds (s : State) (k : Nat) (x : Bool) : (s.setLinePois k x).rounds = s.rounds := rfl
@[simp] theorem State.setLinePois_lastAgent (s : State) (k : Nat) (x : Bool) : (s.setLinePois k x).lastAgent = s.lastAgent := rfl
@[simp] theorem State.setLinePois_cycleAt (s : State) (k : Nat) (x : Bool) : (s.setLinePois k x).cycleAt = s.cycleAt := rfl
@[simp] theorem State.setLinePois_cycle (s : State) (k : Nat) (x : Bool) : (s.setLinePois k x).cycle = s.cycle := rfl
@[simp] theorem State.setLinePois_cur (s : State) (k : Nat) (x : Bool) : (s.setLinePois k x).cur = s.cur := rfl
@[simp] theorem State.setLinePois_latch (s : State) (k : Nat) (x : Bool) : (s.setLinePois k x).latch = s.latch := rfl
@[simp] theorem State.setLinePois_popped (s : State) (k : Nat) (x : Bool) : (s.setLinePois k x).popped = s.popped := rfl
@[simp] theorem State.setLinePois_npc (s : State) (k : Nat) (x : Bool) : (s.setLinePois k x).npc = s.npc := rfl
@[simp] theorem State.setLinePois_fate (s : State) (k : Nat) (x : Bool) : (s.setLinePois k x).fate = s.fate := rfl

/-! ### `setMe` -/

@[simp] theorem State.setMe_tiles (s : State) (c : Ctx) : (s.setMe c).tiles = s.tiles := rfl
@[simp] theorem State.setMe_dies (s : State) (c : Ctx) : (s.setMe c).dies = s.dies := rfl
@[simp] theorem State.setMe_mem (s : State) (c : Ctx) : (s.setMe c).mem = s.mem := rfl
@[simp] theorem State.setMe_pois (s : State) (c : Ctx) : (s.setMe c).pois = s.pois := rfl
@[simp] theorem State.setMe_unseen (s : State) (c : Ctx) : (s.setMe c).unseen = s.unseen := rfl
@[simp] theorem State.setMe_vers (s : State) (c : Ctx) : (s.setMe c).vers = s.vers := rfl
@[simp] theorem State.setMe_live (s : State) (c : Ctx) : (s.setMe c).live = s.live := rfl
@[simp] theorem State.setMe_revoked (s : State) (c : Ctx) : (s.setMe c).revoked = s.revoked := rfl
@[simp] theorem State.setMe_tlb (s : State) (c : Ctx) : (s.setMe c).tlb = s.tlb := rfl
@[simp] theorem State.setMe_icache (s : State) (c : Ctx) : (s.setMe c).icache = s.icache := rfl
@[simp] theorem State.setMe_rem (s : State) (c : Ctx) : (s.setMe c).rem = s.rem := rfl
@[simp] theorem State.setMe_dirs (s : State) (c : Ctx) : (s.setMe c).dirs = s.dirs := rfl
@[simp] theorem State.setMe_heldReqs (s : State) (c : Ctx) : (s.setMe c).heldReqs = s.heldReqs := rfl
@[simp] theorem State.setMe_l1 (s : State) (c : Ctx) : (s.setMe c).l1 = s.l1 := rfl
@[simp] theorem State.setMe_holds (s : State) (c : Ctx) : (s.setMe c).holds = s.holds := rfl
@[simp] theorem State.setMe_reserved (s : State) (c : Ctx) : (s.setMe c).reserved = s.reserved := rfl
@[simp] theorem State.setMe_errs (s : State) (c : Ctx) : (s.setMe c).errs = s.errs := rfl
@[simp] theorem State.setMe_recs (s : State) (c : Ctx) : (s.setMe c).recs = s.recs := rfl
@[simp] theorem State.setMe_tasks (s : State) (c : Ctx) : (s.setMe c).tasks = s.tasks := rfl
@[simp] theorem State.setMe_ops (s : State) (c : Ctx) : (s.setMe c).ops = s.ops := rfl
@[simp] theorem State.setMe_nextOp (s : State) (c : Ctx) : (s.setMe c).nextOp = s.nextOp := rfl
@[simp] theorem State.setMe_xfers (s : State) (c : Ctx) : (s.setMe c).xfers = s.xfers := rfl
@[simp] theorem State.setMe_budget (s : State) (c : Ctx) : (s.setMe c).budget = s.budget := rfl
@[simp] theorem State.setMe_limit (s : State) (c : Ctx) : (s.setMe c).limit = s.limit := rfl
@[simp] theorem State.setMe_power (s : State) (c : Ctx) : (s.setMe c).power = s.power := rfl
@[simp] theorem State.setMe_refillAt (s : State) (c : Ctx) : (s.setMe c).refillAt = s.refillAt := rfl
@[simp] theorem State.setMe_owner (s : State) (c : Ctx) : (s.setMe c).owner = s.owner := rfl
@[simp] theorem State.setMe_queues (s : State) (c : Ctx) : (s.setMe c).queues = s.queues := rfl
@[simp] theorem State.setMe_regions (s : State) (c : Ctx) : (s.setMe c).regions = s.regions := rfl
@[simp] theorem State.setMe_qps (s : State) (c : Ctx) : (s.setMe c).qps = s.qps := rfl
@[simp] theorem State.setMe_hosts (s : State) (c : Ctx) : (s.setMe c).hosts = s.hosts := rfl
@[simp] theorem State.setMe_launches (s : State) (c : Ctx) : (s.setMe c).launches = s.launches := rfl
@[simp] theorem State.setMe_cx (s : State) (c : Ctx) : (s.setMe c).cx = s.cx := rfl
@[simp] theorem State.setMe_mr (s : State) (c : Ctx) : (s.setMe c).mr = s.mr := rfl
@[simp] theorem State.setMe_bootFailed (s : State) (c : Ctx) : (s.setMe c).bootFailed = s.bootFailed := rfl
@[simp] theorem State.setMe_mainUp (s : State) (c : Ctx) : (s.setMe c).mainUp = s.mainUp := rfl
@[simp] theorem State.setMe_standbyUp (s : State) (c : Ctx) : (s.setMe c).standbyUp = s.standbyUp := rfl
@[simp] theorem State.setMe_ua (s : State) (c : Ctx) : (s.setMe c).ua = s.ua := rfl
@[simp] theorem State.setMe_replies (s : State) (c : Ctx) : (s.setMe c).replies = s.replies := rfl
@[simp] theorem State.setMe_outbox (s : State) (c : Ctx) : (s.setMe c).outbox = s.outbox := rfl
@[simp] theorem State.setMe_mgmt (s : State) (c : Ctx) : (s.setMe c).mgmt = s.mgmt := rfl
@[simp] theorem State.setMe_images (s : State) (c : Ctx) : (s.setMe c).images = s.images := rfl
@[simp] theorem State.setMe_waitCycle (s : State) (c : Ctx) : (s.setMe c).waitCycle = s.waitCycle := rfl
@[simp] theorem State.setMe_sweepAt (s : State) (c : Ctx) : (s.setMe c).sweepAt = s.sweepAt := rfl
@[simp] theorem State.setMe_time (s : State) (c : Ctx) : (s.setMe c).time = s.time := rfl
@[simp] theorem State.setMe_agenda (s : State) (c : Ctx) : (s.setMe c).agenda = s.agenda := rfl
@[simp] theorem State.setMe_fc (s : State) (c : Ctx) : (s.setMe c).fc = s.fc := rfl
@[simp] theorem State.setMe_rounds (s : State) (c : Ctx) : (s.setMe c).rounds = s.rounds := rfl
@[simp] theorem State.setMe_lastAgent (s : State) (c : Ctx) : (s.setMe c).lastAgent = s.lastAgent := rfl
@[simp] theorem State.setMe_cycleAt (s : State) (c : Ctx) : (s.setMe c).cycleAt = s.cycleAt := rfl
@[simp] theorem State.setMe_cycle (s : State) (c : Ctx) : (s.setMe c).cycle = s.cycle := rfl
@[simp] theorem State.setMe_cur (s : State) (c : Ctx) : (s.setMe c).cur = s.cur := rfl
@[simp] theorem State.setMe_latch (s : State) (c : Ctx) : (s.setMe c).latch = s.latch := rfl
@[simp] theorem State.setMe_popped (s : State) (c : Ctx) : (s.setMe c).popped = s.popped := rfl
@[simp] theorem State.setMe_npc (s : State) (c : Ctx) : (s.setMe c).npc = s.npc := rfl
@[simp] theorem State.setMe_fate (s : State) (c : Ctx) : (s.setMe c).fate = s.fate := rfl

/-! ### `post` -/

@[simp] theorem State.post_ctxs (s : State) (i : Instr) : (s.post i).ctxs = s.ctxs := rfl
@[simp] theorem State.post_tiles (s : State) (i : Instr) : (s.post i).tiles = s.tiles := rfl
@[simp] theorem State.post_dies (s : State) (i : Instr) : (s.post i).dies = s.dies := rfl
@[simp] theorem State.post_mem (s : State) (i : Instr) : (s.post i).mem = s.mem := rfl
@[simp] theorem State.post_pois (s : State) (i : Instr) : (s.post i).pois = s.pois := rfl
@[simp] theorem State.post_unseen (s : State) (i : Instr) : (s.post i).unseen = s.unseen := rfl
@[simp] theorem State.post_vers (s : State) (i : Instr) : (s.post i).vers = s.vers := rfl
@[simp] theorem State.post_live (s : State) (i : Instr) : (s.post i).live = s.live := rfl
@[simp] theorem State.post_revoked (s : State) (i : Instr) : (s.post i).revoked = s.revoked := rfl
@[simp] theorem State.post_tlb (s : State) (i : Instr) : (s.post i).tlb = s.tlb := rfl
@[simp] theorem State.post_icache (s : State) (i : Instr) : (s.post i).icache = s.icache := rfl
@[simp] theorem State.post_rem (s : State) (i : Instr) : (s.post i).rem = s.rem := rfl
@[simp] theorem State.post_dirs (s : State) (i : Instr) : (s.post i).dirs = s.dirs := rfl
@[simp] theorem State.post_heldReqs (s : State) (i : Instr) : (s.post i).heldReqs = s.heldReqs := rfl
@[simp] theorem State.post_l1 (s : State) (i : Instr) : (s.post i).l1 = s.l1 := rfl
@[simp] theorem State.post_holds (s : State) (i : Instr) : (s.post i).holds = s.holds := rfl
@[simp] theorem State.post_reserved (s : State) (i : Instr) : (s.post i).reserved = s.reserved := rfl
@[simp] theorem State.post_errs (s : State) (i : Instr) : (s.post i).errs = s.errs := rfl
@[simp] theorem State.post_recs (s : State) (i : Instr) : (s.post i).recs = s.recs := rfl
@[simp] theorem State.post_tasks (s : State) (i : Instr) : (s.post i).tasks = s.tasks := rfl
@[simp] theorem State.post_ops (s : State) (i : Instr) : (s.post i).ops = s.ops := rfl
@[simp] theorem State.post_nextOp (s : State) (i : Instr) : (s.post i).nextOp = s.nextOp := rfl
@[simp] theorem State.post_xfers (s : State) (i : Instr) : (s.post i).xfers = s.xfers := rfl
@[simp] theorem State.post_budget (s : State) (i : Instr) : (s.post i).budget = s.budget := rfl
@[simp] theorem State.post_limit (s : State) (i : Instr) : (s.post i).limit = s.limit := rfl
@[simp] theorem State.post_power (s : State) (i : Instr) : (s.post i).power = s.power := rfl
@[simp] theorem State.post_refillAt (s : State) (i : Instr) : (s.post i).refillAt = s.refillAt := rfl
@[simp] theorem State.post_owner (s : State) (i : Instr) : (s.post i).owner = s.owner := rfl
@[simp] theorem State.post_queues (s : State) (i : Instr) : (s.post i).queues = s.queues := rfl
@[simp] theorem State.post_regions (s : State) (i : Instr) : (s.post i).regions = s.regions := rfl
@[simp] theorem State.post_qps (s : State) (i : Instr) : (s.post i).qps = s.qps := rfl
@[simp] theorem State.post_hosts (s : State) (i : Instr) : (s.post i).hosts = s.hosts := rfl
@[simp] theorem State.post_launches (s : State) (i : Instr) : (s.post i).launches = s.launches := rfl
@[simp] theorem State.post_cx (s : State) (i : Instr) : (s.post i).cx = s.cx := rfl
@[simp] theorem State.post_mr (s : State) (i : Instr) : (s.post i).mr = s.mr := rfl
@[simp] theorem State.post_bootFailed (s : State) (i : Instr) : (s.post i).bootFailed = s.bootFailed := rfl
@[simp] theorem State.post_mainUp (s : State) (i : Instr) : (s.post i).mainUp = s.mainUp := rfl
@[simp] theorem State.post_standbyUp (s : State) (i : Instr) : (s.post i).standbyUp = s.standbyUp := rfl
@[simp] theorem State.post_ua (s : State) (i : Instr) : (s.post i).ua = s.ua := rfl
@[simp] theorem State.post_replies (s : State) (i : Instr) : (s.post i).replies = s.replies := rfl
@[simp] theorem State.post_outbox (s : State) (i : Instr) : (s.post i).outbox = s.outbox := rfl
@[simp] theorem State.post_mgmt (s : State) (i : Instr) : (s.post i).mgmt = s.mgmt := rfl
@[simp] theorem State.post_images (s : State) (i : Instr) : (s.post i).images = s.images := rfl
@[simp] theorem State.post_waitCycle (s : State) (i : Instr) : (s.post i).waitCycle = s.waitCycle := rfl
@[simp] theorem State.post_sweepAt (s : State) (i : Instr) : (s.post i).sweepAt = s.sweepAt := rfl
@[simp] theorem State.post_time (s : State) (i : Instr) : (s.post i).time = s.time := rfl
@[simp] theorem State.post_fc (s : State) (i : Instr) : (s.post i).fc = s.fc := rfl
@[simp] theorem State.post_rounds (s : State) (i : Instr) : (s.post i).rounds = s.rounds := rfl
@[simp] theorem State.post_lastAgent (s : State) (i : Instr) : (s.post i).lastAgent = s.lastAgent := rfl
@[simp] theorem State.post_cycleAt (s : State) (i : Instr) : (s.post i).cycleAt = s.cycleAt := rfl
@[simp] theorem State.post_cycle (s : State) (i : Instr) : (s.post i).cycle = s.cycle := rfl
@[simp] theorem State.post_cur (s : State) (i : Instr) : (s.post i).cur = s.cur := rfl
@[simp] theorem State.post_latch (s : State) (i : Instr) : (s.post i).latch = s.latch := rfl
@[simp] theorem State.post_popped (s : State) (i : Instr) : (s.post i).popped = s.popped := rfl
@[simp] theorem State.post_npc (s : State) (i : Instr) : (s.post i).npc = s.npc := rfl
@[simp] theorem State.post_fate (s : State) (i : Instr) : (s.post i).fate = s.fate := rfl

/-! ### `again` -/

@[simp] theorem State.again_ctxs (s : State) (i : Instr) : (s.again i).ctxs = s.ctxs := rfl
@[simp] theorem State.again_tiles (s : State) (i : Instr) : (s.again i).tiles = s.tiles := rfl
@[simp] theorem State.again_dies (s : State) (i : Instr) : (s.again i).dies = s.dies := rfl
@[simp] theorem State.again_mem (s : State) (i : Instr) : (s.again i).mem = s.mem := rfl
@[simp] theorem State.again_pois (s : State) (i : Instr) : (s.again i).pois = s.pois := rfl
@[simp] theorem State.again_unseen (s : State) (i : Instr) : (s.again i).unseen = s.unseen := rfl
@[simp] theorem State.again_vers (s : State) (i : Instr) : (s.again i).vers = s.vers := rfl
@[simp] theorem State.again_live (s : State) (i : Instr) : (s.again i).live = s.live := rfl
@[simp] theorem State.again_revoked (s : State) (i : Instr) : (s.again i).revoked = s.revoked := rfl
@[simp] theorem State.again_tlb (s : State) (i : Instr) : (s.again i).tlb = s.tlb := rfl
@[simp] theorem State.again_icache (s : State) (i : Instr) : (s.again i).icache = s.icache := rfl
@[simp] theorem State.again_rem (s : State) (i : Instr) : (s.again i).rem = s.rem := rfl
@[simp] theorem State.again_dirs (s : State) (i : Instr) : (s.again i).dirs = s.dirs := rfl
@[simp] theorem State.again_heldReqs (s : State) (i : Instr) : (s.again i).heldReqs = s.heldReqs := rfl
@[simp] theorem State.again_l1 (s : State) (i : Instr) : (s.again i).l1 = s.l1 := rfl
@[simp] theorem State.again_holds (s : State) (i : Instr) : (s.again i).holds = s.holds := rfl
@[simp] theorem State.again_reserved (s : State) (i : Instr) : (s.again i).reserved = s.reserved := rfl
@[simp] theorem State.again_errs (s : State) (i : Instr) : (s.again i).errs = s.errs := rfl
@[simp] theorem State.again_recs (s : State) (i : Instr) : (s.again i).recs = s.recs := rfl
@[simp] theorem State.again_tasks (s : State) (i : Instr) : (s.again i).tasks = s.tasks := rfl
@[simp] theorem State.again_ops (s : State) (i : Instr) : (s.again i).ops = s.ops := rfl
@[simp] theorem State.again_nextOp (s : State) (i : Instr) : (s.again i).nextOp = s.nextOp := rfl
@[simp] theorem State.again_xfers (s : State) (i : Instr) : (s.again i).xfers = s.xfers := rfl
@[simp] theorem State.again_budget (s : State) (i : Instr) : (s.again i).budget = s.budget := rfl
@[simp] theorem State.again_limit (s : State) (i : Instr) : (s.again i).limit = s.limit := rfl
@[simp] theorem State.again_power (s : State) (i : Instr) : (s.again i).power = s.power := rfl
@[simp] theorem State.again_refillAt (s : State) (i : Instr) : (s.again i).refillAt = s.refillAt := rfl
@[simp] theorem State.again_owner (s : State) (i : Instr) : (s.again i).owner = s.owner := rfl
@[simp] theorem State.again_queues (s : State) (i : Instr) : (s.again i).queues = s.queues := rfl
@[simp] theorem State.again_regions (s : State) (i : Instr) : (s.again i).regions = s.regions := rfl
@[simp] theorem State.again_qps (s : State) (i : Instr) : (s.again i).qps = s.qps := rfl
@[simp] theorem State.again_hosts (s : State) (i : Instr) : (s.again i).hosts = s.hosts := rfl
@[simp] theorem State.again_launches (s : State) (i : Instr) : (s.again i).launches = s.launches := rfl
@[simp] theorem State.again_cx (s : State) (i : Instr) : (s.again i).cx = s.cx := rfl
@[simp] theorem State.again_mr (s : State) (i : Instr) : (s.again i).mr = s.mr := rfl
@[simp] theorem State.again_bootFailed (s : State) (i : Instr) : (s.again i).bootFailed = s.bootFailed := rfl
@[simp] theorem State.again_mainUp (s : State) (i : Instr) : (s.again i).mainUp = s.mainUp := rfl
@[simp] theorem State.again_standbyUp (s : State) (i : Instr) : (s.again i).standbyUp = s.standbyUp := rfl
@[simp] theorem State.again_ua (s : State) (i : Instr) : (s.again i).ua = s.ua := rfl
@[simp] theorem State.again_replies (s : State) (i : Instr) : (s.again i).replies = s.replies := rfl
@[simp] theorem State.again_outbox (s : State) (i : Instr) : (s.again i).outbox = s.outbox := rfl
@[simp] theorem State.again_mgmt (s : State) (i : Instr) : (s.again i).mgmt = s.mgmt := rfl
@[simp] theorem State.again_images (s : State) (i : Instr) : (s.again i).images = s.images := rfl
@[simp] theorem State.again_waitCycle (s : State) (i : Instr) : (s.again i).waitCycle = s.waitCycle := rfl
@[simp] theorem State.again_sweepAt (s : State) (i : Instr) : (s.again i).sweepAt = s.sweepAt := rfl
@[simp] theorem State.again_time (s : State) (i : Instr) : (s.again i).time = s.time := rfl
@[simp] theorem State.again_fc (s : State) (i : Instr) : (s.again i).fc = s.fc := rfl
@[simp] theorem State.again_rounds (s : State) (i : Instr) : (s.again i).rounds = s.rounds := rfl
@[simp] theorem State.again_lastAgent (s : State) (i : Instr) : (s.again i).lastAgent = s.lastAgent := rfl
@[simp] theorem State.again_cycleAt (s : State) (i : Instr) : (s.again i).cycleAt = s.cycleAt := rfl
@[simp] theorem State.again_cycle (s : State) (i : Instr) : (s.again i).cycle = s.cycle := rfl
@[simp] theorem State.again_cur (s : State) (i : Instr) : (s.again i).cur = s.cur := rfl
@[simp] theorem State.again_latch (s : State) (i : Instr) : (s.again i).latch = s.latch := rfl
@[simp] theorem State.again_popped (s : State) (i : Instr) : (s.again i).popped = s.popped := rfl
@[simp] theorem State.again_npc (s : State) (i : Instr) : (s.again i).npc = s.npc := rfl
@[simp] theorem State.again_fate (s : State) (i : Instr) : (s.again i).fate = s.fate := rfl

/-! ### `ws` -/

@[simp] theorem State.ws_tiles (s : State) (r : BitVec 5) (w : Word) : (s.ws r w).tiles = s.tiles := rfl
@[simp] theorem State.ws_dies (s : State) (r : BitVec 5) (w : Word) : (s.ws r w).dies = s.dies := rfl
@[simp] theorem State.ws_mem (s : State) (r : BitVec 5) (w : Word) : (s.ws r w).mem = s.mem := rfl
@[simp] theorem State.ws_pois (s : State) (r : BitVec 5) (w : Word) : (s.ws r w).pois = s.pois := rfl
@[simp] theorem State.ws_unseen (s : State) (r : BitVec 5) (w : Word) : (s.ws r w).unseen = s.unseen := rfl
@[simp] theorem State.ws_vers (s : State) (r : BitVec 5) (w : Word) : (s.ws r w).vers = s.vers := rfl
@[simp] theorem State.ws_live (s : State) (r : BitVec 5) (w : Word) : (s.ws r w).live = s.live := rfl
@[simp] theorem State.ws_revoked (s : State) (r : BitVec 5) (w : Word) : (s.ws r w).revoked = s.revoked := rfl
@[simp] theorem State.ws_tlb (s : State) (r : BitVec 5) (w : Word) : (s.ws r w).tlb = s.tlb := rfl
@[simp] theorem State.ws_icache (s : State) (r : BitVec 5) (w : Word) : (s.ws r w).icache = s.icache := rfl
@[simp] theorem State.ws_rem (s : State) (r : BitVec 5) (w : Word) : (s.ws r w).rem = s.rem := rfl
@[simp] theorem State.ws_dirs (s : State) (r : BitVec 5) (w : Word) : (s.ws r w).dirs = s.dirs := rfl
@[simp] theorem State.ws_heldReqs (s : State) (r : BitVec 5) (w : Word) : (s.ws r w).heldReqs = s.heldReqs := rfl
@[simp] theorem State.ws_l1 (s : State) (r : BitVec 5) (w : Word) : (s.ws r w).l1 = s.l1 := rfl
@[simp] theorem State.ws_holds (s : State) (r : BitVec 5) (w : Word) : (s.ws r w).holds = s.holds := rfl
@[simp] theorem State.ws_reserved (s : State) (r : BitVec 5) (w : Word) : (s.ws r w).reserved = s.reserved := rfl
@[simp] theorem State.ws_errs (s : State) (r : BitVec 5) (w : Word) : (s.ws r w).errs = s.errs := rfl
@[simp] theorem State.ws_recs (s : State) (r : BitVec 5) (w : Word) : (s.ws r w).recs = s.recs := rfl
@[simp] theorem State.ws_tasks (s : State) (r : BitVec 5) (w : Word) : (s.ws r w).tasks = s.tasks := rfl
@[simp] theorem State.ws_ops (s : State) (r : BitVec 5) (w : Word) : (s.ws r w).ops = s.ops := rfl
@[simp] theorem State.ws_nextOp (s : State) (r : BitVec 5) (w : Word) : (s.ws r w).nextOp = s.nextOp := rfl
@[simp] theorem State.ws_xfers (s : State) (r : BitVec 5) (w : Word) : (s.ws r w).xfers = s.xfers := rfl
@[simp] theorem State.ws_budget (s : State) (r : BitVec 5) (w : Word) : (s.ws r w).budget = s.budget := rfl
@[simp] theorem State.ws_limit (s : State) (r : BitVec 5) (w : Word) : (s.ws r w).limit = s.limit := rfl
@[simp] theorem State.ws_power (s : State) (r : BitVec 5) (w : Word) : (s.ws r w).power = s.power := rfl
@[simp] theorem State.ws_refillAt (s : State) (r : BitVec 5) (w : Word) : (s.ws r w).refillAt = s.refillAt := rfl
@[simp] theorem State.ws_owner (s : State) (r : BitVec 5) (w : Word) : (s.ws r w).owner = s.owner := rfl
@[simp] theorem State.ws_queues (s : State) (r : BitVec 5) (w : Word) : (s.ws r w).queues = s.queues := rfl
@[simp] theorem State.ws_regions (s : State) (r : BitVec 5) (w : Word) : (s.ws r w).regions = s.regions := rfl
@[simp] theorem State.ws_qps (s : State) (r : BitVec 5) (w : Word) : (s.ws r w).qps = s.qps := rfl
@[simp] theorem State.ws_hosts (s : State) (r : BitVec 5) (w : Word) : (s.ws r w).hosts = s.hosts := rfl
@[simp] theorem State.ws_launches (s : State) (r : BitVec 5) (w : Word) : (s.ws r w).launches = s.launches := rfl
@[simp] theorem State.ws_cx (s : State) (r : BitVec 5) (w : Word) : (s.ws r w).cx = s.cx := rfl
@[simp] theorem State.ws_mr (s : State) (r : BitVec 5) (w : Word) : (s.ws r w).mr = s.mr := rfl
@[simp] theorem State.ws_bootFailed (s : State) (r : BitVec 5) (w : Word) : (s.ws r w).bootFailed = s.bootFailed := rfl
@[simp] theorem State.ws_mainUp (s : State) (r : BitVec 5) (w : Word) : (s.ws r w).mainUp = s.mainUp := rfl
@[simp] theorem State.ws_standbyUp (s : State) (r : BitVec 5) (w : Word) : (s.ws r w).standbyUp = s.standbyUp := rfl
@[simp] theorem State.ws_ua (s : State) (r : BitVec 5) (w : Word) : (s.ws r w).ua = s.ua := rfl
@[simp] theorem State.ws_replies (s : State) (r : BitVec 5) (w : Word) : (s.ws r w).replies = s.replies := rfl
@[simp] theorem State.ws_outbox (s : State) (r : BitVec 5) (w : Word) : (s.ws r w).outbox = s.outbox := rfl
@[simp] theorem State.ws_mgmt (s : State) (r : BitVec 5) (w : Word) : (s.ws r w).mgmt = s.mgmt := rfl
@[simp] theorem State.ws_images (s : State) (r : BitVec 5) (w : Word) : (s.ws r w).images = s.images := rfl
@[simp] theorem State.ws_waitCycle (s : State) (r : BitVec 5) (w : Word) : (s.ws r w).waitCycle = s.waitCycle := rfl
@[simp] theorem State.ws_sweepAt (s : State) (r : BitVec 5) (w : Word) : (s.ws r w).sweepAt = s.sweepAt := rfl
@[simp] theorem State.ws_time (s : State) (r : BitVec 5) (w : Word) : (s.ws r w).time = s.time := rfl
@[simp] theorem State.ws_agenda (s : State) (r : BitVec 5) (w : Word) : (s.ws r w).agenda = s.agenda := rfl
@[simp] theorem State.ws_fc (s : State) (r : BitVec 5) (w : Word) : (s.ws r w).fc = s.fc := rfl
@[simp] theorem State.ws_rounds (s : State) (r : BitVec 5) (w : Word) : (s.ws r w).rounds = s.rounds := rfl
@[simp] theorem State.ws_lastAgent (s : State) (r : BitVec 5) (w : Word) : (s.ws r w).lastAgent = s.lastAgent := rfl
@[simp] theorem State.ws_cycleAt (s : State) (r : BitVec 5) (w : Word) : (s.ws r w).cycleAt = s.cycleAt := rfl
@[simp] theorem State.ws_cycle (s : State) (r : BitVec 5) (w : Word) : (s.ws r w).cycle = s.cycle := rfl
@[simp] theorem State.ws_cur (s : State) (r : BitVec 5) (w : Word) : (s.ws r w).cur = s.cur := rfl
@[simp] theorem State.ws_latch (s : State) (r : BitVec 5) (w : Word) : (s.ws r w).latch = s.latch := rfl
@[simp] theorem State.ws_popped (s : State) (r : BitVec 5) (w : Word) : (s.ws r w).popped = s.popped := rfl
@[simp] theorem State.ws_npc (s : State) (r : BitVec 5) (w : Word) : (s.ws r w).npc = s.npc := rfl
@[simp] theorem State.ws_fate (s : State) (r : BitVec 5) (w : Word) : (s.ws r w).fate = s.fate := rfl

/-! ### The accessors after updates of other parts -/

@[simp] theorem State.setCtx_tile (s : State) (a : Agent) (c : Ctx) (k' : Nat) : (s.setCtx a c).tile k' = s.tile k' := rfl
@[simp] theorem State.setCtx_die (s : State) (a : Agent) (c : Ctx) (k' : Nat) : (s.setCtx a c).die k' = s.die k' := rfl
@[simp] theorem State.setCtx_task (s : State) (a : Agent) (c : Ctx) (k' : Nat) : (s.setCtx a c).task k' = s.task k' := rfl
@[simp] theorem State.setCtx_queue (s : State) (a : Agent) (c : Ctx) (k' : Nat) : (s.setCtx a c).queue k' = s.queue k' := rfl
@[simp] theorem State.setCtx_record (s : State) (a : Agent) (c : Ctx) (k' : Nat) : (s.setCtx a c).record k' = s.record k' := rfl
@[simp] theorem State.setCtx_memByte (s : State) (a : Agent) (c : Ctx) (k' : Nat) : (s.setCtx a c).memByte k' = s.memByte k' := rfl
@[simp] theorem State.setCtx_linePois (s : State) (a : Agent) (c : Ctx) (k' : Nat) : (s.setCtx a c).linePois k' = s.linePois k' := rfl
@[simp] theorem State.setTile_ctx (s : State) (k : Nat) (x : Tile) (a' : Agent) : (s.setTile k x).ctx a' = s.ctx a' := rfl
@[simp] theorem State.setTile_die (s : State) (k : Nat) (x : Tile) (k' : Nat) : (s.setTile k x).die k' = s.die k' := rfl
@[simp] theorem State.setTile_task (s : State) (k : Nat) (x : Tile) (k' : Nat) : (s.setTile k x).task k' = s.task k' := rfl
@[simp] theorem State.setTile_queue (s : State) (k : Nat) (x : Tile) (k' : Nat) : (s.setTile k x).queue k' = s.queue k' := rfl
@[simp] theorem State.setTile_record (s : State) (k : Nat) (x : Tile) (k' : Nat) : (s.setTile k x).record k' = s.record k' := rfl
@[simp] theorem State.setTile_memByte (s : State) (k : Nat) (x : Tile) (k' : Nat) : (s.setTile k x).memByte k' = s.memByte k' := rfl
@[simp] theorem State.setTile_linePois (s : State) (k : Nat) (x : Tile) (k' : Nat) : (s.setTile k x).linePois k' = s.linePois k' := rfl
@[simp] theorem State.setDie_ctx (s : State) (k : Nat) (x : Die) (a' : Agent) : (s.setDie k x).ctx a' = s.ctx a' := rfl
@[simp] theorem State.setDie_tile (s : State) (k : Nat) (x : Die) (k' : Nat) : (s.setDie k x).tile k' = s.tile k' := rfl
@[simp] theorem State.setDie_task (s : State) (k : Nat) (x : Die) (k' : Nat) : (s.setDie k x).task k' = s.task k' := rfl
@[simp] theorem State.setDie_queue (s : State) (k : Nat) (x : Die) (k' : Nat) : (s.setDie k x).queue k' = s.queue k' := rfl
@[simp] theorem State.setDie_record (s : State) (k : Nat) (x : Die) (k' : Nat) : (s.setDie k x).record k' = s.record k' := rfl
@[simp] theorem State.setDie_memByte (s : State) (k : Nat) (x : Die) (k' : Nat) : (s.setDie k x).memByte k' = s.memByte k' := rfl
@[simp] theorem State.setDie_linePois (s : State) (k : Nat) (x : Die) (k' : Nat) : (s.setDie k x).linePois k' = s.linePois k' := rfl
@[simp] theorem State.setTask_ctx (s : State) (k : Nat) (x : Task) (a' : Agent) : (s.setTask k x).ctx a' = s.ctx a' := rfl
@[simp] theorem State.setTask_tile (s : State) (k : Nat) (x : Task) (k' : Nat) : (s.setTask k x).tile k' = s.tile k' := rfl
@[simp] theorem State.setTask_die (s : State) (k : Nat) (x : Task) (k' : Nat) : (s.setTask k x).die k' = s.die k' := rfl
@[simp] theorem State.setTask_queue (s : State) (k : Nat) (x : Task) (k' : Nat) : (s.setTask k x).queue k' = s.queue k' := rfl
@[simp] theorem State.setTask_record (s : State) (k : Nat) (x : Task) (k' : Nat) : (s.setTask k x).record k' = s.record k' := rfl
@[simp] theorem State.setTask_memByte (s : State) (k : Nat) (x : Task) (k' : Nat) : (s.setTask k x).memByte k' = s.memByte k' := rfl
@[simp] theorem State.setTask_linePois (s : State) (k : Nat) (x : Task) (k' : Nat) : (s.setTask k x).linePois k' = s.linePois k' := rfl
@[simp] theorem State.setQueue_ctx (s : State) (k : Nat) (x : Queue) (a' : Agent) : (s.setQueue k x).ctx a' = s.ctx a' := rfl
@[simp] theorem State.setQueue_tile (s : State) (k : Nat) (x : Queue) (k' : Nat) : (s.setQueue k x).tile k' = s.tile k' := rfl
@[simp] theorem State.setQueue_die (s : State) (k : Nat) (x : Queue) (k' : Nat) : (s.setQueue k x).die k' = s.die k' := rfl
@[simp] theorem State.setQueue_task (s : State) (k : Nat) (x : Queue) (k' : Nat) : (s.setQueue k x).task k' = s.task k' := rfl
@[simp] theorem State.setQueue_record (s : State) (k : Nat) (x : Queue) (k' : Nat) : (s.setQueue k x).record k' = s.record k' := rfl
@[simp] theorem State.setQueue_memByte (s : State) (k : Nat) (x : Queue) (k' : Nat) : (s.setQueue k x).memByte k' = s.memByte k' := rfl
@[simp] theorem State.setQueue_linePois (s : State) (k : Nat) (x : Queue) (k' : Nat) : (s.setQueue k x).linePois k' = s.linePois k' := rfl
@[simp] theorem State.setRecord_ctx (s : State) (k : Nat) (x : BitVec 2048) (a' : Agent) : (s.setRecord k x).ctx a' = s.ctx a' := rfl
@[simp] theorem State.setRecord_tile (s : State) (k : Nat) (x : BitVec 2048) (k' : Nat) : (s.setRecord k x).tile k' = s.tile k' := rfl
@[simp] theorem State.setRecord_die (s : State) (k : Nat) (x : BitVec 2048) (k' : Nat) : (s.setRecord k x).die k' = s.die k' := rfl
@[simp] theorem State.setRecord_task (s : State) (k : Nat) (x : BitVec 2048) (k' : Nat) : (s.setRecord k x).task k' = s.task k' := rfl
@[simp] theorem State.setRecord_queue (s : State) (k : Nat) (x : BitVec 2048) (k' : Nat) : (s.setRecord k x).queue k' = s.queue k' := rfl
@[simp] theorem State.setRecord_memByte (s : State) (k : Nat) (x : BitVec 2048) (k' : Nat) : (s.setRecord k x).memByte k' = s.memByte k' := rfl
@[simp] theorem State.setRecord_linePois (s : State) (k : Nat) (x : BitVec 2048) (k' : Nat) : (s.setRecord k x).linePois k' = s.linePois k' := rfl
@[simp] theorem State.memSet_ctx (s : State) (k : Nat) (x : Byte) (a' : Agent) : (s.memSet k x).ctx a' = s.ctx a' := rfl
@[simp] theorem State.memSet_tile (s : State) (k : Nat) (x : Byte) (k' : Nat) : (s.memSet k x).tile k' = s.tile k' := rfl
@[simp] theorem State.memSet_die (s : State) (k : Nat) (x : Byte) (k' : Nat) : (s.memSet k x).die k' = s.die k' := rfl
@[simp] theorem State.memSet_task (s : State) (k : Nat) (x : Byte) (k' : Nat) : (s.memSet k x).task k' = s.task k' := rfl
@[simp] theorem State.memSet_queue (s : State) (k : Nat) (x : Byte) (k' : Nat) : (s.memSet k x).queue k' = s.queue k' := rfl
@[simp] theorem State.memSet_record (s : State) (k : Nat) (x : Byte) (k' : Nat) : (s.memSet k x).record k' = s.record k' := rfl
@[simp] theorem State.memSet_linePois (s : State) (k : Nat) (x : Byte) (k' : Nat) : (s.memSet k x).linePois k' = s.linePois k' := rfl
@[simp] theorem State.setLinePois_ctx (s : State) (k : Nat) (x : Bool) (a' : Agent) : (s.setLinePois k x).ctx a' = s.ctx a' := rfl
@[simp] theorem State.setLinePois_tile (s : State) (k : Nat) (x : Bool) (k' : Nat) : (s.setLinePois k x).tile k' = s.tile k' := rfl
@[simp] theorem State.setLinePois_die (s : State) (k : Nat) (x : Bool) (k' : Nat) : (s.setLinePois k x).die k' = s.die k' := rfl
@[simp] theorem State.setLinePois_task (s : State) (k : Nat) (x : Bool) (k' : Nat) : (s.setLinePois k x).task k' = s.task k' := rfl
@[simp] theorem State.setLinePois_queue (s : State) (k : Nat) (x : Bool) (k' : Nat) : (s.setLinePois k x).queue k' = s.queue k' := rfl
@[simp] theorem State.setLinePois_record (s : State) (k : Nat) (x : Bool) (k' : Nat) : (s.setLinePois k x).record k' = s.record k' := rfl
@[simp] theorem State.setLinePois_memByte (s : State) (k : Nat) (x : Bool) (k' : Nat) : (s.setLinePois k x).memByte k' = s.memByte k' := rfl
@[simp] theorem State.setMe_tile (s : State) (c : Ctx) (k' : Nat) : (s.setMe c).tile k' = s.tile k' := rfl
@[simp] theorem State.setMe_die (s : State) (c : Ctx) (k' : Nat) : (s.setMe c).die k' = s.die k' := rfl
@[simp] theorem State.setMe_task (s : State) (c : Ctx) (k' : Nat) : (s.setMe c).task k' = s.task k' := rfl
@[simp] theorem State.setMe_queue (s : State) (c : Ctx) (k' : Nat) : (s.setMe c).queue k' = s.queue k' := rfl
@[simp] theorem State.setMe_record (s : State) (c : Ctx) (k' : Nat) : (s.setMe c).record k' = s.record k' := rfl
@[simp] theorem State.setMe_memByte (s : State) (c : Ctx) (k' : Nat) : (s.setMe c).memByte k' = s.memByte k' := rfl
@[simp] theorem State.setMe_linePois (s : State) (c : Ctx) (k' : Nat) : (s.setMe c).linePois k' = s.linePois k' := rfl
@[simp] theorem State.post_ctx (s : State) (i : Instr) (a' : Agent) : (s.post i).ctx a' = s.ctx a' := rfl
@[simp] theorem State.post_tile (s : State) (i : Instr) (k' : Nat) : (s.post i).tile k' = s.tile k' := rfl
@[simp] theorem State.post_die (s : State) (i : Instr) (k' : Nat) : (s.post i).die k' = s.die k' := rfl
@[simp] theorem State.post_task (s : State) (i : Instr) (k' : Nat) : (s.post i).task k' = s.task k' := rfl
@[simp] theorem State.post_queue (s : State) (i : Instr) (k' : Nat) : (s.post i).queue k' = s.queue k' := rfl
@[simp] theorem State.post_record (s : State) (i : Instr) (k' : Nat) : (s.post i).record k' = s.record k' := rfl
@[simp] theorem State.post_memByte (s : State) (i : Instr) (k' : Nat) : (s.post i).memByte k' = s.memByte k' := rfl
@[simp] theorem State.post_linePois (s : State) (i : Instr) (k' : Nat) : (s.post i).linePois k' = s.linePois k' := rfl
@[simp] theorem State.again_ctx (s : State) (i : Instr) (a' : Agent) : (s.again i).ctx a' = s.ctx a' := rfl
@[simp] theorem State.again_tile (s : State) (i : Instr) (k' : Nat) : (s.again i).tile k' = s.tile k' := rfl
@[simp] theorem State.again_die (s : State) (i : Instr) (k' : Nat) : (s.again i).die k' = s.die k' := rfl
@[simp] theorem State.again_task (s : State) (i : Instr) (k' : Nat) : (s.again i).task k' = s.task k' := rfl
@[simp] theorem State.again_queue (s : State) (i : Instr) (k' : Nat) : (s.again i).queue k' = s.queue k' := rfl
@[simp] theorem State.again_record (s : State) (i : Instr) (k' : Nat) : (s.again i).record k' = s.record k' := rfl
@[simp] theorem State.again_memByte (s : State) (i : Instr) (k' : Nat) : (s.again i).memByte k' = s.memByte k' := rfl
@[simp] theorem State.again_linePois (s : State) (i : Instr) (k' : Nat) : (s.again i).linePois k' = s.linePois k' := rfl
@[simp] theorem State.ws_tile (s : State) (r : BitVec 5) (w : Word) (k' : Nat) : (s.ws r w).tile k' = s.tile k' := rfl
@[simp] theorem State.ws_die (s : State) (r : BitVec 5) (w : Word) (k' : Nat) : (s.ws r w).die k' = s.die k' := rfl
@[simp] theorem State.ws_task (s : State) (r : BitVec 5) (w : Word) (k' : Nat) : (s.ws r w).task k' = s.task k' := rfl
@[simp] theorem State.ws_queue (s : State) (r : BitVec 5) (w : Word) (k' : Nat) : (s.ws r w).queue k' = s.queue k' := rfl
@[simp] theorem State.ws_record (s : State) (r : BitVec 5) (w : Word) (k' : Nat) : (s.ws r w).record k' = s.record k' := rfl
@[simp] theorem State.ws_memByte (s : State) (r : BitVec 5) (w : Word) (k' : Nat) : (s.ws r w).memByte k' = s.memByte k' := rfl
@[simp] theorem State.ws_linePois (s : State) (r : BitVec 5) (w : Word) (k' : Nat) : (s.ws r w).linePois k' = s.linePois k' := rfl

/-! ### The executing context -/

theorem State.setMe_def (s : State) (c : Ctx) : s.setMe c = s.setCtx s.cur c := rfl
theorem State.me_def (s : State) : s.me = s.ctx s.cur := rfl

/-- A context other than the one written keeps its key's entry. -/
theorem akey_inj {a b : Agent} (ha : a.ctx < 16) (hb : b.ctx < 16) (h : akey a = akey b) : a = b := by
  obtain ⟨t, c⟩ := a
  obtain ⟨t', c'⟩ := b
  simp only [akey] at h ha hb
  have : t = t' ∧ c = c' := by omega
  simp [this.1, this.2]

/-- What a context is after a write of one, where the map of contexts is canonical. -/
theorem State.ctx_setCtx (s : State) (h : s.ctxs.wf {} = true) (a b : Agent) (c : Ctx) :
    (s.setCtx a c).ctx b = if akey b = akey a then c else s.ctx b :=
  SMap.get_set h _ _ _

/-- What a tile is after a write of one, where the map of tiles is canonical. -/
theorem State.tile_setTile (s : State) (h : s.tiles.wf {} = true) (a b : Nat) (x : Tile) :
    (s.setTile a x).tile b = if b = a then x else s.tile b :=
  SMap.get_set h _ _ _

/-- What a die is after a write of one, where the map of dies is canonical. -/
theorem State.die_setDie (s : State) (h : s.dies.wf {} = true) (a b : Nat) (x : Die) :
    (s.setDie a x).die b = if b = a then x else s.die b :=
  SMap.get_set h _ _ _

/-- What a register reads as after one is written, where the context's map of registers is canonical; s0 reads 0. -/
theorem Ctx.putS_get (c : Ctx) (h : c.s.wf 0 = true) (r i : Nat) (w : Word) :
    (c.putS r w).s.get 0 i = if r ≠ 0 ∧ i = r then w else c.s.get 0 i := by
  unfold Ctx.putS
  by_cases hr : r = 0
  · simp [hr]
  · simp only [ne_eq, hr, not_false_eq_true, true_and, if_false, SMap.get_set h]

/-- What a control register of a context reads as after one is written, where their map is canonical. -/
theorem Ctx.cr_setCr (c : Ctx) (h : c.creg.wf 0 = true) (n m : Nat) (w : Word) :
    (c.setCr n w).cr m = if m = n then w else c.cr m :=
  SMap.get_set h _ _ _

end Sys2Proof.Machine
end

