-- ==== Sys2Proof/Laws/Memory.lean ====
section
/-! SUPPORT. Laws of memory: a byte after a write, and that every operation that writes memory keeps its canonical form. -/

namespace Sys2Proof.Machine

/-- A byte after one is written, in a canonical memory. -/
theorem State.memByte_memSet (s : State) (h : Memory.wf s.mem = true) (a b : Nat) (x : Byte) :
    (s.memSet a x).memByte b = if b = a then x else s.memByte b :=
  SMap.get_set h _ _ _

theorem State.memSet_wf (s : State) (h : Memory.wf s.mem = true) (a : Nat) (x : Byte) : Memory.wf (s.memSet a x).mem = true :=
  SMap.wf_set h _ _

theorem State.memWrite_wf (s : State) (h : Memory.wf s.mem = true) (a : Nat) (bs : List Byte) : Memory.wf (s.memWrite a bs).mem = true := by
  induction bs generalizing s a with
  | nil => exact h
  | cons b bs ih => exact ih _ (State.memSet_wf s h a b) _

/-- A byte after a range is written, in a canonical memory: the range holds the bytes written, all else is as before. -/
theorem State.memByte_memWrite (s : State) (h : Memory.wf s.mem = true) (a b : Nat) (bs : List Byte) :
    (s.memWrite a bs).memByte b = if a ≤ b ∧ b < a + bs.length then (bs[b - a]?).getD 0 else s.memByte b := by
  induction bs generalizing s a with
  | nil =>
    have : ¬(a ≤ b ∧ b < a + ([] : List Byte).length) := by simp only [List.length_nil]; omega
    rw [if_neg this]
    rfl
  | cons x bs ih =>
    show ((s.memSet a x).memWrite (a + 1) bs).memByte b = _
    rw [ih _ (State.memSet_wf s h a x), State.memByte_memSet s h]
    simp only [List.length_cons]
    by_cases h1 : a + 1 ≤ b ∧ b < a + 1 + bs.length
    · have h2 : a ≤ b ∧ b < a + (bs.length + 1) := by omega
      rw [if_pos h1, if_pos h2]
      have : b - a = (b - (a + 1)) + 1 := by omega
      rw [this, List.getElem?_cons_succ]
    · rw [if_neg h1]
      by_cases h3 : b = a
      · subst h3
        have h2 : b ≤ b ∧ b < b + (bs.length + 1) := by omega
        simp [h2]
      · have h2 : ¬(a ≤ b ∧ b < a + (bs.length + 1)) := by omega
        rw [if_neg h3, if_neg h2]

/-- Fields other than the memory after a range is written. -/
theorem State.memWrite_eq (s : State) (a : Nat) (bs : List Byte) : s.memWrite a bs = { s with mem := (s.memWrite a bs).mem } := by
  induction bs generalizing s a with
  | nil => rfl
  | cons b bs ih =>
    show (s.memSet a b).memWrite (a + 1) bs = _
    rw [ih]
    rfl

@[simp] theorem State.setLinePois_wf (s : State) (a : Nat) (b : Bool) : Memory.wf (s.setLinePois a b).mem = Memory.wf s.mem := rfl

theorem State.lineWrite_mem (s : State) (a : Nat) (bs : List Byte) (p : Bool) : (s.lineWrite a bs p).mem = (s.memWrite a bs).mem := by
  unfold State.lineWrite
  simp only
  split_ifs <;> rfl

theorem State.lineWrite_wf (s : State) (h : Memory.wf s.mem = true) (a : Nat) (bs : List Byte) (p : Bool) :
    Memory.wf (s.lineWrite a bs p).mem = true := by
  rw [State.lineWrite_mem]
  exact State.memWrite_wf s h a bs

theorem State.remWrite_wf (s : State) (h : Memory.wf s.mem = true) (d a : Nat) (bs : List Byte) (p : Bool) : Memory.wf (s.remWrite d a bs p).mem = true := by
  unfold State.remWrite
  split_ifs
  · exact h
  · exact State.lineWrite_wf s h a bs p

/-- A fold of steps that keep the form keeps it. -/
theorem foldl_wf {α : Type} (f : State → α → State) (hf : ∀ s x, Memory.wf s.mem = true → Memory.wf (f s x).mem = true) (l : List α) (s : State)
    (h : Memory.wf s.mem = true) : Memory.wf (l.foldl f s).mem = true := by
  induction l generalizing s with
  | nil => exact h
  | cons x l ih => exact ih _ (hf s x h)

/-- A fold of steps that leave the memory leaves it. -/
theorem foldl_mem {α : Type} (f : State → α → State) (hf : ∀ s x, (f s x).mem = s.mem) (l : List α) (s : State) : (l.foldl f s).mem = s.mem := by
  induction l generalizing s with
  | nil => rfl
  | cons x l ih => rw [List.foldl_cons, ih, hf]

/-! ### Versions -/

@[simp] theorem State.setVer_mem (s : State) (line : Nat) (v : LineVer) : (s.setVer line v).mem = s.mem := rfl
@[simp] theorem State.setDir_mem (s : State) (line : Nat) (e : DirEnt) : (s.setDir line e).mem = s.mem := rfl
@[simp] theorem State.reclaimDie_mem (s : State) (d : Nat) : (s.reclaimDie d).mem = s.mem := rfl
@[simp] theorem State.revoke_mem (s : State) (p : Nat → Bool) (line : Nat) : (s.revoke p line).mem = s.mem := rfl
@[simp] theorem State.failHolds_mem (s : State) : s.failHolds.mem = s.mem := rfl

@[simp] theorem State.makeRoom_mem (n : Nat) (s : State) (d line : Nat) : (s.makeRoom d line n).mem = s.mem := by
  induction n generalizing s with
  | zero => rfl
  | succ n ih =>
    unfold State.makeRoom
    split_ifs
    · rfl
    · split
      · rfl
      · rw [ih]; rfl

@[simp] theorem State.trimVersions_mem (s : State) (line : Nat) (v : LineVer) (o : List Version) : (s.trimVersions line v o).mem = s.mem := by
  unfold State.trimVersions
  split <;> rfl

@[simp] theorem State.stampLine_mem (s : State) (line stamp : Nat) : (s.stampLine line stamp).mem = s.mem := by
  unfold State.stampLine
  simp only
  split
  · split <;> simp
  · rfl

@[simp] theorem State.hideMem_mem (s : State) (w : Option Writer) (pa n : Nat) : (s.hideMem w pa n).mem = s.mem := rfl

theorem State.homeWrite_wf (s : State) (h : Memory.wf s.mem = true) (w : Option Writer) (pa : Nat) (bs : List Byte) (p ver : Bool) :
    Memory.wf (s.homeWrite w pa bs p ver).mem = true := by
  unfold State.homeWrite
  apply State.lineWrite_wf
  rw [State.hideMem_mem]
  split_ifs <;> simp [h]

/-- Writes that become visible to more reads change nothing but what the reads of each path still miss. -/
theorem State.showAll_eq (s : State) (more : Nat → Unseen → Nat → Bool) :
    ∃ tiles, s.showAll more = { s with tiles := tiles, unseen := showTo s.unseen more } := by
  unfold State.showAll
  generalize s.tiles.filter (fun e => !e.2.unseen.isEmpty) = l
  generalize showTo s.unseen more = u
  have h : ∀ t : State, (∃ tiles, t = { s with tiles := tiles, unseen := u }) → ∃ tiles,
      l.foldl (fun (s : State) (e : Nat × Tile) => s.setTile e.1 { e.2 with unseen := showTo e.2.unseen more }) t = { s with tiles := tiles, unseen := u } := by
    induction l with
    | nil => exact fun _ h => h
    | cons x l ih => rintro _ ⟨_, rfl⟩; exact ih _ ⟨_, rfl⟩
  exact h _ ⟨_, rfl⟩

@[simp] theorem State.showAll_unseen (s : State) (more : Nat → Unseen → Nat → Bool) : (s.showAll more).unseen = showTo s.unseen more := by
  obtain ⟨_, h⟩ := s.showAll_eq more
  rw [h]

@[simp] theorem State.showAll_mem (s : State) (more : Nat → Unseen → Nat → Bool) : (s.showAll more).mem = s.mem := by
  obtain ⟨_, h⟩ := s.showAll_eq more
  rw [h]

@[simp] theorem State.showAll_ctxs (s : State) (more : Nat → Unseen → Nat → Bool) : (s.showAll more).ctxs = s.ctxs := by
  obtain ⟨_, h⟩ := s.showAll_eq more
  rw [h]

@[simp] theorem State.showAll_cur (s : State) (more : Nat → Unseen → Nat → Bool) : (s.showAll more).cur = s.cur := by
  obtain ⟨_, h⟩ := s.showAll_eq more
  rw [h]

@[simp] theorem State.showAll_agenda (s : State) (more : Nat → Unseen → Nat → Bool) : (s.showAll more).agenda = s.agenda := by
  obtain ⟨_, h⟩ := s.showAll_eq more
  rw [h]

/-! ### Batches -/

@[simp] theorem State.dropL1s_mem (s : State) (ts : List Nat) (line : Nat) : (s.dropL1s ts line).mem = s.mem := rfl
@[simp] theorem State.dropCopy_mem (s : State) (d line : Nat) : (s.dropCopy d line).mem = s.mem := rfl

@[simp] theorem State.applyBatch_mem (s : State) (d : Nat) (b : Batch) : (s.applyBatch d b).mem = s.mem := by
  unfold State.applyBatch
  rw [foldl_mem _ (fun s _ => State.dropCopy_mem s d _)]
  rfl

@[simp] theorem State.applyBatches_mem (n : Nat) (s : State) (d : Nat) : (s.applyBatches d n).mem = s.mem := by
  induction n generalizing s with
  | zero => rfl
  | succ n ih =>
    unfold State.applyBatches
    simp only
    split
    · rfl
    · split
      · rw [ih, State.applyBatch_mem]; rfl
      · rfl

@[simp] theorem State.takeBatch_mem (s : State) (d : Nat) (b : Batch) : (s.takeBatch d b).mem = s.mem := by
  unfold State.takeBatch
  rw [State.applyBatches_mem]
  rfl

@[simp] theorem State.catchUp_mem (s : State) (d : Nat) (clock : List Nat) : (s.catchUp d clock).mem = s.mem := by
  unfold State.catchUp
  simp only
  rw [foldl_mem]
  intro s i
  split <;> simp

@[simp] theorem State.crossTo_mem (s : State) (d h : Nat) : (s.crossTo d h).mem = s.mem := by
  unfold State.crossTo
  split_ifs <;> simp

@[simp] theorem State.crossAll_mem (s : State) (d : Nat) : (s.crossAll d).mem = s.mem := foldl_mem _ (fun s e => State.crossTo_mem s d e) _ s

@[simp] theorem State.sendBatch_mem (s : State) (d : Nat) (inv : Nat → List Nat) (now : Option Nat) : (s.sendBatch d inv now).mem = s.mem := by
  unfold State.sendBatch
  simp only
  split
  · rw [State.takeBatch_mem, foldl_mem _ (fun s e => State.post_mem s _)]; rfl
  · rw [foldl_mem _ (fun s e => State.post_mem s _)]; rfl

@[simp] theorem State.homeBatch_mem (s : State) (d pa : Nat) (far : List Nat) : (s.homeBatch d pa far).mem = s.mem := by
  unfold State.homeBatch
  simp only
  split_ifs <;> simp

@[simp] theorem State.dataBatch_mem (s : State) (d pa : Nat) : (s.dataBatch d pa).mem = s.mem := by
  unfold State.dataBatch
  split_ifs <;> simp

@[simp] theorem State.invalidateSharers_mem (s : State) (d pa : Nat) : (s.invalidateSharers d pa).mem = s.mem := by
  unfold State.invalidateSharers
  simp

/-! ### Writes at the home -/

theorem State.performWrite_wf (s : State) (h : Memory.wf s.mem = true) (w : Option Writer) (d pa : Nat) (bs : List Byte) (p ver : Bool) :
    Memory.wf (s.performWrite w d pa bs p ver).mem = true := by
  unfold State.performWrite
  rw [State.invalidateSharers_mem]
  exact State.homeWrite_wf s h _ _ _ _ _

@[simp] theorem State.askHandler_mem (s : State) (line : Nat) : (s.askHandler line).mem = s.mem := by
  unfold State.askHandler
  split_ifs <;> rfl

@[simp] theorem State.holdReq_mem (s : State) (r : MemReq) (op : Option Nat) (tr : Option (Nat × Nat × Leaf)) :
    (s.holdReq r op tr).mem = s.mem := by
  unfold State.holdReq
  cases op <;> simp

theorem State.arriveWrite_wf (s : State) (h : Memory.wf s.mem = true) (r : MemReq) (op : Option Nat) (tr : Option (Nat × Nat × Leaf)) :
    Memory.wf (s.arriveWrite r op tr).mem = true := by
  unfold State.arriveWrite
  simp only
  split_ifs
  · simp [h]
  · exact State.performWrite_wf _ (by simp [h]) _ _ _ _ _ _

theorem State.leafWrite_wf (s : State) (h : Memory.wf s.mem = true) (d : Nat) (l : Leaf) (pa : Nat) (bs : List Byte) (p : Bool) :
    Memory.wf (s.leafWrite d l pa bs p).mem = true := by
  unfold State.leafWrite
  split_ifs
  · exact State.arriveWrite_wf s h _ _ _
  · exact State.remWrite_wf s h _ _ _ _

theorem State.linesWrite_wf (n : Nat) (s : State) (h : Memory.wf s.mem = true) (l : Leaf) (pa : Nat) (bs : List Byte) :
    Memory.wf (s.linesWrite l n pa bs).mem = true := by
  induction n generalizing s pa bs with
  | zero => exact h
  | succ n ih =>
    unfold State.linesWrite
    simp only
    split_ifs
    · exact h
    · exact ih _ (State.leafWrite_wf s h _ _ _ _ _) _ _

theorem State.homeStore_wf (s : State) (h : Memory.wf s.mem = true) (a : Agent) (id pa : Nat) (bs : List Byte) (p ver : Bool)
    (tr : Option (Nat × Nat × Leaf)) : Memory.wf (s.homeStore a id pa bs p ver tr).mem = true := State.arriveWrite_wf s h _ _ _

/-! ### The device's own writes -/

theorem State.putGlobal_wf (s : State) (h : Memory.wf s.mem = true) (r : Word) (va : Nat) (bs : List Byte) (t : State)
    (ht : s.putGlobal r va bs = some t) : Memory.wf t.mem = true := by
  unfold State.putGlobal at ht
  split at ht
  · split_ifs at ht
    simp only [Option.some.injEq] at ht
    subst ht
    exact State.linesWrite_wf _ _ (State.linesWrite_wf _ s h _ _ _) _ _ _
  · cases ht

theorem getD_wf (o : Option State) (s : State) (h : Memory.wf s.mem = true) (ho : ∀ t, o = some t → Memory.wf t.mem = true) :
    Memory.wf (o.getD s).mem = true := by
  cases o with
  | none => exact h
  | some t => exact ho t rfl

@[simp] theorem State.toMgmt_mem (s : State) (rs : List ErrRec) : (s.toMgmt rs).mem = s.mem := rfl

theorem State.putGlobal_getD_wf (s : State) (h : Memory.wf s.mem = true) (r : Word) (va : Nat) (bs : List Byte) :
    Memory.wf ((s.putGlobal r va bs).getD s).mem = true :=
  getD_wf _ _ h (fun t ht => State.putGlobal_wf s h r va bs t ht)

theorem State.toErrQueue_wf (s : State) (h : Memory.wf s.mem = true) (e : Nat) (r : ErrRec) : Memory.wf (s.toErrQueue e r).mem = true := by
  unfold State.toErrQueue
  cases s.queue e with
  | none => exact h
  | some x =>
    dsimp only
    have h0 : Memory.wf (s.toMgmt (s.badTables x.desc.gvroot x.desc.widx.toNat 8)).mem = true := h
    generalize s.toMgmt (s.badTables x.desc.gvroot x.desc.widx.toNat 8) = s0 at h0 ⊢
    split
    · exact h0
    · split
      · exact h0
      · rename_i hp
        rw [State.setQueue_mem]
        exact State.putGlobal_getD_wf _ (State.putGlobal_wf _ h0 _ _ _ _ hp) _ _ _

theorem State.report_wf (s : State) (h : Memory.wf s.mem = true) (q : Option Nat) (r : ErrRec) : Memory.wf (s.report q r).mem = true := by
  unfold State.report
  simp only
  split
  · apply State.toErrQueue_wf
    split_ifs <;> exact h
  · split_ifs <;> exact h

theorem State.reportTables_wf (s : State) (h : Memory.wf s.mem = true) (root : Word) (va n : Nat) :
    Memory.wf (s.reportTables root va n).mem = true := foldl_wf _ (fun s r hs => State.report_wf s hs none r) _ _ h

theorem State.drlAppend_wf (s : State) (h : Memory.wf s.mem = true) (d : Nat) (p : Port) (a b c : Nat) :
    Memory.wf (s.drlAppend d p a b c).mem = true := by
  have fail (s : State) (h : Memory.wf s.mem = true) (q : Bool) (r : ErrRec) :
      Memory.wf (if q = true then s else s.report none r).mem = true := by
    split_ifs
    · exact h
    · exact State.report_wf s h _ _
  unfold State.drlAppend
  cases p with
  | none => exact h
  | some p =>
    simp only
    split
    · simp only [State.setDie_mem, h]
    · split
      · exact State.reportTables_wf _ (fail _ (by simp only [State.setDie_mem, h]) _ _) _ _ _
      · split
        · exact fail _ (by simp only [State.setDie_mem, h]) _ _
        · split
          · exact fail _ (by simp only [State.setDie_mem, h]) _ _
          · simp only [State.setDie_mem]
            exact State.linesWrite_wf _ _ h _ _ _

/-! ### Requests at the home -/

theorem State.performReq_wf (s : State) (h : Memory.wf s.mem = true) (w : Option Writer) (r : MemReq) : Memory.wf (s.performReq w r).mem = true := by
  unfold State.performReq
  simp only
  split_ifs <;> exact State.performWrite_wf s h _ _ _ _ _ _

@[simp] theorem State.completeOp_mem (s : State) (id : Nat) : (s.completeOp id).mem = s.mem := by
  unfold State.completeOp
  split <;> rfl

theorem State.performHeld_wf (s : State) (h : Memory.wf s.mem = true) (line : Nat) : Memory.wf (s.performHeld line).mem = true := by
  unfold State.performHeld
  split
  · exact h
  · refine foldl_wf _ (fun s x hs => ?_) _ _ h
    have k := State.performReq_wf s hs (s.writerOf x.op) x.req
    dsimp only
    split
    · exact k
    · split
      · split_ifs
        · exact k
        · rw [State.completeOp_mem]; exact k
        · exact k
        · exact k
      · exact k

theorem State.installLine_wf (s : State) (h : Memory.wf s.mem = true) (a : Agent) (line stamp : Nat) (e : TxLine) :
    Memory.wf (s.installLine a line stamp e).mem = true := by
  unfold State.installLine State.releaseLine
  apply State.performHeld_wf
  simp only [State.invalidateSharers_mem]
  split
  · exact State.lineWrite_wf _ (by simp [h]) _ _ _
  · exact State.memWrite_wf _ (by simp [h]) _ _

/-! ### Copies of remote lines -/

theorem State.putDirty_wf (s : State) (h : Memory.wf s.mem = true) (line : Nat) (l : RemLine) (i : Nat) :
    Memory.wf (s.putDirty line l i).mem = true := by
  unfold State.putDirty
  split
  · exact State.memSet_wf s h _ _
  · exact h

theorem State.writeBack_wf (s : State) (h : Memory.wf s.mem = true) (key : Nat) (l : RemLine) : Memory.wf (s.writeBack key l).mem = true := by
  unfold State.writeBack
  dsimp only
  split
  · exact h
  · have k := foldl_wf _ (fun s i hs => State.putDirty_wf s hs (key % 2 ^ 60 * 32) l i) (List.range 32) s h
    split_ifs
    · exact k
    · exact k
    · exact k

theorem State.setRem_wf (s : State) (h : Memory.wf s.mem = true) (key : Nat) (l : RemLine) : Memory.wf (s.setRem key l).mem = true := by
  unfold State.setRem
  simp only
  split
  · refine State.writeBack_wf _ ?_ _ _
    exact h
  · exact h

@[simp] theorem State.delRem_mem (s : State) (key : Nat) : (s.delRem key).mem = s.mem := rfl

theorem State.dropRem_wf (s : State) (h : Memory.wf s.mem = true) (d pa : Nat) : Memory.wf (s.dropRem d pa).mem = true := by
  unfold State.dropRem
  split
  · rw [State.delRem_mem]
    exact State.writeBack_wf s h _ _
  · exact h

theorem State.trimSet_wf (n : Nat) (s : State) (h : Memory.wf s.mem = true) (key slice : Nat) : Memory.wf (s.trimSet key slice n).mem = true := by
  induction n generalizing s with
  | zero => exact h
  | succ n ih =>
    unfold State.trimSet
    dsimp only
    split
    · exact h
    · split
      · refine ih _ (State.writeBack_wf _ ?_ _ _)
        exact h
      · exact h

theorem State.trimL2_wf (s : State) (h : Memory.wf s.mem = true) (d : Nat) : Memory.wf (s.trimL2 d).mem = true :=
  foldl_wf _ (fun s _ hs => State.trimSet_wf _ s hs _ _) _ _ h

theorem State.fillRem_wf (s : State) (h : Memory.wf s.mem = true) (d pa : Nat) (leaf : Word) : Memory.wf (s.fillRem d pa leaf).1.mem = true :=
  State.setRem_wf s h _ _

theorem State.remLine_wf (s : State) (h : Memory.wf s.mem = true) (d pa : Nat) (leaf : Word) : Memory.wf (s.remLine d pa leaf).1.mem = true := by
  unfold State.remLine
  split
  · exact State.fillRem_wf s h _ _ _
  · split_ifs
    · exact h
    · exact State.fillRem_wf _ (State.writeBack_wf s h _ _) _ _ _

theorem State.l2Store_wf (s : State) (h : Memory.wf s.mem = true) (d pa : Nat) (leaf : Word) (bs : List Byte) (p : Bool) :
    Memory.wf (s.l2Store d pa leaf bs p).mem = true := State.setRem_wf _ (State.remLine_wf s h d pa leaf) _ _

theorem State.remStore_wf (s : State) (h : Memory.wf s.mem = true) (t pa : Nat) (leaf : Word) (bs : List Byte) (p : Bool) :
    Memory.wf (s.remStore t pa leaf bs p).mem = true := by
  have k := State.l2Store_wf s h (dieOf t) pa leaf bs p
  unfold State.remStore
  dsimp only
  split
  · exact k
  · exact k

theorem State.podRelease_wf (s : State) (h : Memory.wf s.mem = true) (d : Nat) : Memory.wf (s.podRelease d).mem = true :=
  foldl_wf _ (fun s _ hs => State.writeBack_wf s hs _ _) _ _ h

end Sys2Proof.Machine
end

