-- ==== Sys2Proof/Laws/Ops.lean ====
section
/-! SUPPORT. One lemma for each shared operation of an op: what it answers where its conditions hold. -/

namespace Sys2Proof.Machine

/-- `need` of a condition that holds. -/
@[simp] theorem need_true (step : Nat) (cause : BitVec 16) (code : Nat) (a : Word) : need true step cause code a = .ok () := rfl
@[simp] theorem need_false (step : Nat) (cause : BitVec 16) (code : Nat) (a : Word) :
    need false step cause code a = .error (.trap ⟨step, cause, BitVec.ofNat 10 code, a, none⟩) := rfl

/-- The three ends of an op. -/
@[simp] theorem settle_ok (s t : State) : settle s (.ok t) = ran t := rfl
@[simp] theorem settle_trap (s : State) (t : Trap) : settle s (.error (.trap t)) = trapped s t := rfl
@[simp] theorem settle_wait (s t : State) (w : Wait) : settle s (.error (.wait w t)) = .next { t.waitFrom s.me w with fate := .waits } := rfl
theorem settle_wait_self (s : State) (w : Wait) : settle s (.error (.wait w s)) = waits s w := rfl

/-- An op always answers a next state. -/
theorem settle_next (s : State) (r : Run State) : ∃ t, settle s r = .next t := by
  match r with
  | .ok t => exact ⟨_, rfl⟩
  | .error (.trap t) => exact ⟨_, rfl⟩
  | .error (.wait w t) => exact ⟨_, rfl⟩

@[simp] theorem run_bind_ok {α β : Type} (a : α) (f : α → Run β) : ((.ok a : Run α) >>= f) = f a := rfl
@[simp] theorem run_bind_error {α β : Type} (e : Stop) (f : α → Run β) : ((.error e : Run α) >>= f) = .error e := rfl

/-- Poison in none of the source registers. -/
theorem poisonedS_ok (c : Ctx) (rs : List (BitVec 5)) (h : ∀ r ∈ rs, c.sPois.find r.toNat = none) : poisonedS c rs = .ok () := by
  induction rs with
  | nil => rfl
  | cons r rs ih =>
    simp only [poisonedS, h r (List.mem_cons_self ..)]
    exact ih (fun x hx => h x (List.mem_cons_of_mem _ hx))

/-- Source registers that hold values may be read. -/
theorem useS_ok {s : State} {rs : List (BitVec 5)} (h : Readable s rs) : useS s rs = .ok () := by
  unfold useS
  rw [if_neg, poisonedS_ok _ _ (fun r hr => (h r hr).2)]
  simp only [List.any_eq_true, not_exists, not_and, Bool.not_eq_true]
  exact fun r hr => (h r hr).1

/-- A source register whose result is on its way makes the op wait. -/
theorem useS_wait {s : State} {rs : List (BitVec 5)} (h : rs.any (fun r => s.src.pends r.toNat) = true) :
    useS s rs = .error (.wait (.structural (.result (rs.map (·.toNat)))) s) := by
  unfold useS
  rw [if_pos h]

/-- Only an op that ran leaves `fate` at `ran`. -/
theorem settle_ran {s t : State} {r : Run State} (h : settle s r = .next t) (hf : t.fate = .ran) : ∃ u, r = .ok u ∧ t = { u with fate := .ran } := by
  match r with
  | .ok u =>
    simp only [settle_ok, ran, Host.Outcome.next.injEq] at h
    exact ⟨u, rfl, h.symm⟩
  | .error (.trap x) =>
    simp only [settle, Host.Outcome.next.injEq] at h
    subst h
    cases hf
  | .error (.wait w x) =>
    simp only [settle, Host.Outcome.next.injEq] at h
    subst h
    cases hf

/-- No token register holds the access back. -/
theorem useTok_ok {s : State} {kw kp : BitVec 3} (h : TokensFree s kw kp) : useTok s kw kp = .ok () := by
  unfold useTok
  rw [if_neg (by simp [h.1]), if_neg (by have := h.2; omega)]

/-- An aligned address passes, another is a misalignment. -/
theorem aligned_ok {a : Word} {n : Nat} (h : a.toNat % n = 0) : aligned a n = .ok () := by simp [aligned, h]
theorem aligned_trap {a : Word} {n : Nat} (h : a.toNat % n ≠ 0) :
    aligned a n = .error (.trap ⟨7, 0x3002, BitVec.ofNat 10 n.log2, a, none⟩) := by
  unfold aligned
  rw [show (a.toNat % n == 0) = false by simpa using h]
  rfl

/-- An op that is `loadScalar` loads. -/
theorem loadScalar_loads (s : State) (v : View) (size ord scope : Nat) (kw kp : BitVec 3) (rd : BitVec 5) (srcs : List (BitVec 5)) (a : Word)
    (i : Instr) (h1 : TokensFree s kw kp) (h2 : Readable s srcs) (hi : exec i s = settle s (loadScalar s v size ord scope kw kp rd srcs a)) :
    LoadsScalar s i v size ord scope kw rd a := by
  intro ha s' bs hl
  rw [hi]
  simp only [loadScalar, useTok_ok h1, useS_ok h2, aligned_ok ha, run_bind_ok, hl]
  rw [show (acquire s' ord scope).path = s'.path by unfold acquire State.podAcquire State.path; split_ifs <;> rfl]
  rfl

/-- A store to checked places that `StoresPlaces` describes answers its state. -/
theorem storeChecked_ok {u t : State} {fe : Bool} {kw : BitVec 3} {pre : List (List (Byte × Bool))} {ps qs : List ((Word × Nat) × Place)}
    {a : Option Word} {bs cs : List (Byte × Bool)} (h : StoresPlaces u fe kw pre ps qs a bs cs t) : storeChecked u fe kw pre ps qs a bs cs = .ok t := by
  obtain ⟨v, w, h1, h2, rfl⟩ := h
  simp only [storeChecked, h1, h2, run_bind_ok]

/-- A store that `Stores` describes answers its state. -/
theorem storePieces_ok {u t : State} {fe : Bool} {kw : BitVec 3} {ps qs : List (Word × Nat)} {a : Word} {bs cs : List (Byte × Bool)}
    (h : Stores u fe kw ps qs a bs cs t) : storePieces u fe fe kw ps qs a bs cs = .ok t := by
  obtain ⟨pl, ql, h1, h2, h3⟩ := h
  simp only [storePieces, h1, h2, storeChecked_ok h3, run_bind_ok]

/-- An op that is `storeScalar` stores. -/
theorem storeScalar_stores (s : State) (fe : Bool) (size ord scope : Nat) (kw kp : BitVec 3) (rd : BitVec 5) (srcs : List (BitVec 5)) (a : Word)
    (i : Instr) (h1 : TokensFree s kw kp) (h2 : Readable s srcs) (hi : exec i s = settle s (storeScalar s fe size ord scope kw kp rd srcs a)) :
    StoresScalar s i fe size ord scope kw rd a := by
  intro ha pl s' t hc hr hs
  rw [hi]
  simp only [storeScalar, useTok_ok h1, useS_ok h2, aligned_ok ha, run_bind_ok, hc, hr, storePieces_ok hs]
  rfl

/-- An op that is `vecOp` writes its v register. -/
theorem vecOp_writes (s : State) (i : Instr) (vd : BitVec 5) (mm : BitVec 3) (vs : List (BitVec 5)) (rd : Bool) (ss : List (BitVec 5))
    (op op' : State → VOut) (h : exec i s = settle s (vecOp vd mm vs rd ss op s)) (ho : op = op') : WritesVector s i vd mm vs rd ss op' := by
  subst ho
  intro ha hr u t hu hd hs hw
  rw [h]
  have hn : notAwn s = .ok () := by simp [notAwn, ha]
  simp only [vecOp, hn, useS_ok hr, run_bind_ok, hu, hd, hs, hw]
  rfl

/-- An op that the awn core lacks passes elsewhere. -/
theorem notAwn_ok {s : State} (h : s.cur.isAwn = false) : notAwn s = .ok () := by simp [notAwn, h]

/-- A scratchpad operand that meets the conditions of an engine op is its span. -/
theorem operand_ok {s : State} {base : Word} {align win n : Nat} {only : Option Nat} {dest : Bool} {len : Word → Nat}
    (ho : only = none ∨ only = some win) (hn : len (s.fmtAt s.cur.tile win (offset base)) = n) (h : OperandOk s base align win n dest) :
    operand s base align only dest len = .ok ⟨win, offset base, n⟩ := by
  obtain ⟨h1, h2, h3, h4, h5, h6⟩ := h
  subst hn
  have e1 : (base.toNat % align == 0) = true := by simp [h1]
  have e2 : (decide (win < 3) && (only.isNone || only == some win)) = true := by
    rcases ho with rfl | rfl <;> simp [h3]
  simp only [operand, e1, need_true, run_bind_ok, h2, e2, decide_eq_true h4, decide_eq_true h5]
  have : (Span.entries ⟨win, offset base, len (s.fmtAt s.cur.tile win (offset base))⟩).find? (fun e => loc ((s.tile s.cur.tile).spte (pkey win e.1)) == 0 && !(dest && (s.outbound s.cur.tile win e.1).isSome)) = none := by
    rw [List.find?_eq_none]
    intro e he
    rcases h6 e he with h | ⟨h, h'⟩
    · simp [h]
    · simp [h, h']
  simp only [this]

/-- Operand banks of one format agree. -/
theorem sameBanks_ok {s : State} {r : Span} {b k : Word} (h : ∀ fm ∈ s.spanFmts s.cur.tile r, fmtKey fm = k) : sameBanks s r b = .ok () := by
  unfold sameBanks
  have : (((s.spanFmts s.cur.tile r).map fmtKey).dedup.length ≤ 1) := by
    have hs : ((s.spanFmts s.cur.tile r).map fmtKey).dedup ⊆ [k] := by
      intro x hx
      rw [List.mem_dedup, List.mem_map] at hx
      obtain ⟨y, hy, rfl⟩ := hx
      simp [h y hy]
    exact (List.subperm_of_subset (List.nodup_dedup _) hs).length_le
  simp [this]

/-- A matrix op is held while fewer than four are. -/
theorem issueMatrix_ok {s : State} {f : EX} {m : MatOp} (h : (s.tile s.cur.tile).mq.length < 4) :
    issueMatrix s f m = .ok (s.holdMatrix f m) := by
  unfold issueMatrix
  rw [if_neg (by simpa using h)]
  unfold State.holdMatrix
  by_cases e : (s.tile s.cur.tile).mq = []
  · simp only [e, List.isEmpty_nil, if_true]; rfl
  · have e' : (s.tile s.cur.tile).mq.isEmpty = false := by simpa using e
    simp only [e, e', if_false, Bool.false_eq_true]; rfl

/-- The shared tests of a matrix op. -/
theorem matrixTests_ok {s : State} {f : EX} {l : List (BitVec 5)} (h1 : TokensFree s (kwX f) (kpX f)) (h2 : s.cur.isAwn = false) (h3 : Readable s l) :
   matrixTests s f l = .ok () := by
  simp only [matrixTests, useTok_ok h1, notAwn_ok h2, useS_ok h3, run_bind_ok]

/-- A task with a completion ring may issue transfers. -/
theorem needRing_ok {s : State} {k : Nat} (h : s.taskOf s.cur = some k) (h2 : recCrlog (s.record k) ≠ 0) : needRing s = .ok () := by
  have : s.runRec s.cur.tile = s.record k := by
    unfold State.taskOf at h
    unfold State.runRec
    rw [h]
  unfold needRing
  rw [this, show (recCrlog (s.record k) != 0) = true by simpa using h2]
  rfl

/-- The shared tests of a transfer op. -/
theorem xferTests_ok {s : State} {f : EX} {k : Nat} {l : List (BitVec 5)} (hT : TokensFree s (kwX f) (kpX f)) (hR : Readable s l)
    (h : s.taskOf s.cur = some k) (h2 : recCrlog (s.record k) ≠ 0) : xferTests s f l = .ok () := by
  simp only [xferTests, useTok_ok hT, useS_ok hR, needRing_ok h h2, run_bind_ok]

/-- A transfer starts while its task and its tile have room for it. -/
theorem issueXfer_ok {s : State} {f : EX} {k : Nat} {x : Xfer} (h : s.taskOf s.cur = some k) (h1 : s.taskXfers k < 2 ^ recCrlog (s.record k))
    (h2 : s.tileXfers s.cur.tile < 32) : issueXfer s f x = .ok (s.startXfer f k x) := by
  unfold issueXfer
  rw [h]
  simp only [Nat.not_le.mpr h1, Nat.not_le.mpr h2, decide_false, Bool.or_false, Bool.false_eq_true, if_false]
  rfl

/-- A byte count within its limit passes. -/
theorem needCount_ok {n : Nat} (h : n ≤ 2 ^ 32 - 16) : needCount n = .ok () := by
  unfold needCount
  rw [decide_eq_true h]; rfl

/-- A fence at pkg scope over every path passes where nothing is outstanding. -/
theorem fence_ok {s : State} (h : s.fenceBusy s.cur 63 3 = false) : fence s 63 3 = .ok ((s.crossAll (dieOf s.cur.tile)).showFenced s.cur 63) := by
  simp [fence, fenceMask, h, State.performAt]

/-- A graph op on what is no identifier answers status 5. -/
theorem sendGraph_none {s : State} {f : EX} {g : GraphOp} (h1 : 2 ^ 30 ≤ g.target) :
    s.sendGraph f g = s.ws f.rc (if g.kind = 3 then refusal 5 else 5) := by
  unfold State.sendGraph
  simp only
  rw [if_pos h1]

/-- A graph op on a record of this package leaves for its dispatcher; a launch counts a `tdec`. -/
theorem sendGraph_here {s : State} {f : EX} {g : GraphOp} (h1 : g.target < 2 ^ 30) (h2 : graphAway g s.ua.pkg = false) :
    s.sendGraph f g = ((s.onLaunch g.launch (fun l => l.send (akey s.cur) (b2n (g.kind == 0)))).awaitResult f.rc).post
      (.graphOpArrival { g with op := s.nextOp }) := by
  unfold State.sendGraph
  simp only
  rw [if_neg (by omega), h2]
  rfl

end Sys2Proof.Machine
end

