-- ==== Sys2Proof/Laws/PerInstr.lean ====
section
/-! SUPPORT. The per-instruction family RoundTrip: the decoder reads back what the encoder writes, one lemma per constructor. -/

namespace Sys2Proof.Laws.RoundTrip

/-- On a tile of either kind, the words the encoder gives a well-formed instruction decode to it: alone, or beside the op that does nothing
in its slot (06 R143, R161). -/
def Statement (i : Instr) : Prop := ∀ v w, i.wf v = true → encode i = some w →
  decodeSheaf v (w.extractLsb' 0 32) (w.extractLsb' 32 32) = .pair i .anop ∨
  decodeSheaf v (w.extractLsb' 0 32) (w.extractLsb' 32 32) = .pair .nopOp i ∨
  decodeSheaf v (w.extractLsb' 0 32) (w.extractLsb' 32 32) = .lone i

theorem low_half (x e : BitVec 32) : (x ++ e : BitVec 64).extractLsb' 0 32 = e := BitVec.extractLsb'_append_eq_right
theorem high_half (x e : BitVec 32) : (x ++ e : BitVec 64).extractLsb' 32 32 = x := BitVec.extractLsb'_append_eq_left

theorem of_pair {i : Instr} {e : BitVec 32} (he : encode i = some (alone e)) (h : fld e 31 1 = 0#1)
    (hd : ∀ v, i.wf v = true → decodeC e = .ok (i, [])) : Statement i := by
  intro v w hw h'
  rw [he] at h'
  cases h'
  have h4 : decodeA 0#32 = .ok (.anop, []) := rfl
  have h5 : reservedCodes v i = [] := List.isEmpty_iff.mp hw
  have h6 : reservedCodes v .anop = [] := rfl
  have h7 : dests .anop = [] := rfl
  have h8 : sameDest i .anop = false := by simp [sameDest, h7]
  rw [alone, low_half, high_half]
  left
  simp [decodeSheaf, h, hd v hw, h4, h5, h6, h8, mustBe, lowest]

theorem of_pairA {i : Instr} {e : BitVec 32} (he : encode i = some (aloneA e))
    (hd : ∀ v, i.wf v = true → decodeA e = .ok (i, [])) : Statement i := by
  intro v w hw h'
  rw [he] at h'
  cases h'
  have h3 : fld 0#32 31 1 = 0#1 := rfl
  have h4 : decodeC 0#32 = .ok (.nopOp, []) := rfl
  have h5 : reservedCodes v i = [] := List.isEmpty_iff.mp hw
  have h6 : reservedCodes v .nopOp = [] := rfl
  have h7 : dests .nopOp = [] := rfl
  have h8 : sameDest .nopOp i = false := by simp [sameDest, h7]
  rw [aloneA, low_half, high_half]
  right
  left
  simp [decodeSheaf, h3, hd v hw, h4, h5, h6, h8, mustBe, lowest]

theorem of_lone {i : Instr} {e x : BitVec 32} (he : encode i = some (x ++ e)) (h : fld e 31 1 = 1#1)
    (hd : ∀ v, i.wf v = true → decodeL e x = .ok (i, [])) : Statement i := by
  intro v w hw h'
  rw [he] at h'
  cases h'
  have h5 : reservedCodes v i = [] := List.isEmpty_iff.mp hw
  rw [low_half, high_half]
  right
  right
  simp [decodeSheaf, h, hd v hw, h5, lowest]

theorem of_none {i : Instr} (he : encode i = none) : Statement i := by
  intro v w _ h
  rw [he] at h
  cases h

theorem mustBe_nil {c : Nat} {b : Bool} (h : mustBe c b = []) : b = true := by
  cases b
  · cases h
  · rfl

theorem codes_append {a b : List Nat} (h : (a ++ b).isEmpty = true) : a = [] ∧ b = [] := List.append_eq_nil_iff.mp (List.isEmpty_iff.mp h)

/-- A field whose number is known is known. -/
theorem field_eq {n : Nat} (x : BitVec n) (k : Nat) (h : x.toNat = k) : x = BitVec.ofNat n k := BitVec.eq_of_toNat_eq (by
  have := x.isLt
  rw [BitVec.toNat_ofNat, Nat.mod_eq_of_lt (by omega), h])

/-- All of a vector, the start being written as a difference. -/
theorem self {n k : Nat} (x : BitVec n) (h : k = 0 := by decide) : x.extractLsb' k n = x := by
  subst h
  exact BitVec.extractLsb'_eq_self

theorem wordCR (m : BitVec 6) (f : CR) (n : BitVec 6) :
    fld (eCR m f n) 31 1 = 0#1 ∧
    fld (eCR m f n) 25 6 = m ∧
    fCR (eCR m f n) = f ∧
    fld (eCR m f n) 6 4 = 0#4 ∧
    fld (eCR m f n) 0 6 = n := by
  have key : ∀ p q, fld (eCR m f n) p q = @BitVec.extractLsb' (1+6+5+5+5+4+6) p q (0#1 ++ m ++ f.rd ++ f.ra ++ f.rb ++ 0#4 ++ n) := fun _ _ => rfl
  refine ⟨?_, ?_, ?_, ?_, ?_⟩
  all_goals
    simp only [fCR, key]
    repeat first
      | rw [BitVec.extractLsb'_append_eq_of_le (by decide)]
      | rw [BitVec.extractLsb'_append_eq_of_add_le (by decide)]
    repeat rw [self]
    try rfl

theorem low_zero (m : BitVec 6) (f : CR) : fld (eCR m f 0#6) 0 10 = 0#10 := by
  have h : (0#1 ++ m ++ f.rd ++ f.ra ++ f.rb ++ 0#4 ++ 0#6) = (0#1 ++ m ++ f.rd ++ f.ra ++ f.rb ++ 0#10) := BitVec.eq_of_toNat_eq (by
    simp only [BitVec.toNat_append, BitVec.toNat_ofNat, Nat.zero_mod, Nat.or_zero, ← Nat.shiftLeft_add])
  show @BitVec.extractLsb' (1+6+5+5+5+4+6) 0 10 (0#1 ++ m ++ f.rd ++ f.ra ++ f.rb ++ 0#4 ++ 0#6) = 0#10
  rw [h, BitVec.extractLsb'_append_eq_of_add_le (by decide), self]

theorem wordCI (m : BitVec 6) (f : CI) :
    fld (eCI m f) 31 1 = 0#1 ∧
    fld (eCI m f) 25 6 = m ∧
    fCI (eCI m f) = f ∧
    fld (eCI m f) 13 2 = f.imm.extractLsb' 13 2 ∧
    fld (eCI m f) 14 1 = f.imm.extractLsb' 14 1 := by
  have key : ∀ p q, fld (eCI m f) p q = @BitVec.extractLsb' (1+6+5+5+15) p q (0#1 ++ m ++ f.rd ++ f.ra ++ f.imm) := fun _ _ => rfl
  refine ⟨?_, ?_, ?_, ?_, ?_⟩
  all_goals
    simp only [fCI, key]
    repeat first
      | rw [BitVec.extractLsb'_append_eq_of_le (by decide)]
      | rw [BitVec.extractLsb'_append_eq_of_add_le (by decide)]
    repeat rw [self]
    try rfl

theorem wordCM (m : BitVec 6) (f : CM) :
    fld (eCM m f) 31 1 = 0#1 ∧
    fld (eCM m f) 25 6 = m ∧
    fCM (eCM m f) = f := by
  have key : ∀ p q, fld (eCM m f) p q = @BitVec.extractLsb' (1+6+5+5+3+3+9) p q (0#1 ++ m ++ f.rd ++ f.ra ++ f.kw ++ f.kp ++ f.off) := fun _ _ => rfl
  refine ⟨?_, ?_, ?_⟩
  all_goals
    simp only [fCM, key]
    repeat first
      | rw [BitVec.extractLsb'_append_eq_of_le (by decide)]
      | rw [BitVec.extractLsb'_append_eq_of_add_le (by decide)]
    repeat rw [self]
    try rfl

theorem wordCB (m : BitVec 6) (f : CB) :
    fld (eCB m f) 31 1 = 0#1 ∧
    fld (eCB m f) 25 6 = m ∧
    fCB (eCB m f) = f := by
  have key : ∀ p q, fld (eCB m f) p q = @BitVec.extractLsb' (1+6+5+5+15) p q (0#1 ++ m ++ f.ra ++ f.rb ++ f.off) := fun _ _ => rfl
  refine ⟨?_, ?_, ?_⟩
  all_goals
    simp only [fCB, key]
    repeat first
      | rw [BitVec.extractLsb'_append_eq_of_le (by decide)]
      | rw [BitVec.extractLsb'_append_eq_of_add_le (by decide)]
    repeat rw [self]
    try rfl

theorem wordCS (m : BitVec 6) (d n : BitVec 5) (l : BitVec 10) :
    fld (eCS m d n l) 31 1 = 0#1 ∧
    fld (eCS m d n l) 25 6 = m ∧
    fld (eCS m d n l) 20 5 = d ∧
    fld (eCS m d n l) 15 5 = 0#5 ∧
    fld (eCS m d n l) 10 5 = n ∧
    fld (eCS m d n l) 0 10 = l := by
  have key : ∀ p q, fld (eCS m d n l) p q = @BitVec.extractLsb' (1+6+5+5+5+10) p q (0#1 ++ m ++ d ++ 0#5 ++ n ++ l) := fun _ _ => rfl
  refine ⟨?_, ?_, ?_, ?_, ?_, ?_⟩
  all_goals
    simp only [key]
    repeat first
      | rw [BitVec.extractLsb'_append_eq_of_le (by decide)]
      | rw [BitVec.extractLsb'_append_eq_of_add_le (by decide)]
    repeat rw [self]
    try rfl

theorem wordAS (m : BitVec 6) (f : AS) (n : BitVec 6) :
    fld (eAS m f n) 26 6 = m ∧
    fAS (eAS m f n) = f ∧
    fld (eAS m f n) 6 5 = 0#5 ∧
    fld (eAS m f n) 0 6 = n := by
  have key : ∀ p q, fld (eAS m f n) p q = @BitVec.extractLsb' (6+5+5+5+5+6) p q (m ++ f.sd ++ f.sa ++ f.sb ++ 0#5 ++ n) := fun _ _ => rfl
  refine ⟨?_, ?_, ?_, ?_⟩
  all_goals
    simp only [fAS, key]
    repeat first
      | rw [BitVec.extractLsb'_append_eq_of_le (by decide)]
      | rw [BitVec.extractLsb'_append_eq_of_add_le (by decide)]
    repeat rw [self]
    try rfl

theorem wordAF (f : AF) (n : BitVec 4) :
    fld (eAF f n) 26 6 = 2#6 ∧
    fAF (eAF f n) = f ∧
    fld (eAF f n) 10 1 = 0#1 ∧
    fld (eAF f n) 0 4 = n := by
  have key : ∀ p q, fld (eAF f n) p q = @BitVec.extractLsb' (6+5+5+5+1+3+3+4) p q (2#6 ++ f.sd ++ f.sa ++ f.sb ++ 0#1 ++ f.t2 ++ f.t ++ n) := fun _ _ => rfl
  refine ⟨?_, ?_, ?_, ?_⟩
  all_goals
    simp only [fAF, key]
    repeat first
      | rw [BitVec.extractLsb'_append_eq_of_le (by decide)]
      | rw [BitVec.extractLsb'_append_eq_of_add_le (by decide)]
    repeat rw [self]
    try rfl

theorem wordAV (m : BitVec 6) (f : AV) (n : BitVec 4) :
    fld (eAV m f n) 26 6 = m ∧
    fAV (eAV m f n) = f ∧
    fld (eAV m f n) 0 4 = n := by
  have key : ∀ p q, fld (eAV m f n) p q = @BitVec.extractLsb' (6+5+5+5+3+4+4) p q (m ++ f.vd ++ f.va ++ f.vb ++ f.mm ++ f.ty ++ n) := fun _ _ => rfl
  refine ⟨?_, ?_, ?_⟩
  all_goals
    simp only [fAV, key]
    repeat first
      | rw [BitVec.extractLsb'_append_eq_of_le (by decide)]
      | rw [BitVec.extractLsb'_append_eq_of_add_le (by decide)]
    repeat rw [self]
    try rfl

theorem wordAVF (m : BitVec 6) (f : AVF) :
    fld (eAVF m f) 26 6 = m ∧
    fAVF (eAVF m f) = f ∧
    fld (eAVF m f) 0 4 = f.fn := by
  have key : ∀ p q, fld (eAVF m f) p q = @BitVec.extractLsb' (6+5+5+5+3+4+4) p q (m ++ f.vd ++ f.va ++ f.vb ++ f.mm ++ f.ty ++ f.fn) := fun _ _ => rfl
  refine ⟨?_, ?_, ?_⟩
  all_goals
    simp only [fAVF, key]
    repeat first
      | rw [BitVec.extractLsb'_append_eq_of_le (by decide)]
      | rw [BitVec.extractLsb'_append_eq_of_add_le (by decide)]
    repeat rw [self]
    try rfl

theorem wordAM (f : AM) (n : BitVec 4) :
    fld (eAM f n) 26 6 = 0x20#6 ∧
    fAM (eAM f n) = f ∧
    fld (eAM f n) 4 8 = 0#8 ∧
    fld (eAM f n) 0 4 = n := by
  have key : ∀ p q, fld (eAM f n) p q = @BitVec.extractLsb' (6+3+3+3+5+8+4) p q (0x20#6 ++ f.md ++ f.ma ++ f.mb ++ f.sreg ++ 0#8 ++ n) := fun _ _ => rfl
  refine ⟨?_, ?_, ?_, ?_⟩
  all_goals
    simp only [fAM, key]
    repeat first
      | rw [BitVec.extractLsb'_append_eq_of_le (by decide)]
      | rw [BitVec.extractLsb'_append_eq_of_add_le (by decide)]
    repeat rw [self]
    try rfl

/-- Word 0 of a format LM op. -/
def lowLM (m : BitVec 7) (f : LM) : BitVec 32 := 1#1 ++ m ++ f.rd ++ f.ra ++ f.kw ++ f.kp ++ f.ord ++ f.scope ++ f.size

theorem wordLM (m : BitVec 7) (f : LM) :
    fld (lowLM m f) 31 1 = 1#1 ∧
    fld (lowLM m f) 24 7 = m ∧
    fLM (lowLM m f) f.off = f := by
  have key : ∀ p q, fld (lowLM m f) p q = @BitVec.extractLsb' (1+7+5+5+3+3+2+3+3) p q (1#1 ++ m ++ f.rd ++ f.ra ++ f.kw ++ f.kp ++ f.ord ++ f.scope ++ f.size) := fun _ _ => rfl
  refine ⟨?_, ?_, ?_⟩
  all_goals
    simp only [fLM, key]
    repeat first
      | rw [BitVec.extractLsb'_append_eq_of_le (by decide)]
      | rw [BitVec.extractLsb'_append_eq_of_add_le (by decide)]
    repeat rw [self]
    try rfl

/-- Word 0 of a format MX op. -/
def lowMX (m : BitVec 7) (f : MX) (n : BitVec 9) : BitVec 32 := 1#1 ++ m ++ f.ra ++ f.rb ++ f.rc ++ n

/-- Word 1 of a format MX op. -/
def highMX (f : MX) : BitVec 32 := f.kw ++ f.kp ++ f.ord ++ f.scope ++ f.size ++ f.off

theorem wordMX (m : BitVec 7) (f : MX) (n : BitVec 9) :
    fld (lowMX m f n) 31 1 = 1#1 ∧
    fld (lowMX m f n) 24 7 = m ∧
    fMX (lowMX m f n) (highMX f) = f ∧
    fld (lowMX m f n) 0 9 = n ∧
    fld (lowMX m f n) 0 1 = n.extractLsb' 0 1 ∧
    fld (lowMX m f n) 1 8 = n.extractLsb' 1 8 ∧
    fld (lowMX m f n) 0 2 = n.extractLsb' 0 2 ∧
    fld (lowMX m f n) 2 1 = n.extractLsb' 2 1 ∧
    fld (lowMX m f n) 3 1 = n.extractLsb' 3 1 ∧
    fld (lowMX m f n) 4 5 = n.extractLsb' 4 5 := by
  have key : ∀ p q, fld (lowMX m f n) p q = @BitVec.extractLsb' (1+7+5+5+5+9) p q (1#1 ++ m ++ f.ra ++ f.rb ++ f.rc ++ n) := fun _ _ => rfl
  have key' : ∀ lo n, fld (highMX f) lo n = @BitVec.extractLsb' (3+3+2+3+3+18) lo n (f.kw ++ f.kp ++ f.ord ++ f.scope ++ f.size ++ f.off) := fun _ _ => rfl
  refine ⟨?_, ?_, ?_, ?_, ?_, ?_, ?_, ?_, ?_, ?_⟩
  all_goals
    simp only [fMX, key, key']
    repeat first
      | rw [BitVec.extractLsb'_append_eq_of_le (by decide)]
      | rw [BitVec.extractLsb'_append_eq_of_add_le (by decide)]
    repeat rw [self]
    try rfl

/-- Word 0 of a format LX op. -/
def lowEX (m : BitVec 7) (f : EX) : BitVec 32 := 1#1 ++ m ++ f.ra ++ f.rb ++ f.rc ++ f.fn9

theorem wordEX (m : BitVec 7) (f : EX) :
    fld (lowEX m f) 31 1 = 1#1 ∧
    fld (lowEX m f) 24 7 = m ∧
    fEX (lowEX m f) f.par = f ∧
    fld (lowEX m f) 0 1 = f.fn9.extractLsb' 0 1 ∧
    fld (lowEX m f) 0 2 = f.fn9.extractLsb' 0 2 := by
  have key : ∀ p q, fld (lowEX m f) p q = @BitVec.extractLsb' (1+7+5+5+5+9) p q (1#1 ++ m ++ f.ra ++ f.rb ++ f.rc ++ f.fn9) := fun _ _ => rfl
  refine ⟨?_, ?_, ?_, ?_, ?_⟩
  all_goals
    simp only [fEX, key]
    repeat first
      | rw [BitVec.extractLsb'_append_eq_of_le (by decide)]
      | rw [BitVec.extractLsb'_append_eq_of_add_le (by decide)]
    repeat rw [self]
    try rfl

/-- Word 0 of movi and movhi. -/
def lowLI (m : BitVec 7) (d : BitVec 5) : BitVec 32 := 1#1 ++ m ++ d ++ 0#19

theorem wordLI (m : BitVec 7) (d : BitVec 5) :
    fld (lowLI m d) 31 1 = 1#1 ∧
    fld (lowLI m d) 24 7 = m ∧
    fld (lowLI m d) 19 5 = d ∧
    fld (lowLI m d) 0 19 = 0#19 := by
  have key : ∀ p q, fld (lowLI m d) p q = @BitVec.extractLsb' (1+7+5+19) p q (1#1 ++ m ++ d ++ 0#19) := fun _ _ => rfl
  refine ⟨?_, ?_, ?_, ?_⟩
  all_goals
    simp only [key]
    repeat first
      | rw [BitVec.extractLsb'_append_eq_of_le (by decide)]
      | rw [BitVec.extractLsb'_append_eq_of_add_le (by decide)]
    repeat rw [self]
    try rfl

theorem packageReset  : Statement (.packageReset) := of_none rfl
theorem powerInputChange (mainUp : Bool) (standbyUp : Bool) : Statement (.powerInputChange mainUp standbyUp) := of_none rfl
theorem measuredBootStage (reg : Nat) (stage : Signed) : Statement (.measuredBootStage reg stage) := of_none rfl
theorem contextWaitClear (a : Agent) : Statement (.contextWaitClear a) := of_none rfl
theorem yieldExpiry (a : Agent) : Statement (.yieldExpiry a) := of_none rfl
theorem operationCompletion (op : Nat) : Statement (.operationCompletion op) := of_none rfl
theorem pageInComplete (tile : Nat) (win : Nat) (page : Nat) : Statement (.pageInComplete tile win page) := of_none rfl
theorem taskRetirement (tile : Nat) : Statement (.taskRetirement tile) := of_none rfl
theorem decrementArrival (target : Nat) (sender : DecSender) : Statement (.decrementArrival target sender) := of_none rfl
theorem graphOpArrival (g : GraphOp) : Statement (.graphOpArrival g) := of_none rfl
theorem dispatchDecision (die : Nat) : Statement (.dispatchDecision die) := of_none rfl
theorem footprintFetchStart (die : Nat) : Statement (.footprintFetchStart die) := of_none rfl
theorem footprintFetchComplete (die : Nat) : Statement (.footprintFetchComplete die) := of_none rfl
theorem taskEnterRunning (tile : Nat) : Statement (.taskEnterRunning tile) := of_none rfl
theorem watchdogExpiry (task : Nat) : Statement (.watchdogExpiry task) := of_none rfl
theorem gangRestore (task : Nat) : Statement (.gangRestore task) := of_none rfl
theorem energyRefill  : Statement (.energyRefill) := of_none rfl
theorem energyCounterUpdate (tile : Nat) : Statement (.energyCounterUpdate tile) := of_none rfl
theorem freezeRequestArrival (tile : Nat) (image : Option Word) : Statement (.freezeRequestArrival tile image) := of_none rfl
theorem freezeStoppingPoint (tile : Nat) : Statement (.freezeStoppingPoint tile) := of_none rfl
theorem dikeComplete (tile : Nat) : Statement (.dikeComplete tile) := of_none rfl
theorem sluiceImageWritten (tile : Nat) : Statement (.sluiceImageWritten tile) := of_none rfl
theorem barrierPhaseComplete (task : Nat) : Statement (.barrierPhaseComplete task) := of_none rfl
theorem launchSweep (launch : Nat) : Statement (.launchSweep launch) := of_none rfl
theorem routerPacketArrival (tile : Nat) (port : Nat) (p : Packet) : Statement (.routerPacketArrival tile port p) := of_none rfl
theorem streamEdgeGranuleArrival (g : EdgeGranule) : Statement (.streamEdgeGranuleArrival g) := of_none rfl
theorem permitReturn (task : Nat) (edge : PermitEdge) : Statement (.permitReturn task edge) := of_none rfl
theorem configWavefrontArrival (tile : Nat) (load : Nat) : Statement (.configWavefrontArrival tile load) := of_none rfl
theorem leveeBatchArrival (die : Nat) (b : Batch) : Statement (.leveeBatchArrival die b) := of_none rfl
theorem adderContributionArrival (tile : Nat) (port : Nat) (p : Packet) : Statement (.adderContributionArrival tile port p) := of_none rfl
theorem statTokenArrival (tile : Nat) (port : Nat) (t : CountToken) : Statement (.statTokenArrival tile port t) := of_none rfl
theorem statMergeTimeout (tile : Nat) (cls : Nat) : Statement (.statMergeTimeout tile cls) := of_none rfl
theorem awnMessageArrival (tile : Nat) (p : Packet) : Statement (.awnMessageArrival tile p) := of_none rfl
theorem handlerStart (tile : Nat) : Statement (.handlerStart tile) := of_none rfl
theorem directoryOverflow (line : Nat) (sharer : Nat) : Statement (.directoryOverflow line sharer) := of_none rfl
theorem overflowHandlerReport (line : Nat) (refuse : Bool) : Statement (.overflowHandlerReport line refuse) := of_none rfl
theorem memoryPortGrant (die : Nat) : Statement (.memoryPortGrant die) := of_none rfl
theorem mailboxPostArrival (tile : Nat) (p : Packet) : Statement (.mailboxPostArrival tile p) := of_none rfl
theorem returnStripArrival (tile : Nat) (p : Packet) : Statement (.returnStripArrival tile p) := of_none rfl
theorem capacityClaimArrival (c : CapMsg) : Statement (.capacityClaimArrival c) := of_none rfl
theorem capacityEndArrival (c : CapMsg) : Statement (.capacityEndArrival c) := of_none rfl
theorem capacitySetArrival (c : CapMsg) : Statement (.capacitySetArrival c) := of_none rfl
theorem transferCompletion (op : Nat) : Statement (.transferCompletion op) := of_none rfl
theorem matrixStep (tile : Nat) : Statement (.matrixStep tile) := of_none rfl
theorem streamStripFetch (a : Agent) (reg : Nat) : Statement (.streamStripFetch a reg) := of_none rfl
theorem streamStripWrite (a : Agent) (reg : Nat) : Statement (.streamStripWrite a reg) := of_none rfl
theorem tlbinvWrite (a : Agent) (value : Word) : Statement (.tlbinvWrite a value) := of_none rfl
theorem ctxholdWrite (a : Agent) (value : Word) : Statement (.ctxholdWrite a value) := of_none rfl
theorem ctxrelWrite (a : Agent) (value : Word) : Statement (.ctxrelWrite a value) := of_none rfl
theorem bfmtWrite (a : Agent) (num : BitVec 12) (value : Word) : Statement (.bfmtWrite a num value) := of_none rfl
theorem frec0ValidClear (a : Agent) : Statement (.frec0ValidClear a) := of_none rfl
theorem efaultValidClear (a : Agent) : Statement (.efaultValidClear a) := of_none rfl
theorem drlovfClear (a : Agent) : Statement (.drlovfClear a) := of_none rfl
theorem controlRegisterWrite (a : Agent) (num : BitVec 12) (value : Word) : Statement (.controlRegisterWrite a num value) := of_none rfl
theorem uncorrectableError (u : ErrorSite) : Statement (.uncorrectableError u) := of_none rfl
theorem correctedError (die : Nat) : Statement (.correctedError die) := of_none rfl
theorem commandQueueDoorbell (q : Nat) : Statement (.commandQueueDoorbell q) := of_none rfl
theorem nopPacket (q : Nat) (idx : Nat) : Statement (.nopPacket q idx) := of_none rfl
theorem launchPacket (q : Nat) (idx : Nat) : Statement (.launchPacket q idx) := of_none rfl
theorem graphPacket (q : Nat) (idx : Nat) : Statement (.graphPacket q idx) := of_none rfl
theorem copyPacket (q : Nat) (idx : Nat) : Statement (.copyPacket q idx) := of_none rfl
theorem signalPacket (q : Nat) (idx : Nat) : Statement (.signalPacket q idx) := of_none rfl
theorem waitPacket (q : Nat) (idx : Nat) : Statement (.waitPacket q idx) := of_none rfl
theorem fencePacket (q : Nat) (idx : Nat) : Statement (.fencePacket q idx) := of_none rfl
theorem packetCompletion (q : Nat) (idx : Nat) : Statement (.packetCompletion q idx) := of_none rfl
theorem rdmaWrite (r : Rdma) : Statement (.rdmaWrite r) := of_none rfl
theorem rdmaRead (r : Rdma) : Statement (.rdmaRead r) := of_none rfl
theorem rdmaCompareAndSwap (r : Rdma) : Statement (.rdmaCompareAndSwap r) := of_none rfl
theorem rdmaFetchAndAdd (r : Rdma) : Statement (.rdmaFetchAndAdd r) := of_none rfl
theorem rdmaUnsupportedRequest (qp : Nat) : Statement (.rdmaUnsupportedRequest qp) := of_none rfl
theorem claim (m : Msg) (c : ClaimBody) : Statement (.claim m c) := of_none rfl
theorem heartbeat (m : Msg) (ms : Nat) : Statement (.heartbeat m ms) := of_none rfl
theorem handover (m : Msg) (digest : BitVec 384) : Statement (.handover m digest) := of_none rfl
theorem qcreate (m : Msg) (q : Nat) (d : QueueDesc) : Statement (.qcreate m q d) := of_none rfl
theorem qdestroy (m : Msg) (q : Nat) : Statement (.qdestroy m q) := of_none rfl
theorem qprio (m : Msg) (q : Nat) (prio : Nat) : Statement (.qprio m q prio) := of_none rfl
theorem setlimit (m : Msg) (watts : Nat) : Statement (.setlimit m watts) := of_none rfl
theorem mreg (m : Msg) (r : RegionDesc) : Statement (.mreg m r) := of_none rfl
theorem update (m : Msg) (u : UpdateBody) : Statement (.update m u) := of_none rfl
theorem quiesce (m : Msg) : Statement (.quiesce m) := of_none rfl
theorem resume (m : Msg) : Statement (.resume m) := of_none rfl
theorem report (m : Msg) (nonce : BitVec 256) : Statement (.report m nonce) := of_none rfl
theorem status (m : Msg) (first : Nat) : Statement (.status m first) := of_none rfl
theorem frestore (m : Msg) (task : Nat) (tile : Nat) (clear : Bool) : Statement (.frestore m task tile clear) := of_none rfl
theorem fdiscard (m : Msg) (task : Nat) (send : Bool) : Statement (.fdiscard m task send) := of_none rfl
theorem leaseLapse  : Statement (.leaseLapse) := of_none rfl
theorem handoverLapse  : Statement (.handoverLapse) := of_none rfl
theorem complexFailover (activeError : Bool) : Statement (.complexFailover activeError) := of_none rfl
theorem queueWaitCycleSweep  : Statement (.queueWaitCycleSweep) := of_none rfl
theorem ualinkBringup (pkg : Nat) (pod : List Nat) : Statement (.ualinkBringup pkg pod) := of_none rfl
theorem ualinkRead (r : UaReq) : Statement (.ualinkRead r) := of_none rfl
theorem ualinkWrite (r : UaReq) : Statement (.ualinkWrite r) := of_none rfl
theorem ualinkAtomic (r : UaReq) : Statement (.ualinkAtomic r) := of_none rfl
theorem ualinkTimeout (port : Nat) (failed : Nat) : Statement (.ualinkTimeout port failed) := of_none rfl
theorem hostPortLinkFailure (port : Fin 8) (qps : Nat) : Statement (.hostPortLinkFailure port qps) := of_none rfl
theorem eventOpArrival (e : EventOp) : Statement (.eventOpArrival e) := of_none rfl
theorem nopOp  : Statement (.nopOp) := by
  exact of_pair rfl rfl (fun _ _ => rfl)
theorem yield  : Statement (.yield) := by
  exact of_pair rfl rfl (fun _ _ => rfl)
theorem brk (code : BitVec 10) : Statement (.brk code) := by
  obtain ⟨a, b, _, _, e, g⟩ := wordCS 0#6 0#5 2#5 code
  have z : fld (eCS 0#6 0#5 2#5 code) 15 10 = 0#10 := by
    show BitVec.extractLsb' 15 10 ((0#1 ++ 0#6 ++ 0#5 ++ 0#5 ++ 2#5 : BitVec 22) ++ code) = 0#10
    rw [BitVec.extractLsb'_append_eq_of_le (by decide)]
    rfl
  refine of_pair rfl a (fun _ _ => ?_)
  delta decodeC
  rw [b, e, g, z]
  rfl
theorem trapOp (code : BitVec 10) : Statement (.trapOp code) := by
  obtain ⟨a, b, _, _, e, g⟩ := wordCS 0#6 0#5 3#5 code
  have z : fld (eCS 0#6 0#5 3#5 code) 15 10 = 0#10 := by
    show BitVec.extractLsb' 15 10 ((0#1 ++ 0#6 ++ 0#5 ++ 0#5 ++ 3#5 : BitVec 22) ++ code) = 0#10
    rw [BitVec.extractLsb'_append_eq_of_le (by decide)]
    rfl
  refine of_pair rfl a (fun _ _ => ?_)
  delta decodeC
  rw [b, e, g, z]
  rfl
theorem eret  : Statement (.eret) := by
  exact of_pair rfl rfl (fun _ _ => rfl)
theorem hexit  : Statement (.hexit) := by
  exact of_pair rfl rfl (fun _ _ => rfl)
theorem texit  : Statement (.texit) := by
  exact of_pair rfl rfl (fun _ _ => rfl)
theorem addOp (f : CR) : Statement (.addOp f) := by
  obtain ⟨a, b, c, d, e⟩ := wordCR 0x1#6 f 0#6
  refine of_pair rfl a (fun _ _ => ?_)
  delta decodeC
  rw [b, c, d, e]
  rfl
theorem subOp (f : CR) : Statement (.subOp f) := by
  obtain ⟨a, b, c, d, e⟩ := wordCR 0x1#6 f 1#6
  refine of_pair rfl a (fun _ _ => ?_)
  delta decodeC
  rw [b, c, d, e]
  rfl
theorem andOp (f : CR) : Statement (.andOp f) := by
  obtain ⟨a, b, c, d, e⟩ := wordCR 0x1#6 f 2#6
  refine of_pair rfl a (fun _ _ => ?_)
  delta decodeC
  rw [b, c, d, e]
  rfl
theorem orOp (f : CR) : Statement (.orOp f) := by
  obtain ⟨a, b, c, d, e⟩ := wordCR 0x1#6 f 3#6
  refine of_pair rfl a (fun _ _ => ?_)
  delta decodeC
  rw [b, c, d, e]
  rfl
theorem xorOp (f : CR) : Statement (.xorOp f) := by
  obtain ⟨a, b, c, d, e⟩ := wordCR 0x1#6 f 4#6
  refine of_pair rfl a (fun _ _ => ?_)
  delta decodeC
  rw [b, c, d, e]
  rfl
theorem shl (f : CR) : Statement (.shl f) := by
  obtain ⟨a, b, c, d, e⟩ := wordCR 0x1#6 f 5#6
  refine of_pair rfl a (fun _ _ => ?_)
  delta decodeC
  rw [b, c, d, e]
  rfl
theorem shr (f : CR) : Statement (.shr f) := by
  obtain ⟨a, b, c, d, e⟩ := wordCR 0x1#6 f 6#6
  refine of_pair rfl a (fun _ _ => ?_)
  delta decodeC
  rw [b, c, d, e]
  rfl
theorem sar (f : CR) : Statement (.sar f) := by
  obtain ⟨a, b, c, d, e⟩ := wordCR 0x1#6 f 7#6
  refine of_pair rfl a (fun _ _ => ?_)
  delta decodeC
  rw [b, c, d, e]
  rfl
theorem mulOp (f : CR) : Statement (.mulOp f) := by
  obtain ⟨a, b, c, d, e⟩ := wordCR 0x1#6 f 8#6
  refine of_pair rfl a (fun _ _ => ?_)
  delta decodeC
  rw [b, c, d, e]
  rfl
theorem mulh (f : CR) : Statement (.mulh f) := by
  obtain ⟨a, b, c, d, e⟩ := wordCR 0x1#6 f 9#6
  refine of_pair rfl a (fun _ _ => ?_)
  delta decodeC
  rw [b, c, d, e]
  rfl
theorem mulhu (f : CR) : Statement (.mulhu f) := by
  obtain ⟨a, b, c, d, e⟩ := wordCR 0x1#6 f 10#6
  refine of_pair rfl a (fun _ _ => ?_)
  delta decodeC
  rw [b, c, d, e]
  rfl
theorem divOp (f : CR) : Statement (.divOp f) := by
  obtain ⟨a, b, c, d, e⟩ := wordCR 0x1#6 f 11#6
  refine of_pair rfl a (fun _ _ => ?_)
  delta decodeC
  rw [b, c, d, e]
  rfl
theorem divu (f : CR) : Statement (.divu f) := by
  obtain ⟨a, b, c, d, e⟩ := wordCR 0x1#6 f 12#6
  refine of_pair rfl a (fun _ _ => ?_)
  delta decodeC
  rw [b, c, d, e]
  rfl
theorem rem (f : CR) : Statement (.rem f) := by
  obtain ⟨a, b, c, d, e⟩ := wordCR 0x1#6 f 13#6
  refine of_pair rfl a (fun _ _ => ?_)
  delta decodeC
  rw [b, c, d, e]
  rfl
theorem remu (f : CR) : Statement (.remu f) := by
  obtain ⟨a, b, c, d, e⟩ := wordCR 0x1#6 f 14#6
  refine of_pair rfl a (fun _ _ => ?_)
  delta decodeC
  rw [b, c, d, e]
  rfl
theorem minOp (f : CR) : Statement (.minOp f) := by
  obtain ⟨a, b, c, d, e⟩ := wordCR 0x1#6 f 15#6
  refine of_pair rfl a (fun _ _ => ?_)
  delta decodeC
  rw [b, c, d, e]
  rfl
theorem maxOp (f : CR) : Statement (.maxOp f) := by
  obtain ⟨a, b, c, d, e⟩ := wordCR 0x1#6 f 16#6
  refine of_pair rfl a (fun _ _ => ?_)
  delta decodeC
  rw [b, c, d, e]
  rfl
theorem minu (f : CR) : Statement (.minu f) := by
  obtain ⟨a, b, c, d, e⟩ := wordCR 0x1#6 f 17#6
  refine of_pair rfl a (fun _ _ => ?_)
  delta decodeC
  rw [b, c, d, e]
  rfl
theorem maxu (f : CR) : Statement (.maxu f) := by
  obtain ⟨a, b, c, d, e⟩ := wordCR 0x1#6 f 18#6
  refine of_pair rfl a (fun _ _ => ?_)
  delta decodeC
  rw [b, c, d, e]
  rfl
theorem slt (f : CR) : Statement (.slt f) := by
  obtain ⟨a, b, c, d, e⟩ := wordCR 0x1#6 f 19#6
  refine of_pair rfl a (fun _ _ => ?_)
  delta decodeC
  rw [b, c, d, e]
  rfl
theorem sltu (f : CR) : Statement (.sltu f) := by
  obtain ⟨a, b, c, d, e⟩ := wordCR 0x1#6 f 20#6
  refine of_pair rfl a (fun _ _ => ?_)
  delta decodeC
  rw [b, c, d, e]
  rfl
theorem clz (f : CR) : Statement (.clz f) := by
  obtain ⟨a, b, c, d, e⟩ := wordCR 0x1#6 f 21#6
  refine of_pair rfl a (fun _ _ => ?_)
  delta decodeC
  rw [b, c, d, e]
  rfl
theorem ctz (f : CR) : Statement (.ctz f) := by
  obtain ⟨a, b, c, d, e⟩ := wordCR 0x1#6 f 22#6
  refine of_pair rfl a (fun _ _ => ?_)
  delta decodeC
  rw [b, c, d, e]
  rfl
theorem popc (f : CR) : Statement (.popc f) := by
  obtain ⟨a, b, c, d, e⟩ := wordCR 0x1#6 f 23#6
  refine of_pair rfl a (fun _ _ => ?_)
  delta decodeC
  rw [b, c, d, e]
  rfl
theorem addAs (f : AS) : Statement (.addAs f) := by
  obtain ⟨b, c, d, e⟩ := wordAS 0x1#6 f 0#6
  refine of_pairA rfl (fun _ _ => ?_)
  delta decodeA
  rw [b, c, d, e]
  rfl
theorem subAs (f : AS) : Statement (.subAs f) := by
  obtain ⟨b, c, d, e⟩ := wordAS 0x1#6 f 1#6
  refine of_pairA rfl (fun _ _ => ?_)
  delta decodeA
  rw [b, c, d, e]
  rfl
theorem andAs (f : AS) : Statement (.andAs f) := by
  obtain ⟨b, c, d, e⟩ := wordAS 0x1#6 f 2#6
  refine of_pairA rfl (fun _ _ => ?_)
  delta decodeA
  rw [b, c, d, e]
  rfl
theorem orAs (f : AS) : Statement (.orAs f) := by
  obtain ⟨b, c, d, e⟩ := wordAS 0x1#6 f 3#6
  refine of_pairA rfl (fun _ _ => ?_)
  delta decodeA
  rw [b, c, d, e]
  rfl
theorem xorAs (f : AS) : Statement (.xorAs f) := by
  obtain ⟨b, c, d, e⟩ := wordAS 0x1#6 f 4#6
  refine of_pairA rfl (fun _ _ => ?_)
  delta decodeA
  rw [b, c, d, e]
  rfl
theorem shlAs (f : AS) : Statement (.shlAs f) := by
  obtain ⟨b, c, d, e⟩ := wordAS 0x1#6 f 5#6
  refine of_pairA rfl (fun _ _ => ?_)
  delta decodeA
  rw [b, c, d, e]
  rfl
theorem shrAs (f : AS) : Statement (.shrAs f) := by
  obtain ⟨b, c, d, e⟩ := wordAS 0x1#6 f 6#6
  refine of_pairA rfl (fun _ _ => ?_)
  delta decodeA
  rw [b, c, d, e]
  rfl
theorem sarAs (f : AS) : Statement (.sarAs f) := by
  obtain ⟨b, c, d, e⟩ := wordAS 0x1#6 f 7#6
  refine of_pairA rfl (fun _ _ => ?_)
  delta decodeA
  rw [b, c, d, e]
  rfl
theorem mulAs (f : AS) : Statement (.mulAs f) := by
  obtain ⟨b, c, d, e⟩ := wordAS 0x1#6 f 8#6
  refine of_pairA rfl (fun _ _ => ?_)
  delta decodeA
  rw [b, c, d, e]
  rfl
theorem mulhAs (f : AS) : Statement (.mulhAs f) := by
  obtain ⟨b, c, d, e⟩ := wordAS 0x1#6 f 9#6
  refine of_pairA rfl (fun _ _ => ?_)
  delta decodeA
  rw [b, c, d, e]
  rfl
theorem mulhuAs (f : AS) : Statement (.mulhuAs f) := by
  obtain ⟨b, c, d, e⟩ := wordAS 0x1#6 f 10#6
  refine of_pairA rfl (fun _ _ => ?_)
  delta decodeA
  rw [b, c, d, e]
  rfl
theorem divAs (f : AS) : Statement (.divAs f) := by
  obtain ⟨b, c, d, e⟩ := wordAS 0x1#6 f 11#6
  refine of_pairA rfl (fun _ _ => ?_)
  delta decodeA
  rw [b, c, d, e]
  rfl
theorem divuAs (f : AS) : Statement (.divuAs f) := by
  obtain ⟨b, c, d, e⟩ := wordAS 0x1#6 f 12#6
  refine of_pairA rfl (fun _ _ => ?_)
  delta decodeA
  rw [b, c, d, e]
  rfl
theorem remAs (f : AS) : Statement (.remAs f) := by
  obtain ⟨b, c, d, e⟩ := wordAS 0x1#6 f 13#6
  refine of_pairA rfl (fun _ _ => ?_)
  delta decodeA
  rw [b, c, d, e]
  rfl
theorem remuAs (f : AS) : Statement (.remuAs f) := by
  obtain ⟨b, c, d, e⟩ := wordAS 0x1#6 f 14#6
  refine of_pairA rfl (fun _ _ => ?_)
  delta decodeA
  rw [b, c, d, e]
  rfl
theorem minAs (f : AS) : Statement (.minAs f) := by
  obtain ⟨b, c, d, e⟩ := wordAS 0x1#6 f 15#6
  refine of_pairA rfl (fun _ _ => ?_)
  delta decodeA
  rw [b, c, d, e]
  rfl
theorem maxAs (f : AS) : Statement (.maxAs f) := by
  obtain ⟨b, c, d, e⟩ := wordAS 0x1#6 f 16#6
  refine of_pairA rfl (fun _ _ => ?_)
  delta decodeA
  rw [b, c, d, e]
  rfl
theorem minuAs (f : AS) : Statement (.minuAs f) := by
  obtain ⟨b, c, d, e⟩ := wordAS 0x1#6 f 17#6
  refine of_pairA rfl (fun _ _ => ?_)
  delta decodeA
  rw [b, c, d, e]
  rfl
theorem maxuAs (f : AS) : Statement (.maxuAs f) := by
  obtain ⟨b, c, d, e⟩ := wordAS 0x1#6 f 18#6
  refine of_pairA rfl (fun _ _ => ?_)
  delta decodeA
  rw [b, c, d, e]
  rfl
theorem sltAs (f : AS) : Statement (.sltAs f) := by
  obtain ⟨b, c, d, e⟩ := wordAS 0x1#6 f 19#6
  refine of_pairA rfl (fun _ _ => ?_)
  delta decodeA
  rw [b, c, d, e]
  rfl
theorem sltuAs (f : AS) : Statement (.sltuAs f) := by
  obtain ⟨b, c, d, e⟩ := wordAS 0x1#6 f 20#6
  refine of_pairA rfl (fun _ _ => ?_)
  delta decodeA
  rw [b, c, d, e]
  rfl
theorem clzAs (f : AS) : Statement (.clzAs f) := by
  obtain ⟨b, c, d, e⟩ := wordAS 0x1#6 f 21#6
  refine of_pairA rfl (fun _ _ => ?_)
  delta decodeA
  rw [b, c, d, e]
  rfl
theorem ctzAs (f : AS) : Statement (.ctzAs f) := by
  obtain ⟨b, c, d, e⟩ := wordAS 0x1#6 f 22#6
  refine of_pairA rfl (fun _ _ => ?_)
  delta decodeA
  rw [b, c, d, e]
  rfl
theorem popcAs (f : AS) : Statement (.popcAs f) := by
  obtain ⟨b, c, d, e⟩ := wordAS 0x1#6 f 23#6
  refine of_pairA rfl (fun _ _ => ?_)
  delta decodeA
  rw [b, c, d, e]
  rfl
theorem addi (f : CI) : Statement (.addi f) := by
  obtain ⟨a, b, c, d, e⟩ := wordCI 0x2#6 f
  refine of_pair rfl a (fun _ _ => ?_)
  delta decodeC
  rw [b, c]
  rfl
theorem andi (f : CI) : Statement (.andi f) := by
  obtain ⟨a, b, c, d, e⟩ := wordCI 0x3#6 f
  refine of_pair rfl a (fun _ _ => ?_)
  delta decodeC
  rw [b, c]
  rfl
theorem ori (f : CI) : Statement (.ori f) := by
  obtain ⟨a, b, c, d, e⟩ := wordCI 0x4#6 f
  refine of_pair rfl a (fun _ _ => ?_)
  delta decodeC
  rw [b, c]
  rfl
theorem xori (f : CI) : Statement (.xori f) := by
  obtain ⟨a, b, c, d, e⟩ := wordCI 0x5#6 f
  refine of_pair rfl a (fun _ _ => ?_)
  delta decodeC
  rw [b, c]
  rfl
theorem shli (f : CI) : Statement (.shli f) := by
  obtain ⟨a, b, c, d, e⟩ := wordCI 0x6#6 f
  refine of_pair rfl a ?_
  intro v hw
  have q := mustBe_nil (codes_append hw).2
  have p : f.imm.extractLsb' 13 2 = BitVec.ofNat 2 0 := field_eq _ _ (by
    simp only [beq_iff_eq] at q
    have := f.imm.isLt
    simp only [BitVec.extractLsb'_toNat, Nat.shiftRight_eq_div_pow] at q ⊢
    omega)
  delta decodeC
  rw [b, c, d, p]
  rfl
theorem shri (f : CI) : Statement (.shri f) := by
  obtain ⟨a, b, c, d, e⟩ := wordCI 0x6#6 f
  refine of_pair rfl a ?_
  intro v hw
  have q := mustBe_nil (codes_append hw).2
  have p : f.imm.extractLsb' 13 2 = BitVec.ofNat 2 1 := field_eq _ _ (by
    simp only [beq_iff_eq] at q
    have := f.imm.isLt
    simp only [BitVec.extractLsb'_toNat, Nat.shiftRight_eq_div_pow] at q ⊢
    omega)
  delta decodeC
  rw [b, c, d, p]
  rfl
theorem sari (f : CI) : Statement (.sari f) := by
  obtain ⟨a, b, c, d, e⟩ := wordCI 0x6#6 f
  refine of_pair rfl a ?_
  intro v hw
  have q := mustBe_nil (codes_append hw).2
  have p : f.imm.extractLsb' 13 2 = BitVec.ofNat 2 2 := field_eq _ _ (by
    simp only [beq_iff_eq] at q
    have := f.imm.isLt
    simp only [BitVec.extractLsb'_toNat, Nat.shiftRight_eq_div_pow] at q ⊢
    omega)
  delta decodeC
  rw [b, c, d, p]
  rfl
theorem slti (f : CI) : Statement (.slti f) := by
  obtain ⟨a, b, c, d, e⟩ := wordCI 0x7#6 f
  refine of_pair rfl a (fun _ _ => ?_)
  delta decodeC
  rw [b, c]
  rfl
theorem sltiu (f : CI) : Statement (.sltiu f) := by
  obtain ⟨a, b, c, d, e⟩ := wordCI 0x8#6 f
  refine of_pair rfl a (fun _ _ => ?_)
  delta decodeC
  rw [b, c]
  rfl
theorem bfx (f : CI) : Statement (.bfx f) := by
  obtain ⟨a, b, c, d, e⟩ := wordCI 0x9#6 f
  refine of_pair rfl a ?_
  intro v hw
  have q0 := (codes_append hw).1
  have q0 := (List.append_eq_nil_iff.mp q0).1
  have q := mustBe_nil q0
  have p : f.imm.extractLsb' 13 2 = BitVec.ofNat 2 0 := field_eq _ _ (by
    simp only [beq_iff_eq] at q
    have := f.imm.isLt
    simp only [BitVec.extractLsb'_toNat, Nat.shiftRight_eq_div_pow] at q ⊢
    omega)
  delta decodeC
  rw [b, c, d, p]
  rfl
theorem bfxs (f : CI) : Statement (.bfxs f) := by
  obtain ⟨a, b, c, d, e⟩ := wordCI 0x9#6 f
  refine of_pair rfl a ?_
  intro v hw
  have q0 := (codes_append hw).1
  have q0 := (List.append_eq_nil_iff.mp q0).1
  have q := mustBe_nil q0
  have p : f.imm.extractLsb' 13 2 = BitVec.ofNat 2 1 := field_eq _ _ (by
    simp only [beq_iff_eq] at q
    have := f.imm.isLt
    simp only [BitVec.extractLsb'_toNat, Nat.shiftRight_eq_div_pow] at q ⊢
    omega)
  delta decodeC
  rw [b, c, d, p]
  rfl
theorem bfi (f : CI) : Statement (.bfi f) := by
  obtain ⟨a, b, c, d, e⟩ := wordCI 0x9#6 f
  refine of_pair rfl a ?_
  intro v hw
  have q0 := (codes_append hw).1
  have q0 := (List.append_eq_nil_iff.mp q0).1
  have q := mustBe_nil q0
  have p : f.imm.extractLsb' 13 2 = BitVec.ofNat 2 2 := field_eq _ _ (by
    simp only [beq_iff_eq] at q
    have := f.imm.isLt
    simp only [BitVec.extractLsb'_toNat, Nat.shiftRight_eq_div_pow] at q ⊢
    omega)
  delta decodeC
  rw [b, c, d, p]
  rfl
theorem lea (f : CI) : Statement (.lea f) := by
  obtain ⟨a, b, c, d, e⟩ := wordCI 0xA#6 f
  refine of_pair rfl a ?_
  intro v hw
  have q := mustBe_nil (List.isEmpty_iff.mp hw)
  have p : f.imm.extractLsb' 14 1 = BitVec.ofNat 1 0 := field_eq _ _ (by
    simp only [beq_iff_eq] at q
    have := f.imm.isLt
    simp only [BitVec.extractLsb'_toNat, Nat.shiftRight_eq_div_pow] at q ⊢
    omega)
  delta decodeC
  rw [b, c, e, p]
  rfl
theorem leaG (f : CI) : Statement (.leaG f) := by
  obtain ⟨a, b, c, d, e⟩ := wordCI 0xA#6 f
  refine of_pair rfl a ?_
  intro v hw
  have q := mustBe_nil (List.isEmpty_iff.mp hw)
  have p : f.imm.extractLsb' 14 1 = BitVec.ofNat 1 1 := field_eq _ _ (by
    simp only [beq_iff_eq] at q
    have := f.imm.isLt
    simp only [BitVec.extractLsb'_toNat, Nat.shiftRight_eq_div_pow] at q ⊢
    omega)
  delta decodeC
  rw [b, c, e, p]
  rfl
theorem crd (f : CI) : Statement (.crd f) := by
  obtain ⟨a, b, c, d, e⟩ := wordCI 0xB#6 f
  refine of_pair rfl a (fun _ _ => ?_)
  delta decodeC
  rw [b, c]
  rfl
theorem cwr (f : CI) : Statement (.cwr f) := by
  obtain ⟨a, b, c, d, e⟩ := wordCI 0xC#6 f
  refine of_pair rfl a (fun _ _ => ?_)
  delta decodeC
  rw [b, c]
  rfl
theorem beq (f : CB) : Statement (.beq f) := by
  obtain ⟨a, b, c⟩ := wordCB 0x10#6 f
  refine of_pair rfl a (fun _ _ => ?_)
  delta decodeC
  rw [b, c]
  rfl
theorem bne (f : CB) : Statement (.bne f) := by
  obtain ⟨a, b, c⟩ := wordCB 0x11#6 f
  refine of_pair rfl a (fun _ _ => ?_)
  delta decodeC
  rw [b, c]
  rfl
theorem blt (f : CB) : Statement (.blt f) := by
  obtain ⟨a, b, c⟩ := wordCB 0x12#6 f
  refine of_pair rfl a (fun _ _ => ?_)
  delta decodeC
  rw [b, c]
  rfl
theorem bge (f : CB) : Statement (.bge f) := by
  obtain ⟨a, b, c⟩ := wordCB 0x13#6 f
  refine of_pair rfl a (fun _ _ => ?_)
  delta decodeC
  rw [b, c]
  rfl
theorem bltu (f : CB) : Statement (.bltu f) := by
  obtain ⟨a, b, c⟩ := wordCB 0x14#6 f
  refine of_pair rfl a (fun _ _ => ?_)
  delta decodeC
  rw [b, c]
  rfl
theorem bgeu (f : CB) : Statement (.bgeu f) := by
  obtain ⟨a, b, c⟩ := wordCB 0x15#6 f
  refine of_pair rfl a (fun _ _ => ?_)
  delta decodeC
  rw [b, c]
  rfl
theorem jal (rd : BitVec 5) (off : BitVec 20) : Statement (.jal rd off) := by
  have key : ∀ lo n, fld (0#1 ++ 0x18#6 ++ rd ++ off) lo n = @BitVec.extractLsb' (1+6+5+20) lo n (0#1 ++ 0x18#6 ++ rd ++ off) := fun _ _ => rfl
  have a : fld (0#1 ++ 0x18#6 ++ rd ++ off) 31 1 = 0#1 := by
    rw [key, BitVec.extractLsb'_append_eq_of_le (by decide), BitVec.extractLsb'_append_eq_of_le (by decide)]
    rfl
  have b : fld (0#1 ++ 0x18#6 ++ rd ++ off) 25 6 = 0x18#6 := by
    rw [key, BitVec.extractLsb'_append_eq_of_le (by decide), BitVec.extractLsb'_append_eq_of_le (by decide)]
    rfl
  have c : fld (0#1 ++ 0x18#6 ++ rd ++ off) 20 5 = rd := by
    rw [key, BitVec.extractLsb'_append_eq_of_le (by decide), BitVec.extractLsb'_append_eq_of_add_le (by decide), self]
  have d : fld (0#1 ++ 0x18#6 ++ rd ++ off) 0 20 = off := by
    rw [key, BitVec.extractLsb'_append_eq_of_add_le (by decide), self]
  refine of_pair rfl a (fun _ _ => ?_)
  delta decodeC
  rw [b, c, d]
  rfl
theorem jalr (f : CI) : Statement (.jalr f) := by
  obtain ⟨a, b, c, d, e⟩ := wordCI 0x19#6 f
  refine of_pair rfl a (fun _ _ => ?_)
  delta decodeC
  rw [b, c]
  rfl
theorem loopOp (f : CB) : Statement (.loopOp f) := by
  obtain ⟨a, b, c⟩ := wordCB 0x1A#6 f
  refine of_pair rfl a (fun _ _ => ?_)
  delta decodeC
  rw [b, c]
  rfl
theorem hstart (f : CR) : Statement (.hstart f) := by
  obtain ⟨a, b, c, d, e⟩ := wordCR 0x1B#6 f 0#6
  refine of_pair rfl a (fun _ _ => ?_)
  have z : fld (eCR 0x1B#6 f 0#6) 0 10 = 0#10 := low_zero _ f
  delta decodeC
  rw [b, c, z]
  rfl
theorem hjoin (f : CR) : Statement (.hjoin f) := by
  obtain ⟨a, b, c, d, e⟩ := wordCR 0x1C#6 f 0#6
  refine of_pair rfl a (fun _ _ => ?_)
  have z : fld (eCR 0x1C#6 f 0#6) 0 10 = 0#10 := low_zero _ f
  delta decodeC
  rw [b, c, z]
  rfl
theorem hself (rd : BitVec 5) : Statement (.hself rd) := by
  obtain ⟨a, b, c, d, e, g⟩ := wordCS 0x1D#6 rd 0#5 0#10
  refine of_pair rfl a (fun _ _ => ?_)
  delta decodeC
  rw [b, c, d, e, g]
  rfl
theorem gwork (rd : BitVec 5) : Statement (.gwork rd) := by
  obtain ⟨a, b, c, d, e, g⟩ := wordCS 0x1D#6 rd 1#5 0#10
  refine of_pair rfl a (fun _ _ => ?_)
  delta decodeC
  rw [b, c, d, e, g]
  rfl
theorem grank (rd : BitVec 5) : Statement (.grank rd) := by
  obtain ⟨a, b, c, d, e, g⟩ := wordCS 0x1D#6 rd 2#5 0#10
  refine of_pair rfl a (fun _ _ => ?_)
  delta decodeC
  rw [b, c, d, e, g]
  rfl
theorem tid (rd : BitVec 5) : Statement (.tid rd) := by
  obtain ⟨a, b, c, d, e, g⟩ := wordCS 0x1D#6 rd 3#5 0#10
  refine of_pair rfl a (fun _ _ => ?_)
  delta decodeC
  rw [b, c, d, e, g]
  rfl
theorem clk (rd : BitVec 5) : Statement (.clk rd) := by
  obtain ⟨a, b, c, d, e, g⟩ := wordCS 0x1D#6 rd 4#5 0#10
  refine of_pair rfl a (fun _ _ => ?_)
  delta decodeC
  rw [b, c, d, e, g]
  rfl
theorem ldB (f : CM) : Statement (.ldB f) := by
  obtain ⟨a, b, c⟩ := wordCM 0x20#6 f
  refine of_pair rfl a (fun _ _ => ?_)
  delta decodeC
  rw [b, c]
  rfl
theorem ldBu (f : CM) : Statement (.ldBu f) := by
  obtain ⟨a, b, c⟩ := wordCM 0x21#6 f
  refine of_pair rfl a (fun _ _ => ?_)
  delta decodeC
  rw [b, c]
  rfl
theorem ldH (f : CM) : Statement (.ldH f) := by
  obtain ⟨a, b, c⟩ := wordCM 0x22#6 f
  refine of_pair rfl a (fun _ _ => ?_)
  delta decodeC
  rw [b, c]
  rfl
theorem ldHu (f : CM) : Statement (.ldHu f) := by
  obtain ⟨a, b, c⟩ := wordCM 0x23#6 f
  refine of_pair rfl a (fun _ _ => ?_)
  delta decodeC
  rw [b, c]
  rfl
theorem ldW (f : CM) : Statement (.ldW f) := by
  obtain ⟨a, b, c⟩ := wordCM 0x24#6 f
  refine of_pair rfl a (fun _ _ => ?_)
  delta decodeC
  rw [b, c]
  rfl
theorem ldWu (f : CM) : Statement (.ldWu f) := by
  obtain ⟨a, b, c⟩ := wordCM 0x25#6 f
  refine of_pair rfl a (fun _ _ => ?_)
  delta decodeC
  rw [b, c]
  rfl
theorem ldD (f : CM) : Statement (.ldD f) := by
  obtain ⟨a, b, c⟩ := wordCM 0x26#6 f
  refine of_pair rfl a (fun _ _ => ?_)
  delta decodeC
  rw [b, c]
  rfl
theorem stB (f : CM) : Statement (.stB f) := by
  obtain ⟨a, b, c⟩ := wordCM 0x28#6 f
  refine of_pair rfl a (fun _ _ => ?_)
  delta decodeC
  rw [b, c]
  rfl
theorem stH (f : CM) : Statement (.stH f) := by
  obtain ⟨a, b, c⟩ := wordCM 0x29#6 f
  refine of_pair rfl a (fun _ _ => ?_)
  delta decodeC
  rw [b, c]
  rfl
theorem stW (f : CM) : Statement (.stW f) := by
  obtain ⟨a, b, c⟩ := wordCM 0x2A#6 f
  refine of_pair rfl a (fun _ _ => ?_)
  delta decodeC
  rw [b, c]
  rfl
theorem stD (f : CM) : Statement (.stD f) := by
  obtain ⟨a, b, c⟩ := wordCM 0x2B#6 f
  refine of_pair rfl a (fun _ _ => ?_)
  delta decodeC
  rw [b, c]
  rfl
theorem vld (f : CM) : Statement (.vld f) := by
  obtain ⟨a, b, c⟩ := wordCM 0x2C#6 f
  refine of_pair rfl a (fun _ _ => ?_)
  delta decodeC
  rw [b, c]
  rfl
theorem vst (f : CM) : Statement (.vst f) := by
  obtain ⟨a, b, c⟩ := wordCM 0x2D#6 f
  refine of_pair rfl a (fun _ _ => ?_)
  delta decodeC
  rw [b, c]
  rfl
theorem amoAdd (f : CR) : Statement (.amoAdd f) := by
  obtain ⟨a, b, c, d, e⟩ := wordCR 0x30#6 f 0#6
  refine of_pair rfl a (fun _ _ => ?_)
  delta decodeC
  rw [b, c, d, e]
  rfl
theorem amoAnd (f : CR) : Statement (.amoAnd f) := by
  obtain ⟨a, b, c, d, e⟩ := wordCR 0x30#6 f 1#6
  refine of_pair rfl a (fun _ _ => ?_)
  delta decodeC
  rw [b, c, d, e]
  rfl
theorem amoOr (f : CR) : Statement (.amoOr f) := by
  obtain ⟨a, b, c, d, e⟩ := wordCR 0x30#6 f 2#6
  refine of_pair rfl a (fun _ _ => ?_)
  delta decodeC
  rw [b, c, d, e]
  rfl
theorem amoXor (f : CR) : Statement (.amoXor f) := by
  obtain ⟨a, b, c, d, e⟩ := wordCR 0x30#6 f 3#6
  refine of_pair rfl a (fun _ _ => ?_)
  delta decodeC
  rw [b, c, d, e]
  rfl
theorem amoMin (f : CR) : Statement (.amoMin f) := by
  obtain ⟨a, b, c, d, e⟩ := wordCR 0x30#6 f 4#6
  refine of_pair rfl a (fun _ _ => ?_)
  delta decodeC
  rw [b, c, d, e]
  rfl
theorem amoMax (f : CR) : Statement (.amoMax f) := by
  obtain ⟨a, b, c, d, e⟩ := wordCR 0x30#6 f 5#6
  refine of_pair rfl a (fun _ _ => ?_)
  delta decodeC
  rw [b, c, d, e]
  rfl
theorem amoMinu (f : CR) : Statement (.amoMinu f) := by
  obtain ⟨a, b, c, d, e⟩ := wordCR 0x30#6 f 6#6
  refine of_pair rfl a (fun _ _ => ?_)
  delta decodeC
  rw [b, c, d, e]
  rfl
theorem amoMaxu (f : CR) : Statement (.amoMaxu f) := by
  obtain ⟨a, b, c, d, e⟩ := wordCR 0x30#6 f 7#6
  refine of_pair rfl a (fun _ _ => ?_)
  delta decodeC
  rw [b, c, d, e]
  rfl
theorem amoSwap (f : CR) : Statement (.amoSwap f) := by
  obtain ⟨a, b, c, d, e⟩ := wordCR 0x30#6 f 8#6
  refine of_pair rfl a (fun _ _ => ?_)
  delta decodeC
  rw [b, c, d, e]
  rfl
theorem amocas (f : CR) : Statement (.amocas f) := by
  obtain ⟨a, b, c, d, e⟩ := wordCR 0x31#6 f 0#6
  refine of_pair rfl a (fun _ _ => ?_)
  have z : fld (eCR 0x31#6 f 0#6) 0 10 = 0#10 := low_zero _ f
  delta decodeC
  rw [b, c, z]
  rfl
theorem tkwait (kn : BitVec 3) : Statement (.tkwait kn) := by
  obtain ⟨a, b, _, _, _, _⟩ := wordCS 0x32#6 0#5 0#5 (0#7 ++ kn)
  have c : fld (eCS 0x32#6 0#5 0#5 (0#7 ++ kn)) 0 3 = kn := by revert kn; decide
  have d : fld (eCS 0x32#6 0#5 0#5 (0#7 ++ kn)) 15 10 = 0#10 := by revert kn; decide
  have e : fld (eCS 0x32#6 0#5 0#5 (0#7 ++ kn)) 3 12 = 0#12 := by revert kn; decide
  refine of_pair rfl a (fun _ _ => ?_)
  delta decodeC
  rw [b, c, d, e]
  rfl
theorem fenceOp (mask : BitVec 6) (scope : BitVec 3) : Statement (.fenceOp mask scope) := by
  have key : ∀ lo n, fld (0#1 ++ 0x33#6 ++ 0#5 ++ 0#5 ++ 0#6 ++ mask ++ scope) lo n = @BitVec.extractLsb' (1+6+5+5+6+6+3) lo n (0#1 ++ 0x33#6 ++ 0#5 ++ 0#5 ++ 0#6 ++ mask ++ scope) := fun _ _ => rfl
  have a : fld (0#1 ++ 0x33#6 ++ 0#5 ++ 0#5 ++ 0#6 ++ mask ++ scope) 31 1 = 0#1 := by
    rw [key]
    repeat first
      | rw [BitVec.extractLsb'_append_eq_of_le (by decide)]
      | rw [BitVec.extractLsb'_append_eq_of_add_le (by decide)]
    first
      | exact self _
      | rfl
  have b : fld (0#1 ++ 0x33#6 ++ 0#5 ++ 0#5 ++ 0#6 ++ mask ++ scope) 25 6 = 0x33#6 := by
    rw [key]
    repeat first
      | rw [BitVec.extractLsb'_append_eq_of_le (by decide)]
      | rw [BitVec.extractLsb'_append_eq_of_add_le (by decide)]
    first
      | exact self _
      | rfl
  have c : fld (0#1 ++ 0x33#6 ++ 0#5 ++ 0#5 ++ 0#6 ++ mask ++ scope) 3 6 = mask := by
    rw [key]
    repeat first
      | rw [BitVec.extractLsb'_append_eq_of_le (by decide)]
      | rw [BitVec.extractLsb'_append_eq_of_add_le (by decide)]
    first
      | exact self _
      | rfl
  have d : fld (0#1 ++ 0x33#6 ++ 0#5 ++ 0#5 ++ 0#6 ++ mask ++ scope) 0 3 = scope := by
    rw [key]
    repeat first
      | rw [BitVec.extractLsb'_append_eq_of_le (by decide)]
      | rw [BitVec.extractLsb'_append_eq_of_add_le (by decide)]
    first
      | exact self _
      | rfl
  have e : fld (0#1 ++ 0x33#6 ++ 0#5 ++ 0#5 ++ 0#6 ++ mask ++ scope) 15 10 = 0#10 := by
    rw [key]
    repeat first
      | rw [BitVec.extractLsb'_append_eq_of_le (by decide)]
      | rw [BitVec.extractLsb'_append_eq_of_add_le (by decide)]
    first
      | exact self _
      | rfl
  have g : fld (0#1 ++ 0x33#6 ++ 0#5 ++ 0#5 ++ 0#6 ++ mask ++ scope) 9 6 = 0#6 := by
    rw [key]
    repeat first
      | rw [BitVec.extractLsb'_append_eq_of_le (by decide)]
      | rw [BitVec.extractLsb'_append_eq_of_add_le (by decide)]
    first
      | exact self _
      | rfl
  refine of_pair rfl a (fun _ _ => ?_)
  delta decodeC
  rw [b, c, d, e, g]
  rfl
theorem barArrive (stat : Bool) : Statement (.barArrive stat) := by
  cases stat
  · exact of_pair rfl rfl (fun _ _ => rfl)
  · exact of_pair rfl rfl (fun _ _ => rfl)
theorem barWait (stat : Bool) : Statement (.barWait stat) := by
  cases stat
  · exact of_pair rfl rfl (fun _ _ => rfl)
  · exact of_pair rfl rfl (fun _ _ => rfl)
theorem barSync (stat : Bool) : Statement (.barSync stat) := by
  cases stat
  · exact of_pair rfl rfl (fun _ _ => rfl)
  · exact of_pair rfl rfl (fun _ _ => rfl)
theorem anop  : Statement (.anop) := by
  exact of_pairA rfl (fun _ _ => rfl)
theorem fadd (f : AF) : Statement (.fadd f) := by
  obtain ⟨b, c, d, e⟩ := wordAF f 0#4
  refine of_pairA rfl (fun _ _ => ?_)
  delta decodeA
  rw [b, c, d, e]
  rfl
theorem fsub (f : AF) : Statement (.fsub f) := by
  obtain ⟨b, c, d, e⟩ := wordAF f 1#4
  refine of_pairA rfl (fun _ _ => ?_)
  delta decodeA
  rw [b, c, d, e]
  rfl
theorem fmul (f : AF) : Statement (.fmul f) := by
  obtain ⟨b, c, d, e⟩ := wordAF f 2#4
  refine of_pairA rfl (fun _ _ => ?_)
  delta decodeA
  rw [b, c, d, e]
  rfl
theorem fma (f : AF) : Statement (.fma f) := by
  obtain ⟨b, c, d, e⟩ := wordAF f 3#4
  refine of_pairA rfl (fun _ _ => ?_)
  delta decodeA
  rw [b, c, d, e]
  rfl
theorem fmin (f : AF) : Statement (.fmin f) := by
  obtain ⟨b, c, d, e⟩ := wordAF f 4#4
  refine of_pairA rfl (fun _ _ => ?_)
  delta decodeA
  rw [b, c, d, e]
  rfl
theorem fmax (f : AF) : Statement (.fmax f) := by
  obtain ⟨b, c, d, e⟩ := wordAF f 5#4
  refine of_pairA rfl (fun _ _ => ?_)
  delta decodeA
  rw [b, c, d, e]
  rfl
theorem fabs (f : AF) : Statement (.fabs f) := by
  obtain ⟨b, c, d, e⟩ := wordAF f 6#4
  refine of_pairA rfl (fun _ _ => ?_)
  delta decodeA
  rw [b, c, d, e]
  rfl
theorem fneg (f : AF) : Statement (.fneg f) := by
  obtain ⟨b, c, d, e⟩ := wordAF f 7#4
  refine of_pairA rfl (fun _ _ => ?_)
  delta decodeA
  rw [b, c, d, e]
  rfl
theorem fcvt (f : AF) : Statement (.fcvt f) := by
  obtain ⟨b, c, d, e⟩ := wordAF f 8#4
  refine of_pairA rfl (fun _ _ => ?_)
  delta decodeA
  rw [b, c, d, e]
  rfl
theorem fcmp (f : AF) : Statement (.fcmp f) := by
  obtain ⟨b, c, d, e⟩ := wordAF f 9#4
  refine of_pairA rfl (fun _ _ => ?_)
  delta decodeA
  rw [b, c, d, e]
  rfl
theorem vadd (f : AV) : Statement (.vadd f) := by
  obtain ⟨b, c, e⟩ := wordAV 0x4#6 f 0#4
  refine of_pairA rfl (fun _ _ => ?_)
  delta decodeA
  rw [b, c, e]
  rfl
theorem vsub (f : AV) : Statement (.vsub f) := by
  obtain ⟨b, c, e⟩ := wordAV 0x5#6 f 0#4
  refine of_pairA rfl (fun _ _ => ?_)
  delta decodeA
  rw [b, c, e]
  rfl
theorem vmul (f : AV) : Statement (.vmul f) := by
  obtain ⟨b, c, e⟩ := wordAV 0x6#6 f 0#4
  refine of_pairA rfl (fun _ _ => ?_)
  delta decodeA
  rw [b, c, e]
  rfl
theorem vfma (f : AV) : Statement (.vfma f) := by
  obtain ⟨b, c, e⟩ := wordAV 0x7#6 f 0#4
  refine of_pairA rfl (fun _ _ => ?_)
  delta decodeA
  rw [b, c, e]
  rfl
theorem vfms (f : AV) : Statement (.vfms f) := by
  obtain ⟨b, c, e⟩ := wordAV 0x8#6 f 0#4
  refine of_pairA rfl (fun _ _ => ?_)
  delta decodeA
  rw [b, c, e]
  rfl
theorem vnfma (f : AV) : Statement (.vnfma f) := by
  obtain ⟨b, c, e⟩ := wordAV 0x9#6 f 0#4
  refine of_pairA rfl (fun _ _ => ?_)
  delta decodeA
  rw [b, c, e]
  rfl
theorem vmin (f : AV) : Statement (.vmin f) := by
  obtain ⟨b, c, e⟩ := wordAV 0xA#6 f 0#4
  refine of_pairA rfl (fun _ _ => ?_)
  delta decodeA
  rw [b, c, e]
  rfl
theorem vmax (f : AV) : Statement (.vmax f) := by
  obtain ⟨b, c, e⟩ := wordAV 0xB#6 f 0#4
  refine of_pairA rfl (fun _ _ => ?_)
  delta decodeA
  rw [b, c, e]
  rfl
theorem vabs (f : AV) : Statement (.vabs f) := by
  obtain ⟨b, c, e⟩ := wordAV 0xC#6 f 0#4
  refine of_pairA rfl (fun _ _ => ?_)
  delta decodeA
  rw [b, c, e]
  rfl
theorem vneg (f : AV) : Statement (.vneg f) := by
  obtain ⟨b, c, e⟩ := wordAV 0xC#6 f 1#4
  refine of_pairA rfl (fun _ _ => ?_)
  delta decodeA
  rw [b, c, e]
  rfl
theorem vrcp (f : AV) : Statement (.vrcp f) := by
  obtain ⟨b, c, e⟩ := wordAV 0xD#6 f 0#4
  refine of_pairA rfl (fun _ _ => ?_)
  delta decodeA
  rw [b, c, e]
  rfl
theorem vrsq (f : AV) : Statement (.vrsq f) := by
  obtain ⟨b, c, e⟩ := wordAV 0xD#6 f 1#4
  refine of_pairA rfl (fun _ _ => ?_)
  delta decodeA
  rw [b, c, e]
  rfl
theorem vsqrt (f : AV) : Statement (.vsqrt f) := by
  obtain ⟨b, c, e⟩ := wordAV 0xD#6 f 2#4
  refine of_pairA rfl (fun _ _ => ?_)
  delta decodeA
  rw [b, c, e]
  rfl
theorem vexp2 (f : AV) : Statement (.vexp2 f) := by
  obtain ⟨b, c, e⟩ := wordAV 0xD#6 f 3#4
  refine of_pairA rfl (fun _ _ => ?_)
  delta decodeA
  rw [b, c, e]
  rfl
theorem vlog2 (f : AV) : Statement (.vlog2 f) := by
  obtain ⟨b, c, e⟩ := wordAV 0xD#6 f 4#4
  refine of_pairA rfl (fun _ _ => ?_)
  delta decodeA
  rw [b, c, e]
  rfl
theorem vsin (f : AV) : Statement (.vsin f) := by
  obtain ⟨b, c, e⟩ := wordAV 0xD#6 f 5#4
  refine of_pairA rfl (fun _ _ => ?_)
  delta decodeA
  rw [b, c, e]
  rfl
theorem vcos (f : AV) : Statement (.vcos f) := by
  obtain ⟨b, c, e⟩ := wordAV 0xD#6 f 6#4
  refine of_pairA rfl (fun _ _ => ?_)
  delta decodeA
  rw [b, c, e]
  rfl
theorem vtanh (f : AV) : Statement (.vtanh f) := by
  obtain ⟨b, c, e⟩ := wordAV 0xD#6 f 7#4
  refine of_pairA rfl (fun _ _ => ?_)
  delta decodeA
  rw [b, c, e]
  rfl
theorem vcmp (f : AVF) : Statement (.vcmp f) := by
  obtain ⟨b, c, e⟩ := wordAVF 0xE#6 f
  refine of_pairA rfl ?_
  intro v hw
  have q0 := (codes_append hw).1
  have q0 := (List.append_eq_nil_iff.mp q0).1
  have q0 := (List.append_eq_nil_iff.mp q0).1
  have q := of_decide_eq_true (mustBe_nil q0)
  delta decodeA
  rw [b, c, e]
  exact if_pos q
theorem vsel (f : AV) : Statement (.vsel f) := by
  obtain ⟨b, c, e⟩ := wordAV 0xF#6 f 0#4
  refine of_pairA rfl (fun _ _ => ?_)
  delta decodeA
  rw [b, c, e]
  rfl
theorem vand (f : AV) : Statement (.vand f) := by
  obtain ⟨b, c, e⟩ := wordAV 0x10#6 f 0#4
  refine of_pairA rfl (fun _ _ => ?_)
  delta decodeA
  rw [b, c, e]
  rfl
theorem vor (f : AV) : Statement (.vor f) := by
  obtain ⟨b, c, e⟩ := wordAV 0x10#6 f 1#4
  refine of_pairA rfl (fun _ _ => ?_)
  delta decodeA
  rw [b, c, e]
  rfl
theorem vxor (f : AV) : Statement (.vxor f) := by
  obtain ⟨b, c, e⟩ := wordAV 0x10#6 f 2#4
  refine of_pairA rfl (fun _ _ => ?_)
  delta decodeA
  rw [b, c, e]
  rfl
theorem vnot (f : AV) : Statement (.vnot f) := by
  obtain ⟨b, c, e⟩ := wordAV 0x10#6 f 3#4
  refine of_pairA rfl (fun _ _ => ?_)
  delta decodeA
  rw [b, c, e]
  rfl
theorem vandn (f : AV) : Statement (.vandn f) := by
  obtain ⟨b, c, e⟩ := wordAV 0x10#6 f 4#4
  refine of_pairA rfl (fun _ _ => ?_)
  delta decodeA
  rw [b, c, e]
  rfl
theorem vshl (f : AV) : Statement (.vshl f) := by
  obtain ⟨b, c, e⟩ := wordAV 0x11#6 f 0#4
  refine of_pairA rfl (fun _ _ => ?_)
  delta decodeA
  rw [b, c, e]
  rfl
theorem vshr (f : AV) : Statement (.vshr f) := by
  obtain ⟨b, c, e⟩ := wordAV 0x11#6 f 1#4
  refine of_pairA rfl (fun _ _ => ?_)
  delta decodeA
  rw [b, c, e]
  rfl
theorem vsar (f : AV) : Statement (.vsar f) := by
  obtain ⟨b, c, e⟩ := wordAV 0x11#6 f 2#4
  refine of_pairA rfl (fun _ _ => ?_)
  delta decodeA
  rw [b, c, e]
  rfl
theorem vmulh (f : AV) : Statement (.vmulh f) := by
  obtain ⟨b, c, e⟩ := wordAV 0x12#6 f 0#4
  refine of_pairA rfl (fun _ _ => ?_)
  delta decodeA
  rw [b, c, e]
  rfl
theorem vmulhu (f : AV) : Statement (.vmulhu f) := by
  obtain ⟨b, c, e⟩ := wordAV 0x12#6 f 1#4
  refine of_pairA rfl (fun _ _ => ?_)
  delta decodeA
  rw [b, c, e]
  rfl
theorem vadds (f : AV) : Statement (.vadds f) := by
  obtain ⟨b, c, e⟩ := wordAV 0x13#6 f 0#4
  refine of_pairA rfl (fun _ _ => ?_)
  delta decodeA
  rw [b, c, e]
  rfl
theorem vsubs (f : AV) : Statement (.vsubs f) := by
  obtain ⟨b, c, e⟩ := wordAV 0x13#6 f 1#4
  refine of_pairA rfl (fun _ _ => ?_)
  delta decodeA
  rw [b, c, e]
  rfl
theorem vcvt (f : AVF) : Statement (.vcvt f) := by
  obtain ⟨b, c, _⟩ := wordAVF 0x14#6 f
  refine of_pairA rfl (fun _ _ => ?_)
  delta decodeA
  rw [b, c]
  rfl
theorem vqnt (f : AVF) : Statement (.vqnt f) := by
  obtain ⟨b, c, _⟩ := wordAVF 0x15#6 f
  refine of_pairA rfl (fun _ _ => ?_)
  delta decodeA
  rw [b, c]
  rfl
theorem vdeq (f : AVF) : Statement (.vdeq f) := by
  obtain ⟨b, c, _⟩ := wordAVF 0x16#6 f
  refine of_pairA rfl (fun _ _ => ?_)
  delta decodeA
  rw [b, c]
  rfl
theorem vperm (f : AV) : Statement (.vperm f) := by
  obtain ⟨b, c, e⟩ := wordAV 0x17#6 f 0#4
  refine of_pairA rfl (fun _ _ => ?_)
  delta decodeA
  rw [b, c, e]
  rfl
theorem vpermb (f : AV) : Statement (.vpermb f) := by
  obtain ⟨b, c, e⟩ := wordAV 0x17#6 f 1#4
  refine of_pairA rfl (fun _ _ => ?_)
  delta decodeA
  rw [b, c, e]
  rfl
theorem vnibLo (f : AV) : Statement (.vnibLo f) := by
  obtain ⟨b, c, e⟩ := wordAV 0x17#6 f 2#4
  refine of_pairA rfl (fun _ _ => ?_)
  delta decodeA
  rw [b, c, e]
  rfl
theorem vnibHi (f : AV) : Statement (.vnibHi f) := by
  obtain ⟨b, c, e⟩ := wordAV 0x17#6 f 3#4
  refine of_pairA rfl (fun _ _ => ?_)
  delta decodeA
  rw [b, c, e]
  rfl
theorem vzip (f : AV) : Statement (.vzip f) := by
  obtain ⟨b, c, e⟩ := wordAV 0x17#6 f 4#4
  refine of_pairA rfl (fun _ _ => ?_)
  delta decodeA
  rw [b, c, e]
  rfl
theorem vunzip (f : AV) : Statement (.vunzip f) := by
  obtain ⟨b, c, e⟩ := wordAV 0x17#6 f 5#4
  refine of_pairA rfl (fun _ _ => ?_)
  delta decodeA
  rw [b, c, e]
  rfl
theorem vslideup (f : AV) : Statement (.vslideup f) := by
  obtain ⟨b, c, e⟩ := wordAV 0x18#6 f 0#4
  refine of_pairA rfl (fun _ _ => ?_)
  delta decodeA
  rw [b, c, e]
  rfl
theorem vslidedn (f : AV) : Statement (.vslidedn f) := by
  obtain ⟨b, c, e⟩ := wordAV 0x18#6 f 1#4
  refine of_pairA rfl (fun _ _ => ?_)
  delta decodeA
  rw [b, c, e]
  rfl
theorem vbcast (f : AV) : Statement (.vbcast f) := by
  obtain ⟨b, c, e⟩ := wordAV 0x19#6 f 0#4
  refine of_pairA rfl (fun _ _ => ?_)
  delta decodeA
  rw [b, c, e]
  rfl
theorem vext (f : AV) : Statement (.vext f) := by
  obtain ⟨b, c, e⟩ := wordAV 0x19#6 f 1#4
  refine of_pairA rfl (fun _ _ => ?_)
  delta decodeA
  rw [b, c, e]
  rfl
theorem vins (f : AV) : Statement (.vins f) := by
  obtain ⟨b, c, e⟩ := wordAV 0x19#6 f 2#4
  refine of_pairA rfl (fun _ _ => ?_)
  delta decodeA
  rw [b, c, e]
  rfl
theorem vredAdd (f : AV) : Statement (.vredAdd f) := by
  obtain ⟨b, c, e⟩ := wordAV 0x1A#6 f 0#4
  refine of_pairA rfl (fun _ _ => ?_)
  delta decodeA
  rw [b, c, e]
  rfl
theorem vredMin (f : AV) : Statement (.vredMin f) := by
  obtain ⟨b, c, e⟩ := wordAV 0x1A#6 f 1#4
  refine of_pairA rfl (fun _ _ => ?_)
  delta decodeA
  rw [b, c, e]
  rfl
theorem vredMax (f : AV) : Statement (.vredMax f) := by
  obtain ⟨b, c, e⟩ := wordAV 0x1A#6 f 2#4
  refine of_pairA rfl (fun _ _ => ?_)
  delta decodeA
  rw [b, c, e]
  rfl
theorem vscanAdd (f : AV) : Statement (.vscanAdd f) := by
  obtain ⟨b, c, e⟩ := wordAV 0x1B#6 f 0#4
  refine of_pairA rfl (fun _ _ => ?_)
  delta decodeA
  rw [b, c, e]
  rfl
theorem vscanMin (f : AV) : Statement (.vscanMin f) := by
  obtain ⟨b, c, e⟩ := wordAV 0x1B#6 f 1#4
  refine of_pairA rfl (fun _ _ => ?_)
  delta decodeA
  rw [b, c, e]
  rfl
theorem vscanMax (f : AV) : Statement (.vscanMax f) := by
  obtain ⟨b, c, e⟩ := wordAV 0x1B#6 f 2#4
  refine of_pairA rfl (fun _ _ => ?_)
  delta decodeA
  rw [b, c, e]
  rfl
theorem vcompress (f : AV) : Statement (.vcompress f) := by
  obtain ⟨b, c, e⟩ := wordAV 0x1C#6 f 0#4
  refine of_pairA rfl (fun _ _ => ?_)
  delta decodeA
  rw [b, c, e]
  rfl
theorem vexpand (f : AV) : Statement (.vexpand f) := by
  obtain ⟨b, c, e⟩ := wordAV 0x1C#6 f 1#4
  refine of_pairA rfl (fun _ _ => ?_)
  delta decodeA
  rw [b, c, e]
  rfl
theorem viota (f : AV) : Statement (.viota f) := by
  obtain ⟨b, c, e⟩ := wordAV 0x1D#6 f 0#4
  refine of_pairA rfl (fun _ _ => ?_)
  delta decodeA
  rw [b, c, e]
  rfl
theorem vclass (f : AV) : Statement (.vclass f) := by
  obtain ⟨b, c, e⟩ := wordAV 0x1D#6 f 1#4
  refine of_pairA rfl (fun _ _ => ?_)
  delta decodeA
  rw [b, c, e]
  rfl
theorem mand (f : AM) : Statement (.mand f) := by
  obtain ⟨b, c, d, e⟩ := wordAM f 0#4
  refine of_pairA rfl (fun _ _ => ?_)
  delta decodeA
  rw [b, c, d, e]
  rfl
theorem mor (f : AM) : Statement (.mor f) := by
  obtain ⟨b, c, d, e⟩ := wordAM f 1#4
  refine of_pairA rfl (fun _ _ => ?_)
  delta decodeA
  rw [b, c, d, e]
  rfl
theorem mxor (f : AM) : Statement (.mxor f) := by
  obtain ⟨b, c, d, e⟩ := wordAM f 2#4
  refine of_pairA rfl (fun _ _ => ?_)
  delta decodeA
  rw [b, c, d, e]
  rfl
theorem mnot (f : AM) : Statement (.mnot f) := by
  obtain ⟨b, c, d, e⟩ := wordAM f 3#4
  refine of_pairA rfl (fun _ _ => ?_)
  delta decodeA
  rw [b, c, d, e]
  rfl
theorem mandn (f : AM) : Statement (.mandn f) := by
  obtain ⟨b, c, d, e⟩ := wordAM f 4#4
  refine of_pairA rfl (fun _ _ => ?_)
  delta decodeA
  rw [b, c, d, e]
  rfl
theorem mmov (f : AM) : Statement (.mmov f) := by
  obtain ⟨b, c, d, e⟩ := wordAM f 5#4
  refine of_pairA rfl (fun _ _ => ?_)
  delta decodeA
  rw [b, c, d, e]
  rfl
theorem mfroms (f : AM) : Statement (.mfroms f) := by
  obtain ⟨b, c, d, e⟩ := wordAM f 6#4
  refine of_pairA rfl (fun _ _ => ?_)
  delta decodeA
  rw [b, c, d, e]
  rfl
theorem mtos (f : AM) : Statement (.mtos f) := by
  obtain ⟨b, c, d, e⟩ := wordAM f 7#4
  refine of_pairA rfl (fun _ _ => ?_)
  delta decodeA
  rw [b, c, d, e]
  rfl
theorem mpop (f : AM) : Statement (.mpop f) := by
  obtain ⟨b, c, d, e⟩ := wordAM f 8#4
  refine of_pairA rfl (fun _ _ => ?_)
  delta decodeA
  rw [b, c, d, e]
  rfl
theorem mfirst (f : AM) : Statement (.mfirst f) := by
  obtain ⟨b, c, d, e⟩ := wordAM f 9#4
  refine of_pairA rfl (fun _ _ => ?_)
  delta decodeA
  rw [b, c, d, e]
  rfl
theorem movi (rd : BitVec 5) (imm : BitVec 32) : Statement (.movi rd imm) := by
  obtain ⟨a, b, c, d⟩ := wordLI 0x0#7 rd
  refine of_lone (e := lowLI 0x0#7 rd) rfl a (fun _ _ => ?_)
  delta decodeL
  rw [b, c, d]
  rfl
theorem movhi (rd : BitVec 5) (imm : BitVec 32) : Statement (.movhi rd imm) := by
  obtain ⟨a, b, c, d⟩ := wordLI 0x1#7 rd
  refine of_lone (e := lowLI 0x1#7 rd) rfl a (fun _ _ => ?_)
  delta decodeL
  rw [b, c, d]
  rfl
theorem sel (f : EX) : Statement (.sel f) := by
  obtain ⟨a, b, c, d, e⟩ := wordEX 0x2#7 f
  refine of_lone (e := lowEX 0x2#7 f) rfl a (fun _ _ => ?_)
  delta decodeL
  rw [b, c]
  rfl
theorem ldO (f : LM) : Statement (.ldO f) := by
  obtain ⟨a, b, c⟩ := wordLM 0x8#7 f
  refine of_lone (e := lowLM 0x8#7 f) rfl a (fun _ _ => ?_)
  delta decodeL
  rw [b, c]
  rfl
theorem stO (f : LM) : Statement (.stO f) := by
  obtain ⟨a, b, c⟩ := wordLM 0x9#7 f
  refine of_lone (e := lowLM 0x9#7 f) rfl a (fun _ _ => ?_)
  delta decodeL
  rw [b, c]
  rfl
theorem vldO (f : LM) : Statement (.vldO f) := by
  obtain ⟨a, b, c⟩ := wordLM 0xA#7 f
  refine of_lone (e := lowLM 0xA#7 f) rfl a (fun _ _ => ?_)
  delta decodeL
  rw [b, c]
  rfl
theorem vstO (f : LM) : Statement (.vstO f) := by
  obtain ⟨a, b, c⟩ := wordLM 0xB#7 f
  refine of_lone (e := lowLM 0xB#7 f) rfl a (fun _ _ => ?_)
  delta decodeL
  rw [b, c]
  rfl
theorem ldSnap (f : MX) : Statement (.ldSnap f) := by
  obtain ⟨a, b, c, d, e, g, _⟩ := wordMX 0xC#7 f 0#9
  refine of_lone (e := lowMX 0xC#7 f 0#9) (x := highMX f) rfl a (fun _ _ => ?_)
  delta decodeL
  rw [b, c, d]
  rfl
theorem vldSnap (f : MX) : Statement (.vldSnap f) := by
  obtain ⟨a, b, c, d, e, g, _⟩ := wordMX 0xD#7 f 0#9
  refine of_lone (e := lowMX 0xD#7 f 0#9) (x := highMX f) rfl a (fun _ _ => ?_)
  delta decodeL
  rw [b, c, d]
  rfl
theorem ldFe (f : MX) : Statement (.ldFe f) := by
  obtain ⟨a, b, c, d, e, g, _⟩ := wordMX 0xE#7 f 0#9
  refine of_lone (e := lowMX 0xE#7 f 0#9) (x := highMX f) rfl a (fun _ _ => ?_)
  delta decodeL
  rw [b, c, e, g]
  rfl
theorem ldFeClr (f : MX) : Statement (.ldFeClr f) := by
  obtain ⟨a, b, c, d, e, g, _⟩ := wordMX 0xE#7 f 1#9
  refine of_lone (e := lowMX 0xE#7 f 1#9) (x := highMX f) rfl a (fun _ _ => ?_)
  delta decodeL
  rw [b, c, e, g]
  rfl
theorem vldFe (f : MX) : Statement (.vldFe f) := by
  obtain ⟨a, b, c, d, e, g, _⟩ := wordMX 0x10#7 f 0#9
  refine of_lone (e := lowMX 0x10#7 f 0#9) (x := highMX f) rfl a (fun _ _ => ?_)
  delta decodeL
  rw [b, c, e, g]
  rfl
theorem vldFeClr (f : MX) : Statement (.vldFeClr f) := by
  obtain ⟨a, b, c, d, e, g, _⟩ := wordMX 0x10#7 f 1#9
  refine of_lone (e := lowMX 0x10#7 f 1#9) (x := highMX f) rfl a (fun _ _ => ?_)
  delta decodeL
  rw [b, c, e, g]
  rfl
theorem stFe (f : MX) : Statement (.stFe f) := by
  obtain ⟨a, b, c, d, e, g, _⟩ := wordMX 0xF#7 f 0#9
  refine of_lone (e := lowMX 0xF#7 f 0#9) (x := highMX f) rfl a (fun _ _ => ?_)
  delta decodeL
  rw [b, c, d]
  rfl
theorem vstFe (f : MX) : Statement (.vstFe f) := by
  obtain ⟨a, b, c, d, e, g, _⟩ := wordMX 0x11#7 f 0#9
  refine of_lone (e := lowMX 0x11#7 f 0#9) (x := highMX f) rfl a (fun _ _ => ?_)
  delta decodeL
  rw [b, c, d]
  rfl
theorem vldx (f : MX) : Statement (.vldx f) := by
  obtain ⟨a, b, c, d, e, g, _⟩ := wordMX 0x12#7 f 0#9
  refine of_lone (e := lowMX 0x12#7 f 0#9) (x := highMX f) rfl a (fun _ _ => ?_)
  delta decodeL
  rw [b, c, d]
  rfl
theorem vstx (f : MX) : Statement (.vstx f) := by
  obtain ⟨a, b, c, d, e, g, _⟩ := wordMX 0x13#7 f 0#9
  refine of_lone (e := lowMX 0x13#7 f 0#9) (x := highMX f) rfl a (fun _ _ => ?_)
  delta decodeL
  rw [b, c, d]
  rfl
theorem vlds (f : MX) : Statement (.vlds f) := by
  obtain ⟨a, b, c, d, e, g, _⟩ := wordMX 0x14#7 f 0#9
  refine of_lone (e := lowMX 0x14#7 f 0#9) (x := highMX f) rfl a (fun _ _ => ?_)
  delta decodeL
  rw [b, c, d]
  rfl
theorem vsts (f : MX) : Statement (.vsts f) := by
  obtain ⟨a, b, c, d, e, g, _⟩ := wordMX 0x15#7 f 0#9
  refine of_lone (e := lowMX 0x15#7 f 0#9) (x := highMX f) rfl a (fun _ _ => ?_)
  delta decodeL
  rw [b, c, d]
  rfl
theorem pref (f : LM) : Statement (.pref f) := by
  obtain ⟨a, b, c⟩ := wordLM 0x16#7 f
  refine of_lone (e := lowLM 0x16#7 f) rfl a (fun _ _ => ?_)
  delta decodeL
  rw [b, c]
  rfl
theorem cacheClean (f : MXC) : Statement (.cacheClean f) := by
  obtain ⟨m, port, icache⟩ := f
  obtain ⟨a, b, c, d, e, g, h, i, j, k⟩ := wordMX 0x17#7 m (0#5 ++ (if icache then 1#1 else 0#1) ++ (if port then 1#1 else 0#1) ++ 0#2)
  refine of_lone (e := lowMX 0x17#7 m (0#5 ++ (if icache then 1#1 else 0#1) ++ (if port then 1#1 else 0#1) ++ 0#2)) (x := highMX m) rfl a (fun _ _ => ?_)
  delta decodeL fMXC
  rw [b, c, h, i, j, k]
  cases icache <;> cases port <;> rfl
theorem cacheInv (f : MXC) : Statement (.cacheInv f) := by
  obtain ⟨m, port, icache⟩ := f
  obtain ⟨a, b, c, d, e, g, h, i, j, k⟩ := wordMX 0x17#7 m (0#5 ++ (if icache then 1#1 else 0#1) ++ (if port then 1#1 else 0#1) ++ 1#2)
  refine of_lone (e := lowMX 0x17#7 m (0#5 ++ (if icache then 1#1 else 0#1) ++ (if port then 1#1 else 0#1) ++ 1#2)) (x := highMX m) rfl a (fun _ _ => ?_)
  delta decodeL fMXC
  rw [b, c, h, i, j, k]
  cases icache <;> cases port <;> rfl
theorem cacheFlush (f : MXC) : Statement (.cacheFlush f) := by
  obtain ⟨m, port, icache⟩ := f
  obtain ⟨a, b, c, d, e, g, h, i, j, k⟩ := wordMX 0x17#7 m (0#5 ++ (if icache then 1#1 else 0#1) ++ (if port then 1#1 else 0#1) ++ 2#2)
  refine of_lone (e := lowMX 0x17#7 m (0#5 ++ (if icache then 1#1 else 0#1) ++ (if port then 1#1 else 0#1) ++ 2#2)) (x := highMX m) rfl a (fun _ _ => ?_)
  delta decodeL fMXC
  rw [b, c, h, i, j, k]
  cases icache <;> cases port <;> rfl
theorem amoSAdd (f : MX) : Statement (.amoSAdd f) := by
  obtain ⟨a, b, c, d, e, g, _⟩ := wordMX 0x18#7 f 0#9
  refine of_lone (e := lowMX 0x18#7 f 0#9) (x := highMX f) rfl a (fun _ _ => ?_)
  delta decodeL
  rw [b, c, d]
  rfl
theorem amoSAnd (f : MX) : Statement (.amoSAnd f) := by
  obtain ⟨a, b, c, d, e, g, _⟩ := wordMX 0x18#7 f 1#9
  refine of_lone (e := lowMX 0x18#7 f 1#9) (x := highMX f) rfl a (fun _ _ => ?_)
  delta decodeL
  rw [b, c, d]
  rfl
theorem amoSOr (f : MX) : Statement (.amoSOr f) := by
  obtain ⟨a, b, c, d, e, g, _⟩ := wordMX 0x18#7 f 2#9
  refine of_lone (e := lowMX 0x18#7 f 2#9) (x := highMX f) rfl a (fun _ _ => ?_)
  delta decodeL
  rw [b, c, d]
  rfl
theorem amoSXor (f : MX) : Statement (.amoSXor f) := by
  obtain ⟨a, b, c, d, e, g, _⟩ := wordMX 0x18#7 f 3#9
  refine of_lone (e := lowMX 0x18#7 f 3#9) (x := highMX f) rfl a (fun _ _ => ?_)
  delta decodeL
  rw [b, c, d]
  rfl
theorem amoSMin (f : MX) : Statement (.amoSMin f) := by
  obtain ⟨a, b, c, d, e, g, _⟩ := wordMX 0x18#7 f 4#9
  refine of_lone (e := lowMX 0x18#7 f 4#9) (x := highMX f) rfl a (fun _ _ => ?_)
  delta decodeL
  rw [b, c, d]
  rfl
theorem amoSMax (f : MX) : Statement (.amoSMax f) := by
  obtain ⟨a, b, c, d, e, g, _⟩ := wordMX 0x18#7 f 5#9
  refine of_lone (e := lowMX 0x18#7 f 5#9) (x := highMX f) rfl a (fun _ _ => ?_)
  delta decodeL
  rw [b, c, d]
  rfl
theorem amoSMinu (f : MX) : Statement (.amoSMinu f) := by
  obtain ⟨a, b, c, d, e, g, _⟩ := wordMX 0x18#7 f 6#9
  refine of_lone (e := lowMX 0x18#7 f 6#9) (x := highMX f) rfl a (fun _ _ => ?_)
  delta decodeL
  rw [b, c, d]
  rfl
theorem amoSMaxu (f : MX) : Statement (.amoSMaxu f) := by
  obtain ⟨a, b, c, d, e, g, _⟩ := wordMX 0x18#7 f 7#9
  refine of_lone (e := lowMX 0x18#7 f 7#9) (x := highMX f) rfl a (fun _ _ => ?_)
  delta decodeL
  rw [b, c, d]
  rfl
theorem amoSSwap (f : MX) : Statement (.amoSSwap f) := by
  obtain ⟨a, b, c, d, e, g, _⟩ := wordMX 0x18#7 f 8#9
  refine of_lone (e := lowMX 0x18#7 f 8#9) (x := highMX f) rfl a (fun _ _ => ?_)
  delta decodeL
  rw [b, c, d]
  rfl
theorem amocasS (f : MX) : Statement (.amocasS f) := by
  obtain ⟨a, b, c, d, e, g, _⟩ := wordMX 0x19#7 f 0#9
  refine of_lone (e := lowMX 0x19#7 f 0#9) (x := highMX f) rfl a (fun _ _ => ?_)
  delta decodeL
  rw [b, c, d]
  rfl
theorem famoAddF32 (f : MX) : Statement (.famoAddF32 f) := by
  obtain ⟨a, b, c, d, e, g, _⟩ := wordMX 0x1A#7 f 0#9
  refine of_lone (e := lowMX 0x1A#7 f 0#9) (x := highMX f) rfl a (fun _ _ => ?_)
  delta decodeL
  rw [b, c, d]
  rfl
theorem famoAddBf16x2 (f : MX) : Statement (.famoAddBf16x2 f) := by
  obtain ⟨a, b, c, d, e, g, _⟩ := wordMX 0x1A#7 f 1#9
  refine of_lone (e := lowMX 0x1A#7 f 1#9) (x := highMX f) rfl a (fun _ _ => ?_)
  delta decodeL
  rw [b, c, d]
  rfl
theorem vamoAdd (f : MX) : Statement (.vamoAdd f) := by
  obtain ⟨a, b, c, d, e, g, _⟩ := wordMX 0x1B#7 f 0#9
  refine of_lone (e := lowMX 0x1B#7 f 0#9) (x := highMX f) rfl a (fun _ _ => ?_)
  delta decodeL
  rw [b, c, d]
  rfl
theorem vamoAnd (f : MX) : Statement (.vamoAnd f) := by
  obtain ⟨a, b, c, d, e, g, _⟩ := wordMX 0x1B#7 f 1#9
  refine of_lone (e := lowMX 0x1B#7 f 1#9) (x := highMX f) rfl a (fun _ _ => ?_)
  delta decodeL
  rw [b, c, d]
  rfl
theorem vamoOr (f : MX) : Statement (.vamoOr f) := by
  obtain ⟨a, b, c, d, e, g, _⟩ := wordMX 0x1B#7 f 2#9
  refine of_lone (e := lowMX 0x1B#7 f 2#9) (x := highMX f) rfl a (fun _ _ => ?_)
  delta decodeL
  rw [b, c, d]
  rfl
theorem vamoXor (f : MX) : Statement (.vamoXor f) := by
  obtain ⟨a, b, c, d, e, g, _⟩ := wordMX 0x1B#7 f 3#9
  refine of_lone (e := lowMX 0x1B#7 f 3#9) (x := highMX f) rfl a (fun _ _ => ?_)
  delta decodeL
  rw [b, c, d]
  rfl
theorem vamoMin (f : MX) : Statement (.vamoMin f) := by
  obtain ⟨a, b, c, d, e, g, _⟩ := wordMX 0x1B#7 f 4#9
  refine of_lone (e := lowMX 0x1B#7 f 4#9) (x := highMX f) rfl a (fun _ _ => ?_)
  delta decodeL
  rw [b, c, d]
  rfl
theorem vamoMax (f : MX) : Statement (.vamoMax f) := by
  obtain ⟨a, b, c, d, e, g, _⟩ := wordMX 0x1B#7 f 5#9
  refine of_lone (e := lowMX 0x1B#7 f 5#9) (x := highMX f) rfl a (fun _ _ => ?_)
  delta decodeL
  rw [b, c, d]
  rfl
theorem vamoMinu (f : MX) : Statement (.vamoMinu f) := by
  obtain ⟨a, b, c, d, e, g, _⟩ := wordMX 0x1B#7 f 6#9
  refine of_lone (e := lowMX 0x1B#7 f 6#9) (x := highMX f) rfl a (fun _ _ => ?_)
  delta decodeL
  rw [b, c, d]
  rfl
theorem vamoMaxu (f : MX) : Statement (.vamoMaxu f) := by
  obtain ⟨a, b, c, d, e, g, _⟩ := wordMX 0x1B#7 f 7#9
  refine of_lone (e := lowMX 0x1B#7 f 7#9) (x := highMX f) rfl a (fun _ _ => ?_)
  delta decodeL
  rw [b, c, d]
  rfl
theorem vamoSwap (f : MX) : Statement (.vamoSwap f) := by
  obtain ⟨a, b, c, d, e, g, _⟩ := wordMX 0x1B#7 f 8#9
  refine of_lone (e := lowMX 0x1B#7 f 8#9) (x := highMX f) rfl a (fun _ _ => ?_)
  delta decodeL
  rw [b, c, d]
  rfl
theorem evsig (f : EX) : Statement (.evsig f) := by
  obtain ⟨a, b, c, d, e⟩ := wordEX 0x20#7 f
  refine of_lone (e := lowEX 0x20#7 f) rfl a (fun _ _ => ?_)
  delta decodeL
  rw [b, c]
  rfl
theorem evwait (f : EX) : Statement (.evwait f) := by
  obtain ⟨a, b, c, d, e⟩ := wordEX 0x21#7 f
  refine of_lone (e := lowEX 0x21#7 f) rfl a (fun _ _ => ?_)
  delta decodeL
  rw [b, c]
  rfl
theorem evpost (f : EX) : Statement (.evpost f) := by
  obtain ⟨a, b, c, d, e⟩ := wordEX 0x22#7 f
  refine of_lone (e := lowEX 0x22#7 f) rfl a (fun _ _ => ?_)
  delta decodeL
  rw [b, c]
  rfl
theorem evq (f : EX) : Statement (.evq f) := by
  obtain ⟨a, b, c, d, e⟩ := wordEX 0x23#7 f
  refine of_lone (e := lowEX 0x23#7 f) rfl a ?_
  intro v hw
  have q := mustBe_nil (codes_append hw).2
  have p : f.fn9.extractLsb' 0 1 = BitVec.ofNat 1 0 := field_eq _ _ (by
    simp only [beq_iff_eq] at q
    have := f.fn9.isLt
    simp only [BitVec.extractLsb'_toNat, Nat.shiftRight_eq_div_pow] at q ⊢
    omega)
  delta decodeL
  rw [b, c, d, p]
  rfl
theorem evqClr (f : EX) : Statement (.evqClr f) := by
  obtain ⟨a, b, c, d, e⟩ := wordEX 0x23#7 f
  refine of_lone (e := lowEX 0x23#7 f) rfl a ?_
  intro v hw
  have q := mustBe_nil (codes_append hw).2
  have p : f.fn9.extractLsb' 0 1 = BitVec.ofNat 1 1 := field_eq _ _ (by
    simp only [beq_iff_eq] at q
    have := f.fn9.isLt
    simp only [BitVec.extractLsb'_toNat, Nat.shiftRight_eq_div_pow] at q ⊢
    omega)
  delta decodeL
  rw [b, c, d, p]
  rfl
theorem snap (f : EX) : Statement (.snap f) := by
  obtain ⟨a, b, c, d, e⟩ := wordEX 0x24#7 f
  refine of_lone (e := lowEX 0x24#7 f) rfl a (fun _ _ => ?_)
  delta decodeL
  rw [b, c]
  rfl
theorem snaprel (f : EX) : Statement (.snaprel f) := by
  obtain ⟨a, b, c, d, e⟩ := wordEX 0x25#7 f
  refine of_lone (e := lowEX 0x25#7 f) rfl a (fun _ _ => ?_)
  delta decodeL
  rw [b, c]
  rfl
theorem txbegin (f : EX) : Statement (.txbegin f) := by
  obtain ⟨a, b, c, d, e⟩ := wordEX 0x26#7 f
  refine of_lone (e := lowEX 0x26#7 f) rfl a (fun _ _ => ?_)
  delta decodeL
  rw [b, c]
  rfl
theorem txcommit (f : EX) : Statement (.txcommit f) := by
  obtain ⟨a, b, c, d, e⟩ := wordEX 0x27#7 f
  refine of_lone (e := lowEX 0x27#7 f) rfl a (fun _ _ => ?_)
  delta decodeL
  rw [b, c]
  rfl
theorem txabort (f : EX) : Statement (.txabort f) := by
  obtain ⟨a, b, c, d, e⟩ := wordEX 0x28#7 f
  refine of_lone (e := lowEX 0x28#7 f) rfl a (fun _ _ => ?_)
  delta decodeL
  rw [b, c]
  rfl
theorem txstat (f : EX) : Statement (.txstat f) := by
  obtain ⟨a, b, c, d, e⟩ := wordEX 0x29#7 f
  refine of_lone (e := lowEX 0x29#7 f) rfl a (fun _ _ => ?_)
  delta decodeL
  rw [b, c]
  rfl
theorem spmap (f : EX) : Statement (.spmap f) := by
  obtain ⟨a, b, c, d, e⟩ := wordEX 0x30#7 f
  refine of_lone (e := lowEX 0x30#7 f) rfl a (fun _ _ => ?_)
  delta decodeL
  rw [b, c]
  rfl
theorem spunmap (f : EX) : Statement (.spunmap f) := by
  obtain ⟨a, b, c, d, e⟩ := wordEX 0x31#7 f
  refine of_lone (e := lowEX 0x31#7 f) rfl a (fun _ _ => ?_)
  delta decodeL
  rw [b, c]
  rfl
theorem sppin (f : EX) : Statement (.sppin f) := by
  obtain ⟨a, b, c, d, e⟩ := wordEX 0x32#7 f
  refine of_lone (e := lowEX 0x32#7 f) rfl a (fun _ _ => ?_)
  delta decodeL
  rw [b, c]
  rfl
theorem spunpin (f : EX) : Statement (.spunpin f) := by
  obtain ⟨a, b, c, d, e⟩ := wordEX 0x33#7 f
  refine of_lone (e := lowEX 0x33#7 f) rfl a (fun _ _ => ?_)
  delta decodeL
  rw [b, c]
  rfl
theorem spfmt (f : EX) : Statement (.spfmt f) := by
  obtain ⟨a, b, c, d, e⟩ := wordEX 0x34#7 f
  refine of_lone (e := lowEX 0x34#7 f) rfl a (fun _ _ => ?_)
  delta decodeL
  rw [b, c]
  rfl
theorem spmigRes (f : EX) : Statement (.spmigRes f) := by
  obtain ⟨a, b, c, d, e⟩ := wordEX 0x35#7 f
  refine of_lone (e := lowEX 0x35#7 f) rfl a ?_
  intro v hw
  have q := mustBe_nil (codes_append hw).2
  have p : f.fn9.extractLsb' 0 2 = BitVec.ofNat 2 0 := field_eq _ _ (by
    simp only [beq_iff_eq] at q
    have := f.fn9.isLt
    simp only [BitVec.extractLsb'_toNat, Nat.shiftRight_eq_div_pow] at q ⊢
    omega)
  delta decodeL
  rw [b, c, e, p]
  rfl
theorem spmigPold (f : EX) : Statement (.spmigPold f) := by
  obtain ⟨a, b, c, d, e⟩ := wordEX 0x35#7 f
  refine of_lone (e := lowEX 0x35#7 f) rfl a ?_
  intro v hw
  have q := mustBe_nil (codes_append hw).2
  have p : f.fn9.extractLsb' 0 2 = BitVec.ofNat 2 1 := field_eq _ _ (by
    simp only [beq_iff_eq] at q
    have := f.fn9.isLt
    simp only [BitVec.extractLsb'_toNat, Nat.shiftRight_eq_div_pow] at q ⊢
    omega)
  delta decodeL
  rw [b, c, e, p]
  rfl
theorem spmigHbm (f : EX) : Statement (.spmigHbm f) := by
  obtain ⟨a, b, c, d, e⟩ := wordEX 0x35#7 f
  refine of_lone (e := lowEX 0x35#7 f) rfl a ?_
  intro v hw
  have q := mustBe_nil (codes_append hw).2
  have p : f.fn9.extractLsb' 0 2 = BitVec.ofNat 2 2 := field_eq _ _ (by
    simp only [beq_iff_eq] at q
    have := f.fn9.isLt
    simp only [BitVec.extractLsb'_toNat, Nat.shiftRight_eq_div_pow] at q ⊢
    omega)
  delta decodeL
  rw [b, c, e, p]
  rfl
theorem mma (f : EX) : Statement (.mma f) := by
  obtain ⟨a, b, c, d, e⟩ := wordEX 0x38#7 f
  refine of_lone (e := lowEX 0x38#7 f) rfl a (fun _ _ => ?_)
  delta decodeL
  rw [b, c]
  rfl
theorem mmaMask (f : EX) : Statement (.mmaMask f) := by
  obtain ⟨a, b, c, d, e⟩ := wordEX 0x39#7 f
  refine of_lone (e := lowEX 0x39#7 f) rfl a ?_
  intro v hw
  have q := mustBe_nil (codes_append hw).2
  have p : f.fn9.extractLsb' 0 1 = BitVec.ofNat 1 0 := field_eq _ _ (by
    simp only [beq_iff_eq] at q
    have := f.fn9.isLt
    simp only [BitVec.extractLsb'_toNat, Nat.shiftRight_eq_div_pow] at q ⊢
    omega)
  delta decodeL
  rw [b, c, d, p]
  rfl
theorem mmaMaskFill (f : EX) : Statement (.mmaMaskFill f) := by
  obtain ⟨a, b, c, d, e⟩ := wordEX 0x39#7 f
  refine of_lone (e := lowEX 0x39#7 f) rfl a ?_
  intro v hw
  have q := mustBe_nil (codes_append hw).2
  have p : f.fn9.extractLsb' 0 1 = BitVec.ofNat 1 1 := field_eq _ _ (by
    simp only [beq_iff_eq] at q
    have := f.fn9.isLt
    simp only [BitVec.extractLsb'_toNat, Nat.shiftRight_eq_div_pow] at q ⊢
    omega)
  delta decodeL
  rw [b, c, d, p]
  rfl
theorem mzero (f : EX) : Statement (.mzero f) := by
  obtain ⟨a, b, c, d, e⟩ := wordEX 0x3A#7 f
  refine of_lone (e := lowEX 0x3A#7 f) rfl a (fun _ _ => ?_)
  delta decodeL
  rw [b, c]
  rfl
theorem mcvt (f : EX) : Statement (.mcvt f) := by
  obtain ⟨a, b, c, d, e⟩ := wordEX 0x3B#7 f
  refine of_lone (e := lowEX 0x3B#7 f) rfl a (fun _ _ => ?_)
  delta decodeL
  rw [b, c]
  rfl
theorem mtr (f : EX) : Statement (.mtr f) := by
  obtain ⟨a, b, c, d, e⟩ := wordEX 0x3C#7 f
  refine of_lone (e := lowEX 0x3C#7 f) rfl a (fun _ _ => ?_)
  delta decodeL
  rw [b, c]
  rfl
theorem mwait (f : EX) : Statement (.mwait f) := by
  obtain ⟨a, b, c, d, e⟩ := wordEX 0x3D#7 f
  refine of_lone (e := lowEX 0x3D#7 f) rfl a (fun _ _ => ?_)
  delta decodeL
  rw [b, c]
  rfl
theorem mscaleCol (f : EX) : Statement (.mscaleCol f) := by
  obtain ⟨a, b, c, d, e⟩ := wordEX 0x3E#7 f
  refine of_lone (e := lowEX 0x3E#7 f) rfl a ?_
  intro v hw
  have q := mustBe_nil (codes_append hw).2
  have p : f.fn9.extractLsb' 0 1 = BitVec.ofNat 1 0 := field_eq _ _ (by
    simp only [beq_iff_eq] at q
    have := f.fn9.isLt
    simp only [BitVec.extractLsb'_toNat, Nat.shiftRight_eq_div_pow] at q ⊢
    omega)
  delta decodeL
  rw [b, c, d, p]
  rfl
theorem mscaleRow (f : EX) : Statement (.mscaleRow f) := by
  obtain ⟨a, b, c, d, e⟩ := wordEX 0x3E#7 f
  refine of_lone (e := lowEX 0x3E#7 f) rfl a ?_
  intro v hw
  have q := mustBe_nil (codes_append hw).2
  have p : f.fn9.extractLsb' 0 1 = BitVec.ofNat 1 1 := field_eq _ _ (by
    simp only [beq_iff_eq] at q
    have := f.fn9.isLt
    simp only [BitVec.extractLsb'_toNat, Nat.shiftRight_eq_div_pow] at q ⊢
    omega)
  delta decodeL
  rw [b, c, d, p]
  rfl
theorem sbindIn (f : EX) : Statement (.sbindIn f) := by
  obtain ⟨a, b, c, d, e⟩ := wordEX 0x40#7 f
  refine of_lone (e := lowEX 0x40#7 f) rfl a ?_
  intro v hw
  have q := mustBe_nil (codes_append hw).2
  have p : f.fn9.extractLsb' 0 1 = BitVec.ofNat 1 0 := field_eq _ _ (by
    simp only [beq_iff_eq] at q
    have := f.fn9.isLt
    simp only [BitVec.extractLsb'_toNat, Nat.shiftRight_eq_div_pow] at q ⊢
    omega)
  delta decodeL
  rw [b, c, d, p]
  rfl
theorem sbindOut (f : EX) : Statement (.sbindOut f) := by
  obtain ⟨a, b, c, d, e⟩ := wordEX 0x40#7 f
  refine of_lone (e := lowEX 0x40#7 f) rfl a ?_
  intro v hw
  have q := mustBe_nil (codes_append hw).2
  have p : f.fn9.extractLsb' 0 1 = BitVec.ofNat 1 1 := field_eq _ _ (by
    simp only [beq_iff_eq] at q
    have := f.fn9.isLt
    simp only [BitVec.extractLsb'_toNat, Nat.shiftRight_eq_div_pow] at q ⊢
    omega)
  delta decodeL
  rw [b, c, d, p]
  rfl
theorem sgen (f : EX) : Statement (.sgen f) := by
  obtain ⟨a, b, c, d, e⟩ := wordEX 0x41#7 f
  refine of_lone (e := lowEX 0x41#7 f) rfl a (fun _ _ => ?_)
  delta decodeL
  rw [b, c]
  rfl
theorem sunbind (f : EX) : Statement (.sunbind f) := by
  obtain ⟨a, b, c, d, e⟩ := wordEX 0x42#7 f
  refine of_lone (e := lowEX 0x42#7 f) rfl a (fun _ _ => ?_)
  delta decodeL
  rw [b, c]
  rfl
theorem sstat (f : EX) : Statement (.sstat f) := by
  obtain ⟨a, b, c, d, e⟩ := wordEX 0x43#7 f
  refine of_lone (e := lowEX 0x43#7 f) rfl a (fun _ _ => ?_)
  delta decodeL
  rw [b, c]
  rfl
theorem bcopy (f : EX) : Statement (.bcopy f) := by
  obtain ⟨a, b, c, d, e⟩ := wordEX 0x48#7 f
  refine of_lone (e := lowEX 0x48#7 f) rfl a (fun _ _ => ?_)
  delta decodeL
  rw [b, c]
  rfl
theorem bcopyn (f : EX) : Statement (.bcopyn f) := by
  obtain ⟨a, b, c, d, e⟩ := wordEX 0x49#7 f
  refine of_lone (e := lowEX 0x49#7 f) rfl a (fun _ _ => ?_)
  delta decodeL
  rw [b, c]
  rfl
theorem bmcast (f : EX) : Statement (.bmcast f) := by
  obtain ⟨a, b, c, d, e⟩ := wordEX 0x4A#7 f
  refine of_lone (e := lowEX 0x4A#7 f) rfl a (fun _ _ => ?_)
  delta decodeL
  rw [b, c]
  rfl
theorem bfill (f : EX) : Statement (.bfill f) := by
  obtain ⟨a, b, c, d, e⟩ := wordEX 0x4B#7 f
  refine of_lone (e := lowEX 0x4B#7 f) rfl a (fun _ _ => ?_)
  delta decodeL
  rw [b, c]
  rfl
theorem bmig (f : EX) : Statement (.bmig f) := by
  obtain ⟨a, b, c, d, e⟩ := wordEX 0x4C#7 f
  refine of_lone (e := lowEX 0x4C#7 f) rfl a (fun _ _ => ?_)
  delta decodeL
  rw [b, c]
  rfl
theorem bpoll (f : EX) : Statement (.bpoll f) := by
  obtain ⟨a, b, c, d, e⟩ := wordEX 0x4D#7 f
  refine of_lone (e := lowEX 0x4D#7 f) rfl a (fun _ _ => ?_)
  delta decodeL
  rw [b, c]
  rfl
theorem bwait (f : EX) : Statement (.bwait f) := by
  obtain ⟨a, b, c, d, e⟩ := wordEX 0x4E#7 f
  refine of_lone (e := lowEX 0x4E#7 f) rfl a (fun _ _ => ?_)
  delta decodeL
  rw [b, c]
  rfl
theorem amsend (f : EX) : Statement (.amsend f) := by
  obtain ⟨a, b, c, d, e⟩ := wordEX 0x50#7 f
  refine of_lone (e := lowEX 0x50#7 f) rfl a (fun _ _ => ?_)
  delta decodeL
  rw [b, c]
  rfl
theorem amreply (f : EX) : Statement (.amreply f) := by
  obtain ⟨a, b, c, d, e⟩ := wordEX 0x51#7 f
  refine of_lone (e := lowEX 0x51#7 f) rfl a (fun _ _ => ?_)
  delta decodeL
  rw [b, c]
  rfl
theorem amhinst (f : EX) : Statement (.amhinst f) := by
  obtain ⟨a, b, c, d, e⟩ := wordEX 0x52#7 f
  refine of_lone (e := lowEX 0x52#7 f) rfl a (fun _ _ => ?_)
  delta decodeL
  rw [b, c]
  rfl
theorem redsend (f : EX) : Statement (.redsend f) := by
  obtain ⟨a, b, c, d, e⟩ := wordEX 0x53#7 f
  refine of_lone (e := lowEX 0x53#7 f) rfl a (fun _ _ => ?_)
  delta decodeL
  rw [b, c]
  rfl
theorem rtset (f : EX) : Statement (.rtset f) := by
  obtain ⟨a, b, c, d, e⟩ := wordEX 0x54#7 f
  refine of_lone (e := lowEX 0x54#7 f) rfl a (fun _ _ => ?_)
  delta decodeL
  rw [b, c]
  rfl
theorem slotset (f : EX) : Statement (.slotset f) := by
  obtain ⟨a, b, c, d, e⟩ := wordEX 0x55#7 f
  refine of_lone (e := lowEX 0x55#7 f) rfl a (fun _ _ => ?_)
  delta decodeL
  rw [b, c]
  rfl
theorem cfgtok (f : EX) : Statement (.cfgtok f) := by
  obtain ⟨a, b, c, d, e⟩ := wordEX 0x56#7 f
  refine of_lone (e := lowEX 0x56#7 f) rfl a (fun _ _ => ?_)
  delta decodeL
  rw [b, c]
  rfl
theorem stflush (f : EX) : Statement (.stflush f) := by
  obtain ⟨a, b, c, d, e⟩ := wordEX 0x57#7 f
  refine of_lone (e := lowEX 0x57#7 f) rfl a (fun _ _ => ?_)
  delta decodeL
  rw [b, c]
  rfl
theorem mbpost (f : EX) : Statement (.mbpost f) := by
  obtain ⟨a, b, c, d, e⟩ := wordEX 0x58#7 f
  refine of_lone (e := lowEX 0x58#7 f) rfl a (fun _ _ => ?_)
  delta decodeL
  rw [b, c]
  rfl
theorem mbrd (f : EX) : Statement (.mbrd f) := by
  obtain ⟨a, b, c, d, e⟩ := wordEX 0x59#7 f
  refine of_lone (e := lowEX 0x59#7 f) rfl a (fun _ _ => ?_)
  delta decodeL
  rw [b, c]
  rfl
theorem mbclr (f : EX) : Statement (.mbclr f) := by
  obtain ⟨a, b, c, d, e⟩ := wordEX 0x5A#7 f
  refine of_lone (e := lowEX 0x5A#7 f) rfl a (fun _ _ => ?_)
  delta decodeL
  rw [b, c]
  rfl
theorem steer (f : EX) : Statement (.steer f) := by
  obtain ⟨a, b, c, d, e⟩ := wordEX 0x5B#7 f
  refine of_lone (e := lowEX 0x5B#7 f) rfl a ?_
  intro v hw
  have q := mustBe_nil (codes_append hw).2
  have p : f.fn9.extractLsb' 0 1 = BitVec.ofNat 1 0 := field_eq _ _ (by
    simp only [beq_iff_eq] at q
    have := f.fn9.isLt
    simp only [BitVec.extractLsb'_toNat, Nat.shiftRight_eq_div_pow] at q ⊢
    omega)
  delta decodeL
  rw [b, c, d, p]
  rfl
theorem steerRet (f : EX) : Statement (.steerRet f) := by
  obtain ⟨a, b, c, d, e⟩ := wordEX 0x5B#7 f
  refine of_lone (e := lowEX 0x5B#7 f) rfl a ?_
  intro v hw
  have q := mustBe_nil (codes_append hw).2
  have p : f.fn9.extractLsb' 0 1 = BitVec.ofNat 1 1 := field_eq _ _ (by
    simp only [beq_iff_eq] at q
    have := f.fn9.isLt
    simp only [BitVec.extractLsb'_toNat, Nat.shiftRight_eq_div_pow] at q ⊢
    omega)
  delta decodeL
  rw [b, c, d, p]
  rfl
theorem mgrd (f : EX) : Statement (.mgrd f) := by
  obtain ⟨a, b, c, d, e⟩ := wordEX 0x5C#7 f
  refine of_lone (e := lowEX 0x5C#7 f) rfl a (fun _ _ => ?_)
  delta decodeL
  rw [b, c]
  rfl
theorem capclaim (f : EX) : Statement (.capclaim f) := by
  obtain ⟨a, b, c, d, e⟩ := wordEX 0x5D#7 f
  refine of_lone (e := lowEX 0x5D#7 f) rfl a ?_
  intro v hw
  have q := mustBe_nil (codes_append hw).2
  have p : f.fn9.extractLsb' 0 2 = BitVec.ofNat 2 0 := field_eq _ _ (by
    simp only [beq_iff_eq] at q
    have := f.fn9.isLt
    simp only [BitVec.extractLsb'_toNat, Nat.shiftRight_eq_div_pow] at q ⊢
    omega)
  delta decodeL
  rw [b, c, e, p]
  rfl
theorem capclaimEnd (f : EX) : Statement (.capclaimEnd f) := by
  obtain ⟨a, b, c, d, e⟩ := wordEX 0x5D#7 f
  refine of_lone (e := lowEX 0x5D#7 f) rfl a ?_
  intro v hw
  have q := mustBe_nil (codes_append hw).2
  have p : f.fn9.extractLsb' 0 2 = BitVec.ofNat 2 1 := field_eq _ _ (by
    simp only [beq_iff_eq] at q
    have := f.fn9.isLt
    simp only [BitVec.extractLsb'_toNat, Nat.shiftRight_eq_div_pow] at q ⊢
    omega)
  delta decodeL
  rw [b, c, e, p]
  rfl
theorem capclaimSet (f : EX) : Statement (.capclaimSet f) := by
  obtain ⟨a, b, c, d, e⟩ := wordEX 0x5D#7 f
  refine of_lone (e := lowEX 0x5D#7 f) rfl a ?_
  intro v hw
  have q := mustBe_nil (codes_append hw).2
  have p : f.fn9.extractLsb' 0 2 = BitVec.ofNat 2 2 := field_eq _ _ (by
    simp only [beq_iff_eq] at q
    have := f.fn9.isLt
    simp only [BitVec.extractLsb'_toNat, Nat.shiftRight_eq_div_pow] at q ⊢
    omega)
  delta decodeL
  rw [b, c, e, p]
  rfl
theorem tspawn (f : EX) : Statement (.tspawn f) := by
  obtain ⟨a, b, c, d, e⟩ := wordEX 0x60#7 f
  refine of_lone (e := lowEX 0x60#7 f) rfl a (fun _ _ => ?_)
  delta decodeL
  rw [b, c]
  rfl
theorem tdec (f : EX) : Statement (.tdec f) := by
  obtain ⟨a, b, c, d, e⟩ := wordEX 0x61#7 f
  refine of_lone (e := lowEX 0x61#7 f) rfl a (fun _ _ => ?_)
  delta decodeL
  rw [b, c]
  rfl
theorem tsetc (f : EX) : Statement (.tsetc f) := by
  obtain ⟨a, b, c, d, e⟩ := wordEX 0x62#7 f
  refine of_lone (e := lowEX 0x62#7 f) rfl a ?_
  intro v hw
  have q := mustBe_nil (codes_append hw).2
  have p : f.fn9.extractLsb' 0 1 = BitVec.ofNat 1 0 := field_eq _ _ (by
    simp only [beq_iff_eq] at q
    have := f.fn9.isLt
    simp only [BitVec.extractLsb'_toNat, Nat.shiftRight_eq_div_pow] at q ⊢
    omega)
  delta decodeL
  rw [b, c, d, p]
  rfl
theorem tsetcAdd (f : EX) : Statement (.tsetcAdd f) := by
  obtain ⟨a, b, c, d, e⟩ := wordEX 0x62#7 f
  refine of_lone (e := lowEX 0x62#7 f) rfl a ?_
  intro v hw
  have q := mustBe_nil (codes_append hw).2
  have p : f.fn9.extractLsb' 0 1 = BitVec.ofNat 1 1 := field_eq _ _ (by
    simp only [beq_iff_eq] at q
    have := f.fn9.isLt
    simp only [BitVec.extractLsb'_toNat, Nat.shiftRight_eq_div_pow] at q ⊢
    omega)
  delta decodeL
  rw [b, c, d, p]
  rfl
theorem erd (f : EX) : Statement (.erd f) := by
  obtain ⟨a, b, c, d, e⟩ := wordEX 0x63#7 f
  refine of_lone (e := lowEX 0x63#7 f) rfl a (fun _ _ => ?_)
  delta decodeL
  rw [b, c]
  rfl
theorem ctxrd (f : EX) : Statement (.ctxrd f) := by
  obtain ⟨a, b, c, d, e⟩ := wordEX 0x64#7 f
  refine of_lone (e := lowEX 0x64#7 f) rfl a (fun _ _ => ?_)
  delta decodeL
  rw [b, c]
  rfl
theorem ctxwr (f : EX) : Statement (.ctxwr f) := by
  obtain ⟨a, b, c, d, e⟩ := wordEX 0x65#7 f
  refine of_lone (e := lowEX 0x65#7 f) rfl a (fun _ _ => ?_)
  delta decodeL
  rw [b, c]
  rfl
theorem tfreeze (f : EX) : Statement (.tfreeze f) := by
  obtain ⟨a, b, c, d, e⟩ := wordEX 0x66#7 f
  refine of_lone (e := lowEX 0x66#7 f) rfl a (fun _ _ => ?_)
  delta decodeL
  rw [b, c]
  rfl
theorem trestore (f : EX) : Statement (.trestore f) := by
  obtain ⟨a, b, c, d, e⟩ := wordEX 0x67#7 f
  refine of_lone (e := lowEX 0x67#7 f) rfl a (fun _ _ => ?_)
  delta decodeL
  rw [b, c]
  rfl
theorem reservedEncoding (code : BitVec 10) : Statement (.reservedEncoding code) := of_none rfl
theorem instructionFetchFault (cause : BitVec 16) (code : BitVec 10) (addr : Word) : Statement (.instructionFetchFault cause code addr) := of_none rfl
theorem reservedControlMessage (m : Msg) : Statement (.reservedControlMessage m) := of_none rfl
theorem memoryRequestArrival (r : MemReq) : Statement (.memoryRequestArrival r) := of_none rfl
theorem producerHoldArrival (task : Nat) (edge : Nat) (hold : Bool) : Statement (.producerHoldArrival task edge hold) := of_none rfl
theorem creditArrival (tile : Nat) (port : Nat) (cls : Nat) : Statement (.creditArrival tile port cls) := of_none rfl
theorem slotTableCycle (die : Nat) : Statement (.slotTableCycle die) := of_none rfl

end Sys2Proof.Laws.RoundTrip
end

