-- ==== Sys2Proof/Tests/Slice0.lean ====
section
/-! SUPPORT. The model's own tests: ill-formed terms that the checks refuse, words written out from the spec's encodings, small steps whose
results the spec works out, and for each statement of Obligations.lean states and operands that meet its hypotheses. -/

namespace Sys2Proof.Tests

open Sys2Proof Sys2Proof.Machine

set_option maxRecDepth 20000
set_option Elab.async false

/-! ### Well-formedness: for each check a term that fails it, and the check refuses it (06 R157, 21 R438) -/

def ill (v : Bool) (i : Instr) (codes : List Nat) : Bool := i.wf v == false && reservedCodes v i == codes

theorem test_wf_zero_source : ill false (.clz ⟨1, 2, 3⟩) [7] ∧ ill false (.popcAs ⟨1, 2, 3⟩) [7] ∧ ill false (.hjoin ⟨1, 2, 0⟩) [7] := by decide
theorem test_wf_shift_member : ill false (.shli ⟨1, 2, 0x2005⟩) [2] ∧ ill false (.sari ⟨1, 2, 0x4040⟩) [7] := by decide
theorem test_wf_bit_field : ill false (.bfx ⟨1, 2, 0x0FC1⟩) [11] ∧ ill false (.bfi ⟨1, 2, 0x5000⟩) [7] := by decide
theorem test_wf_lea : ill false (.lea ⟨1, 2, 0x4000⟩) [2] ∧ ill false (.leaG ⟨1, 2, 0⟩) [2] := by decide
theorem test_wf_control_register : ill false (.crd ⟨1, 0, 0x015⟩) [10] ∧ ill false (.crd ⟨1, 0, 0x120⟩) [10] ∧ ill true (.crd ⟨1, 0, 0x150⟩) [10] ∧
    ill false (.cwr ⟨1, 2, 0x005⟩) [7] := by decide
theorem test_wf_loop : ill false (.loopOp ⟨6, 0, 0⟩) [11] ∧ ill false (.loopOp ⟨6, 0, 0x4000⟩) [11] ∧ ill false (.loopOp ⟨6, 1, 2⟩) [7] := by decide
theorem test_wf_fence_scope : ill false (.fenceOp 0 5) [5] ∧ ill false (.barWait true) [7] := by decide
theorem test_wf_scalar_float_type : ill false (.fadd ⟨1, 2, 3, 0, 3⟩) [3] ∧ ill false (.fadd ⟨1, 2, 3, 1, 0⟩) [7] ∧ ill false (.fcmp ⟨1, 2, 3, 0, 7⟩) [3] ∧
    ill false (.fcvt ⟨1, 2, 0, 3, 4⟩) [3] ∧ ill false (.fcvt ⟨1, 2, 0, 0, 0⟩) [3] ∧ ill false (.fneg ⟨1, 2, 3, 0, 0⟩) [7] := by decide
theorem test_wf_vector_type : ill false (.vadd ⟨1, 2, 3, 0, 9⟩) [3] ∧ ill false (.vfma ⟨1, 2, 3, 0, 5⟩) [3] ∧ ill false (.vsel ⟨1, 2, 3, 1, 6⟩) [3] ∧
    ill false (.vrcp ⟨1, 2, 3, 0, 6⟩) [7] ∧ ill false (.vcmp ⟨0, 2, 3, 0, 6, 0⟩) [9] ∧ ill false (.vcmp ⟨1, 2, 3, 0, 0, 6⟩) [3] ∧
    ill false (.vzip ⟨1, 2, 3, 0, 6⟩) [11] := by decide
theorem test_wf_mask_destination : ill false (.mand ⟨0, 1, 2, 0⟩) [9] ∧ ill false (.mmov ⟨1, 2, 3, 0⟩) [7] ∧ ill false (.mpop ⟨1, 3, 0, 9⟩) [7] := by decide
theorem test_wf_memory_codes : ill false (.ldO ⟨5, 4, 0, 0, 2, 3, 4, 0⟩) [6] ∧ ill false (.stO ⟨5, 4, 0, 0, 0, 5, 4, 0⟩) [5] ∧
    ill false (.stO ⟨5, 4, 0, 0, 0, 0, 5, 0⟩) [4] ∧ ill false (.vldx ⟨1, 2, 3, 0, 0, 0, 0, 6, 0⟩) [4] ∧ ill false (.vsts ⟨1, 2, 3, 0, 0, 1, 0, 7, 0⟩) [6] ∧
    ill false (.amoSAdd ⟨1, 2, 3, 0, 0, 0, 0, 3, 0⟩) [4] ∧ ill false (.famoAddF32 ⟨1, 2, 3, 0, 0, 0, 0, 4, 0⟩) [4] := by decide
theorem test_wf_prefetch_and_cache : ill false (.pref ⟨2, 4, 0, 0, 0, 0, 0, 0⟩) [11] ∧
    ill false (.cacheClean ⟨⟨1, 2, 0, 0, 0, 0, 0, 0, 0⟩, false, true⟩) [7] ∧ ill false (.cacheInv ⟨⟨1, 2, 3, 0, 0, 0, 0, 0, 0⟩, false, true⟩) [7] := by decide
theorem test_wf_unassigned_bits : ill false (.snap ⟨1, 0, 3, 0, 0⟩) [7] ∧ ill false (.evwait ⟨1, 0, 0, 1, 0⟩) [7] ∧
    ill false (.sel ⟨1, 2, 3, 0x20, 0⟩) [7] := by decide
theorem test_wf_event_amount : ill false (.evsig ⟨1, 0, 3, 0, 0⟩) [11] ∧ ill false (.txstat ⟨0, 0, 3, 3, 0⟩) [2] ∧ ill false (.tdec ⟨1, 0, 3, 0, 0⟩) [11] := by decide
theorem test_wf_page_count : ill false (.spmap ⟨1, 2, 3, 0, 0⟩) [11] ∧ ill false (.sppin ⟨1, 0, 3, 0, 6145⟩) [11] ∧ ill false (.spmap ⟨1, 2, 3, 1, 1⟩) [7] := by decide
theorem test_wf_bank : ill false (.spfmt ⟨0, 2, 0, 0, 0x300⟩) [10] ∧ ill false (.spfmt ⟨0, 2, 0, 0, 0x020⟩) [10] ∧ ill true (.spfmt ⟨0, 2, 0, 0, 0x110⟩) [10] := by decide
theorem test_wf_matrix : ill false (.mma ⟨4, 5, 6, 0, 0x00010020⟩) [11] ∧ ill false (.mma ⟨4, 5, 6, 0, 0x01010000⟩) [11] ∧
    ill false (.mmaMask ⟨4, 5, 7, 0, 0x01010020⟩) [11] ∧ ill false (.mzero ⟨4, 0, 0, 0, 0x01010020⟩) [7] := by decide
theorem test_wf_stream : ill false (.sbindIn ⟨1, 0, 23, 0, 1⟩) [11] ∧ ill false (.sbindIn ⟨1, 0, 24, 0, 9⟩) [11] ∧ ill false (.sgen ⟨1, 0, 24, 0, 0⟩) [11] ∧
    ill false (.sstat ⟨0, 23, 1, 0, 0⟩) [11] := by decide
theorem test_wf_messages : ill false (.amsend ⟨1, 2, 3, 0, 5⟩) [7] ∧ ill false (.redsend ⟨1, 0, 3, 0, 0x305⟩) [3] ∧ ill false (.redsend ⟨1, 0, 3, 1, 0x205⟩) [11] ∧
    ill false (.mbrd ⟨1, 0, 3, 0, 8⟩) [11] ∧ ill false (.mbclr ⟨1, 2, 3, 0, 0x002200⟩) [11] ∧ ill false (.steer ⟨1, 2, 3, 1, 0⟩) [2] := by decide
theorem test_wf_context_class : ill false (.ctxrd ⟨1, 0, 3, 0, 6 * 8192⟩) [11] ∧ ill false (.ctxrd ⟨1, 0, 3, 0, 32⟩) [7] ∧
    ill false (.ctxwr ⟨1, 0, 3, 0, 4 * 8192 + 0x40⟩) [10] ∧ ill false (.erd ⟨0, 0, 3, 0, 5⟩) [11] := by decide

/-- Words that hold a reserved encoding, by CODE: no op of the slot has the major or function code (1, 2), and two ops of a pair with one
destination (8) (06 R145, R157, 21 Table — Reserved-encoding detail). -/
theorem test_reserved_major : decodeSheaf false 0x7E000000#32 0#32 = .reserved 1 ∧ decodeSheaf false 0#32 0xFC000000#32 = .reserved 1 := by decide
theorem test_reserved_function : decodeSheaf false 0x02000018#32 0#32 = .reserved 2 ∧ decodeSheaf false 0#32 0x8000000A#32 = .reserved 2 := by decide
theorem test_reserved_destination : decodeSheaf false 0x02100000#32 0x04200000#32 = .reserved 8 ∧
    decodeSheaf false 0x02000000#32 0x04000000#32 = .pair (.addOp ⟨0, 0, 0⟩) (.addAs ⟨0, 0, 0⟩) := by decide

/-! ### Every instruction's word, its fields at the places that 06 gives them (Tables C-op, A-op and L-op formats, and the opcode maps) -/

/-- The words of each entry decode to the op of its slot, alone. -/
noncomputable def reads (l : List (BitVec 32 × BitVec 32 × Instr)) (slot : Nat) : Bool :=
  l.all (fun p => decodeSheaf false p.1 p.2.1 == (if slot = 0 then .pair p.2.2 .anop else if slot = 1 then .pair .nopOp p.2.2 else .lone p.2.2))

theorem test_words_scalar_c_1 : reads [
    (0x00000000, 0, .nopOp),
    (0x00000400, 0, .yield),
    (0x00000AA5, 0, .brk 0x2A5),
    (0x00000EA5, 0, .trapOp 0x2A5),
    (0x00001000, 0, .eret),
    (0x00001400, 0, .hexit),
    (0x00001800, 0, .texit),
    (0x02321400, 0, .addOp ⟨3, 4, 5⟩),
    (0x02321401, 0, .subOp ⟨3, 4, 5⟩),
    (0x02321402, 0, .andOp ⟨3, 4, 5⟩),
    (0x02321403, 0, .orOp ⟨3, 4, 5⟩),
    (0x02321404, 0, .xorOp ⟨3, 4, 5⟩),
    (0x02321405, 0, .shl ⟨3, 4, 5⟩),
    (0x02321406, 0, .shr ⟨3, 4, 5⟩),
    (0x02321407, 0, .sar ⟨3, 4, 5⟩),
    (0x02321408, 0, .mulOp ⟨3, 4, 5⟩),
    (0x02321409, 0, .mulh ⟨3, 4, 5⟩),
    (0x0232140A, 0, .mulhu ⟨3, 4, 5⟩),
    (0x0232140B, 0, .divOp ⟨3, 4, 5⟩),
    (0x0232140C, 0, .divu ⟨3, 4, 5⟩),
    (0x0232140D, 0, .rem ⟨3, 4, 5⟩),
    (0x0232140E, 0, .remu ⟨3, 4, 5⟩),
    (0x0232140F, 0, .minOp ⟨3, 4, 5⟩),
    (0x02321410, 0, .maxOp ⟨3, 4, 5⟩)] 0 = true := by decide +kernel

theorem test_words_scalar_c_2 : reads [
    (0x02321411, 0, .minu ⟨3, 4, 5⟩),
    (0x02321412, 0, .maxu ⟨3, 4, 5⟩),
    (0x02321413, 0, .slt ⟨3, 4, 5⟩),
    (0x02321414, 0, .sltu ⟨3, 4, 5⟩),
    (0x02320015, 0, .clz ⟨3, 4, 0⟩),
    (0x02320016, 0, .ctz ⟨3, 4, 0⟩),
    (0x02320017, 0, .popc ⟨3, 4, 0⟩),
    (0x0463C321, 0, .addi ⟨6, 7, 0x4321⟩),
    (0x0663C321, 0, .andi ⟨6, 7, 0x4321⟩),
    (0x0863C321, 0, .ori ⟨6, 7, 0x4321⟩),
    (0x0A63C321, 0, .xori ⟨6, 7, 0x4321⟩),
    (0x0C63802A, 0, .shli ⟨6, 7, 0x2A⟩),
    (0x0C63A02A, 0, .shri ⟨6, 7, 0x202A⟩),
    (0x0C63C02A, 0, .sari ⟨6, 7, 0x402A⟩),
    (0x0E63C321, 0, .slti ⟨6, 7, 0x4321⟩),
    (0x1063C321, 0, .sltiu ⟨6, 7, 0x4321⟩),
    (0x126381E1, 0, .bfx ⟨6, 7, 0x1E1⟩),
    (0x1263A1E1, 0, .bfxs ⟨6, 7, 0x21E1⟩),
    (0x1263C1E1, 0, .bfi ⟨6, 7, 0x41E1⟩),
    (0x14639FFF, 0, .lea ⟨6, 7, 0x1FFF⟩),
    (0x1463DFFF, 0, .leaG ⟨6, 7, 0x5FFF⟩),
    (0x1660020D, 0, .crd ⟨6, 0, 0x20D⟩),
    (0x18038281, 0, .cwr ⟨0, 7, 0x281⟩)] 0 = true := by decide +kernel

theorem test_words_scalar_a_1 : reads [
    (0, 0x05CF8000, .addAs ⟨14, 15, 16⟩),
    (0, 0x05CF8001, .subAs ⟨14, 15, 16⟩),
    (0, 0x05CF8002, .andAs ⟨14, 15, 16⟩),
    (0, 0x05CF8003, .orAs ⟨14, 15, 16⟩),
    (0, 0x05CF8004, .xorAs ⟨14, 15, 16⟩),
    (0, 0x05CF8005, .shlAs ⟨14, 15, 16⟩),
    (0, 0x05CF8006, .shrAs ⟨14, 15, 16⟩),
    (0, 0x05CF8007, .sarAs ⟨14, 15, 16⟩),
    (0, 0x05CF8008, .mulAs ⟨14, 15, 16⟩),
    (0, 0x05CF8009, .mulhAs ⟨14, 15, 16⟩),
    (0, 0x05CF800A, .mulhuAs ⟨14, 15, 16⟩),
    (0, 0x05CF800B, .divAs ⟨14, 15, 16⟩),
    (0, 0x05CF800C, .divuAs ⟨14, 15, 16⟩),
    (0, 0x05CF800D, .remAs ⟨14, 15, 16⟩),
    (0, 0x05CF800E, .remuAs ⟨14, 15, 16⟩),
    (0, 0x05CF800F, .minAs ⟨14, 15, 16⟩),
    (0, 0x05CF8010, .maxAs ⟨14, 15, 16⟩),
    (0, 0x05CF8011, .minuAs ⟨14, 15, 16⟩),
    (0, 0x05CF8012, .maxuAs ⟨14, 15, 16⟩),
    (0, 0x05CF8013, .sltAs ⟨14, 15, 16⟩),
    (0, 0x05CF8014, .sltuAs ⟨14, 15, 16⟩),
    (0, 0x05CF0015, .clzAs ⟨14, 15, 0⟩),
    (0, 0x05CF0016, .ctzAs ⟨14, 15, 0⟩),
    (0, 0x05CF0017, .popcAs ⟨14, 15, 0⟩)] 1 = true := by decide +kernel

theorem test_words_scalar_a_2 : reads [
    (0, 0x00000000, .anop),
    (0, 0x0A329820, .fadd ⟨17, 18, 19, 0, 2⟩),
    (0, 0x0A329821, .fsub ⟨17, 18, 19, 0, 2⟩),
    (0, 0x0A329822, .fmul ⟨17, 18, 19, 0, 2⟩),
    (0, 0x0A329823, .fma ⟨17, 18, 19, 0, 2⟩),
    (0, 0x0A329824, .fmin ⟨17, 18, 19, 0, 2⟩),
    (0, 0x0A329825, .fmax ⟨17, 18, 19, 0, 2⟩),
    (0, 0x0A320026, .fabs ⟨17, 18, 0, 0, 2⟩),
    (0, 0x0A320027, .fneg ⟨17, 18, 0, 0, 2⟩),
    (0, 0x0A3200E8, .fcvt ⟨17, 18, 0, 1, 6⟩),
    (0, 0x0A329AA9, .fcmp ⟨17, 18, 19, 5, 2⟩)] 1 = true := by decide +kernel

theorem test_words_control : reads [
    (0x20A5C567, 0, .beq ⟨10, 11, 0x4567⟩),
    (0x22A5C567, 0, .bne ⟨10, 11, 0x4567⟩),
    (0x24A5C567, 0, .blt ⟨10, 11, 0x4567⟩),
    (0x26A5C567, 0, .bge ⟨10, 11, 0x4567⟩),
    (0x28A5C567, 0, .bltu ⟨10, 11, 0x4567⟩),
    (0x2AA5C567, 0, .bgeu ⟨10, 11, 0x4567⟩),
    (0x30CABCDE, 0, .jal 12 0xABCDE),
    (0x3263C321, 0, .jalr ⟨6, 7, 0x4321⟩),
    (0x34A03FFF, 0, .loopOp ⟨10, 0, 0x3FFF⟩),
    (0x36321400, 0, .hstart ⟨3, 4, 5⟩),
    (0x38020000, 0, .hjoin ⟨0, 4, 0⟩),
    (0x3AD00000, 0, .hself 13),
    (0x3AD00400, 0, .gwork 13),
    (0x3AD00800, 0, .grank 13),
    (0x3AD00C00, 0, .tid 13),
    (0x3AD01000, 0, .clk 13)] 0 = true := by decide +kernel

theorem test_words_access_c_1 : reads [
    (0x40849555, 0, .ldB ⟨8, 9, 1, 2, 0x155⟩),
    (0x42849555, 0, .ldBu ⟨8, 9, 1, 2, 0x155⟩),
    (0x44849555, 0, .ldH ⟨8, 9, 1, 2, 0x155⟩),
    (0x46849555, 0, .ldHu ⟨8, 9, 1, 2, 0x155⟩),
    (0x48849555, 0, .ldW ⟨8, 9, 1, 2, 0x155⟩),
    (0x4A849555, 0, .ldWu ⟨8, 9, 1, 2, 0x155⟩),
    (0x4C849555, 0, .ldD ⟨8, 9, 1, 2, 0x155⟩),
    (0x50849555, 0, .stB ⟨8, 9, 1, 2, 0x155⟩),
    (0x52849555, 0, .stH ⟨8, 9, 1, 2, 0x155⟩),
    (0x54849555, 0, .stW ⟨8, 9, 1, 2, 0x155⟩),
    (0x56849555, 0, .stD ⟨8, 9, 1, 2, 0x155⟩),
    (0x58849555, 0, .vld ⟨8, 9, 1, 2, 0x155⟩),
    (0x5A849555, 0, .vst ⟨8, 9, 1, 2, 0x155⟩),
    (0x60321400, 0, .amoAdd ⟨3, 4, 5⟩),
    (0x60321401, 0, .amoAnd ⟨3, 4, 5⟩),
    (0x60321402, 0, .amoOr ⟨3, 4, 5⟩),
    (0x60321403, 0, .amoXor ⟨3, 4, 5⟩),
    (0x60321404, 0, .amoMin ⟨3, 4, 5⟩),
    (0x60321405, 0, .amoMax ⟨3, 4, 5⟩),
    (0x60321406, 0, .amoMinu ⟨3, 4, 5⟩),
    (0x60321407, 0, .amoMaxu ⟨3, 4, 5⟩),
    (0x60321408, 0, .amoSwap ⟨3, 4, 5⟩),
    (0x62321400, 0, .amocas ⟨3, 4, 5⟩),
    (0x64000005, 0, .tkwait 5)] 0 = true := by decide +kernel

theorem test_words_access_c_2 : reads [
    (0x66000154, 0, .fenceOp 0x2A 4),
    (0x68000001, 0, .barArrive true),
    (0x68000400, 0, .barWait false),
    (0x68000801, 0, .barSync true)] 0 = true := by decide +kernel

theorem test_words_lone_memory_1 : reads [
    (0x98D6F800, 0xBB7AABCD, .amoSAdd ⟨26, 27, 28, 5, 6, 3, 3, 6, 0x2ABCD⟩),
    (0x9BD6F800, 0xBB7EABCD, .vamoAdd ⟨26, 27, 28, 5, 6, 3, 3, 7, 0x2ABCD⟩),
    (0x98D6F801, 0xBB7AABCD, .amoSAnd ⟨26, 27, 28, 5, 6, 3, 3, 6, 0x2ABCD⟩),
    (0x9BD6F801, 0xBB7EABCD, .vamoAnd ⟨26, 27, 28, 5, 6, 3, 3, 7, 0x2ABCD⟩),
    (0x98D6F802, 0xBB7AABCD, .amoSOr ⟨26, 27, 28, 5, 6, 3, 3, 6, 0x2ABCD⟩),
    (0x9BD6F802, 0xBB7EABCD, .vamoOr ⟨26, 27, 28, 5, 6, 3, 3, 7, 0x2ABCD⟩),
    (0x98D6F803, 0xBB7AABCD, .amoSXor ⟨26, 27, 28, 5, 6, 3, 3, 6, 0x2ABCD⟩),
    (0x9BD6F803, 0xBB7EABCD, .vamoXor ⟨26, 27, 28, 5, 6, 3, 3, 7, 0x2ABCD⟩),
    (0x98D6F804, 0xBB7AABCD, .amoSMin ⟨26, 27, 28, 5, 6, 3, 3, 6, 0x2ABCD⟩),
    (0x9BD6F804, 0xBB7EABCD, .vamoMin ⟨26, 27, 28, 5, 6, 3, 3, 7, 0x2ABCD⟩),
    (0x98D6F805, 0xBB7AABCD, .amoSMax ⟨26, 27, 28, 5, 6, 3, 3, 6, 0x2ABCD⟩),
    (0x9BD6F805, 0xBB7EABCD, .vamoMax ⟨26, 27, 28, 5, 6, 3, 3, 7, 0x2ABCD⟩),
    (0x98D6F806, 0xBB7AABCD, .amoSMinu ⟨26, 27, 28, 5, 6, 3, 3, 6, 0x2ABCD⟩),
    (0x9BD6F806, 0xBB7EABCD, .vamoMinu ⟨26, 27, 28, 5, 6, 3, 3, 7, 0x2ABCD⟩),
    (0x98D6F807, 0xBB7AABCD, .amoSMaxu ⟨26, 27, 28, 5, 6, 3, 3, 6, 0x2ABCD⟩),
    (0x9BD6F807, 0xBB7EABCD, .vamoMaxu ⟨26, 27, 28, 5, 6, 3, 3, 7, 0x2ABCD⟩),
    (0x98D6F808, 0xBB7AABCD, .amoSSwap ⟨26, 27, 28, 5, 6, 3, 3, 6, 0x2ABCD⟩),
    (0x9BD6F808, 0xBB7EABCD, .vamoSwap ⟨26, 27, 28, 5, 6, 3, 3, 7, 0x2ABCD⟩),
    (0x80E80000, 0xFEDCBA98, .movi 29 0xFEDCBA98),
    (0x81E80000, 0xFEDCBA98, .movhi 29 0xFEDCBA98),
    (0x824A961F, 0x00000000, .sel ⟨9, 10, 11, 0x1F, 0x0⟩),
    (0x88C65C65, 0x89ABCDEF, .ldO ⟨24, 25, 3, 4, 1, 4, 5, 0x89ABCDEF⟩),
    (0x89C65CA6, 0x89ABCDEF, .stO ⟨24, 25, 3, 4, 2, 4, 6, 0x89ABCDEF⟩),
    (0x8AC65C67, 0x89ABCDEF, .vldO ⟨24, 25, 3, 4, 1, 4, 7, 0x89ABCDEF⟩)] 2 = true := by decide +kernel

theorem test_words_lone_memory_2 : reads [
    (0x8BC65CA7, 0x89ABCDEF, .vstO ⟨24, 25, 3, 4, 2, 4, 7, 0x89ABCDEF⟩),
    (0x8CD6F800, 0xB97AABCD, .ldSnap ⟨26, 27, 28, 5, 6, 1, 3, 6, 0x2ABCD⟩),
    (0x8DD6F800, 0xB97EABCD, .vldSnap ⟨26, 27, 28, 5, 6, 1, 3, 7, 0x2ABCD⟩),
    (0x8ED03800, 0xB97AABCD, .ldFe ⟨26, 0, 28, 5, 6, 1, 3, 6, 0x2ABCD⟩),
    (0x8ED03801, 0xB97AABCD, .ldFeClr ⟨26, 0, 28, 5, 6, 1, 3, 6, 0x2ABCD⟩),
    (0x90D03800, 0xB97EABCD, .vldFe ⟨26, 0, 28, 5, 6, 1, 3, 7, 0x2ABCD⟩),
    (0x90D03801, 0xB97EABCD, .vldFeClr ⟨26, 0, 28, 5, 6, 1, 3, 7, 0x2ABCD⟩),
    (0x8FD03800, 0xBA7AABCD, .stFe ⟨26, 0, 28, 5, 6, 2, 3, 6, 0x2ABCD⟩),
    (0x91D03800, 0xBA7EABCD, .vstFe ⟨26, 0, 28, 5, 6, 2, 3, 7, 0x2ABCD⟩),
    (0x92D6F800, 0xB97EABCD, .vldx ⟨26, 27, 28, 5, 6, 1, 3, 7, 0x2ABCD⟩),
    (0x93D6F800, 0xBA7EABCD, .vstx ⟨26, 27, 28, 5, 6, 2, 3, 7, 0x2ABCD⟩),
    (0x94D6F800, 0xB97EABCD, .vlds ⟨26, 27, 28, 5, 6, 1, 3, 7, 0x2ABCD⟩),
    (0x95D6F800, 0xBA7EABCD, .vsts ⟨26, 27, 28, 5, 6, 2, 3, 7, 0x2ABCD⟩),
    (0x960E5C00, 0x89ABCDEF, .pref ⟨1, 25, 3, 4, 0, 0, 0, 0x89ABCDEF⟩),
    (0x97D6C004, 0xB862ABCD, .cacheClean ⟨⟨26, 27, 0, 5, 6, 0, 3, 0, 0x2ABCD⟩, true, false⟩),
    (0x97D6C00D, 0xB862ABCD, .cacheInv ⟨⟨26, 27, 0, 5, 6, 0, 3, 0, 0x2ABCD⟩, true, true⟩),
    (0x97D6C006, 0xB862ABCD, .cacheFlush ⟨⟨26, 27, 0, 5, 6, 0, 3, 0, 0x2ABCD⟩, true, false⟩),
    (0x99D6F800, 0xBB7AABCD, .amocasS ⟨26, 27, 28, 5, 6, 3, 3, 6, 0x2ABCD⟩),
    (0x9AD6F800, 0xBB76ABCD, .famoAddF32 ⟨26, 27, 28, 5, 6, 3, 3, 5, 0x2ABCD⟩),
    (0x9AD6F801, 0xBB76ABCD, .famoAddBf16x2 ⟨26, 27, 28, 5, 6, 3, 3, 5, 0x2ABCD⟩)] 2 = true := by decide +kernel

theorem test_words_vector_1 : reads [
    (0, 0x1295B580, .vadd ⟨20, 21, 22, 5, 8⟩),
    (0, 0x1695B580, .vsub ⟨20, 21, 22, 5, 8⟩),
    (0, 0x1A95B580, .vmul ⟨20, 21, 22, 5, 8⟩),
    (0, 0x1E95B580, .vfma ⟨20, 21, 22, 5, 8⟩),
    (0, 0x2295B580, .vfms ⟨20, 21, 22, 5, 8⟩),
    (0, 0x2695B580, .vnfma ⟨20, 21, 22, 5, 8⟩),
    (0, 0x2A95B580, .vmin ⟨20, 21, 22, 5, 8⟩),
    (0, 0x2E95B580, .vmax ⟨20, 21, 22, 5, 8⟩),
    (0, 0x32950580, .vabs ⟨20, 21, 0, 5, 8⟩),
    (0, 0x32950581, .vneg ⟨20, 21, 0, 5, 8⟩),
    (0, 0x36950580, .vrcp ⟨20, 21, 0, 5, 8⟩),
    (0, 0x36950581, .vrsq ⟨20, 21, 0, 5, 8⟩),
    (0, 0x36950582, .vsqrt ⟨20, 21, 0, 5, 8⟩),
    (0, 0x36950583, .vexp2 ⟨20, 21, 0, 5, 8⟩),
    (0, 0x36950584, .vlog2 ⟨20, 21, 0, 5, 8⟩),
    (0, 0x36950585, .vsin ⟨20, 21, 0, 5, 8⟩),
    (0, 0x36950586, .vcos ⟨20, 21, 0, 5, 8⟩),
    (0, 0x36950587, .vtanh ⟨20, 21, 0, 5, 8⟩),
    (0, 0x38F5B566, .vcmp ⟨7, 21, 22, 5, 6, 6⟩),
    (0, 0x3E95B500, .vsel ⟨20, 21, 22, 5, 0⟩),
    (0, 0x4295B500, .vand ⟨20, 21, 22, 5, 0⟩),
    (0, 0x4295B501, .vor ⟨20, 21, 22, 5, 0⟩),
    (0, 0x4295B502, .vxor ⟨20, 21, 22, 5, 0⟩),
    (0, 0x42950503, .vnot ⟨20, 21, 0, 5, 0⟩)] 1 = true := by decide +kernel

theorem test_words_vector_2 : reads [
    (0, 0x4295B504, .vandn ⟨20, 21, 22, 5, 0⟩),
    (0, 0x4695B550, .vshl ⟨20, 21, 22, 5, 5⟩),
    (0, 0x4695B551, .vshr ⟨20, 21, 22, 5, 5⟩),
    (0, 0x4695B552, .vsar ⟨20, 21, 22, 5, 5⟩),
    (0, 0x4A95B540, .vmulh ⟨20, 21, 22, 5, 4⟩),
    (0, 0x4A95B551, .vmulhu ⟨20, 21, 22, 5, 5⟩),
    (0, 0x4E95B550, .vadds ⟨20, 21, 22, 5, 5⟩),
    (0, 0x4E95B551, .vsubs ⟨20, 21, 22, 5, 5⟩),
    (0, 0x52950D76, .vcvt ⟨20, 21, 1, 5, 7, 6⟩),
    (0, 0x5695B547, .vqnt ⟨20, 21, 22, 5, 4, 7⟩),
    (0, 0x5A95B547, .vdeq ⟨20, 21, 22, 5, 4, 7⟩),
    (0, 0x5E95B500, .vperm ⟨20, 21, 22, 5, 0⟩),
    (0, 0x5E95B501, .vpermb ⟨20, 21, 22, 5, 0⟩),
    (0, 0x5E9505D2, .vnibLo ⟨20, 21, 0, 5, 13⟩),
    (0, 0x5E9505D3, .vnibHi ⟨20, 21, 0, 5, 13⟩),
    (0, 0x5E95B584, .vzip ⟨20, 21, 22, 5, 8⟩),
    (0, 0x5E95B585, .vunzip ⟨20, 21, 22, 5, 8⟩),
    (0, 0x6295B500, .vslideup ⟨20, 21, 22, 5, 0⟩),
    (0, 0x6295B501, .vslidedn ⟨20, 21, 22, 5, 0⟩),
    (0, 0x66950580, .vbcast ⟨20, 21, 0, 5, 8⟩),
    (0, 0x6695B081, .vext ⟨20, 21, 22, 0, 8⟩),
    (0, 0x6695B582, .vins ⟨20, 21, 22, 5, 8⟩),
    (0, 0x6A950580, .vredAdd ⟨20, 21, 0, 5, 8⟩),
    (0, 0x6A950581, .vredMin ⟨20, 21, 0, 5, 8⟩)] 1 = true := by decide +kernel

theorem test_words_vector_3 : reads [
    (0, 0x6A950582, .vredMax ⟨20, 21, 0, 5, 8⟩),
    (0, 0x6E950580, .vscanAdd ⟨20, 21, 0, 5, 8⟩),
    (0, 0x6E950581, .vscanMin ⟨20, 21, 0, 5, 8⟩),
    (0, 0x6E950582, .vscanMax ⟨20, 21, 0, 5, 8⟩),
    (0, 0x7295B500, .vcompress ⟨20, 21, 22, 5, 0⟩),
    (0, 0x7295B501, .vexpand ⟨20, 21, 22, 5, 0⟩),
    (0, 0x76800500, .viota ⟨20, 0, 0, 5, 0⟩),
    (0, 0x76950581, .vclass ⟨20, 21, 0, 5, 8⟩),
    (0, 0x80A60000, .mand ⟨1, 2, 3, 0⟩),
    (0, 0x80A60001, .mor ⟨1, 2, 3, 0⟩),
    (0, 0x80A60002, .mxor ⟨1, 2, 3, 0⟩),
    (0, 0x80A00003, .mnot ⟨1, 2, 0, 0⟩),
    (0, 0x80A60004, .mandn ⟨1, 2, 3, 0⟩),
    (0, 0x80A00005, .mmov ⟨1, 2, 0, 0⟩),
    (0, 0x80817006, .mfroms ⟨1, 0, 0, 23⟩),
    (0, 0x80217007, .mtos ⟨0, 2, 0, 23⟩),
    (0, 0x80217008, .mpop ⟨0, 2, 0, 23⟩),
    (0, 0x80217009, .mfirst ⟨0, 2, 0, 23⟩)] 1 = true := by decide +kernel

theorem test_words_sync : reads [
    (0xA0481600, 0x0000FFFF, .evsig ⟨9, 0, 11, 0x0, 0xFFFF⟩),
    (0xA1480000, 0x00000000, .evwait ⟨9, 0, 0, 0x0, 0x0⟩),
    (0xA2481600, 0x0000FFFF, .evpost ⟨9, 0, 11, 0x0, 0xFFFF⟩),
    (0xA3481600, 0x00000000, .evq ⟨9, 0, 11, 0x0, 0x0⟩),
    (0xA3481601, 0x00000000, .evqClr ⟨9, 0, 11, 0x1, 0x0⟩),
    (0xA4001600, 0x00000000, .snap ⟨0, 0, 11, 0x0, 0x0⟩),
    (0xA5481600, 0x00000000, .snaprel ⟨9, 0, 11, 0x0, 0x0⟩),
    (0xA6001600, 0x00000000, .txbegin ⟨0, 0, 11, 0x0, 0x0⟩),
    (0xA7001600, 0x00000000, .txcommit ⟨0, 0, 11, 0x0, 0x0⟩),
    (0xA8000000, 0x00000000, .txabort ⟨0, 0, 0, 0x0, 0x0⟩),
    (0xA9001602, 0x00000000, .txstat ⟨0, 0, 11, 0x2, 0x0⟩)] 2 = true := by decide +kernel

theorem test_words_scratch_matrix : reads [
    (0xB04A9600, 0x00001800, .spmap ⟨9, 10, 11, 0x0, 0x1800⟩),
    (0xB1481600, 0x00001800, .spunmap ⟨9, 0, 11, 0x0, 0x1800⟩),
    (0xB2481600, 0x00001800, .sppin ⟨9, 0, 11, 0x0, 0x1800⟩),
    (0xB3481600, 0x00001800, .spunpin ⟨9, 0, 11, 0x0, 0x1800⟩),
    (0xB4028000, 0x0000020F, .spfmt ⟨0, 10, 0, 0x0, 0x20F⟩),
    (0xB5481600, 0x00001800, .spmigRes ⟨9, 0, 11, 0x0, 0x1800⟩),
    (0xB5481601, 0x00001800, .spmigPold ⟨9, 0, 11, 0x1, 0x1800⟩),
    (0xB54A9602, 0x00001800, .spmigHbm ⟨9, 10, 11, 0x2, 0x1800⟩),
    (0xB84A97F8, 0x02030040, .mma ⟨9, 10, 11, 0x1F8, 0x2030040⟩),
    (0xB94A9800, 0x02030040, .mmaMask ⟨9, 10, 12, 0x0, 0x2030040⟩),
    (0xB94A9801, 0x02030040, .mmaMaskFill ⟨9, 10, 12, 0x1, 0x2030040⟩),
    (0xBA4801F8, 0x02030000, .mzero ⟨9, 0, 0, 0x1F8, 0x2030000⟩),
    (0xBB4A8088, 0x02030000, .mcvt ⟨9, 10, 0, 0x88, 0x2030000⟩),
    (0xBC4A81F8, 0x02030000, .mtr ⟨9, 10, 0, 0x1F8, 0x2030000⟩),
    (0xBD000000, 0x00000000, .mwait ⟨0, 0, 0, 0x0, 0x0⟩),
    (0xBE4A8000, 0x02030000, .mscaleCol ⟨9, 10, 0, 0x0, 0x2030000⟩),
    (0xBE4A8001, 0x02030000, .mscaleRow ⟨9, 10, 0, 0x1, 0x2030000⟩)] 2 = true := by decide +kernel

theorem test_words_stream_transfer : reads [
    (0xC0483000, 0x00000008, .sbindIn ⟨9, 0, 24, 0x0, 0x8⟩),
    (0xC0483E01, 0x00000008, .sbindOut ⟨9, 0, 31, 0x1, 0x8⟩),
    (0xC1483607, 0xFFFFFFFF, .sgen ⟨9, 0, 27, 0x7, 0xFFFFFFFF⟩),
    (0xC20039F8, 0x00000000, .sunbind ⟨0, 0, 28, 0x1F8, 0x0⟩),
    (0xC3075600, 0x00000000, .sstat ⟨0, 29, 11, 0x0, 0x0⟩),
    (0xC84A97F8, 0x0000ABCD, .bcopy ⟨9, 10, 11, 0x1F8, 0xABCD⟩),
    (0xC9481648, 0x0000ABCD, .bcopyn ⟨9, 0, 11, 0x48, 0xABCD⟩),
    (0xCA4A97F8, 0x0000ABCD, .bmcast ⟨9, 10, 11, 0x1F8, 0xABCD⟩),
    (0xCB4A9688, 0x0000ABCD, .bfill ⟨9, 10, 11, 0x88, 0xABCD⟩),
    (0xCC4A97F8, 0x0000ABCD, .bmig ⟨9, 10, 11, 0x1F8, 0xABCD⟩),
    (0xCD481600, 0x00000000, .bpoll ⟨9, 0, 11, 0x0, 0x0⟩),
    (0xCE480000, 0x00000000, .bwait ⟨9, 0, 0, 0x0, 0x0⟩)] 2 = true := by decide +kernel

theorem test_words_fabric : reads [
    (0xD04A97F9, 0x0001A5C3, .amsend ⟨9, 10, 11, 0x1F9, 0x1A5C3⟩),
    (0xD1028188, 0x0000007F, .amreply ⟨0, 10, 0, 0x188, 0x7F⟩),
    (0xD2481601, 0x000000EF, .amhinst ⟨9, 0, 11, 0x1, 0xEF⟩),
    (0xD34817F9, 0x000001FE, .redsend ⟨9, 0, 11, 0x1F9, 0x1FE⟩),
    (0xD44A9600, 0x00000081, .rtset ⟨9, 10, 11, 0x0, 0x81⟩),
    (0xD54A9600, 0x00000042, .slotset ⟨9, 10, 11, 0x0, 0x42⟩),
    (0xD6001600, 0x00001234, .cfgtok ⟨0, 0, 11, 0x0, 0x1234⟩),
    (0xD7000000, 0x00000000, .stflush ⟨0, 0, 0, 0x0, 0x0⟩),
    (0xD84A9600, 0x00000000, .mbpost ⟨9, 10, 11, 0x0, 0x0⟩),
    (0xD9481600, 0x0000000F, .mbrd ⟨9, 0, 11, 0x0, 0xF⟩),
    (0xDA4A9600, 0x00007100, .mbclr ⟨9, 10, 11, 0x0, 0x7100⟩),
    (0xDB4A9600, 0x00000055, .steer ⟨9, 10, 11, 0x0, 0x55⟩),
    (0xDB4A9601, 0x00000000, .steerRet ⟨9, 10, 11, 0x1, 0x0⟩),
    (0xDC001600, 0x00000000, .mgrd ⟨0, 0, 11, 0x0, 0x0⟩),
    (0xDD4A9600, 0x00000000, .capclaim ⟨9, 10, 11, 0x0, 0x0⟩),
    (0xDD4A9601, 0x00000000, .capclaimEnd ⟨9, 10, 11, 0x1, 0x0⟩),
    (0xDD4A9602, 0x00000000, .capclaimSet ⟨9, 10, 11, 0x2, 0x0⟩)] 2 = true := by decide +kernel

theorem test_words_task : reads [
    (0xE04A96FF, 0x001F0ABC, .tspawn ⟨9, 10, 11, 0xFF, 0x1F0ABC⟩),
    (0xE1481600, 0x00000FFF, .tdec ⟨9, 0, 11, 0x0, 0xFFF⟩),
    (0xE2481600, 0x00000ABC, .tsetc ⟨9, 0, 11, 0x0, 0xABC⟩),
    (0xE2481601, 0x00000001, .tsetcAdd ⟨9, 0, 11, 0x1, 0x1⟩),
    (0xE3001600, 0x00000004, .erd ⟨0, 0, 11, 0x0, 0x4⟩),
    (0xE4481600, 0x0000802C, .ctxrd ⟨9, 0, 11, 0x0, 0x802C⟩),
    (0xE5481600, 0x000027FF, .ctxwr ⟨9, 0, 11, 0x0, 0x27FF⟩),
    (0xE64A9601, 0x00000000, .tfreeze ⟨9, 10, 11, 0x1, 0x0⟩),
    (0xE74A9600, 0x00000000, .trestore ⟨9, 10, 11, 0x0, 0x0⟩)] 2 = true := by decide +kernel

/-! ### Small tests: the values that the spec works out, at their places in spec/ -/

/-- What a step leaves, looked at by `f`. -/
def after {α : Type} (i : Instr) (s : State) (f : State → α) : Option α :=
  match exec i s with
  | .next t => some (f t)
  | _ => none

/-- Task 0 running on tile 16, whose address space maps the first GiB onto itself (Placement.lean), with context 0 about to issue. -/
def on : State := { State.reset.placeSheaf 0 with cur := ⟨16, 0⟩ }

/-- Context 0 of tile 0 right after reset, with s registers set. -/
def regs (l : List (BitVec 5 × Word)) (s : State := State.reset) : State := l.foldl (fun s p => s.ws p.1 p.2) s

/-- A v register from its first lanes, the rest 0. -/
def lanes (l : List Nat) : VReg := vPack 32 l

def vregs (l : List (Nat × List Nat)) (s : State := State.reset) : State :=
  l.foldl (fun s p => s.setMe { s.me with v := s.me.v.set 0 p.1 (lanes p.2) }) s

/-- 01 R15, R16: the tile at x = 3, y = 2 of die 5. -/
theorem test_tile_number : dieOf 835 = 5 ∧ 835 % 160 = 2 * 16 + 3 ∧ isV 835 = false := by decide
/-- 03 R60: areas of 256 KiB; context 3's byte at 0x100, and the same private address in context 5. -/
theorem test_private_alias :
    let r := setRecD (setRecF 0 1 45 42 2) 4 0x4000000000
    privAlias r 3 0x100 = 0x40000C0100 ∧ privAlias r 5 0x100 = 0x4000140100 := by decide
/-- 03 R64: window C of an M-tile at offset 0x12A40 is page 37, granule 36, bank 4. -/
theorem test_scratch_address : windowOf 0x8400000000012A40 = some 2 ∧ offset 0x8400000000012A40 / 2048 = 37 ∧
    offset 0x8400000000012A40 % 2048 / 16 = 36 ∧ bankOfPage false 2 37 = 4 := by decide
/-- 03 R79: the home of PA 0x3501231A40 is tile 17 of die 3. -/
theorem test_home_slice : homeTile 0x3501231A40 0 = 3 * 160 + 17 := by decide
/-- 05 Table — Worked conversions. -/
theorem test_worked_conversions :
    (convertTo (f32.decode 0x3F808000) 7 0 false).1 = 0x3F80 ∧ (convertTo (f32.decode 0x3F808000) 7 2 false).1 = 0x3F81 ∧
    (convertTo (.ofInt 300) 9 0 false).1 = 0x79 ∧ (convertTo (.ofInt 500) 9 0 false).1 = 0x7E ∧ (convertTo (f32.decode 0x40200000) 11 0 false).1 = 0x4 ∧
    (convertTo (.ofInt 70000) 8 1 false).1 = 0x7BFF ∧ (convertTo (f32.decode 0xC0600000) 4 0 false).1 = 0xFC := by decide +kernel
/-- 07 R173. -/
theorem test_movi_movhi : after (.movi 4 0x100) State.reset (fun t => t.rs 4) = some 0x100 ∧
    after (.movhi 4 0x90000000) (regs [(4, 0x100)]) (fun t => t.rs 4) = some 0x9000000000000100 := by decide +kernel
/-- 07 R170: a quotient by 0 and one that overflows; R169: the high half of a signed product. -/
theorem test_division : after (.divOp ⟨1, 2, 3⟩) (regs [(2, 7)]) (fun t => t.rs 1) = some (BitVec.allOnes 64) ∧
    after (.rem ⟨1, 2, 3⟩) (regs [(2, 0x8000000000000000), (3, BitVec.allOnes 64)]) (fun t => t.rs 1) = some 0 ∧
    after (.mulh ⟨1, 2, 3⟩) (regs [(2, BitVec.allOnes 64), (3, 2)]) (fun t => t.rs 1) = some (BitVec.allOnes 64) := by decide +kernel
/-- 07 R172: a sign-extended field of bits 11 to 8; an insertion of 8 bits at 4 into the register itself. -/
theorem test_bit_fields : after (.bfxs ⟨1, 2, 0x20C8⟩) (regs [(2, 0xF00)]) (fun t => t.rs 1) = some (BitVec.allOnes 64) ∧
    after (.bfi ⟨1, 2, 0x41C4⟩) (regs [(1, 0xFFF), (2, 0x1AB)]) (fun t => t.rs 1) = some 0xABF := by decide +kernel
/-- 07 R178: the worked loop of three passes; the end test after the last sheaf of the body sends control back to its first. -/
theorem test_loop : after (.loopOp ⟨6, 0, 2⟩) (regs [(6, 3)]) (fun t => (t.me.ldep, t.me.cr (lcnt 0), (Ctx.loopEnd 16 5 t.me).2)) = some (1, 3, 8) := by
  decide +kernel
/-- 07 R187 to R189: a counter of 2, `tdec` by 1 and `tsetc.add` of 3 in both orders; a `tdec` by 3 at 2 is refused with status 3. -/
def pending (n : Nat) : State := State.reset.setRecord 5 (setRecF (setRecF 0 1 63 60 2) 1 35 24 n)
def graphOp (kind n : Nat) : GraphOp := { kind := kind, target := 5, amount := n, asid := 0, issuer := ⟨0, 0⟩, rc := 0 }
theorem test_task_counter :
    (((pending 2).applyGraph (graphOp 0 1)).1.applyGraph (graphOp 2 3)).1.record 5 = (pending 4).record 5 ∧
    ((pending 2).applyGraph (graphOp 2 3)).1.record 5 = (pending 5).record 5 ∧ ((pending 2).applyGraph (graphOp 0 3)).2 = 3 := by decide +kernel
/-- 08 R215: `amo.s.minu.w` and `amo.s.min.w` on the low word 5. -/
theorem test_atomic_functions : amoFn 6 32 5 3 = 3 ∧ amoFn 6 32 5 0xFFFFFFF0 = 5 ∧ amoFn 4 32 5 0xFFFFFFF0 = 0xFFFFFFF0 := by decide
/-- 08 R229: the worked event 0x3007. -/
def event1 : State := ((((State.reset.eventPost 0x3007 3).1.eventSig 0x3007 1).1).eventSig 0x3007 1).1
theorem test_event : (event1.event 0x3007).count = 1 ∧ (event1.eventSig 0x3007 2).2 = 3 ∧
    ((event1.eventSig 0x3007 1).1.event 0x3007).value = 0x20000 := by decide +kernel
/-- 09 R244: elements 10 and 11 of a bf16 register with lane 5 = 0x40493F80. -/
theorem test_element : elem (lanes [0, 0, 0, 0, 0, 0x40493F80]) 16 10 = 0x3F80 ∧ elem (lanes [0, 0, 0, 0, 0, 0x40493F80]) 16 11 = 0x4049 := by decide +kernel
/-- 09 R259: vadds.i8 of 0x7F and 0x05, vsubs.n8 of 0x03 and 0x05. -/
theorem test_saturating : after (.vadds ⟨1, 2, 3, 0, 4⟩) (vregs [(2, [0x7F]), (3, [0x05])]) (fun t => elem (t.me.v.get 0 1) 8 0) = some 0x7F ∧
    after (.vsubs ⟨1, 2, 3, 0, 5⟩) (vregs [(2, [0x03]), (3, [0x05])]) (fun t => elem (t.me.v.get 0 1) 8 0) = some 0 := by decide +kernel
/-- 09 R260: `vcvt.bf16.f32 v1, v2, 0`. -/
theorem test_narrowing : after (.vcvt ⟨1, 2, 0, 0, 7, 6⟩) (vregs [(2, [0x3F808000, 0x40490FDB])]) (fun t => lane (t.me.v.get 0 1) 0) =
    some 0x40493F80 := by decide +kernel
/-- 09 R261: vqnt of 3.3 and vdeq of 15 with d = 0.5 and z = 8. -/
theorem test_quantize : after (.vqnt ⟨1, 2, 3, 0, 13, 6⟩) (vregs [(2, [0x40533333]), (3, [0x00083800])]) (fun t => lane (t.me.v.get 0 1) 0) = some 15 ∧
    after (.vdeq ⟨1, 2, 3, 0, 13, 6⟩) (vregs [(2, [15]), (3, [0x00083800])]) (fun t => lane (t.me.v.get 0 1) 0) = some 0x40600000 := by decide +kernel
/-- 09 R263: the nibbles of 0xA7. -/
theorem test_nibbles : after (.vnibLo ⟨1, 2, 0, 0, 13⟩) (vregs [(2, [0xA7])]) (fun t => elem (t.me.v.get 0 1) 8 0) = some 0x07 ∧
    after (.vnibHi ⟨1, 2, 0, 0, 12⟩) (vregs [(2, [0xA7])]) (fun t => elem (t.me.v.get 0 1) 8 0) = some 0xFA := by decide +kernel
/-- 09 R267, R268: the worked scan and the reduction of the same lanes. -/
theorem test_scan : after (.vscanAdd ⟨1, 2, 0, 0, 6⟩) (vregs [(2, [0x3F800000, 0x33800000, 0x33800000])])
    (fun t => (lane (t.me.v.get 0 1) 1, lane (t.me.v.get 0 1) 2, lane (t.me.v.get 0 1) 63)) = some (0x3F800000, 0x3F800001, 0x3F800001) := by decide +kernel
theorem test_reduce : after (.vredAdd ⟨1, 2, 0, 0, 6⟩) (vregs [(2, [0x3F800000, 0x33800000, 0x33800000])]) (fun t => t.rs 1) = some 0x3F800001 := by
  decide +kernel
/-- 09 R271: mpop and mfirst of 0xF0. -/
theorem test_masks : after (.mpop ⟨0, 3, 0, 9⟩) (State.reset.wmask 3 0xF0) (fun t => t.rs 9) = some 4 ∧
    after (.mfirst ⟨0, 3, 0, 10⟩) (State.reset.wmask 3 0xF0) (fun t => t.rs 10) = some 4 := by decide +kernel
/-- 10 R288: the worked generator of two levels. -/
def twoLevels : Binding := { bound := true, base := 0x8000000000000000, levels := [⟨3, 256⟩, ⟨2, 4096⟩] }
theorem test_generator : (List.range 6).map (fun i => offset (twoLevels.addr i)) = [0, 256, 512, 4096, 4352, 4608] ∧
    (List.range 6).map twoLevels.markOf = [0, 0, 1, 0, 0, 3] := by decide +kernel
/-- 10 R295: `sstat` after the sixth strip, and after a seventh read. -/
theorem test_stream_status : ({ twoLevels with moved := 6, last := 3 } : Binding).status = 0x0000000600000403 ∧
    ({ twoLevels with moved := 6, last := 3, exh := true } : Binding).status = 0x0000000600000503 := by decide +kernel
/-- 10 R312: posts of (0.5, 3), (0.9, 1), (0.7, 8) with depth 2, then of (0.7, 5). -/
theorem test_mailbox_order :
    let slot := (insertEntry (0x3F333333, 8) ((insertEntry (0x3F666666, 1) (insertEntry (0x3F000000, 3) [])).take 2)).take 2
    slot = [(0x3F666666, 1), (0x3F333333, 8)] ∧ (insertEntry (0x3F333333, 5) slot).take 2 = [(0x3F666666, 1), (0x3F333333, 5)] := by decide +kernel
/-- 11 Table — Task record: the worked D1. -/
theorem test_record : let r := setRecD 0 1 0x210B080002000008
    recState r = 2 ∧ recGw r = 2 ∧ recGh r = 1 ∧ recPrio r = 3 ∧ recPwsize r = 2 ∧ recCnt r = 2 ∧ recWork r = 8 := by decide +kernel
/-- 12 R354: the entry of the worked steer tree. -/
theorem test_route_entry : rtMode 0x0000400024010000 = 1 ∧ bits 0x0000400024010000 19 16 = 1 := by decide
/-- 08 R200, R195: a store of a word to global memory is read back sign-extended. -/
theorem test_store_load : after (.stW ⟨5, 4, 0, 0, 0⟩ ) (regs [(4, 0x20000), (5, 0x80000001)] on) (fun t => t.memRead 0x20000 4) =
    some [1, 0, 0, 0x80] ∧ shape 4 0x80000001 = 0xFFFFFFFF80000001 ∧ shape 5 0x80000001 = 0x80000001 := by decide +kernel
/-- 21 R432: a misaligned doubleword traps with 0x3002, CODE 3; without a handler it is a task fault, which FREC records (20 R424). -/
theorem test_misaligned : after (.ldD ⟨5, 4, 0, 0, 0⟩) (regs [(4, 0x20001)] on) (fun t => (t.tile 16).frec0 &&& 0xFFFF) = some 0x3002 := by decide +kernel
/-- 00 R7, 01 R22: the account at reset. -/
theorem test_reset_account : State.reset.limit = 5000 ∧ State.reset.budget = 50000000 := by decide
/-- 00 R5 and 06 R143: a placed instruction is what the next step fetches. -/
theorem test_placed_word : (match (on.withFetchWord 64 0x9000000081200000).fetch with | .got _ w => w == 0x9000000081200000#64 | _ => false) = true := by decide +kernel

/-! ### States and operands that meet the hypotheses of the statements, clause by clause -/

/-- An access, check or op that succeeds. -/
def okay {ε α : Type} (r : Except ε α) : Bool :=
  match r with
  | .ok _ => true
  | .error _ => false

/-- What a computation that succeeds gives has a property. -/
def okAnd {ε α : Type} (r : Except ε α) (p : α → Bool) : Bool :=
  match r with
  | .ok x => p x
  | .error _ => false

/-- In handler mode; on the awn core; a task with one work unit; a helper. -/
def inHandler (s : State) : State := s.setMe (s.me.setHm true)
def onAwn : State := { State.reset with cur := ⟨0, 15⟩ }
def onWork : State := on.setRecord 0 (setRecF placedRecord 1 16 0 1)
def onHelper : State := { State.reset with cur := ⟨0, 1⟩ }

theorem wit_ScalarArithmeticResults : Readable State.reset [1, 31] ∧ Readable on [0, 0] := by decide +kernel
theorem wit_DivisionCornerValues : (let s := regs [(2, 7)]; Readable s [2, 3] ∧ s.rs 3 = 0) ∧
    (let s := regs [(2, BitVec.ofInt 64 (-2 ^ 63)), (3, BitVec.ofInt 64 (-1))]
     Readable s [2, 3] ∧ s.rs 2 = BitVec.ofInt 64 (-2 ^ 63) ∧ s.rs 3 = BitVec.ofInt 64 (-1)) := by decide +kernel
theorem wit_ScalarImmediateResults : Readable State.reset [1, 2] ∧ windowOf (State.reset.rs 1 + 0) ≠ some 3 ∧
    (let s := regs [(1, 0x900000000000FFFF)]
     Readable s [1, 2] ∧ windowOf (s.rs 1) = some 3 ∧ s.cur.isAwn = false ∧ offset (s.rs 1) < areaSize (s.runRec s.cur.tile)) := by decide +kernel
theorem wit_SelectChoosesRegister : Readable State.reset [1, 2, 3] := by decide +kernel
theorem wit_ScalarFloatResults : Readable State.reset [1, 2, 3] ∧ State.reset.cur.isAwn = false := by decide +kernel
theorem wit_IdentityReadResults : on.taskOf on.cur = some 0 ∧ State.reset.taskOf State.reset.cur = none ∧ onAwn.cur.isAwn = true ∧
    recWork (on.record 0) ≤ (on.tile 16).rank + recRanks (on.record 0) * (on.task 0).units.get 0 0 ∧
    onWork.taskOf onWork.cur = some 0 ∧
    (onWork.tile 16).rank + recRanks (onWork.record 0) * (onWork.task 0).units.get 0 0 < recWork (onWork.record 0) ∧
    (0x3A001400#32).extractLsb' 31 1 = 0 ∧ (0x3A001400#32).extractLsb' 25 6 = 0x1D ∧ 5 ≤ ((0x3A001400#32).extractLsb' 10 5).toNat := by decide +kernel
theorem wit_RegisterOpFrame : registerDest (.addOp ⟨31, 1, 2⟩) = some 31 ∧ registerDest (.evq ⟨1, 0, 0, 0, 0⟩) = some 0 ∧ on.ctxs.wf {} = true ∧ on.tiles.wf {} = true ∧
    after (.addOp ⟨31, 1, 2⟩) on State.fate = some .ran ∧ akey ⟨16, 1⟩ ≠ akey on.cur ∧ Readable on [1, 2] := by decide +kernel
theorem wit_ControlTransferResults : Readable State.reset [1, 2] ∧ (State.reset.rs 1 + 8 * (0 : Word)) &&& 7 = 0 ∧
    (regs [(1, 7)]).rs 1 &&& 7 ≠ 0 := by decide +kernel
def loops (n : Nat) : State := (List.range n).foldl (fun s _ => s.setMe (s.me.pushLoop 2 8 16)) (regs [(6, 3)])
theorem wit_HardwareLoopResults : (Readable State.reset [6] ∧ State.reset.rs 6 = 0) ∧ ((loops 3).rs 6 ≠ 0 ∧ (loops 3).me.ldep < 4) ∧
    ((loops 4).rs 6 ≠ 0 ∧ 4 ≤ (loops 4).me.ldep) ∧
    (let c := (loops 1).me; c.creg.wf 0 = true ∧ c.ldep ≠ 0 ∧ c.cr (lend (c.ldep - 1)) = 16 ∧ c.cr (lcnt (c.ldep - 1)) ≠ 1) := by decide +kernel
theorem wit_YieldAndEnergyResults : (({ State.reset with time := 1 } : State).ctx ⟨0, 0⟩).yieldUntil < 1 ∧ State.reset.tiles.wf {} = true ∧
    State.reset.time < State.reset.refillAt ∧
    (let s := { State.reset with time := State.reset.refillAt, budget := 49999999, limit := 1000 }
     s.refillAt ≤ s.time ∧ s.limit ≠ s.power) ∧
    (let s := { State.reset with time := State.reset.refillAt, budget := 49999999 }; s.refillAt ≤ s.time ∧ s.budget < 10000 * (s.limit : Int)) := by decide +kernel
/-- Task 0 with a handler at 0x8000. -/
def onVector : State := on.setRecord 0 (setRecD placedRecord 5 0x8000)
theorem wit_RequestedTrapEntersHandler : onVector.ctxs.wf {} = true ∧ onVector.cur.isAwn = false ∧ onVector.me.hm = false ∧ onVector.me.creg.wf 0 = true ∧
    onVector.thvec onVector.cur.tile ≠ 0 := by decide +kernel
theorem wit_TrapAndReturnResults : (inHandler on).cur.isAwn = false ∧ (inHandler on).me.hm = true ∧ on.me.hm = false ∧ on.thvec on.cur.tile = 0 ∧
    onAwn.cur.isAwn = true ∧ (⟨2, 0x3001, 0, 4, none⟩ : Trap).table = none ∧
    (match on.walk (on.root on.cur) (offset 0x10000) with | .error _ => false | .ok _ => true) = true := by decide +kernel
/-- A package whose helpers are in one state, and one with helper 1 in it. -/
def helpers (x : CtxSt) (n : Nat) : State :=
  (List.range n).foldl (fun s h => s.setCtx ⟨0, h + 1⟩ { s.ctx ⟨0, h + 1⟩ with st := x }) State.reset
theorem wit_HelperAndTaskExitResults :
    (State.reset.cur.ctx = 0 ∧ Readable State.reset [1, 2] ∧ State.reset.rs 1 &&& 7 = 0) ∧ (helpers .ready 10).freeHelper = none ∧
    (helpers .ready 9).freeHelper = some 10 ∧ (regs [(1, 4)]).rs 1 &&& 7 ≠ 0 ∧
    ((regs [(1, 10)]).ctx ⟨0, 10⟩).st = .free ∧ ((helpers .done 1).ctx ⟨0, 1⟩).st = .done ∧ ((helpers .ready 1).ctx ⟨0, 1⟩).st = .ready ∧
    (onHelper.cur.isAwn = false ∧ onHelper.cur.ctx ≠ 0 ∧ onHelper.me.undrained = none) ∧
    (helpers .ready 1).helpersBusy 0 = true ∧ State.reset.helpersBusy 0 = false ∧ State.reset.ctxs.wf {} = true := by decide +kernel
theorem wit_ControlRegisterResults : privOf 0 ≠ 2 ∧ (inHandler State.reset).handler = true ∧ (privOf 0x202 = 2 ∧ State.reset.handler = false) ∧
    Readable State.reset [1] ∧ privOf 0x100 = 0 ∧ bfmtBank false 0x100 = some (0, 0) ∧ bfmtBank (isV 0) 0x100 = some (0, 0) ∧
    bfmtLegal (isV 0) 0 0 7 = true ∧ bfmtLegal (isV 0) 0 0 15 = false ∧ privOf 0x40 = 3 ∧ privOf 0x18 = 1 ∧ State.reset.cur.isAwn = false ∧
    onAwn.cur.isAwn = true ∧ Readable onAwn [1] := by decide +kernel
/-- A held write that used a translation of address space 7. -/
def tlbHeld : State :=
  { on with heldReqs := [{ req := { kind := 0, agent := ⟨16, 0⟩, pa := 0, len := 1 }, op := none, tr := some (7, 5, ⟨0x83F, 2⟩) }] }
theorem wit_RegisterEventAndContextResults : bfmtBank (isV 0) 0x13F = some (0, 63) ∧ cregIsCtx 0x13F = false ∧
    (State.reset.setDie 0 ((State.reset.die 0).setCr 0x208 159)).fselTile (dieOf 0) = some 159 ∧ (0x201 : BitVec 12) ≠ 0x200 ∧
    (let s := regs [(1, 10)] (inHandler (helpers .done 10)); Readable s [1, 3] ∧ s.handler = true ∧ (s.rs 1).toNat ≤ 10 ∧ (s.ctx ⟨0, 10⟩).st = .done) ∧
    (let s := regs [(1, 11)] (inHandler State.reset); s.handler = true ∧ 10 < (s.rs 1).toNat) ∧ State.reset.handler = false ∧
    (State.reset.ctx ⟨0, 0⟩).st = .free ∧
    (let v : Word := 0x00071FFFFFFFFFFF
     (tlbHeld.cutKept v).heldReqs.any (fun h => h.cut && (h.tr.map (·.1)) == some (bits v 63 48)) = true ∧ (tlbHeld.ctx ⟨16, 0⟩).st = .ready ∧
       (on.cutKept v).heldReqs = [] ∧ (on.cutKept v).tiles.any (fun e => e.2.pageIns.any (fun p => p.cut)) = false) := by decide +kernel
theorem wit_ScalarAccessResults : TokensFree on 7 1 ∧ Readable (regs [(4, 0x20000)] on) [4, 5] ∧
    (let s := regs [(4, 0x20007), (5, 0x85)] on
     s.rs 4 = 0x20007 ∧ okay (loadPieces s (s.view s.cur) 1 false false [(0x20007, 1)] 0x20007) = true ∧
     okay (checkAll s s.who 2 false [(0x20007, 1)]) = true ∧ okay (release s 0 0) = true ∧
     okay (storePieces s false false 0 [(0x20007, 1)] [] 0x20007 [(0x85, false)] []) = true) ∧
    okay (loadPieces on (.at 16) 1 false false [(0x20018, 8)] 0x20018) = true ∧ (255 : Nat) < 2 ^ 8 ∧ (2 ^ 64 - 1 : Nat) < 2 ^ 64 := by decide +kernel
theorem wit_MisalignedAccessTraps : TokensFree on 0 0 ∧ Readable on [4, 5] ∧
    (let s := regs [(4, 0x2000F)] on; (s.rs 4 + (0 : BitVec 9).signExtend 64 * 2).toNat % 2 ≠ 0 ∧ (s.rs 4).toNat % 4 ≠ 0 ∧ (s.rs 4).toNat % 8 ≠ 0) := by
  decide +kernel
/-- Page 0 of window A of tile 16 resident in frame 0. -/
def onPage : State := on.setTile 16 ((on.tile 16).setSpte 0 (mkSpte 1 false false 0))
def placedLeaf : Leaf := ⟨0x83F, 2⟩
/-- A byte of the executing context's matrix op is written, and path 0 does not see it yet. -/
def hiddenAt (a : Nat) : State := on.homeWrite (some ⟨1, on.cur, some 0⟩) (placedLeaf.pa a) [7] false false
def offHidden : State := onPage.setTile 16 ((onPage.tile 16).spWrite (some ⟨1, on.cur, some 0⟩) 0 0 [(7, false)] false)
theorem wit_LoadsReadAddressedBytes : windowOf 0x2001F = some 4 ∧ (0x2001F : Word).toNat % 32 + 1 ≤ 32 ∧
    on.translate (.data 16) (on.root on.cur) (offset 0x2001F) = .ok placedLeaf ∧ placedLeaf.refuse 1 on.handler = none ∧ placedLeaf.isRem = false ∧
    placedLeaf.ver = false ∧ on.ctxs.wf {} = true ∧ on.me.prog = [] ∧ on.heldReqs = [] ∧ (on.dir (placedLeaf.pa 0x2001F / 32)).ptrs.length < 4 ∧
    dieOf 16 = homeDie (placedLeaf.pa 0x2001F) ∧ on.rem.find (dieOf 16 * 2 ^ 60 + placedLeaf.pa 0x2001F / 32) = none ∧
    (⟨0x93F, 2⟩ : Leaf).nc = true ∧
    (let a : Word := 0x80000000000007FF
     windowOf a = some 0 ∧ a.toNat % 32 + 1 ≤ 32 ∧ offset a + 1 ≤ windowPages (isV 16) 0 * 2048 ∧ (onPage.tile 16).run.isSome = true ∧
     onPage.ctxs.wf {} = true ∧ onPage.me.prog = [] ∧ loc ((onPage.tile 16).spte (pkey 0 (offset a / 2048))) = 1 ∧
     (offHidden.tile 16).unseen ≠ [] ∧ offHidden.unseen.find (placedLeaf.pa 0x2001F / 16) = none ∧
     ((hiddenAt 0x2001F).unseen.find (placedLeaf.pa 0x2001F / 16)).isSome = true) := by decide +kernel
/-- A byte that path 1 has written reads on path 0 as before, after a fence over path 0 alone too, and as written after a fence over both (R97). -/
theorem test_unseen_until_fence :
    (let byte (s : State) : Option (List Byte) := match loadPieces s (s.view s.cur) 1 false false [(0x20000, 1)] 0x20000 with
       | .ok (_, bs) => some (bs.map (·.1))
       | .error _ => none
     let s := hiddenAt 0x20000
     s.memByte (placedLeaf.pa 0x20000) = 7 ∧ byte s = some [0] ∧ after (.fenceOp 1 0) s byte = some (some [0]) ∧
       after (.fenceOp 3 0) s byte = some (some [7])) := by decide +kernel
theorem wit_GlobalStoreWritesMemory : Memory.wf on.mem = true ∧ on.ctxs.wf {} = true ∧ on.me.prog = [] ∧ windowOf 0x20000 = some 4 ∧
    on.translate (.data 16) (on.root on.cur) (offset 0x20000) = .ok placedLeaf ∧ placedLeaf.refuse 2 on.handler = none ∧ placedLeaf.isRem = false ∧
    placedLeaf.ver = false ∧ (on.dir (placedLeaf.pa 0x20000 / 32)).ovf = false ∧ on.reserved.find (placedLeaf.pa 0x20000 / 32) = none ∧ (0x20000 : Word).toNat % 32 + 32 ≤ 32 := by decide +kernel
/-- Page 0 of window A of tile 16 in an MX bank whose scale records lie in bank 1, both resident, every granule full. -/
def onMx : State :=
  on.setTile 16 { (((on.tile 16).setFmt 0 0 0x0001110B).setSpte 0 (mkSpte 1 false false 0)).setSpte (pkey 0 (bankBytes false 0 / 2048)) (mkSpte 1 false false 1) with
    frames := [(0, { full := BitVec.allOnes 128 }), (1, { full := BitVec.allOnes 128 })] }
/-- A store to checked places that finds its pages and permits. -/
def storesOk (u : State) (fe : Bool) (pre : List (List (Byte × Bool))) (ps qs : List ((Word × Nat) × Place)) (bs cs : List (Byte × Bool)) : Bool :=
  okAnd (storeSp u fe none pre 0 (spChunks (fe || u.cur.isAwn) ps bs ++ spChunks false qs cs)) (fun v =>
    okay (sendMine v (placeGranules ((v.tile v.cur.tile).run.getD 0) ps bs ++ placeGranules ((v.tile v.cur.tile).run.getD 0) qs cs)))
theorem wit_VectorAccessResults : on.cur.isAwn = false ∧ TokensFree on 1 2 ∧ Readable on [4, 7] ∧ (on.src.bind 3).bound = false ∧
    okay (loadVec (regs [(4, 0x20000)] on) ((regs [(4, 0x20000)] on).view on.cur) false false 3 0x20000) = true ∧
    okay (useV on [3]) = true ∧ okay (stripsOk on [3]) = true ∧ on.decodeAt 16 0x20000 = none ∧ (0x20000 : Word).toNat % 16 = 0 ∧
    okAnd (checkAll on on.who 2 false (cut 0x20000 256)) (fun pl => storesOk on false [] ((cut 0x20000 256).zip pl) [] (vBytes 0) []) = true ∧
    okay (release on 0 0) = true ∧ on.me.prog = [] ∧
    (let as := (List.range 64).map (fun j => (0x20000 : Word) + BitVec.ofNat 64 j * 4)
     okAnd (as.mapM (checkLane on (on.view on.cur) 1)) (fun pl => okay (loadChecked on (on.view on.cur) false none ((as.map (fun a => (a, 4))).zip pl))) = true ∧
     okAnd (as.mapM (checkLane on .now 2)) (fun pl => storesOk on false [] ((as.map (fun a => (a, 4))).zip pl) [] (vBytes 0) []) = true) := by
  decide +kernel
theorem wit_VectorAccessResults_decoding : onMx.me.prog = [] ∧ (onMx.decodeAt 16 0x8000000000000000).isSome = true ∧
    okay (loadVec onMx (onMx.view onMx.cur) false false 3 0x8000000000000000) = true ∧
    (∀ d, onMx.decodeAt 16 0x8000000000000000 = some d → (0x8000000000000000 : Word).toNat % d.len = 0 ∧ fmtTy d.fmt = 11 ∧
      okAnd (checkAt onMx onMx.who 0x8000000000000000 2 false (cut 0x8000000000000000 d.len)) (fun pl =>
        okAnd (checkAt onMx onMx.who 0x8000000000000000 2 false (cut d.recAddr d.recLen)) (fun rl =>
          storesOk onMx false [] ((cut 0x8000000000000000 d.len).zip pl) ((cut d.recAddr d.recLen).zip rl) (List.replicate d.len (0, false))
            (List.replicate d.recLen (0, false)))) = true) := by
  refine ⟨by decide +kernel, by decide +kernel, by decide +kernel, ?_⟩
  intro d h
  have e : onMx.decodeAt 16 0x8000000000000000 = some ⟨0, 0, 0x1110B, bankBytes false 0, 2⟩ := by decide +kernel
  obtain rfl := Option.some.inj (e.symm.trans h)
  decide +kernel
/-- Page 0 of window A with its first granule full. -/
def onFull : State :=
  onPage.setTile 16 { onPage.tile 16 with frames := (onPage.tile 16).frames.set {} 0 { full := 1 } }
theorem wit_FullEmptyResults : TokensFree on 0 0 ∧ Readable on [4] ∧
    (let a : Word := 0x8000000000000000
     let r : FeRead := { clr := true, win := 0, off := 0, len := 8, addr := a, rc := 0, size := 6 }
     let s := regs [(4, a)] onFull
     let e := regs [(4, a)] onPage
     (s.rs 4).toNat % 8 = 0 ∧ s.decodeAt 16 a = none ∧ s.me.allTaken 0 0 8 = false ∧
     okAnd (checkAll s s.who 1 true (cut a 8)) (fun pl => okay (reside s 16 pl a)) = true ∧
     ((s.feTouch r).takeGranules s.cur true 0 0 8).me.allTaken 0 0 8 = true ∧ okay (reside ((s.feTouch r).takeGranules s.cur true 0 0 8) 16 [] a) = true ∧
     okAnd (checkAll e e.who 1 true (cut a 8)) (fun pl => okay (reside e 16 pl a)) = true ∧
     ((e.feTouch r).takeGranules e.cur true 0 0 8).me.allTaken 0 0 8 = false ∧
     onPage.tiles.wf {} = true ∧ windowOf a = some 0 ∧ (onPage.tile 16).granFull 0 (offset a / 16 * 16) = false ∧
     onPage.me.feTaken.find (granKey 0 (offset a / 16 * 16)) = none) := by decide +kernel
theorem wit_FullEmptyResults_decoding :
    (let a : Word := 0x8000000000000000
     let d : DecodeAt := ⟨0, 0, 0x1110B, bankBytes false 0, 2⟩
     let s := regs [(4, a)] onMx
     let r : FeRead := { clr := false, win := 0, off := 0, len := d.len, addr := a, rc := 3, size := 7, dec := true }
     let u := (s.feTouch r).takeGranules s.cur false 0 0 d.len
     s.cur.isAwn = false ∧ (s.src.bind 3).bound = false ∧ s.decodeAt 16 a = some d ∧ a.toNat % d.len = 0 ∧
     okAnd (checkAt s s.who a 1 true (cut a d.len)) (fun pl => okay (reside s 16 pl a)) = true ∧ u.me.allTaken 0 0 d.len = true ∧
     okAnd (checkAt s s.who a 1 false (cut d.recAddr d.recLen)) (fun rl => okay (reside u 16 rl a)) = true ∧
     (acquire (u.setMe (u.me.dropTaken 0 0 d.len)) 0 0).decodeAt 16 a = some d ∧ d.len = r.len) := by decide +kernel
/-- The line of virtual address 0x20000 with OVF set. -/
def overflowedAt : State := on.setDir (placedLeaf.pa 0x20000 / 32) { ptrs := [1, 2, 3, 4], ovf := true }
theorem wit_AtomicResults : Readable on [4, 5, 6] ∧ TokensFree on 0 0 ∧ okAnd (checkAtomic on 0x20000 8) (fun p => okay (reside on 16 [p] 0x20000) && !on.homeBusy p) = true ∧
    okAnd (checkAtomic on 0x2001C 4) (fun p => okay (reside on 16 [p] 0x2001C)) = true ∧ okay (release on 0 0) = true ∧ okay (stripsOk on [5]) = true ∧
    okay (useV on [5]) = true ∧ (on.src.bind 3).bound = false ∧ on.me.prog = [] ∧
    (let as := (List.range 64).map (fun j => (0x20000 : Word) + BitVec.ofNat 64 (4 * j))
     okAnd (as.mapM (checkVamo on)) (fun pl => okay (vamoLanes 0 0 on [] (((List.range 64).zip as).zip pl))) = true) ∧ (0x20000 : Word).toNat % 16 = 0 ∧
    (overflowedAt.homeBusy (.glob 0x20000 placedLeaf) = true ∧ on.homeBusy (.glob 0x20000 placedLeaf) = false) := by
  decide +kernel
theorem wit_GlobalAtomicUpdatesMemory : Memory.wf on.mem = true ∧ windowOf 0x2001C = some 4 ∧ 4 ∣ 32 ∧ (0x2001C : Word).toNat % 4 = 0 ∧
    on.translate (.data 16) (on.root on.cur) (offset 0x2001C) = .ok placedLeaf ∧ placedLeaf.refuse 8 on.handler = none ∧ placedLeaf.isRem = false ∧
    placedLeaf.ver = false ∧ localPa (placedLeaf.pa 0x2001C) = true ∧ (on.dir (placedLeaf.pa 0x2001C / 32)).ovf = false ∧ on.reserved.find (placedLeaf.pa 0x2001C / 32) = none ∧ on.heldReqs = [] := by
  decide +kernel
def oneOp : State := State.reset.issueOp 0 3 (.s 5 7 none)
def overflowed : State := State.reset.setDir 9 { ptrs := [1, 2, 3, 4], ovf := true }
/-- Line 9 with OVF set, its home tile's awn core frozen on fault. -/
def freezingHome : State := overflowed.setTile 0 { overflowed.tile 0 with frz := some { stop := 3, awn := true } }
theorem wit_CompletionAndHomeResults : (∃ o, oneOp.ops.find State.reset.nextOp = some o ∧ o.need = 0 ∧ o.path = 0) ∧
    ({ State.reset with reserved := [(9, 3)] } : State).reserved.find 9 = some 3 ∧ (freezingHome.dir 9).ovf = true ∧ freezingHome.handlerFailed (freezingHome.dir 9).home 9 = true ∧
    (let s := freezingHome.setDir 9 { ptrs := [1, 2, 3, 4] }
     (s.dir 9).ptrs.length = 4 ∧ (s.dir 9).ptrs.contains 4 = true ∧ (s.dir 9).table.contains 5 = false ∧ s.handlerFailed (s.dir 9).home 9 = true) ∧ State.reset.dirs.wf {} = true ∧
    (State.reset.dir 9).ovf = false ∧ (overflowed.dir 9).ovf = true ∧ 9 * 32 + 31 < 2 ^ 40 ∧
    (let s := State.reset.setDir 9 { ptrs := [1, 2, 3, 4] }
     (s.dir 9).ptrs.length = 4 ∧ (s.dir 9).ptrs.contains 5 = false ∧ (s.dir 9).table.contains 5 = false ∧ s.handlerFailed (s.dir 9).home 9 = false) ∧
    overflowed.handlerFailed (overflowed.dir 9).home 9 = false := by
  refine ⟨⟨_, rfl, rfl, rfl⟩, ?_⟩
  decide +kernel
theorem wit_CacheAndFenceResults : TokensFree on 0 0 ∧ Readable on [4] ∧
    (match checkPiece on on.who 0x8000000000000000 1 1 false with | .ok (.glob _ _) => false | _ => true) = true ∧
    (match checkPiece on on.who 0x20000 1 1 false with | .ok (.glob v _) => v == 0x20000 | _ => false) = true ∧
    on.src.kc 7 = 0 ∧ oneOp.src.kc 3 ≠ 0 ∧ on.fenceBusy on.cur 63 4 = false ∧ on.fenceBusy on.cur 63 3 = false ∧ on.fenceBusy on.cur 63 0 = false ∧
    oneOp.fenceBusy oneOp.cur 63 4 = true ∧ oneOp.fenceBusy oneOp.cur 2 0 = false ∧
    (((hiddenAt 0x20000).showFenced on.cur 2).unseen.any (fun e => e.2.writer.agent == on.cur && (2 : Nat).testBit e.2.writer.path)) = true := by
  decide +kernel
def arrivedAt : State := { on.setMe (on.me.setCr 0x18 1) with tasks := [(0, { tiles := [16], arrived := [0] })] }
theorem wit_GangBarrierResults : on.cur.ctx = 0 ∧ on.me.arr = false ∧ arrivedAt.me.arr = true ∧ on.fenceBusy on.cur 63 2 = false ∧
    on.taskOf on.cur = some 0 ∧ State.reset.taskOf State.reset.cur = none ∧ arrivedAt.allArrived 0 = true ∧ (arrivedAt.task 0).tiles ≠ [] ∧
    (∀ t ∈ (arrivedAt.task 0).tiles, (arrivedAt.tile t).run = some 0 ∧ arrivedAt.stoppedTile t = false) := by decide +kernel
def full1024 : State := { State.reset with live := List.replicate 1024 (16, .tx ⟨0, 0⟩) }
def inTx (state : Nat) (lines : SMap TxLine) (live : Bool) : State :=
  let s := State.reset.setMe ({ State.reset.me with tx := { state := state, start := 16, lines := lines } }.setTxo true)
  { s with live := if live then [(16, .tx s.cur)] else [] }
def holding24 (t : Nat) (failed : Bool) : State := { State.reset with time := t, holds := [(akey ⟨0, 0⟩, (1, failed))] }
theorem wit_SnapshotAndTransactionResults_holds : State.reset.holds.find (akey State.reset.cur) = none ∧
    (holding24 25 true).holds.find (akey ⟨0, 0⟩) = some (1, true) ∧ (holding24 24 false).holds.find (akey ⟨0, 0⟩) = some (1, false) ∧
    (holding24 24 false).time < max 16 (1 + 24) ∧ max 16 (1 + 24) ≤ (holding24 25 false).time ∧ (holding24 25 false).live.length < 1024 ∧
    1024 ≤ ({ holding24 25 false with live := full1024.live } : State).live.length ∧ ((holding24 25 false).takeStamp (.tx ⟨0, 0⟩)).isSome = true := by decide +kernel
/-- A commit of one line whose reservation is held, whose stamp is taken, and whose line is installed. -/
def commitAt (granted : Option Nat) (done : List Nat) (reserved : SMap Nat) : State :=
  let s := inTx 1 [(0, {})] true
  { s.setMe { s.me with tx := { s.me.tx with granted := granted, done := done } } with reserved := reserved }
theorem wit_SnapshotAndTransactionResults_commit :
    (let s := commitAt none [] [(0, akey ⟨0, 0⟩)]
     s.heldReqs = [] ∧ s.me.txo = true ∧ s.me.tx.state ≠ 5 ∧ s.me.tx.granted = none ∧ s.me.tx.lines ≠ [] ∧ s.allReserved s.cur s.me = true ∧
     s.live.contains (s.me.tx.start, .tx s.cur) = true) ∧
    (let s := commitAt none [] []
     s.allReserved s.cur s.me = false ∧ s.live.contains (s.me.tx.start, .tx s.cur) = true ∧ s.conflicts s.cur s.me = false) ∧
    (let s := commitAt none [] [(0, 77)]
     s.allReserved s.cur s.me = false ∧ s.conflicts s.cur s.me = true) ∧
    (let s := (commitAt (some 40) [] [(0, akey ⟨0, 0⟩)]).setVer 0 { stamp := 5 }
     s.me.tx.granted = some 40 ∧ (s.me.tx.lines.find? (fun e => !s.me.tx.done.contains e.1)).isSome = true ∧ (s.dir 0).ovf = false ∧
     (let v := (s.crossAll 0).installLine s.cur 0 40 {}
      (v.setCtx s.cur { v.ctx s.cur with tx := { (v.ctx s.cur).tx with done := 0 :: (v.ctx s.cur).tx.done } }).me.installed = true)) ∧
    (let s := (inTx 1 [(0, {}), (1, {})] true).setVer 0 { stamp := 5 }
     let s := s.setMe { s.me with tx := { s.me.tx with granted := some 40 } }
     s.me.tx.lines.find? (fun e => !s.me.tx.done.contains e.1) = some (0, {}) ∧
     (let v := (s.crossAll 0).installLine s.cur 0 40 {}
      (v.setCtx s.cur { v.ctx s.cur with tx := { (v.ctx s.cur).tx with done := 0 :: (v.ctx s.cur).tx.done } }).me.installed = false)) ∧
    ((commitAt (some 40) [] []).setDir 0 { ovf := true }).me.tx.granted = some 40 ∧ (((commitAt (some 40) [] []).setDir 0 { ovf := true }).dir 0).ovf = true ∧
    (let s := commitAt (some 40) [0] []
     s.me.tx.lines.find? (fun e => !s.me.tx.done.contains e.1) = none) := by decide +kernel
theorem wit_SnapshotAndTransactionResults : 1024 ≤ full1024.live.length ∧ State.reset.live.length < 1024 ∧ Readable State.reset [1] ∧
    (inTx 1 [] true).me.txo = true ∧ State.reset.me.txo = false ∧ State.reset.cur.isAwn = false ∧ (State.reset.takeStamp (.tx ⟨0, 0⟩)).isSome = true ∧
    State.reset.live.contains (0, State.reset.snapOwner State.reset.cur) = false ∧
    ({ State.reset with live := [(0, State.reset.snapOwner ⟨0, 0⟩)] } : State).live.contains (0, State.reset.snapOwner ⟨0, 0⟩) = true ∧
    State.reset.heldReqs = [] ∧ (inTx 5 [] true).me.tx.state = 5 ∧ (inTx 1 [(0, {})] false).live.contains (16, .tx ⟨0, 0⟩) = false ∧
    (let s := inTx 1 [] true
     s.me.tx.state ≠ 5 ∧ s.live.contains (s.me.tx.start, .tx s.cur) = true ∧ s.me.tx.lines = []) := by decide +kernel
theorem wit_EventResults : Readable State.reset [1] ∧ State.reset.fenceBusy State.reset.cur 63 3 = false ∧ oneOp.fenceBusy oneOp.cur 63 3 = true ∧ State.reset.cur.isAwn = false ∧
    (State.reset.event 65535).state = 0 ∧ ((State.reset.setEvent 65535 { state := 2 }).event 65535).state = 2 ∧ (event1.event 0x3007).state = 1 ∧
    ((State.reset.setEvent 7 { state := 1, count := 65535 }).event 7).count + 1 > 65535 ∧ (event1.event 0x3007).count < 2 ∧ (event1.event 0x3007).count = 1 := by
  decide +kernel
theorem wit_VectorWriteMergesLanes : State.reset.ctxs.wf {} = true ∧ State.reset.me.v.wf 0 = true ∧ (State.reset.me.bind 31).bound = false ∧
    0 < 32 ∧ 32 * 64 ≤ 2048 ∧ 63 < 64 := by decide +kernel
theorem wit_VectorArithmeticResults : State.reset.cur.isAwn = false ∧ Readable State.reset [] ∧ okay (useV State.reset [2, 3, 1]) = true ∧
    okay (destV State.reset 1 true true) = true ∧ okay (stripsOk State.reset [2, 3]) = true ∧ okay (State.reset.wv 1 0 (BitVec.allOnes 64)) = true := by
  decide +kernel
theorem wit_VectorLaneOpResults : okay (useV State.reset ([2] ++ [])) = true ∧ okay (destV State.reset 31 false false) = true ∧
    okay (State.reset.wv 31 5 1) = true := by decide +kernel
theorem wit_VectorElementAndReductionResults : Readable State.reset [2, 3] ∧ okay (destV State.reset 31 true false) = true ∧
    okay (destV State.reset (30 + 1) true false) = true ∧ okay (useV State.reset [2]) = true ∧ okay (State.reset.wv 30 1 1) = true := by decide +kernel
def boundIn : State := State.reset.setMe (State.reset.me.setBind 24 { bound := true })
theorem wit_MaskOpsAndVectorTraps : State.reset.cur.isAwn = false ∧ Readable State.reset [5] ∧ onAwn.cur.isAwn = true ∧
    (∀ r ∈ ([2, 3] : List (BitVec 5)), (boundIn.me.bind r.toNat).bound = false ∧ (boundIn.src.bind r.toNat).bound = false ∧
      ∀ l, l < 64 → boundIn.src.vPois.find (64 * r.toNat + l) = none) ∧
    (boundIn.src.bind 24).bound = true ∧ (boundIn.src.bind 24).out = false := by decide +kernel

/-- Tile 16 with pages 0 to 7 of each window resident in frames 0 to 7. -/
def pagesAt (l : Nat) : Tile := [0, 1, 2].foldl (fun x w => (List.range 8).foldl (fun x p => x.setSpte (pkey w p) (mkSpte l false false p)) x) (on.tile 16)
def onMat : State := on.setTile 16 (pagesAt 1)
def winA : Word := 0x8000000000000000
def winW : Word := 0x8200000000000000
def winC : Word := 0x8400000000000000
def held (m : MatOp) (x : Tile := pagesAt 1) : State := onMat.setTile 16 { x with mq := [m] }
def zeroC : MatOp := { op := 9, kind := 3, ctx := 0, mb := 1, nb := 1, c := winC }

theorem wit_MatrixResults_operands : OperandOk onMat winA 256 0 2048 false ∧ OperandOk onMat winW 256 1 2048 false ∧
    OperandOk onMat winC 256 2 4096 false ∧ OperandOk onMat winC 16 2 128 false ∧ OperandOk onMat winC 256 2 4096 true ∧
    OperandOk onMat winA 256 0 2048 true := by
  refine ⟨?_, ?_, ?_, ?_, ?_, ?_⟩ <;> exact ⟨by decide, by decide, by decide, by decide +kernel, by decide +kernel, by decide +kernel⟩
theorem wit_MatrixResults : onMat.cur.isAwn = false ∧ TokensFree onMat 1 2 ∧ Readable onMat [4, 5, 6, 7] ∧ (onMat.tile 16).mq.length < 4 := by
  decide +kernel
theorem wit_MatrixResults_formats :
    pairing (onMat.fmtAt 16 0 0) (onMat.fmtAt 16 1 0) (onMat.fmtAt 16 2 0) = some (8, 0) ∧
    (onMat.spanFmts 16 ⟨0, 0, 2048⟩).all (fun fm => fmtKey fm == fmtKey (onMat.fmtAt 16 0 0) && fmtTy fm != 14 && fm == onMat.fmtAt 16 0 0) = true ∧
    (onMat.spanFmts 16 ⟨2, 0, 4096⟩).all (fun fm => fmtTy fm == 6 && fmtKey fm == fmtKey (onMat.fmtAt 16 2 0)) = true ∧
    fmtGsz (onMat.fmtAt 16 0 0) = 0 := by decide +kernel
theorem wit_MatrixResults_steps :
    (held zeroC).stoppedTile 16 = false ∧ (onMat.tile 16).mq = [] ∧ ((held zeroC).tile 16).mq = [zeroC] ∧
    (match (held zeroC).engineNeed 16 (matStep 16 zeroC (held zeroC)).reads (matStep 16 zeroC (held zeroC)).spans with | .ok none => true | _ => false) = true ∧
    (match (held zeroC (on.tile 16)).engineNeed 16 [] [⟨2, 0, 128⟩] with | .error _ => true | _ => false) = true ∧
    (match (held zeroC (pagesAt 3)).engineNeed 16 [] [⟨2, 0, 128⟩] with | .ok (some _) => true | _ => false) = true ∧
    zeroC.steps ≤ zeroC.step + 1 ∧ zeroC.step + 1 < { zeroC with mb := 2 }.steps := by decide +kernel

def streaming (b : Binding) (q : List Strip := []) : State := onMat.setMe (onMat.me.setBind 24 { b with bound := true, base := winA, levels := [⟨2, 256⟩], queue := q })
/-- Page 0 of window A absent, and every frame of its bank held by a pinned page. -/
def noFrame : State :=
  (streaming {}).setTile 16 ([1, 2, 3, 4, 5, 6, 7, 256].zipIdx.foldl (fun x p => x.setSpte p.1 (mkSpte 1 true false p.2))
    ((on.tile 16).setSpte 0 (mkSpte 3 false false (0x20000 / 2048))))
theorem wit_StreamResults : onMat.cur.isAwn = false ∧ Readable (regs [(4, winA)] onMat) [4] ∧ (onMat.src.bind 24).bound = false ∧ winA.toNat % 16 = 0 ∧
    (onMat.src.genLevels 24 8).all (fun l => l.stride.toNat % 16 == 0) = true ∧ onMat.unitsUsed 16 < 16 ∧ okay (checkBase onMat false winA) = true ∧
    okay (checkBase onMat true winA) = true ∧ ((streaming {}).src.bind 24).bound = true ∧ TokensFree onMat 0 0 ∧
    ((streaming { out := true } [{}]).me.bind 24).queue ≠ [] ∧ (streaming {}).stoppedTile 16 = false ∧
    (let s := streaming {}
     let b := s.me.bind 24
     b.queue.length < 4 ∧ b.reached < b.total ∧
     okAnd (checkStrip s ⟨s.cur, s.root s.cur, b.hand, true, 3, []⟩ 1 b.fe (b.addr b.reached)) (fun pl => match s.engineReside 16 pl (b.addr 0) with
       | .ok none => okay (readAll s ⟨s.cur, s.root s.cur, b.hand, true, 3, []⟩ (s.taskView 16) false ((cut (b.addr 0) 256).zip pl)) && !s.stripFull 16 ((cut (b.addr 0) 256).zip pl)
       | _ => false) = true) ∧
    (let s := (streaming {}).setTile 16 (pagesAt 3)
     okAnd (checkStrip s ⟨s.cur, s.root s.cur, false, true, 3, []⟩ 1 false winA) (fun pl => match s.engineReside 16 pl winA with | .ok (some _) => true | _ => false) = true) ∧
    okAnd (checkStrip noFrame ⟨noFrame.cur, noFrame.root noFrame.cur, false, true, 3, []⟩ 1 false winA) (fun pl => match noFrame.engineReside 16 pl winA with
      | .error _ => (noFrame.me.bind 24).bound && !(noFrame.me.bind 24).out
      | _ => false) = true ∧
    (match checkStrip (on : State) { on.who with engine := true } 1 false winA with | .error (.trap _) => true | _ => false) = true ∧
    (let s := streaming { out := true } [{}]
     okAnd (checkStrip s { s.who with engine := true } 2 false winA) (fun pl => (match s.engineReside 16 pl winA with | .ok none => true | _ => false) &&
       (s.sendRest s.cur 0 (placeGranules 0 ((cut winA 256).zip pl) (vBytes 0))).2.2.isNone) = true) ∧
    ((streaming { out := true }).me.bind 24).queue = [] ∧ (streaming { closing := some 5 }).writesHeld ((streaming { closing := some 5 }).me.bind 24) = false ∧
    (let s := { streaming { writes := [7] } with ops := [(7, { agent := ⟨16, 0⟩, path := 3, kw := 0, need := 1 })] }
     s.writesHeld (s.me.bind 24) = true) := by decide +kernel

/-- Task 0 with a completion ring of 2 entries at 0x30000. -/
def onRing : State := (onMat.setRecord 0 (setRecD placedRecord 6 0x30001))
def storeWords (l : List Nat) (a : Nat) (s : State) : State := s.memWrite a (l.flatMap (leBytes 8))
def xfer0 : Xfer := { op := 9, q := 0, task := 0, agent := ⟨16, 0⟩, kind := 3, checked := true, row := 16, dsts := [{ addr := 0x20000 }] }
def moving (x : Xfer) : State := { onRing with xfers := [x] }
/-- A transfer at work, with its op outstanding, and with the line of its record at a home that holds writes back. -/
def atWork (need : Nat) : State := { moving xfer0 with ops := [(9, { agent := ⟨16, 0⟩, path := 2, kw := 0, need := need })] }
def heldRing : State := (atWork 0).setDir (placedLeaf.pa 0x30000 / 32) { ptrs := [1, 2, 3, 4], ovf := true }
def copy64 (src dst : Word) : Xfer :=
  { op := 0, q := 0, task := 0, agent := onRing.cur, kind := 0, src := src, dsts := [{ addr := dst }], row := 64, checked := true }
def room0 (u : State) : Bool := u.taskOf u.cur == some 0 && decide (u.taskXfers 0 < 2 ^ recCrlog (u.record 0)) && decide (u.tileXfers u.cur.tile < 32)
/-- Bytes that can be read now, and a property of them. -/
def peeksTo (s : State) (a : Word) (n : Nat) (p : List Byte → Bool) : Bool :=
  okAnd (peekPieces s s.who (cut a n)) (fun x => match peeked x.2 with
    | some b => p b
    | none => false)
theorem wit_TransferResults : onRing.taskOf onRing.cur = some 0 ∧ recCrlog (onRing.record 0) ≠ 0 ∧ onRing.taskXfers 0 < 2 ^ recCrlog (onRing.record 0) ∧
    onRing.tileXfers 16 < 32 ∧ TokensFree onRing 0 0 ∧ Readable onRing [4, 5, 6] ∧ okay (checkRange onRing onRing.who 1 0x20000 64) = true ∧
    okay (checkRows onRing [(0x20000, 0x28000)] 64) = true ∧ okay (checkRows onRing [(0x20000, 0x20010)] 64) = true ∧
    overlaps (copy64 0x20000 0x28000).pairs 64 64 = false ∧ overlaps (copy64 0x20000 0x20010).pairs 64 64 = true ∧
    okAnd (captureRows 64 onRing (copy64 0x20000 0x20010).pairs) (fun p => room0 p.1) = true ∧ okay (checkRange onRing onRing.who 2 0x28000 64) = true ∧
    (let s := storeWords [1, 0x28000, 0xFFFF] 0x24000 onRing
     peeksTo s 0x24000 8 (fun hb => okay (checkAt s s.who 0x24000 1 false (listBytes 0x24000 hb))) = true ∧
     okAnd (loadPieces s (s.view s.cur) 1 false false (cut 0x24000 8) 0x24000) (fun p => fieldOf (p.2.map (·.1)) 0 2 == 1 && fieldOf (p.2.map (·.1)) 2 6 == 0 &&
       okAnd (loadPieces p.1 (p.1.view p.1.cur) 1 false false (cut 0x24008 16) 0x24008) (fun e => fieldOf (e.2.map (·.1)) 8 2 == 0xFFFF && room0 e.1)) = true) ∧
    (let s := storeWords [0x20000, 0x28000, 1 * 2 ^ 32 + 16, 16, 16, 1, 16, 16] 0x24000 onRing
     peeksTo s 0x24000 64 (fun hb => okay (descXfer s hb)) = true ∧
     okAnd (loadPieces s (s.view s.cur) 1 false false (cut 0x24000 64) 0x24000) (fun p => fieldOf (p.2.map (·.1)) 16 4 == 16 && fieldOf (p.2.map (·.1)) 20 4 == 1 &&
       fieldOf (p.2.map (·.1)) 40 4 == 1 && fieldOf (p.2.map (·.1)) 44 4 == 0) = true) ∧
    (inHandler onRing).me.hm = true ∧ State.reset.taskOf State.reset.cur = none ∧ (onRing.task 0).nextQ ≤ 0 ∧
    (let s := onRing.setTask 0 { nextQ := 1, qStat := [(0, 1)] }; 0 < (s.task 0).nextQ ∧ s.pollQ 0 0 ≠ 0) ∧
    (let s := onRing.setTask 0 { nextQ := 1 }; 0 < (s.task 0).nextQ ∧ s.pollQ 0 0 = 0) := by decide +kernel
theorem wit_TransferResults_steps : onRing.xfers.find? (fun x => x.op == 9) = none ∧ (moving xfer0).xfers.find? (fun x => x.op == 9) = some xfer0 ∧
    (moving xfer0).stoppedTile 16 = false ∧ xfer0.fin = none ∧ ({ xfer0 with fin := some 1 } : Xfer).fin = some 1 ∧
    (moving xfer0).runsThere xfer0 { addr := 0x20000 } = true ∧ xfer0.dsts[xfer0.dst]? = some { addr := 0x20000 } ∧
    ({ xfer0 with dst := 1 } : Xfer).dsts[1]? = none ∧ (moving xfer0).opNeeds 9 = false ∧ (atWork 1).opNeeds 9 = true ∧
    (let s := (moving xfer0).setTile 16 { pagesAt 1 with frz := some { stop := 0, stopped := true } }; s.stoppedTile 16 = true ∧ (s.tile 16).run = some 0) ∧
    (let x := { xfer0 with ring := 0x30000, size := 2 }
     x.conv = false ∧ x.port = none ∧ ((atWork 0).putRecord x 1 0 16).opNeeds 9 = false ∧ (heldRing.putRecord x 1 0 16).opNeeds 9 = true) := by
  decide +kernel

def field (n : Nat) : EX := ⟨4, 5, 6, 0, BitVec.ofNat 32 n⟩
def onSpan (x : Tile) : State := regs [(4, winA), (5, 0x20000)] (on.setTile 16 x)
theorem wit_PageOpResults : on.cur.isAwn = false ∧ (on.tile 16).pageIns = [] ∧
    (let s := onSpan (on.tile 16)
     Readable s [4, 5] ∧ (s.rs 4).toNat % 2048 = 0 ∧ windowOf (s.rs 4) = some 0 ∧ offset (s.rs 4) / 2048 + 1024 ≤ windowPages (isV 16) 0 ∧
     okay (checkBacking s (field 2) [1, 2]) = true ∧ (pageKeys (field 2) s).any (fun k => loc ((s.tile 16).spte k) != 0) = false ∧
     (pageKeys (field 2) s).any (s.inFoot 16) = false ∧ (pageKeys (field 2) s).any (fun k => loc ((s.tile 16).spte k) == 0) = true) ∧
    (let s := onSpan (pagesAt 1)
     (pageKeys (field 2) s).any (fun k => loc ((s.tile 16).spte k) != 0) = true ∧ (∀ k ∈ pageKeys (field 1) s, loc ((s.tile 16).spte k) = 1) ∧
     (pageKeys (field 1) s).length = 1 ∧ (pageKeys (field 2) s).any (fun k => pinned ((s.tile 16).spte k)) = false) ∧
    (∀ k ∈ pageKeys (field 2) (onSpan (pagesAt 2)), loc (((onSpan (pagesAt 2)).tile 16).spte k) = 2) ∧
    (let x := (on.tile 16).setSpte 0 (mkSpte 3 false false (0x20000 / 2048))
     ∀ p ∈ (pageKeys (field 1) (onSpan x)).zipIdx, loc (((onSpan x).tile 16).spte p.1) = 3 ∧
       place (((onSpan x).tile 16).spte p.1) = ((onSpan x).rs 5).toNat / 2048 + p.2) ∧
    (let x := (on.tile 16).setSpte 0 (mkSpte 1 true false 0); (pageKeys (field 1) (onSpan x)).any (fun k => pinned (((onSpan x).tile 16).spte k)) = true) ∧
    bfmtLegal (isV 16) 0 0 7 = true ∧ bfmtLegal (isV 16) 0 0 15 = false ∧ on.bankBusy 16 0 0 = false ∧
    (let s := on.setTile 16 { (on.tile 16).setSpte 5 (mkSpte 3 false false 4) with pageIns := [{ win := 0, page := 5, frame := 5 }] }
     2 ≤ loc ((s.tile 16).spte 5) ∧ s.tiles.wf {} = true) := by decide +kernel

/-- Pages 0 and 1 of window A resident, to move to an address; with their write-outs done but for what an access abandoned. -/
def moves (b : Word) (outs : Option PageOuts := none) : State := regs [(4, winA), (5, b)] (on.setTile 16 { pagesAt 1 with outs := outs })
def ended : Option PageOuts := some { ctx := 0, pc := (on.ctx ⟨16, 0⟩).pc, pages := [(0, false), (1, true)] }
/-- The same where the first page's write goes over the table entry that maps the second; the die's region log is full. -/
def unmaps : State :=
  (((((moves 0x3FFFFFF800).setDie 0 ((on.die 0).setCr 0x204 64))).memWrite 0x2000 (leBytes 8 0x3FFFF001)).memWrite 0x3FFFF7F8 (leBytes 8 0x83F)).memWrite 0x3FFFF800 (leBytes 8 0x83F)
theorem wit_PageOpResults_moves :
    (let s := moves 0x20000
     pageKeys (field 2) s = [0, 1] ∧ (s.tile 16).pageIns = [] ∧ (s.openOuts 16).any (fun o => o.ctx != s.cur.ctx) = false ∧ s.myOuts [0, 1] = none ∧
     (pageKeys (field 2) s).any (fun k => loc ((s.tile 16).spte k) == 0) = false ∧ (pageKeys (field 2) s).filter (fun k => loc ((s.tile 16).spte k) == 1) ≠ [] ∧
     okay (checkBacking s (field 2) [2]) = true ∧ okay (pagesAway 16 s []) = true ∧ okay (pagesAway 16 s [0, 1]) = true ∧ 2 ≤ s.freeSlots 16) ∧
    (let s := moves 0x20000 ended
     (s.openOuts 16).any (fun o => o.ctx != s.cur.ctx) = false ∧ (s.myOuts [0, 1]).isSome = true ∧ (writeBacking 16 0x20000 [] s [(0, 0)]).2.isNone = true) ∧
    (writeBacking 16 0x3FFFFFF800 [] unmaps [(0, 0), (1, 1)]).2.isSome = true ∧ okay (checkBacking unmaps (field 2) [2]) = true ∧
    (let s := onSpan (pagesAt 3)
     okay (bringIn s [0] true) = true ∧ loc ((s.tile 16).spte 0) = 3 ∧ okay ((moves 0x20000).pageOut 16 {} 0x20000 false) = true ∧
     okay ((moves 0x20000).pageOut 16 {} 0x7FFFFFFF0000 false) = false ∧ (noFrame.frameBeside 16 0 0 []).isNone = true ∧ (s.frameBeside 16 0 0 [0]).isSome = true) := by
  decide +kernel
theorem wit_DimensionOrderReachesDestination : (0 : Nat) < 2560 ∧ 2559 < 2560 ∧ 0 ≠ 2559 := by decide

def message : Packet := { src := 17, dest := 16, handler := 5, arg := 7 }
def inQueue (x : Tile) : State := on.setTile 16 x
theorem wit_MessageAndAwnResults : TokensFree on 0 0 ∧ Readable (regs [(4, 2559)] on) [4, 5] ∧ flX ⟨4, 5, 6, 0, 0⟩ = false ∧ flX ⟨4, 5, 6, 1, 0⟩ = true ∧
    bits ((regs [(4, 2559)] on).rs 4) 11 0 < 2560 ∧ on.knownPkg (bits ((regs [(4, 2559)] on).rs 4) 21 12) = true ∧ on.cur.isAwn = false ∧
    okay (useV on [6]) = true ∧ okay (stripsOk on [6]) = true ∧ onAwn.cur.isAwn = true ∧ Readable onAwn [5] ∧ (onAwn.tile 0).msg = none ∧
    bits (on.rs 4) 63 56 = 0 ∧ okAnd (checkAll onMat onMat.who 1 false (cut (feedbackAddr 0) 256)) (fun pl => okay (reside onMat 16 pl (feedbackAddr 0)) &&
      okay (readAll onMat onMat.who .now false ((cut (feedbackAddr 0) 256).zip pl))) = true ∧ 239 < 240 ∧ (inHandler on).handler = true ∧
    on.taskOf on.cur = some 0 ∧ State.reset.taskOf State.reset.cur = none ∧
    16 ≤ ((inQueue { on.tile 16 with awnQ := List.replicate 16 (message, none) }).tile 16).awnQ.length ∧ (on.tile 16).awnQ.length < 16 ∧
    message.hasPayload = false ∧ (on.tile 16).slots.get false 0 = false ∧ (on.tile 16).msg = none ∧ on.awnStopped 16 = false ∧
    (let s := inQueue { on.tile 16 with awnQ := [(message, none)] }; (s.tile 16).awnQ = [(message, none)] ∧ s.handlerAt 16 5 = 0) ∧
    (let s := inQueue { on.tile 16 with awnQ := [(message, none)], handlers := [(5, 0x8000)] }
     s.handlerAt 16 5 ≠ 0 ∧ s.tiles.wf {} = true ∧ s.ctxs.wf {} = true ∧ message.kind ≠ 1 ∧ (s.ctx ⟨16, 15⟩).s.wf 0 = true) := by decide +kernel

/-- An adder entry: ADD 1, IN t, e and w, NEXT 13 (12 R354, R356). -/
def adderEntry : Word := wd (13 * 2 ^ 30 + (1 + 4 + 16) * 2 ^ 25 + 2 ^ 24)
def contribution : Packet := { kind := 1, byRoute := true, route := 12, src := 16 }
def adding : State := on.setTile 16 { on.tile 16 with rtCur := [(12, adderEntry)] }
def token : CountToken := { counts := [1, 0, 0, 0, 0], tree := 3, tokens := 1, route := 12 }
/-- A merge node: MODE 2, IN t and e. -/
def merging : State := on.setTile 16 { on.tile 16 with rtCur := [(12, wd (2 * 2 ^ 46 + (1 + 4) * 2 ^ 13))] }
/-- A router whose packets by a port have used up its credits, and where an input port has the turn for one. -/
def full (port cls : Nat) (s : State) : State := s.setTile 16 { s.tile 16 with credits := [(port * 4 + cls, 16)] }
def behind (port cls : Nat) (outs : List Nat) (s : State) : State := s.setTile 16 { s.tile 16 with turns := [(port, cls, outs)] }
/-- A sum that waits for port 0, and for port 2. -/
def partSum (a b : Nat) : Partial := ⟨12, redColl 0, redStep 0, [(a, contribution), (b, contribution)]⟩
/-- A route class of direction e. -/
def towards : State := on.setTile 16 { on.tile 16 with rtCur := [(12, wd (2 ^ 46 + 2 * 2 ^ 24))] }
theorem wit_FabricResults_room :
    (let c : Packet := { message with dest := 17 }
     let o := dimOrder 16 17 false
     (full o 1 on).canLeave 16 (o, c) = false ∧ (on.tile 16).hasTurn 1 1 (turnsFor 16 [(o, c)]) = true ∧
       ((behind 3 1 [o] on).tile 16).hasTurn 1 1 (turnsFor 16 [(o, c)]) = false) ∧
    (adding.sumRoom 16 0 contribution adderEntry (partSum 2 4) = true ∧ (full 0 1 adding).sumRoom 16 0 contribution adderEntry (partSum 2 4) = true ∧
      adding.sumRoom 16 2 contribution adderEntry (partSum 0 4) = true ∧ (full 0 1 adding).sumRoom 16 2 contribution adderEntry (partSum 0 4) = false ∧
      (partSum 2 4).ports.find 0 = none ∧ ((partSum 0 4).ports.find 0).isSome = true ∧ isPartial contribution (partSum 2 4) = true ∧
      adding.sumRoom 16 0 contribution adderEntry ⟨12, 0, 0, []⟩ = true ∧ 8 ≤ (List.replicate 8 (partSum 2 4)).length) ∧
    (flitsOf (adderSum (((partSum 2 4).ports.put 0 contribution).map (·.2)) contribution) ≤ flitsOf contribution ∧ ((full 0 1 on).tile 16).sentFlits 0 1 ≤ 16 ∧
      (on.tile 16).hasTurn 6 1 [5] = true) ∧
    (rtMode (on.routeEntry 16 12) = 0 ∧ rtAdd (on.routeEntry 16 12) = false ∧ rtOut (on.routeEntry 16 12) = [] ∧
      rtMode (towards.routeEntry 16 12) = 1 ∧ bits (towards.routeEntry 16 12) 26 24 = 2 ∧ towards.tokenRoom 16 [2] = true ∧
      (full 2 tokenFlit.cls towards).tokenRoom 16 [2] = false) := by decide +kernel
theorem wit_FabricResults : message.byRoute = false ∧ message.pkg = on.ua.pkg ∧ { message with dest := 2559 }.dest < 2560 ∧
    (on.tile 16).contained = false ∧ ({ on.tile 16 with contained := true } : Tile).contained = true ∧
    on.wayOf 16 { message with dest := 17 } = .out [(dimOrder 16 17 false, { message with dest := 17 })] ∧
    on.canLeave 16 (dimOrder 16 17 false, { message with dest := 17 }) = true ∧
    on.wayOf 16 contribution = .drop ∧ adding.wayOf 16 contribution = .adder ∧ (on.die 0).contained.get 0 (16 + 16) = 0 ∧
    (rtIn adderEntry).contains 0 = true ∧ (rtIn adderEntry).contains 1 = false ∧ ((on.tile 16).seen.get [] 0).contains (contribId contribution) = false ∧
    (on.tile 16).adder.find? (isPartial contribution) = none ∧ (on.tile 16).adder.length < 8 ∧
    rtMode (merging.routeEntry 16 12) = 2 ∧ (rtIn (merging.routeEntry 16 12)).contains 0 = true ∧ (rtIn (merging.routeEntry 16 12)).contains 1 = false ∧
    (∃ i ∈ rtIn (merging.routeEntry 16 12), (({} : StatNode).add 0 0 token).ports.get 0 i = 0) ∧
    (∀ i ∈ rtIn (merging.routeEntry 16 12), ((({} : StatNode).add 2 0 token).add 0 0 token).ports.get 0 i ≠ 0) := by decide +kernel

def hmOn : State := inHandler on
/-- A flit of slot 7 at an input of tile 16's router. -/
def flitAt : State := on.setTile 16 { on.tile 16 with link := [(1, 7, { task := 0, edge := 0, gran := 0, data := 0, poisoned := false })], slCur := [(7, 0x90)] }
theorem wit_ConfigurationAndDieResults : Readable hmOn [4, 5] ∧ hmOn.mayConfigure 159 = true ∧ rtLegal 159 0 = true ∧ hmOn.mayConfigure 160 = false ∧
    rtLegal 16 (wd (2 ^ 63)) = false ∧ (regs [(4, 0x1000)] hmOn).rs 4 = 0x1000 ∧ ((regs [(4, 0x1000)] hmOn).rs 4).getLsbD 12 = true ∧
    dieOf (0x1000 - 4096) = 0 ∧ portLegal 0 = true ∧ slotLegal 16 0 = true ∧ slotLegal 16 8 = false ∧ (on.tile 16).load = 0 ∧ (on.tile 16).cfgWait = none ∧
    (1 : Nat) ≠ (on.tile 16).load ∧ (on.tile 16).contained = false ∧ (flitAt.slotFlit 16 7).isSome = true ∧
    (∀ sl, sl < 256 → on.slotFlit 16 sl = none) ∧
    ({ on.tile 16 with slCur := [(0, 0x81)] } : Tile).tokensIn 1 = false ∧ ({ on.tile 16 with slCur := [(0, 0x81)], tokens := [(1, 0)] } : Tile).tokensIn 1 = true ∧
    ((List.range 160).eraseDups).length = 160 ∧ ((on.die 0).waves.get [] 1) = [] := by decide +kernel
theorem wit_ConfigurationAndDieResults_steps : on.slotTiles 0 = [] ∧ flitAt.slotTiles 0 = [16] ∧ on.slotFlit 16 0 = none ∧
    (flitAt.nextSlot 0 [16]).isSome = true ∧ ({ flitAt with tiles := [] } : State).nextSlot 0 [16] = none ∧
    joins 16 0 = .own ∧ joins 16 2 = .router 17 ∧ on.edgeShut 16 2 = false ∧
    (let t := 15
     let s := on.setDie 0 { on.die 0 with contained := [(1, 1)] }
     joins t 2 = .router 160 ∧ s.edgeShut t 2 = true) ∧
    ((on.setTile 17 { on.tile 17 with contained := true }).tile 17).contained = true ∧ (on.tile 17).contained = false ∧
    (on.die 0).batches.findIdx? (on.die 0).batchOk = none ∧ [({ src := 1, vc := [0, 1] } : Batch)].findIdx? (on.die 0).batchOk = some 0 ∧
    (0x8000 : Word).getLsbD 15 = true ∧ ({ on.die 0 with portWait := [(0, 1)] } : Die).portWait.get 0 0 ≠ 0 ∧ (on.die 0).portWait.get 0 0 = 0 ∧
    (on.die 0).batches = [] ∧ on.dies.wf {} = true ∧ (on.die 0).vc.wf 0 = true ∧ (on.die 0).batchOk { src := 1, vc := [0, 1] } = true ∧
    (on.die 0).batchOk { src := 1, vc := [0, 2] } = false := by decide +kernel

def onExpert : State := { State.reset with cur := ⟨0, 0⟩ }
def claimOf : CapMsg := { tile := 3, entry := 5, operand := 41, issuer := ⟨16, 0⟩, op := 9 }
def slotOf (m : MbSlot) : Tile := ({} : Tile).setSlot 255 m
theorem wit_ExpertRoutingResults : Readable onExpert [4, 5, 6] ∧ isV 2415 = true ∧ (2415 : Nat) < 2560 ∧ bits (onExpert.rs 5) 63 48 = 0 ∧
    onExpert.cur.isAwn = false ∧ isV onExpert.cur.tile = true ∧ parF 15 3 0 = 15 ∧ (slotOf { entries := [(1, 2)] }).mbox.get {} 255 = { entries := [(1, 2)] } ∧
    (255 + 1 ≤ 256 ∧ windowOf 0x20000 = some 4 ∧ windowOf winA = some 0 ∧ offset winA < windowPages true 0 * 2048) ∧
    (onExpert.tile 0).nextSlot [] = none ∧ ((slotOf { strips := 1, written := [0], posted := true, entries := [(1, 2)] }).nextSlot []).isSome = true ∧
    TokensFree onExpert 0 0 ∧ okay (useV onExpert [6]) = true ∧ okay (stripsOk onExpert [6]) = true ∧ bits (onExpert.rs 4) 63 47 = 0 ∧
    bits (onExpert.rs 4) 27 16 < 2560 ∧ isV (bits (onExpert.rs 4) 27 16) = true ∧ bits (onExpert.rs 5) 63 29 = 0 ∧
    (onExpert.tile 3).contained = false ∧ ((onExpert.tile 3).cap 5).cap ≤ ((onExpert.tile 3).cap 5).granted ∧ ((onExpert.tile 3).cap 5).decided = false ∧
    ({ cap := 1, srcs := 2, unordered := true } : CapEnt).granted < 1 ∧ ({ cap := 1, srcs := 2 } : CapEnt).unordered = false ∧
    ({ cap := 1, srcs := 2 } : CapEnt).ends + 1 < 2 ∧ 1 ≤ ({ cap := 1, srcs := 1 } : CapEnt).ends + 1 := by decide +kernel

theorem wit_WaitClearResults : on.agentStopped ⟨16, 0⟩ = false ∧
    (on.setTile 16 { on.tile 16 with frz := some { stop := 0, stopped := true } }).agentStopped ⟨16, 0⟩ = true ∧
    (let s := on.setMe { on.me with st := .waiting (.token 3) }; (s.ctx ⟨16, 0⟩).st = .waiting (.token 3) ∧ (s.waitClears ⟨16, 0⟩ (.token 3)).2 = true) ∧
    (let s := on.setMe { on.me with st := .held (some (.token 3)) }; (s.ctx ⟨16, 0⟩).st = .held (some (.token 3))) ∧
    (let s := oneOp.setMe { oneOp.me with st := .waiting (.token 3) }; (s.waitClears ⟨0, 0⟩ (.token 3)).2 = false) ∧ (on.tile 16).frz = none := by decide +kernel

def recAt (k st : Nat) (s : State) : State := s.setRecord k (setRecF (s.record k) 1 63 60 st)
theorem wit_GraphResults : State.reset.fenceBusy State.reset.cur 63 3 = false ∧ State.reset.fenceBusy State.reset.cur 63 4 = false ∧ Readable State.reset [4, 5] ∧ (2 ^ 30 - 1 : Nat) < 2 ^ 30 ∧
    (2 ^ 20 - 1) / 2 ^ 20 = State.reset.ua.pkg ∧ 2 ^ 30 ≤ ((regs [(4, 0x40000000)]).rs 4).toNat ∧ (0x100 : BitVec 9).toNat % 256 = 0 ∧
    State.reset.slotState 5 = 0 ∧ (pending 2).slotState 5 = 2 ∧ asidOf (recRoot ((pending 2).record 5)) = 0 ∧
    asidOf (recRoot ((pending 2).record 5)) ≠ 1 ∧ recState ((pending 2).record 5) = 2 ∧ recCnt ((pending 2).record 5) < 3 ∧
    2 ≤ recCnt ((pending 2).record 5) ∧ recState ((recAt 5 3 (pending 2)).record 5) = 3 ∧ recState ((recAt 5 6 (pending 2)).record 5) = 6 ∧
    recCnt ((pending 2).record 5) + 4093 ≤ 4095 ∧ 4095 < recCnt ((pending 2).record 5) + 4094 ∧ (pending 2).slotState 5 ≠ 1 ∧
    State.reset.launches = [] ∧ ((recAt 5 1 (pending 2)).allocMany 3 1).isSome = true ∧
    ((recAt 5 1 (pending 2)).refuses 6 (spawnRecord (graphOp 3 1) ((recAt 5 1 (pending 2)).record 5) none)).isSome = true ∧ (pending 2).slotState (5 % 2 ^ 20) = 2 ∧ recCnt ((pending 2).record 5) ≠ 0 ∧ ((pending 2).task 7).owner = none ∧
    recCnt ((pending 0).record 5) = 0 := by decide +kernel

/-- A die with a fetch of a page of the address space of `on`, waiting or started. -/
def fetching (started : Option Leaf) (root : Nat := placedRoot) : State :=
  on.setDie 0 { on.die 0 with fetchQ := [{ root := wd root, src := 0x20000, dsts := [⟨5, 17, 0, 0, false⟩], started := started }] }
theorem wit_DispatcherResults : ({ State.reset with owner := { quiesced := true } } : State).owner.quiesced = true ∧ State.reset.owner.quiesced = false ∧
    State.reset.recsIn 0 3 = [] ∧ (recAt 5 3 State.reset).recsIn 0 3 ≠ [] ∧ (State.reset.die 0).fetchQ.findIdx? (fun f => f.started.isNone) = none ∧
    ((fetching none).die 0).fetchQ.findIdx? (fun f => f.started.isNone) = some 0 ∧ (((fetching none).die 0).fetchQ[0]?).isSome = true ∧
    ((((fetching none).die 0).fetchQ[0]?).map (fun f => okay ((fetching none).fetchLeaf f))) = some true ∧
    ((((fetching none 0x9000).die 0).fetchQ[0]?).map (fun f => okay ((fetching none 0x9000).fetchLeaf f))) = some false ∧
    (∀ g ∈ ((fetching none).die 0).fetchQ, g.started = none) ∧ (fetching none).time ≤ 0 ∧ (0 : Nat) < ({ fetching none with time := 1 } : State).time ∧
    (∃ g ∈ ((fetching (some placedLeaf)).die 0).fetchQ, g.started.isSome = true ∧ g.cut = false ∧ okay ((fetching none).fetchLeaf { g with cut := true }) = true) ∧
    okay (on.unitLines 0 .now placedLeaf 0x20000 64 (placedLeaf.pa 0x20000)) = true ∧
    ((fetching (some placedLeaf)).die 0).fetchQ.findIdx? (fun f => f.started.isSome) = some 0 ∧
    (State.reset.die 0).fetchQ.findIdx? (fun f => f.started.isSome) = none := by decide +kernel

/-- Task 5 staged and Runnable on tile 17; task 0 of `on` with `texit` waiting. -/
def runnable : State := (((recAt 5 5 on).setTile 17 { staged := some 5 })).setTask 5 { tiles := [17] }
def leaving : State := (on.setMe { on.me with st := .waiting .retire }).setTask 0 { tiles := [16] }
def overBudget (ran : Nat) : State :=
  ((recAt 5 3 (on.setRecord 0 (setRecF placedRecord 2 63 32 100))).setTask 5 { preempt := some 0 }).setTask 0 { tiles := [16], ran := ran }
/-- Task 5 staged, Runnable and a snapshot task; its hold asked for at cycle 0. -/
def snapRunnable (t : Nat) : State :=
  { runnable.setRecord 5 (setRecF (runnable.record 5) 1 47 47 1) with time := t, holds := if t = 0 then [] else [(taskHoldKey 5, (0, false))] }
theorem wit_TaskRunResults : (on.tile 16).staged = none ∧ (runnable.tile 17).staged = some 5 ∧ (recAt 5 4 runnable).slotState 5 ≠ 5 ∧ runnable.slotState 5 = 5 ∧
    runnable.owner.quiesced = false ∧ (∀ u ∈ (runnable.task 5).tiles, (runnable.tile u).run = none ∧ (runnable.tile u).staged = some 5) ∧
    recSnap (runnable.record 5) = false ∧ (leaving.tile 16).run = some 0 ∧ leaving.stoppedTile 16 = false ∧
    (leaving.ctx ⟨16, 0⟩).st = .waiting .retire ∧ (leaving.tile 16).frz = none ∧ leaving.unsettled 16 0 = false ∧
    (leaving.issueOp 0 3 .none).unsettled 16 0 = true ∧ ((leaving.closeRank 16).successors 0).any (fun j => j / 65536 != (leaving.closeRank 16).ua.pkg * 16 + dieOf 16) = false ∧
    (let s := snapRunnable 0; recSnap (s.record 5) = true ∧ (s.snapStep (taskHoldKey 5) (.task 5)).2 = none) ∧
    (let s := snapRunnable 40; ((s.snapStep (taskHoldKey 5) (.task 5)).2.bind (fun x => x)).isSome = true) ∧
    (overBudget 101).slotState 0 = 6 ∧ ((overBudget 101).recsIn 0 3).any (fun j => ((overBudget 101).task j).preempt == some 0) = true ∧
    recWdog ((overBudget 101).record 0) = 100 ∧ (∀ u ∈ ((overBudget 101).task 0).tiles, ((overBudget 101).tile u).frz = none) ∧
    100 < ((overBudget 101).task 0).ran + ((overBudget 101).time - ((overBudget 101).task 0).started) ∧
    ((overBudget 100).task 0).ran + ((overBudget 100).time - ((overBudget 100).task 0).started) ≤ 100 := by decide +kernel

def freezing (g : Freeze) (t : Nat := 16) : State := inHandler (on.setTile t { on.tile 16 with frz := some g })
def ops4 : State := regs [(4, 17), (5, 0x100000)] (inHandler on)
/-- Task 5 Frozen of the dispatcher's own, with an image whose place cannot be read. -/
def lost : State := { (recAt 5 7 State.reset).setTask 5 { auto := true, imageId := [(0, 2)], tiles := [20] } with
  images := [(1, { task := 5, rank := 0, from_ := 20, bytes := [], ctxs := [], ops := [], tile := {}, xfers := [] })] }
def alone : State := (recAt 5 7 State.reset).setTask 5 { auto := true }
theorem wit_FreezeAndRestoreResults : (State.reset.tile 16).run = none ∧ (on.tile 16).run ≠ none ∧ (on.tile 16).frz = none ∧
    ((freezing { stop := 6 }).tile 16).frz = some { stop := 6 } ∧ ((freezing { stop := 0, stopped := true }).tile 16).run = some 0 ∧
    ((freezing { stop := 0, stopped := true }).tile 16).rank = 0 ∧ (freezing { stop := 0, stopped := true }).inboundEdges 0 = [] ∧
    ((freezing { stop := 0, stopped := true }).tile 16).pageIns = [] ∧ (freezing { stop := 0, stopped := true }).awaitsResponse 16 = false ∧
    Readable ops4 [4, 5] ∧ on.handler = false ∧ ops4.handler = true ∧ (ops4.rs 4).toNat < 2560 ∧ (ops4.rs 5).toNat % 4096 = 0 ∧ windowOf (ops4.rs 5) = some 4 ∧
    okay (checkPiece ops4 ops4.who 0x100000 256 1 false) = true ∧ (17 : Nat) ≠ ops4.cur.tile ∧ (ops4.tile 17).run = none ∧ (ops4.tile 17).frz = none ∧
    ((freezing { stop := 0, imaged := true } 17).tile 17).frz = some { stop := 0, imaged := true } ∧
    ((ops4.setTile 17 { run := some 0 }).tile 17).run = some 0 := by decide +kernel
theorem wit_FreezeAndRestoreResults_area : okay (checkPiece ops4 ops4.who (0x100000 + wd (4096 * 1279)) 4096 2 false) = true ∧
    (freezing { stop := 0, stopped := true, dike := true }).task 0 = {} ∧ ((freezing { stop := 0, stopped := true, dike := true }).tile 16).run = some 0 := by
  decide +kernel
/-- A request on its way to tile 16, and one that another handler of tile 17 made. -/
def asked : Freeze := { stop := 0, asker := some (⟨17, 0⟩, 3, 9) }
def asking : State := on.setTile 16 { on.tile 16 with ask := some asked }
def report0 : ErrRec := { cls := 1, reach := 3 }
theorem wit_FreezeAndRestoreResults_requests : (asking.tile 16).ask = some asked ∧ (on.tile 16).ask = none ∧
    (({ stop := 6 } : Freeze).awn = false ∧ ({ stop := 6 } : Freeze).report = none ∧ ({ stop := 6 } : Freeze).stopped = false) ∧
    ({ stop := 6, report := some (1, report0) } : Freeze).report = some (1, report0) ∧ (on.tile 16).run = some 0 ∧ (on.tile 17).run = none ∧
    (freezing { stop := 0, stopped := true }).filling 16 = false ∧ (freezing { stop := 0, stopped := true }).awaitsResponse 16 = false ∧
    ((freezing { stop := 0, stopped := true }).setDie 0 { on.die 0 with
      fetchQ := [{ root := wd placedRoot, src := 0x20000, dsts := [⟨0, 16, 0, 0, false⟩], started := some placedLeaf }] }).filling 16 = true ∧
    ((freezing { stop := 0, stopped := true }).issueOp 0 3 .none).awaitsResponse 16 = true ∧
    (∀ g, (ops4.tile 17).frz = some g → g.asker = none) ∧ ((ops4.setTile 17 { ops4.tile 17 with ask := some asked }).tile 17).ask ≠ none ∧
    ((freezing asked 17).tile 17).frz = some asked ∧ asked.asker ≠ none ∧ asked.imaged = false ∧ ((freezing asked 17).tile 17).run = some 0 ∧
    ((freezing { stop := 0, dike := true } 17).tile 17).frz = some { stop := 0, dike := true } ∧
    (freezing { stop := 0, dike := true } 17).agenda.contains (.sluiceImageWritten 17) = false := by decide +kernel
theorem wit_FreezeAndRestoreResults_gang : State.reset.slotState 5 ≠ 7 ∧ alone.slotState 5 = 7 ∧ (alone.task 5).auto = true ∧ (alone.task 5).faulted = false ∧
    alone.owner.quiesced = false ∧ alone.outranked 5 = false ∧ alone.admits (alone.restoreCost 5) = true ∧
    ({ alone with budget := -1 } : State).admits (({ alone with budget := -1 } : State).restoreCost 5) = false ∧
    (alone.homesFor 5 (alone.imagesInOrder 5) []).isSome = true ∧
    okAnd (alone.restoreTask 5 []) (fun x => okay x.2) = true ∧
    ((lost.homesFor 5 (lost.imagesInOrder 5) []).map (fun l => okAnd (lost.restoreTask 5 l) (fun x => !okay x.2))) = some true ∧
    (((List.range 160).foldl (fun s t => s.setTile t { s.tile t with contained := true }) lost).homesFor 5 (lost.imagesInOrder 5) []).isNone = true := by
  decide +kernel

/-- An edge of one page of window C from task 0 to task 1, which runs on tile 20; its region resident or not, its granule full or not. -/
def edgeWord (peer : Nat) (consumes : Bool) : Word := wd (2 ^ 63 + (if consumes then 2 ^ 62 else 0) + peer * 2 ^ 32 + 2 * 2 ^ 30 + 16)
def edged (l : Nat) (full : BitVec 128) : State :=
  let s := (on.setRecord 0 (setRecD placedRecord 28 (edgeWord 1 false))).setRecord 1 (setRecD placedRecord 28 (edgeWord 0 true))
  ((s.setTile 20 { ({ run := some 1 } : Tile).setSpte (pkey 2 0) (mkSpte l false false 0) with frames := [(2 * 2048, { full := full })] })).setTask 1 { tiles := [20] }
def granule : EdgeGranule := { task := 0, edge := 0, gran := 127, data := 5, poisoned := false }
theorem wit_StreamEdgeResults : ((on.setTask 0 { closed := [(0, true)] }).task 0).closed.get false 0 = true ∧ on.peerEdge 0 0 = none ∧
    (edged 1 0).peerEdge 0 0 = some (1, 0) ∧ ((edged 1 0).task 0).closed.get false 0 = false ∧ ((edged 1 0).setTask 1 {}).regionTable 1 = none ∧
    ((edged 1 0).regionTable 1).map (fun x => (x.1, x.2.1)) = some (20, true) ∧
    (let s := edged 1 0
     let r := regionPlace (recEdge (s.record 0) 0) (recEdge (s.record 1) 0) granule.gran
     let e := (s.tile 20).spt.get 0 r.1
     loc e = 1 ∧ ((s.tile 20).frame (r.1 / 8192) (place e)).full.getLsbD r.2 = false ∧ (s.tile 20).frz = none) ∧
    (let s := edged 1 (BitVec.allOnes 128)
     let r := regionPlace (recEdge (s.record 0) 0) (recEdge (s.record 1) 0) granule.gran
     ((s.tile 20).frame (r.1 / 8192) (place ((s.tile 20).spt.get 0 r.1))).full.getLsbD r.2 = true) ∧
    (let s := edged 3 0
     loc ((s.tile 20).spt.get 0 (regionPlace (recEdge (s.record 0) 0) (recEdge (s.record 1) 0) granule.gran).1) ≠ 1) ∧
    (127 : Nat) < 128 ∧ on.tasks.wf {} = true ∧ (on.task 0).permits.wf 0 = true := by decide +kernel

/-- Queue 7 with its write index at 0x40000 and its ring at 0x41000, in the address space of `on`; packet 0 a packet of a type. -/
def desc : QueueDesc := { base := 0x41000, log := 4, prio := 3, errq := 9, qp := 1, gvroot := wd placedRoot, widx := 0x40000 }
def queued (x : Queue) (w : Nat := 1) : State := { on.memWrite 0x40000 (leBytes 4 w) with queues := [(7, x)] }
def queue7 : Queue := { desc := desc, base := 0x41000, size := 16, prio := 3 }
/-- A packet from its first 256 bits, and one that a queue holds. -/
def packet (typ : Nat) (rest : Nat := 0) : BitVec 1024 := BitVec.ofNat 1024 (typ + rest)
def holding (p : BitVec 1024) (read : Nat := 0) : State := queued { queue7 with pkts := [(read, p)], read := read, write := read + 1 } (read + 1)
def copyPacket : BitVec 1024 := packet 3 (0x20000 * 2 ^ 128 + 0x28000 * 2 ^ 192 + 64 * 2 ^ 256)
theorem wit_CommandQueueResults : on.queue 7 = none ∧ (queued queue7).queue 7 = some queue7 ∧ queue7.isErr = false ∧ queue7.stopped = false ∧
    (queued queue7).owner.quiesced = false ∧ (queued queue7).cx.failedA = false ∧ (queued queue7).cx.pause = none ∧
    (queued queue7 17).writeIndex queue7 = some 17 ∧ queue7.size < ahead 17 queue7.read ∧
    (queued queue7 16).writeIndex queue7 = some 16 ∧ ahead 16 queue7.read ≤ queue7.size ∧
    (queued queue7).packetAt { queue7 with desc := { desc with gvroot := 0x9000 } } 0 = none ∧ (queued queue7).packetAt queue7 15 = some 0 ∧
    firstOffence ((queued queue7).offences 7 queue7 0) = none ∧ (firstOffence ((queued queue7).offences 7 queue7 (packet 7))).isSome = true ∧
    packetBad 0 = [] := by decide +kernel
/-- Packet 0 of a queue that holds it, about to work; and where the first die has no Granary slot left. -/
def begun (p : BitVec 1024) : State := ((holding p).acquireScope (pkAcquire p)).markPacket 7 0 1
def noSlots (s : State) : State := s.setDie 0 { s.die 0 with fresh := 65536 }
theorem wit_CommandQueueResults_packets :
    (holding (packet 0)).queue 7 = some { queue7 with pkts := [(0, packet 0)], write := 1 } ∧
    ({ queue7 with pkts := [(0, packet 0)], write := 1 } : Queue).mayStart 0 false = true ∧
    ({ queue7 with pkts := [(0, packet 0), (1, packet 6 (64 * 2 ^ 8))], write := 2 } : Queue).mayStart 1 true = false ∧ pkBarrier (packet 6 (64 * 2 ^ 8)) = true ∧
    pkType (packet 4) = 4 ∧ pkType (packet 5) = 5 ∧ ((begun (packet 5)).event 0).state ≠ 2 ∧ (((begun (packet 5)).setEvent 0 { state := 2 }).event 0).state = 2 ∧
    ((begun (packet 5)).queue 7).isSome = true ∧
    pkType copyPacket = 3 ∧ ((begun copyPacket).rangeLeaves (wd placedRoot) 1 (pk copyPacket 16 8) (pk copyPacket 32 8)).isSome = true ∧
    ((begun copyPacket).rangeLeaves (wd placedRoot) 2 (pk copyPacket 24 8) (pk copyPacket 32 8)).isSome = true ∧ pk copyPacket 32 8 ≠ 0 ∧
    (begun copyPacket).rangeOk 0x9000 1 (pk copyPacket 16 8) (pk copyPacket 32 8) = false ∧
    pkType (packet 1) = 1 ∧ ((begun (packet 1)).allocSlot (pk (packet 1) 26 1 / 4 % 16)).isSome = true ∧ ((noSlots (begun (packet 1))).allocSlot 0).isNone = true ∧
    (let p := packet 1 (0x4000000000 * 2 ^ 832); (firstOffence ((begun p).launchBad 7 queue7 p)).isSome) = true ∧ pk (packet 0) 10 1 % 2 ≠ 1 := by decide +kernel
/-- A LAUNCH that no check refuses: 1 x 1 tiles, root of `on`, code at 0x10000. -/
def launchPacket1 : BitVec 1024 := packet 1 (0x10000 * 2 ^ 128 + 1 * 2 ^ 192 + 1 * 2 ^ 200)
theorem wit_CommandQueueResults_launch : firstOffence ((begun launchPacket1).launchBad 7 queue7 launchPacket1) = none := by decide +kernel
/-- A graph image of no record. -/
def graphPacket0 : BitVec 1024 := packet 2 (0x44000 * 2 ^ 128)
theorem wit_CommandQueueResults_graph : pkType graphPacket0 = 2 ∧ ((begun graphPacket0).readRange (wd placedRoot) 2 0x44000 (257 * 1)).isSome = true ∧
    (begun graphPacket0).readRange 0x9000 2 0x44000 (257 * 1) = none ∧
    firstOffence ((graphRecords [] (fun _ => 0) 0).2 ++ graphBad [] (fun _ => 0) 0 [] ++ recordsBad 7 queue7 false [] []) = none ∧
    (firstOffence ((graphRecords [0] (fun _ => 0) 1).2 ++ graphBad [0] (fun _ => 0) 1 [(0, [])] ++ recordsBad 7 queue7 false [0] [(0, [])])).isSome = true ∧
    ((begun graphPacket0).allocFor (fun _ => 0) [0]).isSome = true ∧ ((noSlots (begun graphPacket0)).allocFor (fun _ => 0) [0]).isNone = true ∧
    ((begun graphPacket0).allocFor id [0, 0]).isSome = true := by decide +kernel

def host : Msg := { key := 5, qp := 1, port := 2, tag := 3 }
def owned (o : Owner := { digest := some 5 }) : State := { on with owner := o }
theorem wit_OwnerMessageResults : (owned).owner.digest = some host.key ∧ on.owner.digest ≠ some host.key ∧ on.owner.digest = none ∧ (owned).owner.heir ≠ some 0 ∧
    (let s := owned { digest := some 5, heir := some 6, heirAt := 10 }; s.owner.heir = some 6 ∧ s.time < s.owner.heirAt) ∧
    (let s := owned { digest := some 5, heir := some 6, heirAt := 0 }; s.owner.heirAt ≤ s.time) ∧
    (owned).lapsed = false ∧ (owned).cx.pause = none ∧ ({ owned with cx := { pause := some (0, host) } } : State).cx.pause ≠ none ∧
    ({ owned { digest := some 5 } with time := 3 * 100 * 3600000 + 1 } : State).lapsed = true ∧
    ({ owned { digest := some 5 } with time := 3 * 100 * 3600000 } : State).lapsed = false ∧ bodyBytes 4 = some 72 ∧ (19, 1) ∈ bodyZeros 8 ∧
    SMap.find ([(1, 256)] : SMap Nat) 1 = some 256 ∧ SMap.find ([(1, 2)] : SMap Nat) 1 ≠ some 256 ∧ (queued queue7 1).unread queue7 = true ∧
    (let bs := leBytes 2 2 ++ leBytes 2 0 ++ leBytes 4 3 ++ leBytes 4 50; leNat (bs.take 2) = 2 ∧ 12 ≤ bs.length ∧ leNat ((bs.drop 2).take 2) = 0) ∧
    (let bs := leBytes 2 3 ++ leBytes 2 0 ++ leBytes 4 3 ++ leBytes 48 50; leNat (bs.take 2) = 3 ∧ 56 ≤ bs.length) ∧
    (let bs := leBytes 2 10 ++ leBytes 2 0 ++ leBytes 4 3; leNat (bs.take 2) = 10 ∧ 8 ≤ bs.length) ∧
    (let bs := leBytes 2 8 ++ leBytes 2 0 ++ leBytes 4 3 ++ List.replicate 24 (1 : Byte); leNat (((bs.drop 8).drop 19).take 1) ≠ 0) ∧
    (9 : Nat) < 10 ∧ 10000 < 10001 ∧ 10 ≤ 10 ∧ (999 : Nat) < 1000 ∧ 6000 < 6001 ∧ 1000 ≤ 1000 ∧ 6000 ≤ 6000 ∧ descBad desc = false ∧ (owned).queue 1023 = none ∧
    (owned).errqOk 1023 desc.errq = true ∧ (owned).queue desc.errq = none ∧
    ((owned).post .queueWaitCycleSweep).agenda.contains .queueWaitCycleSweep = true ∧ ((queued queue7).queue 7).isSome = true ∧
    (queued queue7 0).unread queue7 = false ∧ queue7.pkts = [] ∧ on.recs ≠ [] ∧ State.reset.recs = [] ∧
    (let r : RegionDesc := { base := 0x1FFFFFFFFFFF000, len := 4096, asid := 65535, rights := 7, qp := 1 }
     r.base.toNat < 2 ^ 57 ∧ r.base.toNat % 4096 = 0 ∧ r.len % 4096 = 0 ∧ 4096 ≤ r.len ∧ r.rights.toNat ≤ 7 ∧ r.asid ≤ 65535) ∧
    (let s := owned { digest := some 5, beatAt := 1 }; s.time < s.owner.beatAt + 3 * s.owner.beatMs * 3600000) ∧
    (let s := { owned { digest := some 5 } with time := 3 * 100 * 3600000 }; s.owner.beatAt + 3 * s.owner.beatMs * 3600000 ≤ s.time) := by decide +kernel

theorem wit_ManagementMessageResults : (owned).owner.digest = some host.key ∧ (5 : Nat) ≤ 7 ∧ (0x1FFFFFFFFFFFFFF : Word).toNat < 2 ^ 57 ∧
    State.reset.tasksIn 6 = [] ∧ on.tasksIn 6 ≠ [] ∧ (owned { digest := some 5, quiesced := true }).owner.quiesced = true ∧ State.reset.tasksIn 3 = [] ∧
    State.reset.tasksIn 5 = [] ∧ State.reset.tasksIn 7 = [] ∧ State.reset.queues = [] ∧ ((2559 : Nat) < 2560 ∨ (2559 : Nat) = 0xFFFF) ∧ 5 / 2 ^ 20 = on.ua.pkg ∧
    (recAt 5 7 on).slotState (5 % 2 ^ 20) = 7 ∧ ((recAt 5 7 on).task 5).imageId = [] ∧ on.slotState 5 ≠ 7 ∧ (recAt 5 2 on).slotState 5 = 2 ∧
    (recAt 5 3 on).slotState 5 = 3 ∧ on.slotState 5 ≠ 2 ∧ on.slotState 5 ≠ 3 ∧ (owned).cx.pause = none ∧
    (let p : State := { holding (packet 0) with cx := { pause := some (0, host) } }
     p.cx.pause = some (0, host) ∧ ∃ e ∈ p.queues, ∃ k ∈ e.2.pkts, e.2.status.get 0 k.1 = 0) ∧
    (∀ e ∈ (queued queue7).queues, ∀ p ∈ e.2.pkts, e.2.status.get 0 p.1 ≠ 0) ∧ on.quiescing = false ∧
    (let s := owned { digest := some 5, quiesced := true }; (s.post (.quiesce host)).quiescing = true) ∧
    (recAt 5 7 on).taskImages 5 = [] ∧ (lost.task 5).imageId ≠ [] ∧ lost.admits (lost.restoreCost 5) = true ∧
    ({ lost with budget := -1 } : State).admits (({ lost with budget := -1 } : State).restoreCost 5) = false ∧
    ((lost.frestoreHomes 5 0xFFFF).map (fun l => okAnd (lost.restoreTask 5 l) (fun x => !okay x.2))) = some true ∧
    (((List.range 160).foldl (fun s g => s.setTile g { s.tile g with contained := true }) lost).frestoreHomes 5 0xFFFF).isNone = true := by decide +kernel
theorem wit_ManagementMessageResults_restore :
    ((alone.frestoreHomes 5 0xFFFF).map (fun l => okAnd (alone.restoreTask 5 l) (fun x => okay x.2))) = some true := by decide +kernel

/-- A region of 4 KiB of the address space of `on`, known from a queue, with every right. -/
def registered : State := { queued queue7 with
  qps := [(1, 2)], hosts := [(1, 5)], owner := { digest := some 5 }, regions := [(77, { desc := { base := 0x50000, len := 4096, asid := 0, rights := 7, qp := 1 }, key := 77 })] }
def rdma : Rdma := { qp := 1, rkey := 77, va := 0x50FF8, len := 8, data := List.replicate 8 1 }
theorem wit_HostLinkResults : ({ on with qps := [(1, 256)] } : State).qpUp 1 = false ∧ registered.qpUp 1 = true ∧ registered.grant rdma 1 8 = some (wd placedRoot) ∧
    registered.grant rdma 0 8 = some (wd placedRoot) ∧ ({ registered with owner := {} } : State).grant rdma 1 8 = none ∧
    registered.due.owner.digest = some (registered.hostOf 1) ∧ registered.grant rdma 2 8 = some (wd placedRoot) ∧ registered.grant { rdma with rkey := 78 } 1 8 = none ∧
    registered.grant { rdma with va := 0x50FF9 } 0 8 = none ∧ registered.grant { rdma with qp := 2 } 2 8 = none ∧
    registered.rangeOk (wd placedRoot) 2 0x50FF8 8 = true ∧ registered.rangeOk (wd placedRoot) 1 0x50FF8 8 = true ∧
    registered.rangeOk (wd placedRoot) 8 0x50FF8 8 = true ∧ registered.poisonIn (wd placedRoot) 0x50FF8 8 = none ∧
    (registered.readRange (wd placedRoot) 2 0x50FF8 8).isSome = true ∧ 0x50FF8 % 8 = 0 ∧ on.ua.up = false ∧ (1023 : Nat) ≤ 1023 ∧
    ({ on with ua := { up := true } } : State).ua.up = true ∧ 2 ^ 40 < 2 ^ 40 - 31 + 32 ∧ 2 ^ 40 - 256 + 256 ≤ 2 ^ 40 ∧ (256 : Nat) ≤ 256 ∧
    (linePieces (2 ^ 40 - 256) 256).find? (fun p => on.linePois p.1) = none ∧ (2 ^ 40 - 32) % 32 + 32 ≤ 32 ∧ on.linePois (2 ^ 40 - 32) = false ∧
    (let e := entryTile 2559; on.roomFor e.1 (8 + e.2) { cls := 1 } = true ∧
      (on.setTile e.1 { on.tile e.1 with credits := [((8 + e.2) * 4 + 1, 16)] }).roomFor e.1 (8 + e.2) { cls := 1 } = false) := by decide +kernel

def launched (l : Launch) : State := { State.reset with launches := [(3, l)] }
theorem wit_WatchResults : State.reset.cx.missed < 2 ∧ 2 ≤ ({ missed := 2 } : Machine.Complex).missed ∧ State.reset.cx.active = 0 ∧ State.reset.cx.failedB = false ∧
    ({ failedB := true } : Machine.Complex).failedB = true ∧ State.reset.launches.find 3 = none ∧
    (launched { queue := 7, idx := 0, tasks := [] }).launches.find 3 = some { queue := 7, idx := 0, tasks := [] } ∧
    (launched { queue := 7, idx := 0, tasks := [], ended := true }).launches.find 3 = some { queue := 7, idx := 0, tasks := [], ended := true } ∧
    ({ State.reset with sweepAt := 1 } : State).time < 1 ∧ (queued queue7).sweepAt ≤ (queued queue7).time ∧
    (queued queue7).queueCycles = [] ∧ (queued queue7).queues ≠ [] := by decide +kernel
/-- A launch whose only producer retired on tile 16 with a balance of one token. -/
def owing : Launch := { queue := 7, idx := 0, tasks := [], sweeps := 1, idle := true, bal := [(16, 1)], homes := [(1, 16)], states := [16] }
theorem wit_WatchResults_sweeps :
    (let l : Launch := { queue := 7, idx := 0, tasks := [], sweeps := 1, idle := true }
     let s := launched l
     l.sweeps ≠ 0 ∧ l.totals = (l.lastSent, l.lastRecv) ∧ s.launchIdle 3 = true ∧ (s.tiles.map Prod.fst).filter (s.lingers 3 l) = [] ∧ l.tasks = []) ∧
    (let s : State := { on with launches := [(3, owing)] }
     (on.setTile 16 {}).tiles.wf {} = true ∧ owing.totals = (owing.lastSent, owing.lastRecv) ∧ (s.tiles.map Prod.fst).filter (s.lingers 3 owing) = [16] ∧
       s.tileIdle 3 16 = true ∧ owing.balanceAt 16 ≠ 0 ∧ s.quiescent 3 16 = false) := by decide +kernel
/-- The region of `registered` with the home of its last line holding writes back, and with that line poisoned. -/
def shutLine : State :=
  match registered.walk (wd placedRoot) 0x50FF8 with
  | .ok l => registered.setDir (l.pa 0x50FF8 / 32) { ptrs := [1, 2, 3, 4], ovf := true }
  | .error _ => registered
def badLine : State :=
  match registered.walk (wd placedRoot) 0x50FF8 with
  | .ok l => registered.setLinePois (l.pa 0x50FF8) true
  | .error _ => registered
theorem wit_HostLinkResults_shut : shutLine.grant rdma 1 8 = some (wd placedRoot) ∧ shutLine.shutIn (wd placedRoot) 0x50FF8 8 ≠ [] ∧
    registered.shutIn (wd placedRoot) 0x50FF8 8 = [] ∧ (badLine.poisonIn (wd placedRoot) 0x50FF8 8).isSome = true ∧
    (State.reset.setDir 9 { ovf := true }).shutAt 288 32 ≠ [] ∧ State.reset.shutAt 288 32 = [] ∧ (State.reset.setLinePois 288 true).linePois 288 = true := by
  decide +kernel
theorem wit_PackageEventResults : State.reset.mainUp = true ∧ on.rem.find (remKey 1 288) = none ∧
    (on.setRem (remKey 1 288) {}).rem.find (remKey 1 (9 * 32)) = some {} ∧ ((on.setDie 0 { on.die 0 with contained := [(4, 1)] }).die 0).contained.get 0 4 ≠ 0 ∧
    ({ State.reset with mainUp := false } : State).mainUp = false ∧ (State.reset.tile 2559).c0.length + (State.reset.tile 2559).link.length = 0 ∧
    ((State.reset.setTile 5 { contained := true }).tile 5).contained = true ∧ bits (((State.reset.die 0).setCr 0x20D 0xFFFFFFFF).cr 0x20D) 31 0 = 0xFFFFFFFF ∧ (2 ^ 40 - 1 : Nat) < 2 ^ 40 ∧ (2559 : Nat) < 2560 ∧ (State.reset.tile 2559).contained = false ∧
    (let c := (State.reset.die 0).cr 0x20D; min 0xFFFFFFFF (bits c 31 0 + 1) % 2 ^ bits c 36 32 ≠ 0 ∨ bits c 36 32 = 0) ∧
    (let c := ((State.reset.die 0).setCr 0x20D (wd (3 * 2 ^ 32))).cr 0x20D; min 0xFFFFFFFF (bits c 31 0 + 1) % 2 ^ bits c 36 32 ≠ 0) := by decide +kernel
/-- What a fetch that is served gives has a property. -/
def got {α : Type} (r : Fetched α) (p : State → α → Bool) : Bool :=
  match r with
  | .got s x => p s x
  | _ => false
theorem wit_StepRunsDecodedSheaf : on.showSome = on ∧ (inHandler (State.placeSheaf on 0x181200000)).showSome = inHandler (State.placeSheaf on 0x181200000) ∧
    on.bootFailed = false ∧ on.mainUp = true ∧ on.agenda = [] ∧ on.issuers = [⟨16, 0⟩] ∧
    (let b := ({ on with fc := on.fc + 1 } : State).begin ⟨16, 0⟩
     b.debugMatch [] = none ∧ got b.fetch (fun u w => w == 0 && (u.debugMatch [.nopOp, .anop]).isNone) = true) ∧
    (let s := inHandler (State.placeSheaf on 0x181200000)
     let b := ({ s with fc := s.fc + 1 } : State).begin ⟨16, 0⟩
     s.agenda = [] ∧ s.issuers = [⟨16, 0⟩] ∧ b.debugOn = false ∧ b.debugMatch [] = none ∧
       got b.fetch (fun u w => w == 0x181200000#64 && (u.debugMatch [.movhi 4 1]).isNone) = true) ∧
    (∀ e ∈ on.ctxs, ∀ r ∈ [({ clr := true, win := 0, off := 0, len := 16, addr := 0, rc := 0, size := 6 } : FeRead)], e.2.st ≠ .waiting (.fullEmpty r)) ∧ on.errs = [] := by decide +kernel
theorem wit_StepKeepsNoSheafInIssue : NoSheafInIssue on ∧ NoSheafInIssue State.reset := by
  constructor <;> exact ⟨rfl, rfl, rfl, rfl⟩
theorem wit_DecodeEncodeAgree : (Instr.addOp ⟨31, 31, 31⟩).wf false = true ∧ (encode (.addOp ⟨31, 31, 31⟩)).isSome = true ∧
    (Instr.movi 31 0xFFFFFFFF).wf true = true ∧ (encode (.movi 31 0xFFFFFFFF)).isSome = true := by decide +kernel

end Sys2Proof.Tests
end

section
/-! SUPPORT. What a step holds of the sheaf in issue is four fields of the state. The writes with which a turn ends — those of the full-empty reads that
are served and of the error records that are flushed — leave the four alone, whatever memory, directory, event table or queue they change. -/

namespace Sys2Proof.Machine

/-- What the state holds of the sheaf in issue (00 R5): the latch of its sources, the strips popped, the next address and the op's fate. -/
def State.inIssue (s : State) : Option Ctx × List Nat × Option Word × Fate := (s.latch, s.popped, s.npc, s.fate)

theorem noSheafInIssue_iff (s : State) : NoSheafInIssue s ↔ s.inIssue = (none, [], none, .ran) := by
  simp [NoSheafInIssue, State.inIssue]

/-- A fold of steps that leave a part of the state leaves it. -/
theorem foldl_leaves {α β : Type} (part : State → β) (f : State → α → State) (hf : ∀ s x, part (f s x) = part s) (l : List α) (s : State) :
    part (l.foldl f s) = part s := by
  induction l generalizing s with
  | nil => rfl
  | cons x l ih => rw [List.foldl_cons, ih, hf]

/-! ### Writes of one part of the state -/

@[simp] theorem State.setCtx_inIssue (s : State) (a : Agent) (c : Ctx) : (s.setCtx a c).inIssue = s.inIssue := rfl
@[simp] theorem State.setMe_inIssue (s : State) (c : Ctx) : (s.setMe c).inIssue = s.inIssue := rfl
@[simp] theorem State.setTile_inIssue (s : State) (t : Nat) (x : Tile) : (s.setTile t x).inIssue = s.inIssue := rfl
@[simp] theorem State.setDie_inIssue (s : State) (d : Nat) (x : Die) : (s.setDie d x).inIssue = s.inIssue := rfl
@[simp] theorem State.setQueue_inIssue (s : State) (q : Nat) (x : Queue) : (s.setQueue q x).inIssue = s.inIssue := rfl
@[simp] theorem State.setRecord_inIssue (s : State) (k : Nat) (r : BitVec 2048) : (s.setRecord k r).inIssue = s.inIssue := rfl
@[simp] theorem State.setLinePois_inIssue (s : State) (a : Nat) (b : Bool) : (s.setLinePois a b).inIssue = s.inIssue := rfl
@[simp] theorem State.setVer_inIssue (s : State) (line : Nat) (v : LineVer) : (s.setVer line v).inIssue = s.inIssue := rfl
@[simp] theorem State.setDir_inIssue (s : State) (line : Nat) (e : DirEnt) : (s.setDir line e).inIssue = s.inIssue := rfl
@[simp] theorem State.post_inIssue (s : State) (i : Instr) : (s.post i).inIssue = s.inIssue := rfl
@[simp] theorem State.toMgmt_inIssue (s : State) (rs : List ErrRec) : (s.toMgmt rs).inIssue = s.inIssue := rfl
@[simp] theorem State.hideMem_inIssue (s : State) (w : Option Writer) (pa n : Nat) : (s.hideMem w pa n).inIssue = s.inIssue := rfl

/-! ### Writes at the home of a line -/

@[simp] theorem State.lineWrite_inIssue (s : State) (a : Nat) (bs : List Byte) (p : Bool) : (s.lineWrite a bs p).inIssue = s.inIssue := by
  have bytes : (s.memWrite a bs).inIssue = s.inIssue := by rw [State.memWrite_eq]; rfl
  unfold State.lineWrite
  dsimp only
  split_ifs <;> exact bytes

@[simp] theorem State.makeRoom_inIssue (n : Nat) (s : State) (d line : Nat) : (s.makeRoom d line n).inIssue = s.inIssue := by
  induction n generalizing s with
  | zero => rfl
  | succ n ih =>
    unfold State.makeRoom
    split_ifs
    · rfl
    · split
      · rfl
      · exact ih _

@[simp] theorem State.trimVersions_inIssue (s : State) (line : Nat) (v : LineVer) (older : List Version) :
    (s.trimVersions line v older).inIssue = s.inIssue := by
  unfold State.trimVersions
  split_ifs <;> rfl

@[simp] theorem State.stampLine_inIssue (s : State) (line stamp : Nat) : (s.stampLine line stamp).inIssue = s.inIssue := by
  have past (u v : State) (h : u.inIssue = v.inIssue) (n : Nat) : ({ u with time := n } : State).inIssue = v.inIssue := h
  unfold State.stampLine
  dsimp only
  split_ifs <;> exact past _ _ (by simp) _

@[simp] theorem State.homeWrite_inIssue (s : State) (w : Option Writer) (pa : Nat) (bs : List Byte) (p ver : Bool) :
    (s.homeWrite w pa bs p ver).inIssue = s.inIssue := by
  unfold State.homeWrite
  cases ver <;> simp

/-! ### Batches between dies -/

@[simp] theorem State.dropCopy_inIssue (s : State) (d line : Nat) : (s.dropCopy d line).inIssue = s.inIssue := rfl

@[simp] theorem State.applyBatch_inIssue (s : State) (d : Nat) (b : Batch) : (s.applyBatch d b).inIssue = s.inIssue := by
  unfold State.applyBatch
  dsimp only
  rw [foldl_leaves State.inIssue _ (fun s line => s.dropCopy_inIssue d line), State.setDie_inIssue]

@[simp] theorem State.applyBatches_inIssue (n : Nat) (s : State) (d : Nat) : (s.applyBatches d n).inIssue = s.inIssue := by
  induction n generalizing s with
  | zero => rfl
  | succ n ih =>
    unfold State.applyBatches
    dsimp only
    split
    · rfl
    · split
      · rw [ih, State.applyBatch_inIssue, State.setDie_inIssue]
      · rfl

@[simp] theorem State.takeBatch_inIssue (s : State) (d : Nat) (b : Batch) : (s.takeBatch d b).inIssue = s.inIssue := by
  simp [State.takeBatch]

@[simp] theorem State.catchUp_inIssue (s : State) (d : Nat) (clock : List Nat) : (s.catchUp d clock).inIssue = s.inIssue := by
  unfold State.catchUp
  dsimp only
  rw [foldl_leaves State.inIssue]
  · rfl
  · intro s i
    split <;> simp

@[simp] theorem State.crossTo_inIssue (s : State) (d h : Nat) : (s.crossTo d h).inIssue = s.inIssue := by
  unfold State.crossTo
  split_ifs <;> simp

@[simp] theorem State.sendBatch_inIssue (s : State) (d : Nat) (inv : Nat → List Nat) (now : Option Nat) :
    (s.sendBatch d inv now).inIssue = s.inIssue := by
  have posts (l : List Nat) (f : Nat → Instr) (u : State) : (l.foldl (fun u e => u.post (f e)) u).inIssue = u.inIssue :=
    foldl_leaves State.inIssue _ (fun u e => u.post_inIssue (f e)) l u
  unfold State.sendBatch
  cases now <;> simp [posts]

@[simp] theorem State.homeBatch_inIssue (s : State) (d pa : Nat) (far : List Nat) : (s.homeBatch d pa far).inIssue = s.inIssue := by
  unfold State.homeBatch
  dsimp only
  split_ifs <;> simp

@[simp] theorem State.dataBatch_inIssue (s : State) (d pa : Nat) : (s.dataBatch d pa).inIssue = s.inIssue := by
  unfold State.dataBatch
  split_ifs <;> simp

/-! ### The device's own writes to memory -/

@[simp] theorem State.performWrite_inIssue (s : State) (w : Option Writer) (d pa : Nat) (bs : List Byte) (p ver : Bool) :
    (s.performWrite w d pa bs p ver).inIssue = s.inIssue := by
  have drop (u : State) (ts : List Nat) (line : Nat) : (u.dropL1s ts line).inIssue = u.inIssue := rfl
  simp [State.performWrite, State.invalidateSharers, drop]

@[simp] theorem State.askHandler_inIssue (s : State) (line : Nat) : (s.askHandler line).inIssue = s.inIssue := by
  unfold State.askHandler
  split_ifs <;> rfl

@[simp] theorem State.holdReq_inIssue (s : State) (r : MemReq) (op : Option Nat) (tr : Option (Nat × Nat × Leaf)) :
    (s.holdReq r op tr).inIssue = s.inIssue := by
  unfold State.holdReq
  cases op <;> exact State.askHandler_inIssue _ _

@[simp] theorem State.arriveWrite_inIssue (s : State) (r : MemReq) (op : Option Nat) (tr : Option (Nat × Nat × Leaf)) :
    (s.arriveWrite r op tr).inIssue = s.inIssue := by
  unfold State.arriveWrite
  dsimp only
  split_ifs <;> simp

@[simp] theorem State.leafWrite_inIssue (s : State) (d : Nat) (l : Leaf) (pa : Nat) (bs : List Byte) (p : Bool) :
    (s.leafWrite d l pa bs p).inIssue = s.inIssue := by
  unfold State.leafWrite State.remWrite
  split_ifs <;> simp

@[simp] theorem State.linesWrite_inIssue (n : Nat) (s : State) (l : Leaf) (pa : Nat) (bs : List Byte) :
    (s.linesWrite l n pa bs).inIssue = s.inIssue := by
  induction n generalizing s pa bs with
  | zero => rfl
  | succ n ih =>
    unfold State.linesWrite
    dsimp only
    split_ifs
    · rfl
    · rw [ih, State.leafWrite_inIssue]

theorem State.putGlobal_inIssue {s t : State} {root : Word} {va : Nat} {bs : List Byte} (h : s.putGlobal root va bs = some t) :
    t.inIssue = s.inIssue := by
  unfold State.putGlobal at h
  split at h
  · split_ifs at h
    obtain rfl := Option.some.inj h
    simp [State.pageWrite]
  · cases h

@[simp] theorem State.putGlobal_getD_inIssue (s : State) (root : Word) (va : Nat) (bs : List Byte) :
    ((s.putGlobal root va bs).getD s).inIssue = s.inIssue := by
  cases h : s.putGlobal root va bs with
  | none => rfl
  | some t => exact State.putGlobal_inIssue h

/-! ### Error records -/

@[simp] theorem State.toErrQueue_inIssue (s : State) (e : Nat) (r : ErrRec) : (s.toErrQueue e r).inIssue = s.inIssue := by
  unfold State.toErrQueue
  split
  · rfl
  · dsimp only
    split_ifs
    · rfl
    · split
      · rfl
      · next h => simp [State.putGlobal_inIssue h]

@[simp] theorem State.report_inIssue (s : State) (q : Option Nat) (r : ErrRec) : (s.report q r).inIssue = s.inIssue := by
  unfold State.report
  dsimp only
  split
  · rw [State.toErrQueue_inIssue]
    split_ifs <;> rfl
  · split_ifs <;> rfl

@[simp] theorem State.flushErrs_inIssue (s : State) : s.flushErrs.inIssue = s.inIssue := by
  unfold State.flushErrs
  rw [foldl_leaves State.inIssue _ (fun s r => s.report_inIssue none r)]
  rfl

/-! ### The event table -/

@[simp] theorem State.setEvent_inIssue (s : State) (name : Nat) (e : Event) : (s.setEvent name e).inIssue = s.inIssue :=
  s.setDie_inIssue _ _

@[simp] theorem State.setBlock_inIssue (s : State) (k st : Nat) : (s.setBlock k st).inIssue = s.inIssue :=
  s.setDie_inIssue _ _

@[simp] theorem State.writeChain_inIssue (s : State) (bs : List (Nat × List Waiter)) : (s.writeChain bs).inIssue = s.inIssue := by
  induction bs generalizing s with
  | nil => rfl
  | cons b bs ih => exact (ih _).trans (s.setRecord_inIssue _ _)

@[simp] theorem State.putEvent_inIssue (s : State) (name : Nat) (e : Event) : (s.putEvent name e).inIssue = s.inIssue := by
  simp [State.putEvent]

theorem State.allocSlot_inIssue {s t : State} {d k : Nat} (h : s.allocSlot d = some (t, k)) : t.inIssue = s.inIssue := by
  unfold State.allocSlot at h
  dsimp only at h
  split_ifs at h
  · cases h; rfl
  · split at h
    · cases h
    · cases h; rfl

@[simp] theorem State.spillWaiter_inIssue (s : State) (name : Nat) (w : Waiter) : (s.spillWaiter name w).inIssue = s.inIssue := by
  unfold State.spillWaiter
  cases h : s.allocSlot (name / 4096) with
  | none =>
    dsimp only
    split_ifs
    · simp
    · split
      · split_ifs <;> simp
      · simp
  | some x =>
    obtain ⟨t, k⟩ := x
    have ht : t.inIssue = s.inIssue := State.allocSlot_inIssue h
    dsimp only
    split_ifs
    · simp
    · split
      · split_ifs <;> simp [ht]
      · simp [ht]

@[simp] theorem State.placeParked_inIssue (s : State) (d : Nat) : (s.placeParked d).inIssue = s.inIssue := by
  unfold State.placeParked
  split
  · rfl
  · dsimp only
    rw [foldl_leaves State.inIssue _ (fun s w => s.spillWaiter_inIssue _ w), State.setEvent_inIssue]

@[simp] theorem State.freeSlot_inIssue (s : State) (k : Nat) : (s.freeSlot k).inIssue = s.inIssue :=
  State.placeParked_inIssue _ _

@[simp] theorem State.release_inIssue (s : State) (name : Nat) (w : Waiter) : (s.release name w).inIssue = s.inIssue := by
  unfold State.release
  split
  · split_ifs <;> rfl
  · split
    · split <;> rfl
    · rfl

@[simp] theorem State.fire_inIssue (s : State) (name : Nat) : (s.fire name).inIssue = s.inIssue := by
  unfold State.fire
  dsimp only
  rw [foldl_leaves State.inIssue _ (fun s b => s.freeSlot_inIssue _), foldl_leaves State.inIssue _ (fun s w => s.release_inIssue _ w),
    State.setEvent_inIssue]

@[simp] theorem State.eventSig_inIssue (s : State) (name n : Nat) : (s.eventSig name n).1.inIssue = s.inIssue := by
  unfold State.eventSig
  dsimp only
  split_ifs <;> simp

/-! ### Granules taken -/

@[simp] theorem State.onLaunch_inIssue (s : State) (id : Option Nat) (f : Launch → Launch) : (s.onLaunch id f).inIssue = s.inIssue := by
  unfold State.onLaunch
  split
  · rfl
  · split <;> rfl

@[simp] theorem State.ackToken_inIssue (s : State) (t key g : Nat) : (s.ackToken t key g).inIssue = s.inIssue := by
  unfold State.ackToken State.balance
  dsimp only
  split <;> simp

@[simp] theorem State.clearGranules_inIssue (s : State) (t key : Nat) (gs : List Nat) : (s.clearGranules t key gs).inIssue = s.inIssue := by
  unfold State.clearGranules
  rw [foldl_leaves State.inIssue _ (fun s g => s.ackToken_inIssue t key g), State.setTile_inIssue]

@[simp] theorem State.takeGranule_inIssue (s : State) (a : Agent) (clr : Bool) (win g : Nat) : (s.takeGranule a clr win g).inIssue = s.inIssue := by
  unfold State.takeGranule
  cases clr <;> simp

@[simp] theorem State.takeGranules_inIssue (s : State) (a : Agent) (clr : Bool) (win off n : Nat) :
    (s.takeGranules a clr win off n).inIssue = s.inIssue := by
  unfold State.takeGranules
  rw [foldl_leaves State.inIssue]
  intro s g
  split_ifs <;> simp

/-! ### The end of a turn -/

@[simp] theorem State.stopHit_inIssue (s : State) (a : Agent) (hit : Nat) : (s.stopHit a hit).inIssue = s.inIssue := by
  unfold State.stopHit
  dsimp only
  split_ifs <;> simp

@[simp] theorem State.advance_inIssue (s : State) (pc : Word) : (s.advance pc).inIssue = s.inIssue := by
  unfold State.advance
  split <;> rfl

@[simp] theorem State.stepped_inIssue (s : State) (act : Bool) : (s.stepped act).inIssue = s.inIssue := by
  unfold State.stepped
  dsimp only
  split_ifs <;> simp

theorem State.settled_noSheafInIssue (s : State) : NoSheafInIssue s.settled := ⟨rfl, rfl, rfl, rfl⟩

/-- A read that is served ends its sheaf: it makes itself the executing one, and settles (08 R207). -/
theorem State.serve_noSheafInIssue {s : State} (h : NoSheafInIssue s) (a : Agent) (r : FeRead) : NoSheafInIssue (s.serve a r) := by
  have taken : NoSheafInIssue (s.takeGranules a r.clr r.win r.off r.len) := by
    rw [noSheafInIssue_iff] at h ⊢
    rw [State.takeGranules_inIssue, h]
  have ended (u : State) (pc : Word) (act : Bool) (b : Agent) : NoSheafInIssue { ((u.settled.advance pc).stepped act) with cur := b } := by
    have h : ((u.settled.advance pc).stepped act).inIssue = u.settled.inIssue := by simp
    exact (noSheafInIssue_iff _).mpr h
  unfold State.serve
  dsimp only
  split_ifs
  · exact taken
  · exact taken
  · exact ended _ _ _ _

theorem State.serveFills_noSheafInIssue {s : State} (h : NoSheafInIssue s) : NoSheafInIssue s.serveFills := by
  unfold State.serveFills
  refine List.foldlRecOn _ _ h (fun s h e _ => ?_)
  dsimp only
  have served (a : Agent) (r : FeRead) : NoSheafInIssue (if s.agentStopped a then s else s.serve a r) := by
    split_ifs
    · exact h
    · exact State.serve_noSheafInIssue h a r
  split
  · exact served _ _
  · exact served _ _
  · exact h

/-- A turn that ends in a next state settles it, and draws a later number next. -/
theorem stall_next {n : Nat} {o : Host.Outcome State Fault Refusal} {t : State} (h : stall n o = .next t) : NoSheafInIssue t ∧ n < t.fc := by
  match o with
  | .next s =>
    obtain rfl := Host.Outcome.next.inj h
    have done : NoSheafInIssue s.settled.serveFills.flushErrs := by
      rw [noSheafInIssue_iff, State.flushErrs_inIssue, ← noSheafInIssue_iff]
      exact State.serveFills_noSheafInIssue s.settled_noSheafInIssue
    exact ⟨done, lt_of_lt_of_le n.lt_succ_self (le_max_right _ _)⟩

/-- A turn that ends in a next state is one that `stall` ends. -/
theorem turn_next {s t : State} (h : turn s = .next t) : ∃ o, stall s.fc o = .next t := by
  unfold turn at h
  split_ifs at h
  · exact ⟨_, h⟩
  · split at h
    · exact ⟨_, h⟩
    · exact ⟨_, h⟩

end Sys2Proof.Machine
end

section
/-! SUPPORT. What a step starts from, after writes have become visible on more paths, and when it stops; the obligation on every step. -/

namespace Sys2Proof.Machine

@[simp] theorem State.showSome_fc (s : State) : s.showSome.fc = s.fc := by
  obtain ⟨_, h⟩ := s.showAll_eq (fun g _ p => Config.nowSeen s.fc g p)
  rw [State.showSome, h]

@[simp] theorem State.showSome_bootFailed (s : State) : s.showSome.bootFailed = s.bootFailed := by
  obtain ⟨_, h⟩ := s.showAll_eq (fun g _ p => Config.nowSeen s.fc g p)
  rw [State.showSome, h]

@[simp] theorem State.showSome_mainUp (s : State) : s.showSome.mainUp = s.mainUp := by
  obtain ⟨_, h⟩ := s.showAll_eq (fun g _ p => Config.nowSeen s.fc g p)
  rw [State.showSome, h]

/-- A boot that failed lets no step follow (14 R389). -/
theorem step_of_bootFailed {s : State} (h : s.bootFailed = true) : step s = .fault .bootStopped := by
  simp [step, turn, h]

/-- Without the main input and with no act pending nothing is issued (01 R27). -/
theorem step_of_unpowered {s : State} (hb : s.bootFailed = false) (hm : s.mainUp = false) (ha : s.agenda = []) :
    step s = .fault .unpowered := by
  have agenda : s.showSome.agenda = [] := (s.showAll_agenda _).trans ha
  simp [step, turn, hb, hm, agenda]

/-- Settles O57: a step that answers a next state is a turn that `stall` ended. -/
theorem stepKeepsNoSheafInIssue : Obligations.StepKeepsNoSheafInIssue := by
  intro s t _ h
  obtain ⟨o, ho⟩ := turn_next h
  have := stall_next ho
  rwa [State.showSome_fc] at this

end Sys2Proof.Machine
end

section
/-! SUPPORT. The acts of the package as a whole, and the state after reset. -/

namespace Sys2Proof.Machine

/-! ### Reset and power -/

theorem exec_packageReset (s : State) : ∃ t : State, exec .packageReset s = .next t ∧ t.mem = s.mem ∧ t.pois = s.pois ∧ t.ctxs = [] ∧
    t.tiles = [] ∧ t.dies = [] ∧ t.recs = [] ∧ t.queues = [] ∧ t.owner = {} ∧ t.ua = {} ∧ t.mr = [] ∧ t.budget = 50000000 ∧ t.limit = 5000 ∧
    t.time = 0 ∧ t.agenda = [.energyRefill] :=
  ⟨_, rfl, rfl, rfl, rfl, rfl, rfl, rfl, rfl, rfl, rfl, rfl, rfl, rfl, rfl, rfl⟩

theorem exec_power_lost (s : State) : ∃ t : State, exec (.powerInputChange false false) s = .next t ∧ t.mem = [] ∧ t.ctxs = [] ∧ t.queues = [] ∧
    t.mainUp = false ∧ step t = .fault .unpowered :=
  ⟨_, rfl, rfl, rfl, rfl, rfl, step_of_unpowered rfl rfl rfl⟩

/-- The standby input alone keeps command complex A and what it holds; the dies lose their state (01 R27). -/
theorem exec_power_standby {s : State} (h : s.mainUp = true) : ∃ t : State, exec (.powerInputChange false true) s = .next t ∧ t.owner = s.owner ∧
    t.queues = s.queues ∧ t.regions = s.regions ∧ t.agenda = s.agenda.filter keptByA ∧ t.mr = s.mr ∧ t.budget = s.budget ∧ t.limit = s.limit ∧
    t.launches = s.launches ∧ t.mem = [] ∧ t.ctxs = [] ∧ t.tiles = [] ∧ t.dies = [] ∧ t.mainUp = false := by
  refine ⟨_, by simp only [exec, execPowerInputChange, h]; rfl, ?_⟩
  exact ⟨rfl, rfl, rfl, rfl, rfl, rfl, rfl, rfl, rfl, rfl, rfl, rfl, rfl⟩

theorem exec_power_returned {s : State} (h : s.mainUp = false) (b : Bool) : ∃ t : State, exec (.powerInputChange true b) s = .next t ∧
    t.mainUp = true ∧ t.mem = s.mem ∧ t.owner = s.owner := by
  refine ⟨_, by simp only [exec, execPowerInputChange, h]; rfl, ?_⟩
  split_ifs <;> exact ⟨rfl, rfl, rfl⟩

/-! ### Measured boot -/

/-- A boot stage is measured where its signature holds, else it stops the boot (14 R389). -/
theorem exec_measuredBootStage (s : State) {reg : Nat} (hr : reg ≤ 3) (x : Signed) :
    if Config.ecdsaVerify Config.vendorKey x.digest x.sigR x.sigS then exec (.measuredBootStage reg x) s = .next (s.extendMr reg x.digest)
    else ∃ t, exec (.measuredBootStage reg x) s = .next t ∧ step t = .fault .bootStopped := by
  simp only [exec, execMeasuredBootStage, if_neg (Nat.not_lt.mpr hr)]
  split_ifs with verified
  · rfl
  · exact ⟨_, rfl, step_of_bootFailed rfl⟩

/-! ### Errors found in units -/

theorem next_of_pos {c : Prop} [Decidable c] {s t : State} (h : c) :
    (.next (if c then t else s) : Host.Outcome State Fault Refusal) = .next t := by rw [if_pos h]

theorem State.containTile_of_contained {s : State} {t : Nat} (h : (s.tile t).contained = true) : s.containTile t = s := if_pos h

/-- A router that is contained discards what its buffers hold, and the class-0 flits among it are reported (20 R426; log 41). -/
theorem State.containTile_of_open {s : State} {t : Nat} (h : (s.tile t).contained = false) :
    let n := (s.tile t).c0.length + (s.tile t).link.length
    s.containTile t = ((s.setTile t { s.tile t with contained := true, adder := [], c0 := [], link := [] }).loseFlits (dieOf t) (256 + t % 160) n).report none
      { cls := 5, reach := 4, tile := t, detail := if n = 0 then [] else [(72, 4, n)] } :=
  if_neg (by simp [h])

theorem State.containDie_of_contained {s : State} {d key : Nat} (tile : Nat) (h : (s.die d).contained.get 0 key ≠ 0) : s.containDie d key tile = s :=
  if_pos h

/-- A unit of a die that is contained is reported, with no flits (20 R426). -/
theorem State.containDie_of_open {s : State} {d key : Nat} (tile : Nat) (h : (s.die d).contained.get 0 key = 0) :
    s.containDie d key tile = (s.setDie d { s.die d with contained := (s.die d).contained.set 0 key 1 }).report none
      { cls := 5, reach := 4, tile := tile } :=
  if_neg (not_not.mpr h)

theorem State.poisonCopy_none {s : State} {d line : Nat} (h : s.rem.find (remKey d (line * 32)) = none) : s.poisonCopy d line = s := by
  rw [State.poisonCopy, h]

theorem State.poisonCopy_some {s : State} {d line : Nat} {l : RemLine} (h : s.rem.find (remKey d (line * 32)) = some l) :
    s.poisonCopy d line = s.setRem (remKey d (line * 32)) { l with pois := true } := by
  rw [State.poisonCopy, h]

/-- Corrected errors count up to a ceiling, and each multiple of 2^SHIFT below it is reported (20 R418). -/
theorem exec_correctedError (s : State) (d : Nat) : let c := (s.die d).cr 0x20D
    let n := min 0xFFFFFFFF (bits c 31 0 + 1)
    let u := s.setDie d ((s.die d).setCr 0x20D (putBits c 31 0 n))
    (bits c 31 0 = 0xFFFFFFFF ∨ n % 2 ^ bits c 36 32 ≠ 0 → exec (.correctedError d) s = .next u) ∧
    (bits c 31 0 ≠ 0xFFFFFFFF → n % 2 ^ bits c 36 32 = 0 → exec (.correctedError d) s = .next (u.report none { cls := 3, reach := 0 })) := by
  intro c n u
  have counted : exec (.correctedError d) s =
      .next (if bits c 31 0 ≠ 0xFFFFFFFF && n % 2 ^ bits c 36 32 = 0 then u.report none { cls := 3, reach := 0 } else u) := rfl
  rw [counted]
  constructor
  · rintro (h | h) <;> simp [h]
  · intro h1 h2
    simp [h1, h2]

/-- Settles O54: each act by its own lemma; a site in range takes the branch of its unit. -/
theorem packageEventResults : Obligations.PackageEventResults := by
  intro s
  refine ⟨exec_packageReset s, exec_power_lost s, exec_power_standby, ?_, exec_power_returned, ?_, ?_,
    fun _ x hr => exec_measuredBootStage s hr x, ?_, ?_, ?_, exec_correctedError s⟩
  · intro h; simp [exec, execPowerInputChange, h]
  · intro h b; simp [exec, execPowerInputChange, h]
  · intro reg x h; simp [exec, execMeasuredBootStage, h]
  · intro x y z
    refine ⟨next_of_pos, ?frame, ?router, ?routerAgain, next_of_pos, next_of_pos, ?slices, ?domains, rfl, rfl, rfl⟩
    case frame => exact fun hx hy hz => next_of_pos (by simp [hx, hy, hz])
    case router => exact fun hx hc => (next_of_pos hx).trans (congrArg _ (State.containTile_of_open hc))
    case routerAgain => exact fun hx hc => (next_of_pos hx).trans (congrArg _ (State.containTile_of_contained hc))
    case slices => exact fun hx => ⟨next_of_pos hx, next_of_pos hx, next_of_pos hx⟩
    case domains => exact fun hx => ⟨next_of_pos hx, next_of_pos hx, next_of_pos hx, next_of_pos hx⟩
  · exact fun x y => ⟨State.poisonCopy_none, fun l => State.poisonCopy_some⟩
  · exact fun d key tile => ⟨State.containDie_of_contained tile, State.containDie_of_open tile⟩

/-! ### The state after reset -/

theorem Tile.fmt_reset (bank : Nat) : ({} : Tile).fmt 0 bank = 7 ∧ ({} : Tile).fmt 1 bank = 7 ∧ ({} : Tile).fmt 2 bank = 6 := ⟨rfl, rfl, rfl⟩

/-- Settles O58: every map is empty, so that each register and table reads its default. -/
theorem resetState : Obligations.ResetState := by
  refine ⟨⟨rfl, rfl, rfl, rfl⟩, rfl, ?_, ?_, ?_, rfl, rfl, ?_⟩
  · exact fun a => ⟨rfl, fun n => rfl, fun r => rfl⟩
  · exact fun d => ⟨rfl, rfl, rfl⟩
  · exact fun t bank => Tile.fmt_reset bank
  · exact fun a => rfl

end Sys2Proof.Machine
end

section
/-! SUPPORT. What an act does that looks at the wait of a context, and what the acts do that start, retire and pre-empt a task. -/

namespace Sys2Proof.Machine

/-! ### The end of a wait -/

@[simp] theorem Ctx.unwait_waiting {c : Ctx} {w : Wait} (h : c.st = .waiting w) : c.unwait = { c with st := .ready } := by
  simp [Ctx.unwait, h]

@[simp] theorem Ctx.unwait_held {c : Ctx} {w : Wait} (h : c.st = .held (some w)) : c.unwait = { c with st := .held none } := by
  simp [Ctx.unwait, h]

theorem exec_contextWaitClear_of_stopped {s : State} {a : Agent} (h : s.agentStopped a = true) : exec (.contextWaitClear a) s = .next s :=
  if_pos h

/-- Without a wait to look at, the act changes nothing. -/
theorem exec_contextWaitClear_of_no_wait {s : State} {a : Agent}
    (h : (s.ctx a).st = .free ∨ (s.ctx a).st = .ready ∨ (s.ctx a).st = .done ∨ (s.ctx a).st = .held none) :
    exec (.contextWaitClear a) s = .next s := by
  rcases h with h | h | h | h <;> simp [exec, execContextWaitClear, h]

/-- A wait of a Waiting or Held context ends where its condition has cleared, and else is looked at again (02 R32). -/
theorem exec_contextWaitClear_of_wait {s : State} {a : Agent} {w : Wait} (running : s.agentStopped a = false)
    (h : (s.ctx a).st = .waiting w ∨ (s.ctx a).st = .held (some w)) :
    exec (.contextWaitClear a) s = .next (if (s.waitClears a w).2 then (s.waitClears a w).1.setCtx a ((s.waitClears a w).1.ctx a).unwait
      else (s.waitClears a w).1.post (.contextWaitClear a)) := by
  rcases h with h | h <;> simp [exec, execContextWaitClear, running, h]

theorem State.waitClears_join (s : State) (a : Agent) (h : Nat) :
    (s.waitClears a (.join h)).2 = true ↔ (s.ctx ⟨a.tile, h⟩).st = .done ∨ (s.ctx ⟨a.tile, h⟩).st = .free := by
  simp [State.waitClears]

/-- Settles O43: the act by its three cases, and the conditions by the rows of `waitClears` and `busy`. -/
theorem waitClearResults : Obligations.WaitClearResults := by
  intro s a
  refine ⟨exec_contextWaitClear_of_stopped, exec_contextWaitClear_of_no_wait, ?act, ?unwait, fun _ => rfl, fun _ => rfl, rfl,
    s.waitClears_join a, fun _ => rfl, fun _ => List.any_eq_true, decide_eq_true_iff⟩
  case act =>
    intro running w h
    have act := exec_contextWaitClear_of_wait running h
    exact ⟨fun cleared => by simpa [cleared] using act, fun stands => by simpa [stands] using act⟩
  case unwait => exact fun c w => ⟨fun h => by rw [Ctx.unwait_waiting h], fun h => by rw [Ctx.unwait_held h]⟩

/-! ### Entry to Running -/

theorem Ctx.putS_wf {c : Ctx} (h : c.s.wf 0 = true) (r : Nat) (w : Word) : (c.putS r w).s.wf 0 = true := by
  unfold Ctx.putS
  split_ifs
  · exact h
  · exact SMap.wf_set h _ _

/-- After `m` arguments are put in from s1 on, each reads as what the record holds of it. -/
theorem Ctx.get_putArgs {c : Ctx} (h : c.s.wf 0 = true) (r : BitVec 2048) (m : Nat) :
    let d := (List.range m).foldl (fun (c : Ctx) i => c.putS (1 + i) (recD r (8 + i))) c
    d.s.wf 0 = true ∧ ∀ n, d.s.get 0 n = if 1 ≤ n ∧ n ≤ m then recD r (7 + n) else c.s.get 0 n := by
  induction m with
  | zero => exact ⟨h, fun n => (if_neg (by omega)).symm⟩
  | succ m ih =>
    obtain ⟨wf, get⟩ := ih
    simp only [List.range_succ, List.foldl_append, List.foldl_cons, List.foldl_nil]
    refine ⟨Ctx.putS_wf wf _ _, fun n => ?_⟩
    rw [Ctx.putS_get _ wf, get]
    by_cases last : n = 1 + m
    · rw [if_pos ⟨by omega, last⟩, if_pos (by omega), last, show 7 + (1 + m) = 8 + m by omega]
    · rw [if_neg (fun h => last h.2)]
      exact if_congr (by omega) rfl rfl

/-- The registers of context 0 as its task starts: the arguments from s1 on, the base of its own area in s30 (02 R43). -/
theorem startCtx_get (r : BitVec 2048) (n : Nat) : (startCtx r).s.get 0 n =
    if n = 30 then 0x9000000000000000 + wd (areaSize r) else if 1 ≤ n ∧ n ≤ 4 then recD r (7 + n) else 0 := by
  obtain ⟨wf, get⟩ := Ctx.get_putArgs (c := { st := .ready, pc := wd (recF r 0 56 3 * 8) }) rfl r 4
  refine (Ctx.putS_get _ wf 30 n _).trans ?_
  rw [get]
  exact if_congr (by simp) rfl rfl

theorem startCtx_hm (r : BitVec 2048) : (startCtx r).hm = false := by
  have unwritten : (startCtx r).creg = [] := rfl
  simp [Ctx.hm, Ctx.cr, SMap.get, SMap.find, unwritten]

/-- A Runnable task as it enters Running on every rank, with the stamp of its snapshot, if it takes one (02 R37, 11 R332). -/
def State.enterTask (s : State) (k : Nat) (ts : List Nat) (st : Option Nat) : State :=
  let u := s.setTask k { s.task k with
    bad := [], clocked := [], started := s.time, eff := s.effPrio k, nextQ := 0, qStat := [], units := [], arrived := [], retired := [], stamp := st, serial := s.nextOp }
  let v : State := { u.multicast k with nextOp := u.nextOp + 1 }
  (ts.foldl (fun (w : State) x => w.startRank k x) (v.setRecState k 6)).wake (k / 65536)

/-- What keeps the task that is staged on a tile from starting. -/
def State.keptFromStart (s : State) (k : Nat) : Bool :=
  s.slotState k ≠ 5 || s.owner.quiesced || (s.task k).tiles.any (fun u => (s.tile u).run.isSome || (s.tile u).staged != some k)

theorem State.keptFromStart_iff (s : State) (k : Nat) : s.keptFromStart k = true ↔
    (s.slotState k ≠ 5 ∨ s.owner.quiesced = true) ∨ ∃ u ∈ (s.task k).tiles, (s.tile u).run ≠ none ∨ (s.tile u).staged ≠ some k := by
  simp [State.keptFromStart, Option.isSome_iff_ne_none]

theorem State.keptFromStart_eq_false {s : State} {k : Nat} (runnable : s.slotState k = 5) (unquiesced : s.owner.quiesced = false)
    (empty : ∀ u ∈ (s.task k).tiles, (s.tile u).run = none ∧ (s.tile u).staged = some k) : s.keptFromStart k = false := by
  simpa [State.keptFromStart, runnable, unquiesced] using empty

/-- A snapshot task enters Running with the stamp that a step of its snapshot has taken, and else waits for its next step (04 R114). -/
def enterWithStamp (k t : Nat) (ts : List Nat) : State × Option (Option Nat) → State
  | (u, some (some st)) => u.enterTask k ts (some st)
  | (u, _) => u.post (.taskEnterRunning t)

theorem enterWithStamp_of_stamp {k t : Nat} {ts : List Nat} {p : State × Option (Option Nat)} {st : Nat} (h : p.2 = some (some st)) :
    enterWithStamp k t ts p = p.1.enterTask k ts (some st) := by
  obtain ⟨u, o⟩ := p
  obtain rfl : o = some (some st) := h
  rfl

theorem enterWithStamp_of_no_stamp {k t : Nat} {ts : List Nat} {p : State × Option (Option Nat)} (h : ∀ st, p.2 ≠ some (some st)) :
    enterWithStamp k t ts p = p.1.post (.taskEnterRunning t) := by
  match p, h with
  | (_, none), _ => rfl
  | (_, some none), _ => rfl
  | (_, some (some st)), h => exact absurd rfl (h st)

theorem exec_taskEnterRunning_of_unstaged {s : State} {t : Nat} (h : (s.tile t).staged = none) : exec (.taskEnterRunning t) s = .next s := by
  simp [exec, execTaskEnterRunning, h]

section
variable {s : State} {t k : Nat}

/-- The act at a tile with a staged task: nothing, a step of its snapshot, or its start (11 R332). -/
theorem exec_taskEnterRunning_of_staged (staged : (s.tile t).staged = some k) : exec (.taskEnterRunning t) s =
    .next (if s.keptFromStart k then s
      else if recSnap (s.record k) then enterWithStamp k t (s.task k).tiles (s.snapStep (taskHoldKey k) (.task k))
      else s.enterTask k (s.task k).tiles none) := by
  rw [show exec (.taskEnterRunning t) s = execTaskEnterRunning t s from rfl, execTaskEnterRunning, staged]
  cases kept : s.keptFromStart k with
  | true => exact if_pos kept
  | false =>
    refine (if_neg (ne_true_of_eq_false kept)).trans ?_
    cases recSnap (s.record k) with
    | false => rfl
    | true =>
      obtain ⟨u, _ | _ | st⟩ := s.snapStep (taskHoldKey k) (.task k) <;> rfl

/-! ### Retirement -/

/-- The ports and bindings of a rank are closed, and where a successor's record is of another die, what its die wrote is performed at pod scope (02 R39). -/
def State.leaveRank (s : State) (t k : Nat) : State :=
  let c := s.closeRank t
  if (c.successors k).any (fun j => j / 65536 != c.ua.pkg * 16 + dieOf t) then c.performAt t 4 else c

/-- What `texit` waits for has cleared: a rank whose work is settled retires, and the last one ends the task (02 R39). -/
theorem exec_taskRetirement_of_texit (run : (s.tile t).run = some k) (going : s.stoppedTile t = false)
    (texit : (s.ctx ⟨t, 0⟩).st = .waiting .retire) (thawed : (s.tile t).frz = none) :
    exec (.taskRetirement t) s = if s.unsettled t k then .next (s.post (.taskRetirement t)) else
      let u := s.leaveRank t k
      let r := (u.tile t).rank
      let done := if (u.task k).retired.contains r then (u.task k).retired else r :: (u.task k).retired
      let v := u.setTask k { u.task k with retired := done }
      .next (if (List.range (u.task k).tiles.length).all (fun x => done.contains x) then v.endTask k else v) := by
  rw [show exec (.taskRetirement t) s = execTaskRetirement t s from rfl, execTaskRetirement, run]
  exact if_neg (by simp [going, texit, thawed])

/-! ### Pre-emption -/

/-- A standing request freezes a task that has run past its budget, and else is looked at again (02 R49). -/
theorem exec_watchdogExpiry_of_request (running : s.slotState k = 6)
    (request : (s.recsIn (k / 65536) 3).any (fun j => (s.task j).preempt == some k) = true) (budget : recWdog (s.record k) ≠ 0)
    (thawed : ∀ u ∈ (s.task k).tiles, (s.tile u).frz = none) :
    exec (.watchdogExpiry k) s = if recWdog (s.record k) < (s.task k).ran + (s.time - (s.task k).started) then .next (s.freezeTask k)
      else .next (s.post (.watchdogExpiry k)) := by
  have unfrozen : (s.task k).tiles.any (fun u => (s.tile u).frz.isSome) = false := by simpa using thawed
  exact if_neg (by simp [running, request, budget, unfrozen])

end

/-- Settles O46: entry by what the staged task waits for, context 0 by its registers, retirement and pre-emption by the one test each makes. -/
theorem taskRunResults : Obligations.TaskRunResults := by
  intro s t
  refine ⟨exec_taskEnterRunning_of_unstaged, ?enter, ?context0, ?retire, ?preempt⟩
  case enter =>
    intro k staged
    rw [exec_taskEnterRunning_of_staged staged]
    refine ⟨fun h => ?_, fun runnable unquiesced empty => ?_, fun h => ?_⟩
    · rw [(s.keptFromStart_iff k).mpr (.inl h), if_pos rfl]
    · rw [State.keptFromStart_eq_false runnable unquiesced empty, if_neg Bool.false_ne_true]
      refine ⟨fun plain => ?_, fun snap => ⟨fun st stamp => ?_, fun noStamp => ?_⟩⟩
      · rw [plain]; rfl
      · rw [snap, if_pos rfl, enterWithStamp_of_stamp stamp]; rfl
      · rw [snap, if_pos rfl, enterWithStamp_of_no_stamp noStamp]
    · rw [(s.keptFromStart_iff k).mpr (.inr h), if_pos rfl]
  case context0 =>
    intro r
    refine ⟨rfl, rfl, fun i hi => ?_, startCtx_get r 30, startCtx_hm r⟩
    rw [startCtx_get, if_neg (by omega), if_pos (by omega), show 7 + (1 + i) = 8 + i by omega]
  case retire =>
    intro k run going texit thawed
    rw [exec_taskRetirement_of_texit run going texit thawed]
    exact ⟨fun busy => if_pos busy, fun settled => if_neg (ne_true_of_eq_false settled)⟩
  case preempt =>
    intro k running request budget thawed
    rw [exec_watchdogExpiry_of_request running request budget thawed]
    exact ⟨fun past => if_pos past, fun within => if_neg (Nat.not_lt.mpr within)⟩

end Sys2Proof.Machine
end

section
/-! SUPPORT. A key of a canonical map that takes what it reads as already leaves the map as it is. -/

namespace Sys2Proof

section
variable {α : Type} {m : SMap α} {i : Nat} {v : α}

theorem SMap.put_of_find (h : m.find i = some v) : m.put i v = m := by
  induction m with
  | nil => cases h
  | cons e m ih =>
    obtain ⟨k, w⟩ := e
    simp only [SMap.find, SMap.put] at h ⊢
    split_ifs at h ⊢ with here below
    · rw [Option.some.inj h, here]
    · rw [ih h]

theorem SMap.del_of_find_none (h : m.find i = none) : m.del i = m := by
  induction m with
  | nil => rfl
  | cons e m ih =>
    obtain ⟨k, w⟩ := e
    simp only [SMap.find, SMap.del] at h ⊢
    split_ifs at h ⊢ with here below
    · rfl
    · rw [ih h]

/-- A canonical map lists no default. -/
theorem SMap.ne_default_of_find [DecidableEq α] {d : α} {lo : Nat} (wf : m.wfFrom d lo = true) (h : m.find i = some v) : v ≠ d := by
  induction m generalizing lo with
  | nil => cases h
  | cons e m ih =>
    obtain ⟨k, w⟩ := e
    simp only [SMap.wfFrom, Bool.and_eq_true, decide_eq_true_eq] at wf
    obtain ⟨⟨-, listed⟩, rest⟩ := wf
    simp only [SMap.find] at h
    split_ifs at h
    · exact Option.some.inj h ▸ listed
    · exact ih rest h

theorem SMap.set_get_self [DecidableEq α] {d : α} (wf : m.wf d = true) (i : Nat) : m.set d i (m.get d i) = m := by
  unfold SMap.set SMap.get
  cases h : m.find i with
  | none => exact (if_pos rfl).trans (SMap.del_of_find_none h)
  | some v => exact (if_neg (SMap.ne_default_of_find wf h)).trans (SMap.put_of_find h)

end

end Sys2Proof
end

section
/-! SUPPORT. What the traffic of a load or store between its agent and its line's home leaves of the state: the messages between dies change clocks, copies of
lines and acts to come alone, and no access to memory changes an agent or a tile. -/

namespace Sys2Proof.Machine

/-- An access that has performed no piece notes none. -/
theorem State.setProg_nil {s : State} (wf : s.ctxs.wf {} = true) (starts : s.me.prog = []) : s.setProg [] = s := by
  have same : ({ s.me with prog := [] } : Ctx) = s.me := by rw [← starts]
  rw [State.setProg, same]
  exact congrArg (fun m => { s with ctxs := m }) (SMap.set_get_self wf _)

/-! ### Messages between dies (04 R105) -/

/-- The state but for what messages between dies change: the dies' clocks, the copies of lines in L2s and L1s, and the acts to come. -/
def State.sansMessages (s : State) : State := { s with dies := [], rem := [], l1 := [], agenda := [] }

@[simp] theorem State.setDie_sansMessages (s : State) (d : Nat) (x : Die) : (s.setDie d x).sansMessages = s.sansMessages := rfl
@[simp] theorem State.post_sansMessages (s : State) (i : Instr) : (s.post i).sansMessages = s.sansMessages := rfl
@[simp] theorem State.dropCopy_sansMessages (s : State) (d line : Nat) : (s.dropCopy d line).sansMessages = s.sansMessages := rfl

@[simp] theorem State.applyBatch_sansMessages (s : State) (d : Nat) (b : Batch) : (s.applyBatch d b).sansMessages = s.sansMessages := by
  unfold State.applyBatch
  dsimp only
  rw [foldl_leaves State.sansMessages _ (fun s line => s.dropCopy_sansMessages d line), State.setDie_sansMessages]

@[simp] theorem State.applyBatches_sansMessages (n : Nat) (s : State) (d : Nat) : (s.applyBatches d n).sansMessages = s.sansMessages := by
  induction n generalizing s with
  | zero => rfl
  | succ n ih =>
    unfold State.applyBatches
    dsimp only
    split
    · rfl
    · split
      · rw [ih, State.applyBatch_sansMessages, State.setDie_sansMessages]
      · rfl

@[simp] theorem State.takeBatch_sansMessages (s : State) (d : Nat) (b : Batch) : (s.takeBatch d b).sansMessages = s.sansMessages := by
  simp [State.takeBatch]

@[simp] theorem State.crossTo_sansMessages (s : State) (d h : Nat) : (s.crossTo d h).sansMessages = s.sansMessages := by
  unfold State.crossTo State.catchUp
  split_ifs
  · rfl
  · dsimp only
    rw [foldl_leaves State.sansMessages]
    · rfl
    · intro s i
      split <;> simp

@[simp] theorem State.sendBatch_sansMessages (s : State) (d : Nat) (inv : Nat → List Nat) (now : Option Nat) :
    (s.sendBatch d inv now).sansMessages = s.sansMessages := by
  have posts (l : List Nat) (f : Nat → Instr) (u : State) : (l.foldl (fun u e => u.post (f e)) u).sansMessages = u.sansMessages :=
    foldl_leaves State.sansMessages _ (fun u e => u.post_sansMessages (f e)) l u
  unfold State.sendBatch
  cases now <;> simp [posts]

@[simp] theorem State.homeBatch_sansMessages (s : State) (d pa : Nat) (far : List Nat) : (s.homeBatch d pa far).sansMessages = s.sansMessages := by
  unfold State.homeBatch
  dsimp only
  split_ifs <;> simp

@[simp] theorem State.dataBatch_sansMessages (s : State) (d pa : Nat) : (s.dataBatch d pa).sansMessages = s.sansMessages := by
  unfold State.dataBatch
  split_ifs <;> simp

@[simp] theorem State.fillBatch_sansMessages (s : State) (d pa : Nat) : (s.fillBatch d pa).sansMessages = s.sansMessages := by
  unfold State.fillBatch
  split_ifs <;> simp

@[simp] theorem State.fillBatch_mem (s : State) (d pa : Nat) : (s.fillBatch d pa).mem = s.mem :=
  (congrArg State.mem (s.fillBatch_sansMessages d pa) :)

/-- A line is as shut as before a write of another die has reached its home. -/
theorem State.dataBatch_lineShut (s : State) (d pa line : Nat) : (s.dataBatch d pa).lineShut line = s.lineShut line :=
  congrArg (fun u => u.lineShut line) (s.dataBatch_sansMessages d pa)

/-! ### Agents and tiles -/

/-- Who executes, the contexts and the tiles: what no access to memory of this package changes. -/
def State.agents (s : State) : Agent × SMap Ctx × SMap Tile := (s.cur, s.ctxs, s.tiles)

theorem State.agents_eq_iff {s t : State} : t.agents = s.agents ↔ t.cur = s.cur ∧ t.ctxs = s.ctxs ∧ t.tiles = s.tiles := by
  simp [State.agents]

theorem State.agents_of_sansMessages {s t : State} (h : t.sansMessages = s.sansMessages) : t.agents = s.agents :=
  (congrArg State.agents h :)

@[simp] theorem State.noteTlb_agents (s : State) (u : TlbUse) (root : Word) (va : Nat) (l : Leaf) : (s.noteTlb u root va l).agents = s.agents := rfl
@[simp] theorem State.putL1_agents (s : State) (t pa : Nat) (l : RemLine) : (s.putL1 t pa l).agents = s.agents := rfl
@[simp] theorem State.hideMem_agents (s : State) (w : Option Writer) (pa n : Nat) : (s.hideMem w pa n).agents = s.agents := rfl

@[simp] theorem State.fillBatch_agents (s : State) (d pa : Nat) : (s.fillBatch d pa).agents = s.agents :=
  State.agents_of_sansMessages (s.fillBatch_sansMessages d pa)

@[simp] theorem State.dataBatch_agents (s : State) (d pa : Nat) : (s.dataBatch d pa).agents = s.agents :=
  State.agents_of_sansMessages (s.dataBatch_sansMessages d pa)

@[simp] theorem State.invalidateSharers_agents (s : State) (d pa : Nat) : (s.invalidateSharers d pa).agents = s.agents :=
  (State.agents_of_sansMessages (State.homeBatch_sansMessages _ d pa _)).trans rfl

@[simp] theorem State.lineWrite_agents (s : State) (a : Nat) (bs : List Byte) (p : Bool) : (s.lineWrite a bs p).agents = s.agents := by
  have bytes : (s.memWrite a bs).agents = s.agents := by rw [State.memWrite_eq]; rfl
  unfold State.lineWrite
  dsimp only
  split_ifs <;> exact bytes

@[simp] theorem State.addSharer_agents (s : State) (line home h : Nat) : (s.addSharer line home h).agents = s.agents := by
  unfold State.addSharer
  dsimp only
  split_ifs <;> rfl

@[simp] theorem State.addSharer_mem (s : State) (line home h : Nat) : (s.addSharer line home h).mem = s.mem := by
  unfold State.addSharer
  dsimp only
  split_ifs <;> rfl

@[simp] theorem State.writeBack_agents (s : State) (key : Nat) (l : RemLine) : (s.writeBack key l).agents = s.agents := by
  have bytes (line : Nat) (is : List Nat) : (is.foldl (fun u i => u.putDirty line l i) s).agents = s.agents := by
    refine foldl_leaves State.agents _ (fun u i => ?_) is s
    unfold State.putDirty
    split_ifs <;> rfl
  unfold State.writeBack
  dsimp only
  split_ifs
  · rfl
  all_goals exact bytes _ _

@[simp] theorem State.setRem_agents (s : State) (key : Nat) (l : RemLine) : (s.setRem key l).agents = s.agents := by
  unfold State.setRem
  dsimp only
  split
  · exact State.writeBack_agents _ _ _
  · rfl

theorem State.ctx_of_agents {s t : State} (h : t.agents = s.agents) (b : Agent) : t.ctx b = s.ctx b := by
  rw [State.ctx, (State.agents_eq_iff.mp h).2.1, State.ctx]

theorem State.me_of_agents {s t : State} (h : t.agents = s.agents) : t.me = s.me := by
  rw [State.me, (State.agents_eq_iff.mp h).1, State.ctx_of_agents h, State.me]

end Sys2Proof.Machine
end

section
/-! SUPPORT. A load of bytes within a line: its one check, then its one read, of global memory at the line's home or of a resident scratchpad page. -/

namespace Sys2Proof.Machine

/-! ### Bytes as a path sees them (04 R97) -/

theorem State.memRead_eq_map (s : State) (a n : Nat) : s.memRead a n = (List.range n).map (fun i => s.memByte (a + i)) := by
  induction n generalizing a with
  | zero => rfl
  | succ n ih => simp [State.memRead, ih, List.range_succ_eq_map, Nat.add_assoc, Nat.add_comm 1]

theorem State.memRead_length (s : State) (a n : Nat) : (s.memRead a n).length = n := by
  simp [State.memRead_eq_map]

theorem State.memRead_getElem? (s : State) {i n : Nat} (a : Nat) (h : i < n) : (s.memRead a n)[i]? = some (s.memByte (a + i)) := by
  simp [State.memRead_eq_map, h]

theorem State.noteTlb_memRead (s : State) (u : TlbUse) (root : Word) (va : Nat) (l : Leaf) (a n : Nat) :
    (s.noteTlb u root va l).memRead a n = s.memRead a n := by
  rw [State.memRead_eq_map, State.memRead_eq_map]
  rfl

theorem Page.read_length (p : Page) (o n : Nat) : (p.read o n).length = n := by
  induction n generalizing o with
  | zero => rfl
  | succ n ih => exact congrArg (· + 1) (ih (o + 1))

/-- A byte that holds `now`, by the number `o` of which its granule goes, as the reads of a path see it. -/
def byteAsSeen (m : SMap Unseen) (path o : Nat) (now : Byte × Bool) : Byte × Bool :=
  match m.find (o / 16) with
  | some e => if e.seen.contains path then now else (e.old[o % 16]?).getD now
  | none => now

theorem asSeen_length (m : SMap Unseen) (path o : Nat) (bs : List (Byte × Bool)) : (asSeen m path o bs).length = bs.length := by
  unfold asSeen
  split_ifs <;> simp

theorem asSeen_getElem? (m : SMap Unseen) (path o i : Nat) (bs : List (Byte × Bool)) :
    (asSeen m path o bs)[i]? = (bs[i]?).map (byteAsSeen m path (o + i)) := by
  cases m with
  | nil => exact Option.map_id'.symm
  | cons e m =>
    rw [show asSeen (e :: m) path o bs = bs.zipIdx.map (fun b => byteAsSeen (e :: m) path (o + b.2) b.1) from rfl, List.getElem?_map,
      List.getElem?_zipIdx, Option.map_map, Nat.zero_add]
    rfl

/-! ### One piece checked, one piece read -/

/-- Global memory that a translation allows an access of its kind passes the checks (08 R196). -/
theorem checkBytes_global {s : State} {w : Who} {ea a : Word} {n kind : Nat} {l : Leaf} (window : windowOf a = some 4)
    (leaf : s.translateFor w (offset a) = .ok l) (allowed : l.refuse kind w.hand = none) :
    checkBytes s w ea a n kind false = .ok (.glob (offset a) l) := by
  simp [checkBytes, window, checkGlobal, leaf, allowed]

/-- So do bytes of a scratchpad window that lie in a page of the running task. -/
theorem checkBytes_scratch {s : State} {w : Who} {ea a : Word} {n kind win : Nat} (window : windowOf a = some win) (scratch : win < 3)
    (inside : offset a + n ≤ windowPages (isV w.agent.tile) win * 2048) (runs : (s.tile w.agent.tile).run.isSome)
    (mapped : loc ((s.tile w.agent.tile).spte (pkey win (offset a / 2048))) ≠ 0) :
    checkBytes s w ea a n kind false = .ok (.sp win (offset a / 2048) (offset a % 2048)) := by
  have running : (s.tile w.agent.tile).run.isNone = false := by simpa using runs
  obtain rfl | rfl | rfl : win = 0 ∨ win = 1 ∨ win = 2 := by omega
  all_goals simp [checkBytes, window, inside, running, mapped]

theorem reside_global (s : State) (t va : Nat) (l : Leaf) (a : Word) : reside s t [.glob va l] a = .ok () := rfl

/-- A resident page is waited for no more. -/
theorem reside_scratch {s : State} {t win page : Nat} (resident : loc ((s.tile t).spte (pkey win page)) = 1) (o : Nat) (a : Word) :
    reside s t [.sp win page o] a = .ok () := by
  simp [reside, resident]

theorem checkAt_one {s : State} {w : Who} {ea a : Word} {n kind : Nat} {fe : Bool} {p : Place} (checked : checkBytes s w ea a n kind fe = .ok p) :
    checkAt s w ea kind fe [(a, n)] = .ok [p] := by
  simp [checkAt, checked]

/-- A load of one piece that starts: its check, its stamp test, its page, its bytes. -/
theorem loadPieces_one {s u : State} {v : View} {kind n : Nat} {fe pod : Bool} {a : Word} {p : Place} {bs : List (Byte × Bool)}
    (wf : s.ctxs.wf {} = true) (starts : s.me.prog = []) (checked : checkBytes s s.who a a n kind fe = .ok p) (live : viewTest s v a n p = .ok ())
    (resident : reside s s.cur.tile [p] a = .ok ()) (read : readPlace s s.who v pod a n p = .ok (u, bs)) (ctxs : u.ctxs = s.ctxs)
    (me : u.me = s.me) : loadPieces s v kind fe pod [(a, n)] a = .ok (u, bs) := by
  have tests : viewTests s v a [((a, n), p)] = .ok () := by simp [viewTests, live]
  have rest : loadRest s v pod (some a) [] [((a, n), p)] = .ok (u, [bs]) := by simp [loadRest, resident, read]
  have ends : u.setProg [] = u := State.setProg_nil (ctxs ▸ wf) (me ▸ starts)
  simp [loadPieces, checkAt_one checked, tests, loadChecked, starts, rest, ends, Except.map]

/-! ### A line of this package at its home (04 R102, R107) -/

section
variable {s : State} {pa : Nat} {leaf : Word}

/-- A line with a free pointer notes another sharer. -/
theorem State.askFill_of_room (room : (s.dir (pa / 32)).ptrs.length < 4) (home h : Nat) :
    s.askFill (pa / 32) home h = (s.addSharer (pa / 32) home h, .kept) := by
  simp [State.askFill, room]

/-- A cacheable read that a tile keeps, of a line with a free pointer that its die's L2 does not hold for another die: what the home holds. -/
theorem State.readLine_of_room {t : Nat} (room : (s.dir (pa / 32)).ptrs.length < 4)
    (fresh : dieOf t = homeDie pa ∨ s.rem.find (remKey (dieOf t) pa) = none) :
    ∃ u, s.readLine t pa leaf true = (u, some none) ∧ u.agents = s.agents ∧ (dieOf t = homeDie pa → u.mem = s.mem) := by
  by_cases near : dieOf t = homeDie pa
  · refine ⟨(s.addSharer (pa / 32) (homeTile pa leaf) (sharerOf t pa)).putL1 t pa {}, ?_, by simp, fun _ => State.addSharer_mem ..⟩
    simp [State.readLine, near, State.askFill_of_room room]
  · have absent : s.peerHeld (dieOf t) pa = none := by simp [State.peerHeld, fresh.resolve_left near]
    obtain ⟨copy, read⟩ : ∃ copy, s.readLine t pa leaf true =
        ((((s.addSharer (pa / 32) (homeTile pa leaf) (sharerOf t pa)).fillBatch (dieOf t) pa).setRem (remKey (dieOf t) pa) copy).putL1 t pa {},
          some none) := by
      simp only [State.readLine, near, absent, State.askFill_of_room room, if_true, if_false]
      exact ⟨_, rfl⟩
    exact ⟨_, read, by simp, fun h => absurd h near⟩

/-- A read in place at the home answers what memory holds, as the path of the access sees it. -/
theorem readHome_served {w : Who} {l : Leaf} (n : Nat) (tile : w.engine = false)
    (served : l.nc = true ∨ ((s.dir (pa / 32)).ptrs.length < 4 ∧
      (dieOf w.agent.tile = homeDie pa ∨ s.rem.find (remKey (dieOf w.agent.tile) pa) = none))) :
    ∃ u, readHome s w l pa n = .ok (u, asSeen s.unseen w.path pa ((s.memRead pa n).map (fun b => (b, s.linePois pa)))) ∧ u.agents = s.agents ∧
      (l.nc = true ∨ dieOf w.agent.tile = homeDie pa → u.mem = s.mem) := by
  cases nc : l.nc with
  | true => exact ⟨s.fillBatch (dieOf w.agent.tile) pa, by simp [readHome, nc], by simp, fun _ => by simp⟩
  | false =>
    obtain ⟨room, fresh⟩ := served.resolve_left (by simp [nc])
    obtain ⟨u, read, agents, mem⟩ := State.readLine_of_room (leaf := l.entry) room fresh
    exact ⟨u, by simp [readHome, nc, tile, read], agents, fun h => mem (h.resolve_left (by simp))⟩

end

/-- A load of a page of this package without versions is a read in place, unless a store of its agent still waits at the line's home (04 R92). -/
theorem readGlobal_in_place {s : State} {w : Who} {v : View} {pod : Bool} {a : Word} {va n : Nat} {l : Leaf} (here : l.isRem = false)
    (plain : l.ver = false) (unheld : s.heldReqs.any (fun h => h.req.agent == w.agent && h.req.pa / 32 == l.pa va / 32) = false) :
    readGlobal s w v pod a va l n = readHome (s.noteTlb w.tlb w.root va l) w l (l.pa va) n := by
  refine (if_neg (ne_true_of_eq_false unheld)).trans ?_
  simp [here, readLocal, plain]

/-! ### The two windows -/

/-- A load within a line of a page of this package without versions is served by memory. -/
theorem loadPieces_global {s : State} (v : View) (pod : Bool) {a : Word} (n : Nat) {l : Leaf} (wf : s.ctxs.wf {} = true) (starts : s.me.prog = [])
    (window : windowOf a = some 4) (leaf : s.translate (.data s.cur.tile) (s.root s.cur) (offset a) = .ok l)
    (allowed : l.refuse 1 s.handler = none) (here : l.isRem = false) (plain : l.ver = false)
    (unheld : s.heldReqs.any (fun h => h.req.agent == s.cur && h.req.pa / 32 == l.pa (offset a) / 32) = false)
    (served : l.nc = true ∨ ((s.dir (l.pa (offset a) / 32)).ptrs.length < 4 ∧
      (dieOf s.cur.tile = homeDie (l.pa (offset a)) ∨ s.rem.find (remKey (dieOf s.cur.tile) (l.pa (offset a))) = none))) :
    ∃ u : State, loadPieces s v 1 false pod [(a, n)] a = .ok (u, asSeen s.unseen s.path (l.pa (offset a))
        ((s.memRead (l.pa (offset a)) n).map (fun b => (b, s.linePois (l.pa (offset a)))))) ∧ u.agents = s.agents ∧
      (l.nc = true ∨ dieOf s.cur.tile = homeDie (l.pa (offset a)) → u.mem = s.mem) := by
  obtain ⟨u, read, agents, mem⟩ := readHome_served (s := s.noteTlb s.who.tlb s.who.root (offset a) l) (w := s.who) n rfl served
  rw [State.noteTlb_memRead] at read
  exact ⟨u, loadPieces_one wf starts (checkBytes_global window leaf allowed) (by simp [viewTest, plain]) (reside_global ..)
    ((readGlobal_in_place here plain unheld).trans read) (State.agents_eq_iff.mp agents).2.1 (State.me_of_agents agents), agents, mem⟩

/-- A load within a resident scratchpad page is served by the page, which counts as accessed (03 R70). -/
theorem loadPieces_scratch {s : State} (v : View) (pod : Bool) {a : Word} {n win : Nat} (wf : s.ctxs.wf {} = true) (starts : s.me.prog = [])
    (window : windowOf a = some win) (scratch : win < 3) (inside : offset a + n ≤ windowPages (isV s.cur.tile) win * 2048)
    (runs : (s.tile s.cur.tile).run.isSome) (resident : loc ((s.tile s.cur.tile).spte (pkey win (offset a / 2048))) = 1) :
    loadPieces s v 1 false pod [(a, n)] a =
      .ok (s.setTile s.cur.tile ((s.tile s.cur.tile).touch (pkey win (offset a / 2048))),
        (s.tile s.cur.tile).readAs s.path (pkey win (offset a / 2048)) (offset a % 2048) n) :=
  have mapped : loc ((s.tile s.cur.tile).spte (pkey win (offset a / 2048))) ≠ 0 := by simp [resident]
  loadPieces_one wf starts (checkBytes_scratch window scratch inside runs mapped) rfl (reside_scratch resident _ _) rfl rfl rfl

/-- Settles O18: the load of each window by its own lemma, and its bytes as the path of the access sees them. -/
theorem loadsReadAddressedBytes : Obligations.LoadsReadAddressedBytes := by
  refine ⟨?global, ?scratch⟩
  case global =>
    intro s v pod a n l wf starts window _ _ leaf allowed here plain unheld pa served
    obtain ⟨u, load, agents, mem⟩ := loadPieces_global v pod n wf starts window leaf allowed here plain unheld served
    refine ⟨u, _, load, by simp [asSeen_length, State.memRead_length], fun i hi => ?_, mem, State.ctx_of_agents agents,
      (State.agents_eq_iff.mp agents).2.2⟩
    rw [asSeen_getElem?, List.getElem?_map, State.memRead_getElem? s _ hi]
    rfl
  case scratch =>
    intro s v pod a n win wf starts window scratch _ _ inside runs resident x key o
    refine ⟨_, _, loadPieces_scratch v pod wf starts window scratch inside runs resident, ?_, fun i _ now held => ?_, rfl, fun _ => rfl⟩
    · exact (asSeen_length ..).trans (Page.read_length ..)
    · rw [Tile.readAs, asSeen_getElem?, held]
      rfl

end Sys2Proof.Machine
end

section
/-! SUPPORT. A store of bytes within a line of global memory: it makes nothing wait, and its write is performed at the line's home. -/

namespace Sys2Proof.Machine

/-! ### A write at its home (04 R102) -/

/-- What a write performed at its home puts in memory. -/
theorem State.performWrite_memByte {s : State} (wf : Memory.wf s.mem = true) (w : Option Writer) (d pa : Nat) (bs : List Byte) (p : Bool) (b : Nat) :
    (s.performWrite w d pa bs p false).memByte b = if pa ≤ b ∧ b < pa + bs.length then (bs[b - pa]?).getD 0 else s.memByte b := by
  have written : (s.performWrite w d pa bs p false).mem = ((s.hideMem w pa bs.length).memWrite pa bs).mem :=
    (State.invalidateSharers_mem ..).trans (State.lineWrite_mem ..)
  rw [State.memByte, written]
  exact State.memByte_memWrite (s.hideMem w pa bs.length) wf pa b bs

@[simp] theorem State.performWrite_agents (s : State) (w : Option Writer) (d pa : Nat) (bs : List Byte) (p : Bool) :
    (s.performWrite w d pa bs p false).agents = s.agents := by
  simp [State.performWrite, State.homeWrite]

section
variable {s : State} {w : Who} {va : Nat} {l : Leaf}

/-- A store to a page of this package without versions goes to the line's home, and where nothing is pending there it is performed. -/
theorem writeGlobal_performed (here : l.isRem = false) (plain : l.ver = false) (unshut : s.lineShut (l.pa va / 32) = false) (id : Nat)
    (bs : List (Byte × Bool)) :
    let u := (s.noteTlb w.tlb w.root va l).dataBatch (dieOf w.agent.tile) (l.pa va)
    writeGlobal s w true id va l bs =
      u.performWrite (u.writerOf (some id)) (dieOf w.agent.tile) (l.pa va) (bs.map (·.1)) (bs.any (·.2)) false := by
  have arrived : ((s.noteTlb w.tlb w.root va l).dataBatch (dieOf w.agent.tile) (l.pa va)).lineShut (l.pa va / 32) = false :=
    (State.dataBatch_lineShut ..).trans unshut
  simp [writeGlobal, here, plain, State.homeStore, State.arriveWrite, arrived]

theorem writeGlobal_agents (here : l.isRem = false) (plain : l.ver = false) (unshut : s.lineShut (l.pa va / 32) = false) (id : Nat)
    (bs : List (Byte × Bool)) : (writeGlobal s w true id va l bs).agents = s.agents := by
  simp [writeGlobal_performed here plain unshut]

theorem writeGlobal_memByte (wf : Memory.wf s.mem = true) (here : l.isRem = false) (plain : l.ver = false)
    (unshut : s.lineShut (l.pa va / 32) = false) (id : Nat) (bs : List (Byte × Bool)) (b : Nat) :
    (writeGlobal s w true id va l bs).memByte b =
      if l.pa va ≤ b ∧ b < l.pa va + bs.length then ((bs[b - l.pa va]?).getD (0, false)).1 else s.memByte b := by
  have mem : ((s.noteTlb w.tlb w.root va l).dataBatch (dieOf w.agent.tile) (l.pa va)).mem = s.mem := State.dataBatch_mem ..
  rw [writeGlobal_performed here plain unshut, State.performWrite_memByte (mem ▸ wf), List.length_map, List.getElem?_map]
  refine if_congr Iff.rfl ?_ (by rw [State.memByte, mem, State.memByte])
  cases bs[b - l.pa va]? <;> rfl

end

/-! ### The executing context, written -/

section
variable {s : State} (wf : s.ctxs.wf {} = true) (c : Ctx)
include wf

theorem State.setMe_ctxs_wf : (s.setMe c).ctxs.wf {} = true := SMap.wf_set wf _ _

theorem State.me_setMe : (s.setMe c).me = c := (State.ctx_setCtx s wf _ _ c).trans (if_pos rfl)

theorem State.ctx_setMe_of_ne {b : Agent} (other : akey b ≠ akey s.cur) : (s.setMe c).ctx b = s.ctx b :=
  (State.ctx_setCtx s wf _ _ c).trans (if_neg other)

end

/-! ### One piece stored -/

/-- A context whose token register counts one more outstanding op; k0 counts none (04 R94). -/
def Ctx.countTok (c : Ctx) (kw : BitVec 3) : Ctx := if kw = 0 then c else { c with k := c.k.set 0 kw.toNat (c.k.get 0 kw.toNat + 1) }

@[simp] theorem Ctx.countTok_s (c : Ctx) (kw : BitVec 3) : (c.countTok kw).s = c.s := by
  unfold Ctx.countTok
  split_ifs <;> rfl

@[simp] theorem Ctx.countTok_creg (c : Ctx) (kw : BitVec 3) : (c.countTok kw).creg = c.creg := by
  unfold Ctx.countTok
  split_ifs <;> rfl

section
variable {s : State} (wf : s.ctxs.wf {} = true) (path : Nat) (kw : BitVec 3) (dst : Dst)
include wf

theorem State.issueOp_ctxs_wf : (s.issueOp path kw dst).ctxs.wf {} = true := State.setMe_ctxs_wf wf (s.me.countTok kw)

theorem State.issueOp_me : (s.issueOp path kw dst).me = s.me.countTok kw := State.me_setMe wf _

theorem State.issueOp_ctx_of_ne {b : Agent} (other : akey b ≠ akey s.cur) : (s.issueOp path kw dst).ctx b = s.ctx b :=
  State.ctx_setMe_of_ne wf (s.me.countTok kw) other

end

/-- The state in which a store of one piece of global memory writes it: the op has issued, and the bytes are in its context's port (03 R87). -/
def State.issueStore (s : State) (kw : BitVec 3) (a : Word) (n va : Nat) (l : Leaf) : State :=
  let u := s.issueOp s.path kw .none
  u.setMe { u.me with port := portOf u.me.port [((a, n), .glob va l)], prog := [] }

section
variable {s : State} (kw : BitVec 3) (a : Word) (n va : Nat) (l : Leaf)

@[simp] theorem State.issueStore_mem : (s.issueStore kw a n va l).mem = s.mem := rfl
@[simp] theorem State.issueStore_memByte (b : Nat) : (s.issueStore kw a n va l).memByte b = s.memByte b := rfl
@[simp] theorem State.issueStore_tiles : (s.issueStore kw a n va l).tiles = s.tiles := rfl
@[simp] theorem State.issueStore_lineShut (line : Nat) : (s.issueStore kw a n va l).lineShut line = s.lineShut line := rfl

variable (wf : s.ctxs.wf {} = true)
include wf

theorem State.issueStore_me : (s.issueStore kw a n va l).me =
    { s.me.countTok kw with port := portOf (s.me.countTok kw).port [((a, n), .glob va l)], prog := [] } := by
  rw [← State.issueOp_me wf s.path kw .none]
  exact State.me_setMe (State.issueOp_ctxs_wf wf _ _ _) _

theorem State.issueStore_ctx_of_ne {b : Agent} (other : akey b ≠ akey s.cur) : (s.issueStore kw a n va l).ctx b = s.ctx b :=
  (State.ctx_setMe_of_ne (State.issueOp_ctxs_wf wf _ _ _) _ other).trans (State.issueOp_ctx_of_ne wf _ _ _ other)

end

/-- An op's completion is posted unless a home holds one of its writes (04 R94, R108). -/
def State.postPerformed (s : State) (id : Nat) : State :=
  if ((s.ops.find id).map (·.need)).getD 0 = 0 then s.post (.operationCompletion id) else s

@[simp] theorem State.postPerformed_agents (s : State) (id : Nat) : (s.postPerformed id).agents = s.agents := by
  unfold State.postPerformed
  split_ifs <;> rfl

@[simp] theorem State.postPerformed_memByte (s : State) (id b : Nat) : (s.postPerformed id).memByte b = s.memByte b := by
  unfold State.postPerformed
  split_ifs <;> rfl

theorem putPieces_global (s : State) (kw : BitVec 3) (a : Word) (va : Nat) (l : Leaf) (bs : List (Byte × Bool)) :
    putPieces s kw [((a, bs.length), .glob va l)] [] bs [] =
      (writeGlobal (s.issueStore kw a bs.length va l) s.who true s.nextOp va l bs).postPerformed s.nextOp := by
  have chunk : globChunks [((a, bs.length), .glob va l)] bs = [(.glob va l, bs)] := by simp [globChunks]
  rw [putPieces, chunk]
  rfl

/-- A store of one piece of global memory that starts waits for nothing: its op issues, its bytes are written, and the op completes with the write. -/
theorem stores_global {s : State} (kw : BitVec 3) {a : Word} {l : Leaf} (bs : List (Byte × Bool)) (wf : s.ctxs.wf {} = true)
    (starts : s.me.prog = []) (window : windowOf a = some 4) (leaf : s.translate (.data s.cur.tile) (s.root s.cur) (offset a) = .ok l)
    (allowed : l.refuse 2 s.handler = none) :
    Stores s false kw [(a, bs.length)] [] a bs []
      ((writeGlobal (s.issueStore kw a bs.length (offset a) l) s.who true s.nextOp (offset a) l bs).postPerformed s.nextOp) := by
  refine ⟨_, _, checkAt_one (checkBytes_global window leaf allowed), rfl, s, s, ?_, rfl, (putPieces_global ..).symm⟩
  simp [starts, spChunks, storeSp, State.setProg_nil wf starts]

/-- Settles O19: the one write of the store, performed at its home from the state in which its op has issued. -/
theorem globalStoreWritesMemory : Obligations.GlobalStoreWritesMemory := by
  intro s kw a bs l memWf wf starts window _ _ leaf allowed here plain noOverflow unreserved
  have unshut : (s.issueStore kw a bs.length (offset a) l).lineShut (l.pa (offset a) / 32) = false :=
    (State.issueStore_lineShut ..).trans (by simp [State.lineShut, noOverflow, unreserved])
  have agents := (State.postPerformed_agents _ s.nextOp).trans (writeGlobal_agents (w := s.who) here plain unshut s.nextOp bs)
  refine ⟨_, stores_global kw bs wf starts window leaf allowed, fun b => ?_, ?_, ?_, ?_, fun b other => ?_⟩
  · rw [State.postPerformed_memByte, writeGlobal_memByte (by simpa using memWf) here plain unshut, State.issueStore_memByte]
  · simp [State.me_of_agents agents, State.issueStore_me _ _ _ _ _ wf]
  · simp [State.me_of_agents agents, State.issueStore_me _ _ _ _ _ wf]
  · simp [(State.agents_eq_iff.mp agents).2.2]
  · rw [State.ctx_of_agents agents, State.issueStore_ctx_of_ne _ _ _ _ _ wf other]

end Sys2Proof.Machine
end

section
/-! SUPPORT. The register-write events, the access of a handler to another context's registers, and the energy counters. -/

namespace Sys2Proof.Machine

/-! ### The register-write events -/

/-- TLBINV written: the writer waits where an access that used a removed translation is to complete (03 R86). -/
theorem exec_tlbinvWrite (a : Agent) (v : Word) (s : State) :
    let u : State := { s.cutKept v with tlb := (s.tlb.map (fun e => (e.1, e.2.filter (fun x => !tlbinvHits v x)))).filter (fun e => !e.2.isEmpty) }
    exec (.tlbinvWrite a v) s = .next (if u.tlbinvBusy (bits v 63 48) && (s.ctx a).st == .ready then
      (u.setCtx a { s.ctx a with st := .waiting (.structural (.tlbinv (bits v 63 48))) }).post (.contextWaitClear a) else u) := rfl

/-- An entry that a TLBINV names: of its identifier, and of its page unless it names them all. -/
theorem tlbinvHits_eq (v : Word) (e : TlbEnt) : tlbinvHits v e = (e.asid == bits v 63 48 &&
    (bits v 44 0 == 2 ^ 45 - 1 || e.vpn * 4096 / e.leaf.size == bits v 44 0 * 4096 / e.leaf.size)) := by
  simp [tlbinvHits, TlbEnt.serves]

/-- BFMT written: a value that R66 does not accept leaves the register as it is (03 R66). -/
theorem exec_bfmtWrite {a : Agent} {n : BitVec 12} {v : Word} {s : State} {buf bank : Nat} (register : bfmtBank (isV a.tile) n.toNat = some (buf, bank))
    (own : cregIsCtx n.toNat = false) :
    exec (.bfmtWrite a n v) s = .next (if bfmtLegal (isV a.tile) buf bank v then s.writeBfmt a.tile buf bank v else s) := by
  simp [exec, execBfmtWrite, State.crWrite, register, own]

/-- FREC0.VALID written 1: the fault registers of the selected tile are cleared (20 R424). -/
theorem exec_frec0ValidClear {a : Agent} {s : State} {t : Nat} (selected : s.fselTile (dieOf a.tile) = some t) : exec (.frec0ValidClear a) s =
    .next (s.setTile t { s.tile t with frec0 := 0, frec1 := 0, frec2 := 0, frec3 := 0, frecTime := 0 }) := by
  simp [exec, execFrec0ValidClear, State.clearFrec, selected]

/-! ### `ctxrd` and `ctxwr` (07 R192) -/

section
variable {s : State} {f : EX}

theorem needHandler_ok (h : s.handler = true) : needHandler s = .ok () := by simp [needHandler, h]

theorem needHandler_trap (h : s.handler = false) : needHandler s = .error (.trap ⟨4, 0x2001, 0, 0, none⟩) := by simp [needHandler, h]

theorem exec_ctxrd (h : s.handler = true) (ra : Readable s [f.ra]) (inRange : (s.rs f.ra).toNat ≤ 10) :
    exec (.ctxrd f) s = ran (s.ws f.rc ((s.ctx ⟨s.cur.tile, (s.rs f.ra).toNat⟩).peek (ctxCls f) (ctxNum f))) := by
  simp [exec, execCtxrd, needHandler_ok h, useS_ok ra, inRange]

theorem exec_ctxrd_of_range (h : s.handler = true) (ra : Readable s [f.ra]) (outside : 10 < (s.rs f.ra).toNat) :
    exec (.ctxrd f) s = trapped s ⟨6, 0x7001, 1, 0, none⟩ := by
  simp [exec, execCtxrd, needHandler_ok h, useS_ok ra, Nat.not_le.mpr outside]

theorem exec_ctxrd_of_task (h : s.handler = false) : exec (.ctxrd f) s = trapped s ⟨4, 0x2001, 0, 0, none⟩ := by
  simp [exec, execCtxrd, needHandler_trap h]

theorem exec_ctxwr_of_task (h : s.handler = false) : exec (.ctxwr f) s = trapped s ⟨4, 0x2001, 0, 0, none⟩ := by
  simp [exec, execCtxwr, needHandler_trap h]

/-- A Held or Done context takes a value that its register may hold. -/
theorem exec_ctxwr (h : s.handler = true) (ra : Readable s [f.ra, f.rc]) (inRange : (s.rs f.ra).toNat ≤ 10)
    (still : (s.ctx ⟨s.cur.tile, (s.rs f.ra).toNat⟩).st = .done ∨ ∃ w, (s.ctx ⟨s.cur.tile, (s.rs f.ra).toNat⟩).st = .held w)
    (token : ctxCls f = 3 → (s.rs f.rc).toNat ≤ 63) (sheaf : ctxCls f = 5 → s.rs f.rc &&& 7 = 0) :
    exec (.ctxwr f) s = ran (s.setCtx ⟨s.cur.tile, (s.rs f.ra).toNat⟩
      ((s.ctx ⟨s.cur.tile, (s.rs f.ra).toNat⟩).poke (ctxCls f) (ctxNum f) (s.rs f.rc))) := by
  have tokenFits : (!(ctxCls f == 3 && decide ((s.rs f.rc).toNat > 63))) = true := by simpa [imp_iff_not_or] using token
  have sheafAligned : (!(ctxCls f == 5 && s.rs f.rc &&& 7 != 0)) = true := by simpa [imp_iff_not_or] using sheaf
  rw [show exec (.ctxwr f) s = execCtxwr f s from rfl]
  rcases still with st | ⟨w, st⟩ <;>
    simp only [execCtxwr, needHandler_ok h, useS_ok ra, decide_eq_true inRange, st, tokenFits, sheafAligned, need_true, run_bind_ok, settle_ok]

/-- A context in any other state takes none. -/
theorem exec_ctxwr_of_moving (h : s.handler = true) (ra : Readable s [f.ra, f.rc]) (inRange : (s.rs f.ra).toNat ≤ 10)
    (moving : (s.ctx ⟨s.cur.tile, (s.rs f.ra).toNat⟩).st = .free ∨ (s.ctx ⟨s.cur.tile, (s.rs f.ra).toNat⟩).st = .ready ∨
      ∃ w, (s.ctx ⟨s.cur.tile, (s.rs f.ra).toNat⟩).st = .waiting w) :
    exec (.ctxwr f) s = trapped s ⟨6, 0x2003, BitVec.ofNat 10 (s.rs f.ra).toNat, 0, none⟩ := by
  rw [show exec (.ctxwr f) s = execCtxwr f s from rfl]
  rcases moving with st | st | ⟨w, st⟩ <;>
    simp only [execCtxwr, needHandler_ok h, useS_ok ra, decide_eq_true inRange, st, need_true, need_false, run_bind_ok, run_bind_error, settle_trap]

end

/-- Where both lists of registers may be read, so may their join. -/
theorem Readable.append {s : State} {rs ts : List (BitVec 5)} (h : Readable s rs) (k : Readable s ts) : Readable s (rs ++ ts) := by
  intro r hr
  exact (List.mem_append.mp hr).elim (h r) (k r)

/-! ### Energy counters (07 R191) -/

@[simp] theorem State.updateEnergy_cur (s : State) (t : Nat) : (s.updateEnergy t).cur = s.cur := by
  unfold State.updateEnergy
  dsimp only
  split_ifs <;> rfl

/-- `erd`: a measured counter is brought up to date before it is read; the others read the state as it is. -/
theorem exec_erd (f : EX) (s : State) :
    let u := if parF f.par 3 0 < 2 then s.updateEnergy s.cur.tile else s
    exec (.erd f) s = ran (u.ws f.rc (match parF f.par 3 0 with
      | 0 => BitVec.ofNat 64 (u.tile s.cur.tile).energyRun
      | 1 => BitVec.ofNat 64 (u.tile s.cur.tile).energyAll
      | 2 => BitVec.ofNat 64 (recEest (s.runRec s.cur.tile))
      | 3 => BitVec.ofInt 64 s.budget
      | _ => BitVec.ofNat 64 s.limit)) := by
  rw [show exec (.erd f) s = execErd f s from rfl, execErd]
  match parF f.par 3 0 with
  | 0 => simp [wd]
  | 1 => simp [wd]
  | 2 => rfl
  | 3 => rfl
  | n + 4 => rw [if_neg (by omega)]; rfl

/-- Settles O15: each event by its own lemma, `ctxrd` and `ctxwr` by the tests they make in turn. -/
theorem registerEventAndContextResults : Obligations.RegisterEventAndContextResults := by
  refine ⟨?events, ?contexts⟩
  case events =>
    intro s a n v
    refine ⟨?tlbinv, rfl, rfl, fun buf bank => exec_bfmtWrite, fun t => exec_frec0ValidClear, rfl, rfl, fun other => congrArg _ (if_neg other), rfl⟩
    intro hit u busy
    have hits : tlbinvHits v = hit := funext (tlbinvHits_eq v)
    have act : exec (.tlbinvWrite a v) s = .next (if busy && (s.ctx a).st == .ready then
        (u.setCtx a { s.ctx a with st := .waiting (.structural (.tlbinv (bits v 63 48))) }).post (.contextWaitClear a) else u) := by
      rw [exec_tlbinvWrite, hits]
      rfl
    rw [act]
    refine ⟨fun h => ?_, fun h ready => by simp [h, ready]⟩
    rcases h with h | h <;> simp [h]
  case contexts =>
    intro s f ra n c v
    refine ⟨fun h => exec_ctxrd h ra, fun h => exec_ctxrd_of_range h ra, fun h => ⟨exec_ctxrd_of_task h, exec_ctxwr_of_task h⟩,
      fun rc h => exec_ctxwr h (ra.append rc), fun rc h => exec_ctxwr_of_moving h (ra.append rc), exec_erd f s⟩

end Sys2Proof.Machine
end

section
/-! SUPPORT. An atomic at the home of its line: what it reads there, and what it leaves in memory. -/

namespace Sys2Proof.Machine

theorem leBytes_length (n x : Nat) : (leBytes n x).length = n := by
  induction n generalizing x with
  | zero => rfl
  | succ n ih => exact congrArg (· + 1) (ih _)

/-- Memory of this package answers its bytes, each with the poison of its line. -/
theorem State.remRead_of_local {pa : Nat} (here : localPa pa = true) (s : State) (d n : Nat) :
    s.remRead d pa n = (s.memRead pa n).map (fun b => (b, s.linePois pa)) := by
  simp [State.remRead, State.uaDown, here]

/-- The bytes that a range of memory reads as are those that stand in it. -/
theorem State.memRead_eq_of_memByte {s : State} {a : Nat} {bs : List Byte} (stand : ∀ i < bs.length, s.memByte (a + i) = (bs[i]?).getD 0) :
    s.memRead a bs.length = bs := by
  refine List.ext_getElem (State.memRead_length ..) fun i _ inside => ?_
  have byte := State.memRead_getElem? s a inside
  rw [stand i inside, List.getElem?_eq_getElem inside, Option.getD_some] at byte
  exact (List.getElem?_eq_some_iff.mp byte).2

/-- A range that a write has been performed on reads as the bytes written. -/
theorem State.performWrite_memRead {s : State} (wf : Memory.wf s.mem = true) (w : Option Writer) (d pa : Nat) (bs : List Byte) (p : Bool) :
    (s.performWrite w d pa bs p false).memRead pa bs.length = bs :=
  State.memRead_eq_of_memByte fun i inside => by
    rw [State.performWrite_memByte wf, if_pos (by omega), Nat.add_sub_cancel_left]

section
variable {s : State} {a : Word} {n : Nat} {l : Leaf}

/-- Global memory that is aligned and that a translation allows an atomic passes the checks of an atomic, off pages with versions. -/
theorem checkAtomic_global (alignment : a.toNat % n = 0) (window : windowOf a = some 4)
    (leaf : s.translate (.data s.cur.tile) (s.root s.cur) (offset a) = .ok l) (allowed : l.refuse 8 s.handler = none) (plain : l.ver = false) :
    checkAtomic s a n = .ok (.glob (offset a) l) := by
  have checked : checkPiece s s.who a n 8 false = .ok (.glob (offset a) l) := checkBytes_global window leaf allowed
  simp [checkAtomic, aligned_ok alignment, checked, plain]

/-- A home at which nothing is pending performs an atomic at once. -/
theorem State.homeBusy_of_open {va : Nat} (noOverflow : (s.dir (l.pa va / 32)).ovf = false) (unreserved : s.reserved.find (l.pa va / 32) = none)
    (unheld : s.heldReqs = []) : s.homeBusy (.glob va l) = false := by
  simp [State.homeBusy, State.lineShut, noOverflow, unreserved, unheld]

/-- The state in which an atomic of the executing agent on global memory of this package reaches the home of its line. -/
def State.sendAtomic (s : State) (n va : Nat) (l : Leaf) : State :=
  let u := s.noteTlb s.who.tlb s.who.root va l
  (u.setMe { u.me with port := portAdd u.me.port va n }).dataBatch (dieOf s.cur.tile) (l.pa va)

@[simp] theorem State.sendAtomic_mem (s : State) (n va : Nat) (l : Leaf) : (s.sendAtomic n va l).mem = s.mem := State.dataBatch_mem ..

/-- An atomic on global memory of this package answers what memory holds, and performs its write at the home. -/
theorem atomicAt_global {va : Nat} (positive : 0 < n) (here : l.isRem = false) (plain : l.ver = false) (package : localPa (l.pa va) = true)
    (fn : Nat → Nat) :
    atomicAt s n (.glob va l) fn = ((s.sendAtomic n va l).performWrite (s.writer s.who 0) (dieOf s.cur.tile) (l.pa va)
      (leBytes n (fn (leNat (s.memRead (l.pa va) n)))) false false, leNat (s.memRead (l.pa va) n), s.linePois (l.pa va)) := by
  have old (u : State) (d : Nat) : (u.remRead d (l.pa va) n).map (·.1) = u.memRead (l.pa va) n := by
    simp [State.remRead_of_local package, Function.comp_def]
  have poison (u : State) (d : Nat) : (u.remRead d (l.pa va) n).any (·.2) = u.linePois (l.pa va) := by
    obtain ⟨m, rfl⟩ := Nat.exists_eq_add_one.mpr positive
    cases h : u.linePois (l.pa va) <;> simp [State.remRead_of_local package, State.memRead, h]
  simp only [atomicAt, here, plain, old, poison, Bool.false_and, Bool.false_eq_true, if_false]
  rfl

end

/-- Settles O23: the atomic's one write, performed at its home, puts the new bytes in memory. -/
theorem globalAtomicUpdatesMemory : Obligations.GlobalAtomicUpdatesMemory := by
  intro s a n fn l wf window positive _ alignment leaf allowed here plain package noOverflow unreserved unheld
  have mem := s.sendAtomic_mem n (offset a) l
  have size := leBytes_length n (fn (leNat (s.memRead (l.pa (offset a)) n)))
  refine ⟨.glob (offset a) l, _, checkAtomic_global alignment window leaf allowed plain, reside_global ..,
    State.homeBusy_of_open noOverflow unreserved unheld, atomicAt_global positive here plain package fn, ?_, fun b outside => ?_⟩
  · simpa only [size] using State.performWrite_memRead (mem ▸ wf) _ _ _ (leBytes n (fn (leNat (s.memRead (l.pa (offset a)) n)))) _
  · rw [State.performWrite_memByte (mem ▸ wf), size, if_neg (by omega), State.memByte, mem, State.memByte]

end Sys2Proof.Machine
end

section
/-! SUPPORT. The completion of an op, and the requests, sharers and handler reports that the home of a line answers. -/

namespace Sys2Proof.Machine

/-! ### Completion (04 R94) -/

theorem exec_operationCompletion {s : State} {id : Nat} {o : Op} (outstanding : s.ops.find id = some o) (settled : o.need = 0)
    (path : o.path = 0 ∨ o.path = 4) : exec (.operationCompletion id) s = .next (s.completeOp id) := by
  have complete : (o.need = 0 && (o.path = 0 || o.path = 4)) = true := by simpa [settled] using path
  change execOperationCompletion id s = _
  simp only [execOperationCompletion, outstanding, complete, if_true]

theorem State.completeOp_of_outstanding {s : State} {id : Nat} {o : Op} (outstanding : s.ops.find id = some o) :
    let c := (s.ctx o.agent).land id o.dst
    s.completeOp id = { s.setCtx o.agent (if o.kw = 0 then c else { c with k := c.k.set 0 o.kw (c.k.get 0 o.kw - 1) }) with
      ops := s.ops.del id } := by
  simp only [State.completeOp, outstanding]

/-! ### Sharers (04 R107, R108) -/

section
variable {s : State} {line home sharer : Nat}

theorem State.addSharer_of_known (known : (s.dir line).ptrs.contains sharer = true ∨ (s.dir line).table.contains sharer = true) :
    s.addSharer line home sharer = s :=
  if_pos (Bool.or_eq_true_iff.mpr known)

theorem State.addSharer_of_room (noPointer : (s.dir line).ptrs.contains sharer = false) (noEntry : (s.dir line).table.contains sharer = false)
    (room : (s.dir line).ptrs.length < 4) :
    s.addSharer line home sharer = s.setDir line { s.dir line with home := home, ptrs := (s.dir line).ptrs ++ [sharer] } := by
  simp only [State.addSharer, noPointer, noEntry, room, Bool.or_false, Bool.false_eq_true, if_false, if_true]

theorem State.addSharer_of_full (noPointer : (s.dir line).ptrs.contains sharer = false) (noEntry : (s.dir line).table.contains sharer = false)
    (full : 4 ≤ (s.dir line).ptrs.length) :
    s.addSharer line home sharer =
      if s.agenda.contains (.directoryOverflow line sharer) then s else s.post (.directoryOverflow line sharer) := by
  simp only [State.addSharer, noPointer, noEntry, Nat.not_lt.mpr full, Bool.or_false, Bool.false_eq_true, if_false]

/-- Every copy of a line is gone once its sharers are invalidated (04 R107). -/
theorem State.invalidateSharers_dir (wf : s.dirs.wf {} = true) (d pa : Nat) : (s.invalidateSharers d pa).dir (pa / 32) = {} := by
  have emptied : (s.invalidateSharers d pa).dirs = s.dirs.set {} (pa / 32) {} :=
    (congrArg State.dirs (State.homeBatch_sansMessages ((s.dropL1s _ _).setDir (pa / 32) {}) d pa (s.farSharers pa)) :)
  rw [State.dir, emptied]
  exact (SMap.get_set wf ..).trans (if_pos rfl)

/-! ### The overflow handler (04 R108, 22 R459, R460) -/

theorem exec_directoryOverflow_of_known (known : (s.dir line).ptrs.contains sharer = true ∨ (s.dir line).table.contains sharer = true) :
    exec (.directoryOverflow line sharer) s = .next s :=
  if_pos (Bool.or_eq_true_iff.mpr known)

/-- A fifth sharer goes to the handler: it is recorded, or a failed handler is reported. -/
theorem exec_directoryOverflow_of_full (noPointer : (s.dir line).ptrs.contains sharer = false)
    (noEntry : (s.dir line).table.contains sharer = false) (full : (s.dir line).ptrs.length = 4) :
    exec (.directoryOverflow line sharer) s = .next (if s.handlerFailed (s.dir line).home line then s.reportHandler (s.dir line).home
      else s.setDir line { s.dir line with ovf := true, table := (s.dir line).table ++ [sharer] }) := by
  change execDirectoryOverflow line sharer s = _
  simp only [execDirectoryOverflow, noPointer, noEntry, full, Bool.or_false, Bool.false_eq_true, lt_irrefl, if_false]
  split_ifs <;> rfl

theorem exec_overflowHandlerReport_of_clear (clear : (s.dir line).ovf = false) (refuse : Bool) :
    exec (.overflowHandlerReport line refuse) s = .next s := by
  change execOverflowHandlerReport line refuse s = _
  simp [execOverflowHandlerReport, clear]

theorem exec_overflowHandlerReport_of_failed (overflow : (s.dir line).ovf = true) (failed : s.handlerFailed (s.dir line).home line = true)
    (refuse : Bool) : exec (.overflowHandlerReport line refuse) s = .next (s.reportHandler (s.dir line).home) := by
  change execOverflowHandlerReport line refuse s = _
  simp [execOverflowHandlerReport, overflow, failed]

theorem exec_overflowHandlerReport (overflow : (s.dir line).ovf = true) (works : s.handlerFailed (s.dir line).home line = false) (refuse : Bool) :
    exec (.overflowHandlerReport line refuse) s = .next (if refuse then s.setDir line { s.dir line with table := (s.dir line).table.dropLast }
      else ((s.invalidateSharers (homeDie (line * 32)) (line * 32)).crossAll (homeDie (line * 32))).performHeld line) := by
  change execOverflowHandlerReport line refuse s = _
  cases refuse <;> simp [execOverflowHandlerReport, overflow, works]

end

/-! ### Requests (04 R102, R106) -/

section
variable {s : State} {r : MemReq}

theorem State.lineShut_iff {line : Nat} : s.lineShut line = true ↔ (s.dir line).ovf = true ∨ (s.reserved.find line).isSome = true :=
  Bool.or_eq_true_iff

theorem State.performReq_of_write (w : Option Writer) (write : r.kind = 0) :
    s.performReq w r = s.performWrite w (dieOf r.agent.tile) r.pa r.data r.poisoned r.ver :=
  if_pos write

/-- What an atomic request leaves in place of the old value of its bytes. -/
def atomicNew (r : MemReq) (old : Nat) : Nat :=
  let w := 8 * r.len
  let b := r.operand.toNat % 2 ^ w
  if r.op = 9 then (if old = r.expected.toNat % 2 ^ w then b else old) else amoFn r.op w old b

theorem State.performReq_of_atomic (w : Option Writer) (atomic : r.kind = 1) :
    s.performReq w r = s.performWrite w (dieOf r.agent.tile) r.pa (leBytes r.len (atomicNew r (leNat (s.memRead r.pa r.len)))) false r.ver :=
  if_neg (by simp [atomic])

/-- A performed write takes its stamp, is written at the home and invalidates the sharers (04 R102, R112). -/
theorem State.performWrite_eq (w : Option Writer) (d pa : Nat) (bs : List Byte) (p ver : Bool) : s.performWrite w d pa bs p ver =
    ((if ver then s.stampLine (pa / 32) (max s.time ((s.ver (pa / 32)).stamp + 1)) else s).hideMem w pa bs.length
      |>.lineWrite pa bs p
      |>.invalidateSharers d pa) := rfl

/-- The bytes that a write or an atomic is to change. -/
def reqLen (r : MemReq) : Nat := if r.kind = 0 then r.data.length else r.len

/-- A request within a line of this package's memory: a read notes its sharer; a write or an atomic is held at a home that is shut and performed at
another. -/
theorem exec_memoryRequestArrival (inside : r.pa < 2 ^ 40) (kind : r.kind ≤ 2)
    (fits : r.kind ≠ 2 → 0 < reqLen r ∧ r.pa % 32 + reqLen r ≤ 32) : exec (.memoryRequestArrival r) s =
      .next (if r.kind = 2 then s.addSharer (r.pa / 32) r.home r.sharer
        else if s.lineShut (r.pa / 32) then s.holdReq r none else s.performReq none r) := by
  have here : localPa r.pa = true := decide_eq_true (by omega)
  refine (if_neg ?_).trans (by split_ifs <;> rfl)
  simp only [here, Bool.not_true, Bool.false_or, Bool.or_eq_true, Bool.and_eq_true, decide_eq_true_eq]
  change ¬((r.pa ≥ 2 ^ 40 ∨ r.kind > 2) ∨ r.kind ≠ 2 ∧ (reqLen r = 0 ∨ r.pa % 32 + reqLen r > 32))
  omega

theorem exec_memoryRequestArrival_of_update (inside : r.pa < 2 ^ 40) (update : r.kind ≤ 1) (nonempty : 0 < reqLen r)
    (fits : r.pa % 32 + reqLen r ≤ 32) : exec (.memoryRequestArrival r) s =
      .next (if s.lineShut (r.pa / 32) then s.holdReq r none else s.performReq none r) :=
  (exec_memoryRequestArrival inside (by omega) fun _ => ⟨nonempty, fits⟩).trans (by rw [if_neg (by omega : r.kind ≠ 2)])

theorem exec_memoryRequestArrival_of_read (inside : r.pa < 2 ^ 40) (read : r.kind = 2) :
    exec (.memoryRequestArrival r) s = .next (s.addSharer (r.pa / 32) r.home r.sharer) :=
  (exec_memoryRequestArrival inside read.le fun h => absurd read h).trans (by rw [if_pos read])

end

/-- Settles O24: the completion by the op's destination; a request by its kind and by what its line's home has pending. -/
theorem completionAndHomeResults : Obligations.CompletionAndHomeResults := by
  refine ⟨?completion, fun s r => ?home⟩
  case completion =>
    intro s id ⟨agent, path, kw, dst, need, part⟩ outstanding settled own
    rw [exec_operationCompletion outstanding settled own, State.completeOp_of_outstanding outstanding]
    cases dst <;> rfl
  case home =>
    intro d w old b new shut
    have shut_iff : s.lineShut (r.pa / 32) = true ↔ shut := State.lineShut_iff
    refine ⟨?write, ?atomic, ?held, ?room, ?shared, ?copies, ?fifth, ?known, ?unrecorded, ?unasked, ?report⟩
    case write =>
      intro write inside nonempty fits opened
      have len : reqLen r = r.data.length := if_pos write
      rw [exec_memoryRequestArrival_of_update inside (by omega) (len ▸ List.length_pos_iff.mpr nonempty) (len ▸ fits),
        if_neg (mt shut_iff.mp opened), State.performReq_of_write _ write]
      rfl
    case atomic =>
      intro atomic inside nonempty fits opened
      have len : reqLen r = r.len := if_neg (by omega)
      rw [exec_memoryRequestArrival_of_update inside atomic.le (len ▸ nonempty) (len ▸ fits), if_neg (mt shut_iff.mp opened),
        State.performReq_of_atomic _ atomic, State.performWrite_eq, leBytes_length]
      rfl
    case held =>
      intro update inside nonempty fits closed
      rw [exec_memoryRequestArrival_of_update inside update nonempty fits, if_pos (shut_iff.mpr closed)]
    case room =>
      intro read inside noPointer noEntry room
      rw [exec_memoryRequestArrival_of_read inside read, State.addSharer_of_room noPointer noEntry room]
    case shared =>
      intro read inside
      rw [exec_memoryRequestArrival_of_read inside read]
      exact ⟨fun known => by rw [State.addSharer_of_known known],
        fun noPointer noEntry full => by rw [State.addSharer_of_full noPointer noEntry full]⟩
    case copies => exact fun wf => ⟨State.invalidateSharers_dir wf d r.pa, State.invalidateSharers_mem ..⟩
    case fifth =>
      intro line sharer full noPointer noEntry works
      rw [exec_directoryOverflow_of_full noPointer noEntry full, if_neg (ne_true_of_eq_false works)]
    case known => exact fun line sharer => exec_directoryOverflow_of_known
    case unrecorded =>
      intro line sharer full noPointer noEntry failed
      rw [exec_directoryOverflow_of_full noPointer noEntry full, if_pos failed]
    case unasked =>
      exact fun line refuse => ⟨fun clear => exec_overflowHandlerReport_of_clear clear refuse,
        fun overflow failed => exec_overflowHandlerReport_of_failed overflow failed refuse⟩
    case report =>
      exact fun line overflow works => ⟨exec_overflowHandlerReport overflow works true, exec_overflowHandlerReport overflow works false⟩

end Sys2Proof.Machine
end

section
/-! SUPPORT. Snapshots and transactions: the step of a snapshot by its hold, and one issue of `txcommit` by what its transaction has reached. -/

namespace Sys2Proof.Machine

/-! ### The stamp of a snapshot (04 R114) -/

theorem State.setNs_eq (s : State) : ∃ dies, s.setNs = { s with dies := dies } := by
  have fold (t : Nat) (l : List Nat) (u : State) : ∃ dies,
      l.foldl (fun u d => u.setDie d ((u.die d).setCr 0x207 (wd t))) u = { u with dies := dies } := by
    induction l generalizing u with
    | nil => exact ⟨_, rfl⟩
    | cons d l ih => exact ih (u.setDie d _)
  unfold State.setNs
  split
  · exact ⟨_, rfl⟩
  · exact fold _ _ _

section
variable {s t : State} {key since n : Nat} {o : StampOwner}

theorem State.takeStamp_of_full (full : 1024 ≤ s.live.length) : s.takeStamp o = none := if_pos full

/-- From cycle 16 on the stamp is 16 below the time base; the dies learn of it as the newest live one. -/
theorem State.takeStamp_of_room (room : s.live.length < 1024) (begun : 16 ≤ s.time) :
    ∃ dies, s.takeStamp o = some ({ s with live := s.live ++ [(s.time - 16, o)], dies := dies }, s.time - 16) := by
  obtain ⟨dies, ns⟩ := State.setNs_eq { s with live := s.live ++ [(s.time - 16, o)] }
  have taken : s.takeStamp o = some (({ s with live := s.live ++ [(s.time - 16, o)] } : State).setNs, s.time - 16) := by
    rw [State.takeStamp, if_neg (Nat.not_le.mpr room), Nat.max_eq_left begun]
  exact ⟨dies, taken.trans (congrArg (fun u => some (u, s.time - 16)) ns)⟩

theorem State.snapStep_of_full (unasked : s.holds.find key = none) (full : 1024 ≤ s.live.length) : s.snapStep key o = (s, some none) := by
  simp only [State.snapStep, unasked, ge_iff_le, full, if_true]

theorem State.snapStep_of_unasked (unasked : s.holds.find key = none) (room : s.live.length < 1024) :
    s.snapStep key o = ({ s with holds := s.holds.put key (s.time, false) }, none) := by
  simp only [State.snapStep, unasked, ge_iff_le, Nat.not_le.mpr room, if_false]

theorem State.snapStep_of_failed (failed : s.holds.find key = some (since, true)) : s.snapStep key o = (s.dropHold key, some none) := by
  simp only [State.snapStep, failed, if_true]

theorem State.snapStep_of_early (asked : s.holds.find key = some (since, false)) (early : s.time < holdAt since) : s.snapStep key o = (s, none) := by
  simp only [State.snapStep, asked, early, Bool.false_eq_true, if_false, if_true]

section
variable (asked : s.holds.find key = some (since, false)) (acknowledged : holdAt since ≤ s.time)
include asked acknowledged

theorem State.snapStep_of_no_stamp (refused : s.takeStamp o = none) :
    s.snapStep key o = (s.dropHold key, some none) := by
  simp only [State.snapStep, asked, Nat.not_lt.mpr acknowledged, refused, Bool.false_eq_true, if_false]

/-- Once every die has acknowledged the hold, the owner gets the Gleaner's stamp and the hold ends. -/
theorem State.snapStep_of_stamp (taken : s.takeStamp o = some (t, n)) : s.snapStep key o = (t.dropHold key, some (some n)) := by
  simp only [State.snapStep, asked, Nat.not_lt.mpr acknowledged, taken, Bool.false_eq_true, if_false]

end

/-! ### `snap` and `txbegin` (08 R230, R232) -/

variable {f : EX}

theorem exec_snap_of_wait (step : s.snapStep (akey s.cur) (s.snapOwner s.cur) = (t, none)) (me : t.me = s.me) :
    exec (.snap f) s = waits t (.structural .hold) := by
  change execSnap f s = _
  simp only [execSnap, holdKey, step, settle_wait, waits, State.waitOn, me]

theorem exec_snap_of_none (step : s.snapStep (akey s.cur) (s.snapOwner s.cur) = (t, some none)) :
    exec (.snap f) s = ran (t.ws f.rc (BitVec.allOnes 64)) := by
  change execSnap f s = _
  simp only [execSnap, holdKey, step, settle_ok]

theorem exec_snap_of_stamp (step : s.snapStep (akey s.cur) (s.snapOwner s.cur) = (t, some (some n))) :
    exec (.snap f) s = ran (t.ws f.rc (wd n)) := by
  change execSnap f s = _
  simp only [execSnap, holdKey, step, settle_ok]

theorem exec_snaprel (ra : Readable s [f.ra]) : exec (.snaprel f) s =
    ran (if s.live.contains ((s.rs f.ra).toNat, s.snapOwner s.cur) then (s.dropLive (s.rs f.ra).toNat (s.snapOwner s.cur)).ws f.rc 0
      else s.ws f.rc 5) := by
  change execSnaprel f s = _
  simp only [execSnaprel, useS_ok ra, run_bind_ok]
  split_ifs <;> rfl

theorem exec_txbegin_of_open (context : s.cur.isAwn = false) (inside : s.me.txo = true) :
    exec (.txbegin f) s = trapped s ⟨6, 0x6004, 0, 0, none⟩ := by
  change execTxbegin f s = _
  simp only [execTxbegin, notAwn_ok context, inside, Bool.not_true, need_false, run_bind_ok, run_bind_error, settle_trap]
  rfl

section
variable (context : s.cur.isAwn = false) (outside : s.me.txo = false)
include context outside

theorem exec_txbegin_of_wait (step : s.snapStep (akey s.cur) (.tx s.cur) = (t, none)) (me : t.me = s.me) :
    exec (.txbegin f) s = waits t (.structural .hold) := by
  change execTxbegin f s = _
  simp only [execTxbegin, notAwn_ok context, outside, Bool.not_false, need_true, run_bind_ok, holdKey, step, settle_wait, waits,
    State.waitOn, me]

theorem exec_txbegin_of_none (step : s.snapStep (akey s.cur) (.tx s.cur) = (t, some none)) :
    exec (.txbegin f) s = ran (t.ws f.rc (BitVec.allOnes 64)) := by
  change execTxbegin f s = _
  simp only [execTxbegin, notAwn_ok context, outside, Bool.not_false, need_true, run_bind_ok, holdKey, step, settle_ok]

theorem exec_txbegin_of_stamp (step : s.snapStep (akey s.cur) (.tx s.cur) = (t, some (some n))) : exec (.txbegin f) s =
    ran ((t.setMe ({ t.me with tx := { state := 1, start := n, commit := t.me.tx.commit, lines := [] } }.setTxo true)).ws f.rc (wd n)) := by
  change execTxbegin f s = _
  simp only [execTxbegin, notAwn_ok context, outside, Bool.not_false, need_true, run_bind_ok, holdKey, step, settle_ok]

end

/-! ### `txabort` and `txstat` (08 R234, R235) -/

theorem exec_txabort (context : s.cur.isAwn = false) : exec (.txabort f) s = ran (s.abortTx s.cur 4) := by
  change execTxabort f s = _
  simp only [execTxabort, notAwn_ok context, run_bind_ok, settle_ok]

/-- What `txstat` reads by its number. -/
def txStatus (x : Tx) (n : Nat) : Nat := if n = 0 then x.state + 16 * x.lines.length else if n = 1 then x.start else x.commit

theorem exec_txstat (context : s.cur.isAwn = false) : exec (.txstat f) s = ran (s.ws f.rc (wd (txStatus s.me.tx (f.fn9.toNat % 4)))) := by
  change execTxstat f s = _
  simp only [execTxstat, notAwn_ok context, run_bind_ok, settle_ok, txStatus]
  split <;> simp_all

end

/-! ### One issue of a commit (04 R120) -/

section
variable {s : State} {a : Agent} {c : Ctx} (cur : s.cur = a) (me : s.me = c)
include cur me

theorem commitStep_of_lost (lost : c.tx.state = 5) : commitStep s = .ok (s.endTx a 5 c.tx.commit true, 3) := by
  subst cur me
  exact if_pos lost

section
variable (kept : c.tx.state ≠ 5) (ungranted : c.tx.granted = none)
include kept ungranted

/-- What a commit that has taken no stamp asks, in turn: its start stamp, its reservations, the homes, its write set. -/
theorem commitStep_of_ungranted : commitStep s =
    if !s.live.contains (c.tx.start, .tx a) then .ok ((s.releaseAll a).endTx a 3 c.tx.commit true, 1)
    else if !c.tx.lines.isEmpty && s.allReserved a c then .error (.wait (.structural .commit) (s.grantCommit a))
    else if s.conflicts a c then .ok ((s.releaseAll a).endTx a 3 c.tx.commit true, 1)
    else if c.tx.lines.isEmpty then .ok (s.endTx a 2 c.tx.commit true, 0)
    else .error (.wait (.structural .commit) (s.reserveLines a c)) := by
  subst cur me
  exact (if_neg kept).trans (if_neg (by simp [ungranted]))

/-- A start stamp that the Gleaner has revoked, or a home that refuses a line, aborts the commit. -/
theorem commitStep_of_aborted
    (aborted : s.live.contains (c.tx.start, .tx a) = false ∨ (s.allReserved a c = false ∧ s.conflicts a c = true)) :
    commitStep s = .ok ((s.releaseAll a).endTx a 3 c.tx.commit true, 1) := by
  rw [commitStep_of_ungranted cur me kept ungranted]
  obtain revoked | ⟨unreserved, refused⟩ := aborted
  · rw [revoked]
    rfl
  · simp only [unreserved, refused, Bool.and_false, Bool.false_eq_true, if_false, if_true, ite_self]

section
variable (live : s.live.contains (c.tx.start, .tx a) = true)
include live

theorem commitStep_of_empty (empty : c.tx.lines = []) : commitStep s = .ok (s.endTx a 2 c.tx.commit true, 0) := by
  rw [commitStep_of_ungranted cur me kept ungranted, live]
  simp [State.conflicts, empty]

theorem commitStep_of_unreserved (lines : c.tx.lines ≠ []) (unreserved : s.allReserved a c = false) (agreed : s.conflicts a c = false) :
    commitStep s = .error (.wait (.structural .commit) (s.reserveLines a c)) := by
  rw [commitStep_of_ungranted cur me kept ungranted, live]
  simp [lines, unreserved, agreed]

theorem commitStep_of_reserved (lines : c.tx.lines ≠ []) (reserved : s.allReserved a c = true) :
    commitStep s = .error (.wait (.structural .commit) (s.grantCommit a)) := by
  rw [commitStep_of_ungranted cur me kept ungranted, live]
  simp [lines, reserved]

end
end

section
variable {n : Nat} {e : Nat × TxLine} (kept : c.tx.state ≠ 5) (granted : c.tx.granted = some n)
include kept granted

/-- A granted commit with no line left ends with its stamp, once every die has applied its invalidations. -/
theorem commitStep_of_done (done : c.tx.lines.find? (fun e => !c.tx.done.contains e.1) = none) :
    commitStep s = .ok ((s.endTx a 2 n true).crossAll (dieOf a.tile), 0) := by
  subst cur me
  have stamped : s.endCommit s.cur = s.endTx s.cur 2 n true := by
    rw [State.me] at granted
    rw [State.endCommit, granted, Option.getD_some]
  simp only [commitStep, kept, granted, done, Option.isSome_some, if_false, if_true, State.closeCommit, stamped]
  rfl

section
variable (next : c.tx.lines.find? (fun e => !c.tx.done.contains e.1) = some e)
include next

omit cur in
theorem commitStep_of_overflow (overflow : (s.dir e.1).ovf = true) :
    commitStep s = .error (.wait (.structural (.handler [e.1])) (s.askHandler e.1)) := by
  subst me
  simp only [commitStep, kept, granted, next, overflow, Option.isSome_some, if_false, if_true]

/-- A line whose home is open is written there and counts as done; the last ends the commit. -/
theorem commitStep_of_next (clear : (s.dir e.1).ovf = false) :
    let v := s.installLine a e.1 n e.2
    let w := v.setCtx a { v.ctx a with tx := { (v.ctx a).tx with done := e.1 :: (v.ctx a).tx.done } }
    commitStep s = if w.me.installed then .ok ((w.endCommit a).crossAll (dieOf a.tile), 0) else .error (.wait (.structural .commit) w) := by
  subst cur me
  intro v w
  have installed : s.installNext s.cur = w := by
    rw [State.me] at granted next
    simp only [State.installNext, granted, next]
    rfl
  simp only [commitStep, kept, granted, next, clear, Option.isSome_some, Bool.false_eq_true, if_false, if_true, installed]
  rfl

end
end
end

/-! ### `txcommit` (08 R233) -/

@[simp] theorem State.crossAll_sansMessages (s : State) (d : Nat) : (s.crossAll d).sansMessages = s.sansMessages :=
  foldl_leaves State.sansMessages _ (fun s e => s.crossTo_sansMessages d e) _ s

theorem State.crossAll_cur (s : State) (d : Nat) : (s.crossAll d).cur = s.cur :=
  (congrArg State.cur (s.crossAll_sansMessages d) :)

theorem State.crossAll_me (s : State) (d : Nat) : (s.crossAll d).me = s.me :=
  State.me_of_agents (State.agents_of_sansMessages (s.crossAll_sansMessages d))

theorem State.crossAll_live (s : State) (d : Nat) : (s.crossAll d).live = s.live :=
  (congrArg State.live (s.crossAll_sansMessages d) :)

theorem State.crossAll_dir (s : State) (d line : Nat) : (s.crossAll d).dir line = s.dir line :=
  (congrArg (State.dir · line) (s.crossAll_sansMessages d) :)

theorem State.crossAll_allReserved (s : State) (d : Nat) (a : Agent) (c : Ctx) : (s.crossAll d).allReserved a c = s.allReserved a c :=
  (congrArg (State.allReserved · a c) (s.crossAll_sansMessages d) :)

theorem State.crossAll_conflicts (s : State) (d : Nat) (a : Agent) (c : Ctx) : (s.crossAll d).conflicts a c = s.conflicts a c :=
  (congrArg (State.conflicts · a c) (s.crossAll_sansMessages d) :)

/-- With no store held, a release at package scope performs its agent's writes at every die. -/
theorem release_of_unheld {s : State} (unheld : s.heldReqs = []) : release s 2 3 = .ok (s.crossAll (dieOf s.cur.tile)) := by
  simp [release, unheld, State.performAt]

section
variable {s t : State} {f : EX} (context : s.cur.isAwn = false) (unheld : s.heldReqs = [])
include context unheld

theorem exec_txcommit_of_closed (closed : s.me.txo = false) : exec (.txcommit f) s = ran ((s.crossAll (dieOf s.cur.tile)).ws f.rc 2) := by
  change execTxcommit f s = _
  simp only [execTxcommit, notAwn_ok context, release_of_unheld unheld, run_bind_ok, State.crossAll_me, closed, Bool.not_false, if_true,
    settle_ok]

section
variable (opened : s.me.txo = true)
include opened

theorem exec_txcommit_of_end {st : Nat} (step : commitStep (s.crossAll (dieOf s.cur.tile)) = .ok (t, st)) :
    exec (.txcommit f) s = ran (t.ws f.rc (wd st)) := by
  change execTxcommit f s = _
  simp only [execTxcommit, notAwn_ok context, release_of_unheld unheld, run_bind_ok, State.crossAll_me, opened, Bool.not_true,
    Bool.false_eq_true, if_false, step, settle_ok]

theorem exec_txcommit_of_wait {w : Wait} (step : commitStep (s.crossAll (dieOf s.cur.tile)) = .error (.wait w t)) :
    exec (.txcommit f) s = .next { t.waitFrom s.me w with fate := .waits } := by
  change execTxcommit f s = _
  simp only [execTxcommit, notAwn_ok context, release_of_unheld unheld, run_bind_ok, State.crossAll_me, opened, Bool.not_true,
    Bool.false_eq_true, if_false, step, run_bind_error, settle_wait]

end
end

/-- Settles O27: `snap` and `txbegin` by the step of their hold, `txcommit` by the step of its transaction. -/
theorem snapshotAndTransactionResults : Obligations.SnapshotAndTransactionResults := by
  refine ⟨fun s f => ?snapshots, fun s f context => ?transactions⟩
  case snapshots =>
    intro free
    refine ⟨?full, ?unasked, ?failed, ?asked, ?release⟩
    case full => exact fun unasked full => exec_snap_of_none (State.snapStep_of_full unasked full)
    case unasked => exact fun unasked room => exec_snap_of_wait (State.snapStep_of_unasked unasked room) rfl
    case failed => exact fun since failed => exec_snap_of_none (State.snapStep_of_failed failed)
    case asked =>
      intro since asked
      refine ⟨fun early => exec_snap_of_wait (State.snapStep_of_early asked early) rfl, fun late full => ?_, fun late room => ?_⟩
      · exact exec_snap_of_none (State.snapStep_of_no_stamp asked late (State.takeStamp_of_full full))
      · obtain ⟨dies, taken⟩ := State.takeStamp_of_room (o := s.snapOwner s.cur) room (le_of_max_le_left late)
        exact ⟨_, exec_snap_of_stamp (State.snapStep_of_stamp asked late taken), rfl, rfl, rfl, rfl, rfl, rfl⟩
    case release =>
      intro ra
      rw [exec_snaprel ra]
      exact ⟨fun live => by rw [if_pos live], fun dead => by rw [if_neg (ne_true_of_eq_false dead)]⟩
  case transactions =>
    refine ⟨exec_txbegin_of_open context, fun outside => ⟨?full, ?unasked, ?failed, ?asked⟩, exec_txabort context,
      ?state, ?start, ?stamp, ?commit⟩
    case full => exact fun unasked full => exec_txbegin_of_none context outside (State.snapStep_of_full unasked full)
    case unasked => exact fun unasked room => exec_txbegin_of_wait context outside (State.snapStep_of_unasked unasked room) rfl
    case failed => exact fun since failed => exec_txbegin_of_none context outside (State.snapStep_of_failed failed)
    case asked =>
      intro since asked
      exact ⟨fun early => exec_txbegin_of_wait context outside (State.snapStep_of_early asked early) rfl,
        fun late v n taken => exec_txbegin_of_stamp context outside (State.snapStep_of_stamp asked late taken)⟩
    case state => exact fun h => by rw [exec_txstat context, h]; rfl
    case start => exact fun h => by rw [exec_txstat context, h]; rfl
    case stamp =>
      intro h
      rw [exec_txstat context, txStatus, if_neg (by omega), if_neg (by omega)]
      rfl
    case commit =>
      intro d u x unheld
      have cur : u.cur = s.cur := s.crossAll_cur d
      have me : u.me = s.me := s.crossAll_me d
      have live_eq : u.live = s.live := s.crossAll_live d
      have reserved_eq : u.allReserved s.cur s.me = s.allReserved s.cur s.me := s.crossAll_allReserved d _ _
      have ovf_eq (line : Nat) : (u.dir line).ovf = (s.dir line).ovf := congrArg DirEnt.ovf (s.crossAll_dir d line)
      have conflicts_eq : u.conflicts s.cur s.me = s.conflicts s.cur s.me := s.crossAll_conflicts d _ _
      refine ⟨exec_txcommit_of_closed context unheld, fun opened lost => ?lost,
        fun opened kept ungranted => ⟨?empty, ?aborted, ?unreserved, ?reserved⟩, fun opened kept n granted => ⟨?done, ?overflow, ?next⟩⟩
      case lost => exact exec_txcommit_of_end context unheld opened (commitStep_of_lost cur me lost)
      case empty =>
        exact fun empty live => exec_txcommit_of_end context unheld opened (commitStep_of_empty cur me kept ungranted (live_eq ▸ live) empty)
      case aborted => exact fun aborted => exec_txcommit_of_end context unheld opened (commitStep_of_aborted cur me kept ungranted
          (by rwa [live_eq, reserved_eq, conflicts_eq]))
      case unreserved =>
        intro lines unreserved live agreed
        have step := commitStep_of_unreserved cur me kept ungranted (live_eq ▸ live) lines (reserved_eq ▸ unreserved) (conflicts_eq ▸ agreed)
        rw [exec_txcommit_of_wait context unheld opened step, ← me]
        rfl
      case reserved =>
        exact fun lines reserved live => exec_txcommit_of_wait context unheld opened
          (commitStep_of_reserved cur me kept ungranted (live_eq ▸ live) lines (reserved_eq ▸ reserved))
      case done => exact fun done => exec_txcommit_of_end context unheld opened (commitStep_of_done cur me kept granted done)
      case overflow =>
        exact fun e next overflow => exec_txcommit_of_wait context unheld opened
          (commitStep_of_overflow me kept granted next ((ovf_eq e.1).trans overflow))
      case next =>
        intro e next clear v w
        have step := commitStep_of_next cur me kept granted next ((ovf_eq e.1).trans clear)
        exact ⟨fun last => exec_txcommit_of_end context unheld opened (step.trans (if_pos last)),
          fun more => exec_txcommit_of_wait context unheld opened (step.trans (if_neg (ne_true_of_eq_false more)))⟩

end Sys2Proof.Machine
end

section
/-! SUPPORT. The round trip of the decoder and the encoder, and the encodings that the spec works out. -/

namespace Sys2Proof.Laws.RoundTrip

/-- Every instruction has the round trip: each constructor by its lemma, in the order of `Instr`. -/
theorem decode_encode (i : Instr) : Statement i :=
  Instr.casesOn (motive := Statement) i
    -- the steps of other agents, which have no words
    packageReset powerInputChange measuredBootStage contextWaitClear yieldExpiry operationCompletion pageInComplete taskRetirement decrementArrival
    graphOpArrival dispatchDecision footprintFetchStart footprintFetchComplete taskEnterRunning watchdogExpiry gangRestore energyRefill
    energyCounterUpdate freezeRequestArrival freezeStoppingPoint dikeComplete sluiceImageWritten barrierPhaseComplete launchSweep
    routerPacketArrival streamEdgeGranuleArrival permitReturn configWavefrontArrival leveeBatchArrival adderContributionArrival statTokenArrival
    statMergeTimeout awnMessageArrival handlerStart directoryOverflow overflowHandlerReport memoryPortGrant mailboxPostArrival returnStripArrival
    capacityClaimArrival capacityEndArrival capacitySetArrival transferCompletion matrixStep streamStripFetch streamStripWrite tlbinvWrite
    ctxholdWrite ctxrelWrite bfmtWrite frec0ValidClear efaultValidClear drlovfClear controlRegisterWrite uncorrectableError correctedError
    commandQueueDoorbell nopPacket launchPacket graphPacket copyPacket signalPacket waitPacket fencePacket packetCompletion rdmaWrite rdmaRead
    rdmaCompareAndSwap rdmaFetchAndAdd rdmaUnsupportedRequest claim heartbeat handover qcreate qdestroy qprio setlimit mreg update quiesce resume
    report status frestore fdiscard leaseLapse handoverLapse complexFailover queueWaitCycleSweep ualinkBringup ualinkRead ualinkWrite ualinkAtomic
    ualinkTimeout hostPortLinkFailure eventOpArrival reservedEncoding instructionFetchFault reservedControlMessage memoryRequestArrival
    producerHoldArrival creditArrival slotTableCycle
    -- the ops of the C slot, and their mirrors of the A slot
    nopOp yield brk trapOp eret hexit texit addOp subOp andOp orOp xorOp shl shr sar mulOp mulh mulhu divOp divu rem remu minOp maxOp minu maxu slt
    sltu clz ctz popc addAs subAs andAs orAs xorAs shlAs shrAs sarAs mulAs mulhAs mulhuAs divAs divuAs remAs remuAs minAs maxAs minuAs maxuAs sltAs
    sltuAs clzAs ctzAs popcAs addi andi ori xori shli shri sari slti sltiu bfx bfxs bfi lea leaG crd cwr beq bne blt bge bltu bgeu jal jalr loopOp
    hstart hjoin hself gwork grank tid clk ldB ldBu ldH ldHu ldW ldWu ldD stB stH stW stD vld vst amoAdd amoAnd amoOr amoXor amoMin amoMax amoMinu
    amoMaxu amoSwap amocas tkwait fenceOp barArrive barWait barSync
    -- the floating-point, vector and mask ops of the A slot
    anop fadd fsub fmul fma fmin fmax fabs fneg fcvt fcmp vadd vsub vmul vfma vfms vnfma vmin vmax vabs vneg vrcp vrsq vsqrt vexp2 vlog2 vsin vcos
    vtanh vcmp vsel vand vor vxor vnot vandn vshl vshr vsar vmulh vmulhu vadds vsubs vcvt vqnt vdeq vperm vpermb vnibLo vnibHi vzip vunzip vslideup
    vslidedn vbcast vext vins vredAdd vredMin vredMax vscanAdd vscanMin vscanMax vcompress vexpand viota vclass mand mor mxor mnot mandn mmov mfroms
    mtos mpop mfirst
    -- the lone ops
    movi movhi sel ldO stO vldO vstO ldSnap vldSnap ldFe ldFeClr vldFe vldFeClr stFe vstFe vldx vstx vlds vsts pref cacheClean cacheInv cacheFlush
    amoSAdd amoSAnd amoSOr amoSXor amoSMin amoSMax amoSMinu amoSMaxu amoSSwap amocasS famoAddF32 famoAddBf16x2 vamoAdd vamoAnd vamoOr vamoXor
    vamoMin vamoMax vamoMinu vamoMaxu vamoSwap evsig evwait evpost evq evqClr snap snaprel txbegin txcommit txabort txstat spmap spunmap sppin
    spunpin spfmt spmigRes spmigPold spmigHbm mma mmaMask mmaMaskFill mzero mcvt mtr mwait mscaleCol mscaleRow sbindIn sbindOut sgen sunbind sstat
    bcopy bcopyn bmcast bfill bmig bpoll bwait amsend amreply amhinst redsend rtset slotset cfgtok stflush mbpost mbrd mbclr steer steerRet mgrd
    capclaim capclaimEnd capclaimSet tspawn tdec tsetc tsetcAdd erd ctxrd ctxwr tfreeze trestore

/-- Settles O59, constructor by constructor. -/
theorem decodeEncodeAgree : Obligations.DecodeEncodeAgree := decode_encode

/-- Settles O60: the majors, the function codes and the fields of words that are given are read off. -/
theorem decodeWords : Obligations.DecodeWords :=
  fun _ => ⟨rfl, rfl, rfl, rfl, rfl, rfl, rfl, rfl, rfl, rfl, rfl, rfl, rfl⟩

end Sys2Proof.Laws.RoundTrip
end

section
/-! SUPPORT. A turn that issues a sheaf, in the order in which it is made: the choice of the agent, the fetch, the ops and the end of the turn. -/

namespace Sys2Proof.Machine

/-! ### The issue -/

/-- With no act pending the turn of a booted and powered package is an issue (log 1). -/
theorem turn_of_noAct {s : State} (booted : s.bootFailed = false) (powered : s.mainUp = true) (idle : s.agenda = []) :
    turn s = stall s.fc (issueTurn s) := by
  simp [turn, booted, powered, idle]

/-- The one agent that may issue does, in a fair turn and in any other (log 2). -/
theorem issueTurn_of_one {s : State} {a : Agent} (only : s.issuers = [a]) :
    issueTurn s = issue a { s with fc := s.fc + 1, lastAgent := if s.fairTurn = some false then akey a else s.lastAgent } := by
  simp [issueTurn, only]

theorem State.sheaf_of_got {s u : State} {w : BitVec 64} (fetched : s.fetch = .got u w) :
    s.sheaf = .got u (decodeSheaf (isV u.cur.tile) (w.extractLsb' 0 32) (w.extractLsb' 32 32)) := by
  rw [State.sheaf, fetched, Fetched.bind]

/-- An issue that no debug stop takes performs the ops of the sheaf that its fetch gave, and ends it (21 R434). -/
theorem issue_of_sheaf {a : Agent} {s u : State} {sh : Sheaf} (clear : (s.begin a).debugMatch [] = none) (fetched : (s.begin a).sheaf = .got u sh)
    (unmatched : u.debugMatch (sheafOps sh) = none) :
    issue a s = finish (s.begin a).me.pc (s.begin a).debugOn (u.inTurn (sheafOps sh)).time (execSheaf sh (u.inTurn (sheafOps sh))) := by
  simp only [issue, clear, fetched, unmatched]

/-! ### The end of the turn -/

/-- A sheaf that ran in a context without debug stops has issued, and the pc goes to the next. -/
theorem State.retireSheaf_of_ran {s : State} (ran : s.fate = .ran) (pc : Word) (t : Nat) : s.retireSheaf pc false t = (s.issued t).advance pc := by
  rw [State.retireSheaf, ran]
  rfl

/-- With no full-empty read waiting the end of a turn serves none. -/
theorem State.serveFills_of_none {s : State} (noRead : ∀ e ∈ s.ctxs, ∀ r, e.2.st ≠ .waiting (.fullEmpty r) ∧ e.2.st ≠ .held (some (.fullEmpty r))) :
    s.serveFills = s := by
  unfold State.serveFills
  refine List.foldlRecOn (motive := (· = s)) _ _ rfl (fun u kept e mem => ?_)
  subst kept
  dsimp only
  split
  · next r waits => exact absurd waits (noRead e mem r).1
  · next r held => exact absurd held (noRead e mem r).2
  · rfl

theorem State.flushErrs_of_nil {s : State} (noRecord : s.errs = []) : s.flushErrs = s := by
  cases s
  subst noRecord
  rfl

/-- A turn that fills no full-empty read and has no revocation to record ends with the time and the model's own counters. -/
theorem stall_of_quiet {s : State} (n : Nat)
    (noRead : ∀ e ∈ s.settled.ctxs, ∀ r, e.2.st ≠ .waiting (.fullEmpty r) ∧ e.2.st ≠ .held (some (.fullEmpty r))) (noRecord : s.settled.errs = []) :
    let z := s.settled
    stall n (.next s) = .next { z with time := z.time + Config.freeStall n, fc := max z.fc (n + 1), rounds := z.rounds + 1 } := by
  rw [stall, State.serveFills_of_none noRead, State.flushErrs_of_nil noRecord]
  rfl

/-! ### The next sheaf -/

theorem State.issued_of_awn {s : State} (awn : s.cur.isAwn = true) (t : Nat) : s.issued t = s := if_pos awn

theorem State.issued_of_context {s : State} (context : s.cur.isAwn = false) (t : Nat) :
    s.issued t = s.setTile s.cur.tile { s.tile s.cur.tile with last := s.cur.ctx, lastIssue := t } :=
  if_neg (ne_true_of_eq_false context)

theorem State.advance_of_target {s : State} {p : Word} (target : s.npc = some p) (pc : Word) : s.advance pc = s.setMe { s.me with pc := p } := by
  rw [State.advance, target]

theorem State.advance_of_none {s : State} (noTarget : s.npc = none) (pc : Word) :
    s.advance pc = s.setMe { (Ctx.loopEnd pc 5 s.me).1 with pc := (Ctx.loopEnd pc 5 s.me).2 } := by
  rw [State.advance, noTarget]

/-! ### The step -/

/-- Settles O55: the turn by its stages, up to the form of the sheaf. -/
theorem stepRunsDecodedSheaf : Obligations.StepRunsDecodedSheaf := by
  intro s0 u a w s booted powered idle only last chosen b clear fetched sh unmatched v
  subst chosen
  have stepped : step s0 = stall s.fc (finish b.me.pc b.debugOn v.time (execSheaf sh v)) := by
    rw [step, turn_of_noAct booted powered idle, issueTurn_of_one only, issue_of_sheaf clear (State.sheaf_of_got fetched) unmatched]
  refine ⟨stepped.trans (by cases sh <;> rfl), ?_, fun t τ => ⟨(State.issued_of_awn · τ), (State.issued_of_context · τ),
    fun p target => State.advance_of_target target _, fun noTarget => State.advance_of_none noTarget _⟩⟩
  intro i t lone ran fate off z noRead noRecord
  have ended : finish b.me.pc b.debugOn v.time (execSheaf sh v) = .next ((t.issued v.time).advance b.me.pc) := by
    rw [lone, execSheaf, ran, finish, off, State.retireSheaf_of_ran fate]
  rw [stepped, ended]
  exact stall_of_quiet s.fc noRead noRecord

end Sys2Proof.Machine
end

section
/-! SUPPORT. Scalar integer arithmetic of both slots: what each operation of the table computes, and the register forms that write it. -/

namespace Sys2Proof.Machine

/-! ### The operations (07 Table — ALU operations, R170) -/

section
variable (a b : Word)

theorem aluDivu_eq : aluDivu a b = if b = 0 then -1 else a / b := by
  unfold aluDivu wd
  split_ifs
  · rfl
  · exact BitVec.eq_of_toNat_eq (by simp [Nat.mod_eq_of_lt (Nat.lt_of_le_of_lt (Nat.div_le_self ..) a.isLt)])

theorem aluRemu_eq : aluRemu a b = if b = 0 then a else a % b := by
  unfold aluRemu wd
  split_ifs
  · rfl
  · exact BitVec.eq_of_toNat_eq (by simp [Nat.mod_eq_of_lt (Nat.lt_of_le_of_lt (Nat.mod_le ..) a.isLt)])

theorem aluMin_eq : aluMin a b = if b.slt a then b else a := by
  simp only [aluMin, BitVec.slt, decide_eq_true_eq, ← Int.not_le, ite_not]

theorem aluMax_eq : aluMax a b = if a.slt b then b else a := by
  simp only [aluMax, BitVec.slt, decide_eq_true_eq]
  split_ifs with le lt lt
  · rfl
  · exact (BitVec.eq_of_toInt_eq (by omega) : a = b).symm
  · omega
  · rfl

theorem aluMinu_eq : aluMinu a b = if b.ult a then b else a := by
  simp only [aluMinu, BitVec.ult, decide_eq_true_eq, ← Nat.not_le, ite_not]

theorem aluMaxu_eq : aluMaxu a b = if a.ult b then b else a := by
  simp only [aluMaxu, BitVec.ult, decide_eq_true_eq]
  split_ifs with le lt lt
  · rfl
  · exact (BitVec.eq_of_toNat_eq (by omega) : a = b).symm
  · omega
  · rfl

theorem aluSlt_eq : aluSlt a b = if a.slt b then 1 else 0 := by simp [aluSlt, BitVec.slt]

theorem aluSltu_eq : aluSltu a b = if a.ult b then 1 else 0 := by simp [aluSltu, BitVec.ult]

end

/-! ### Counts of bits (07 R169) -/

/-- The leading zeros of a word. -/
def leadingZeros (a : Word) : Nat := if a = 0 then 64 else 63 - a.toNat.log2

theorem aluClz_eq (a : Word) : aluClz a = wd (leadingZeros a) := by
  unfold aluClz leadingZeros
  split_ifs <;> rfl

theorem leadingZeros_le (a : Word) : leadingZeros a ≤ 64 := by
  unfold leadingZeros
  split_ifs <;> omega

theorem toNat_log2_le {a : Word} (h : a ≠ 0) : a.toNat.log2 ≤ 63 := by
  have := (Nat.log2_lt (BitVec.toNat_ne.mp h)).mpr a.isLt
  omega

/-- The leading zeros of a word read 0. -/
theorem getLsbD_of_leadingZeros {a : Word} {i : Nat} (h : 64 - leadingZeros a ≤ i) : a.getLsbD i = false := by
  unfold leadingZeros at h
  split_ifs at h with zero
  · simp [zero]
  · have := toNat_log2_le zero
    exact Nat.testBit_lt_two_pow (Nat.lt_of_lt_of_le Nat.lt_log2_self (Nat.pow_le_pow_right Nat.two_pos (by omega)))

/-- The bit below the leading zeros is set. -/
theorem getLsbD_leadingZeros {a : Word} (h : leadingZeros a < 64) : a.getLsbD (63 - leadingZeros a) = true := by
  unfold leadingZeros at h ⊢
  split_ifs at h ⊢ with zero
  · omega
  · have := toNat_log2_le zero
    rw [show 63 - (63 - a.toNat.log2) = a.toNat.log2 by omega]
    exact Nat.testBit_log2 (BitVec.toNat_ne.mp zero)

theorem lowBit_le (x n : Nat) : lowBit x n ≤ n := by
  induction n generalizing x with
  | zero => exact le_rfl
  | succ n ih =>
    have := ih (x / 2)
    unfold lowBit
    split_ifs <;> omega

/-- The bits below the lowest set one read 0. -/
theorem testBit_of_lt_lowBit {x n i : Nat} (h : i < lowBit x n) : x.testBit i = false := by
  induction n generalizing x i with
  | zero => exact absurd h (Nat.not_lt_zero i)
  | succ n ih =>
    unfold lowBit at h
    split_ifs at h with odd
    · omega
    · cases i with
      | zero => simp [Nat.testBit_zero, odd]
      | succ i => exact (Nat.testBit_succ ..).trans (ih (by omega))

theorem testBit_lowBit {x n : Nat} (h : lowBit x n < n) : x.testBit (lowBit x n) = true := by
  induction n generalizing x with
  | zero => exact absurd h (Nat.not_lt_zero _)
  | succ n ih =>
    unfold lowBit at h ⊢
    split_ifs at h ⊢ with odd
    · simp [Nat.testBit_zero, odd]
    · rw [Nat.add_comm 1, Nat.testBit_succ]
      exact ih (by omega)

/-- The population count is the number of places that hold a set bit. -/
theorem popCount_eq (x n : Nat) : popCount x n = ((List.range n).filter x.testBit).length := by
  induction n generalizing x with
  | zero => rfl
  | succ n ih =>
    have above : (x.testBit ∘ Nat.succ) = (x / 2).testBit := funext fun i => Nat.testBit_succ ..
    rw [popCount, ih, List.range_succ_eq_map, List.filter_cons, List.filter_map, above, Nat.testBit_zero]
    rcases Nat.mod_two_eq_zero_or_one x with even | odd
    · simp [even]
    · simp [odd, Nat.add_comm]

/-! ### The register forms -/

/-- Behind sources that may be read an op goes on. -/
theorem settle_useS {s : State} {rs : List (BitVec 5)} {k : Unit → Run State} (readable : Readable s rs) :
    settle s (useS s rs >>= k) = settle s (k ()) := by
  rw [useS_ok readable, run_bind_ok]

section
variable {s : State} {d ra rb : BitVec 5} {c a : Instr} {w : Word}

/-- An ALU operation of two sources writes its value in the C slot and in the A slot. -/
theorem bothWrite_alu (op : Word → Word → Word) (readable : Readable s [ra, rb]) (inC : exec c s = settle s (aluCR op ⟨d, ra, rb⟩ s))
    (inA : exec a s = settle s (aluAS op ⟨d, ra, rb⟩ s)) (value : op (s.rs ra) (s.rs rb) = w) : BothWrite s c a d w := by
  subst value
  exact ⟨inC.trans (settle_useS readable), inA.trans (settle_useS readable)⟩

/-- An ALU operation of one source writes its value in the C slot and in the A slot. -/
theorem bothWrite_alu1 (op : Word → Word) (readable : Readable s [ra]) (inC : exec c s = settle s (aluCR1 op ⟨d, ra, rb⟩ s))
    (inA : exec a s = settle s (aluAS1 op ⟨d, ra, rb⟩ s)) (value : op (s.rs ra) = w) : BothWrite s c a d w := by
  subst value
  exact ⟨inC.trans (settle_useS readable), inA.trans (settle_useS readable)⟩

end

/-- Settles O1: each op by its operation of the table; the counts by the places of the bits they count. -/
theorem scalarArithmeticResults : Obligations.ScalarArithmeticResults := by
  constructor
  · intro s d ra rb readable a b n
    exact ⟨bothWrite_alu aluAdd readable rfl rfl rfl, bothWrite_alu aluSub readable rfl rfl rfl, bothWrite_alu aluAnd readable rfl rfl rfl,
      bothWrite_alu aluOr readable rfl rfl rfl, bothWrite_alu aluXor readable rfl rfl rfl, bothWrite_alu aluShl readable rfl rfl rfl,
      bothWrite_alu aluShr readable rfl rfl rfl, bothWrite_alu aluSar readable rfl rfl rfl, bothWrite_alu aluMul readable rfl rfl rfl,
      bothWrite_alu aluMulh readable rfl rfl rfl, bothWrite_alu aluMulhu readable rfl rfl rfl, bothWrite_alu aluDiv readable rfl rfl rfl,
      bothWrite_alu aluDivu readable rfl rfl (aluDivu_eq a b), bothWrite_alu aluRem readable rfl rfl rfl,
      bothWrite_alu aluRemu readable rfl rfl (aluRemu_eq a b), bothWrite_alu aluMin readable rfl rfl (aluMin_eq a b),
      bothWrite_alu aluMax readable rfl rfl (aluMax_eq a b), bothWrite_alu aluMinu readable rfl rfl (aluMinu_eq a b),
      bothWrite_alu aluMaxu readable rfl rfl (aluMaxu_eq a b), bothWrite_alu aluSlt readable rfl rfl (aluSlt_eq a b),
      bothWrite_alu aluSltu readable rfl rfl (aluSltu_eq a b)⟩
  · intro s d ra rb readable
    exact ⟨leadingZeros (s.rs ra), lowBit (s.rs ra).toNat 64, popCount (s.rs ra).toNat 64,
      bothWrite_alu1 aluClz readable rfl rfl (aluClz_eq _), bothWrite_alu1 aluCtz readable rfl rfl rfl,
      bothWrite_alu1 aluPopc readable rfl rfl rfl, leadingZeros_le _, lowBit_le .., fun _ => getLsbD_of_leadingZeros, getLsbD_leadingZeros,
      fun _ => testBit_of_lt_lowBit, testBit_lowBit, popCount_eq ..⟩

/-- Settles O2: the values of the four operations at the corners. -/
theorem divisionCornerValues : Obligations.DivisionCornerValues := by
  intro s d ra rb readable
  constructor
  · intro zero
    exact ⟨bothWrite_alu aluDiv readable rfl rfl (if_pos zero), bothWrite_alu aluDivu readable rfl rfl (if_pos zero),
      bothWrite_alu aluRem readable rfl rfl (if_pos zero), bothWrite_alu aluRemu readable rfl rfl (if_pos zero)⟩
  · intro least minusOne
    exact ⟨bothWrite_alu aluDiv readable rfl rfl (by rw [least, minusOne]; decide),
      bothWrite_alu aluRem readable rfl rfl (by rw [least, minusOne]; decide)⟩

end Sys2Proof.Machine
end

section
/-! SUPPORT. Bit fields of words: a bit of a field, and of a word whose field is replaced. -/

namespace Sys2Proof.Machine

theorem testBit_bits (w : Word) (hi lo j : Nat) : (bits w hi lo).testBit j = (decide (j < hi + 1 - lo) && w.getLsbD (lo + j)) := by
  rw [bits, Nat.testBit_mod_two_pow, Nat.testBit_shiftRight, BitVec.testBit_toNat]

/-- A replaced field reads the value's low bits, and every bit outside it keeps its value. -/
theorem getLsbD_putBits (w : Word) (hi lo v : Nat) {i : Nat} (h : i < 64) :
    (putBits w hi lo v).getLsbD i = if lo ≤ i ∧ i < hi + 1 then v.testBit (i - lo) else w.getLsbD i := by
  have field : (i - lo < hi + 1 - lo ∧ lo ≤ i) ↔ (lo ≤ i ∧ i < hi + 1) := by omega
  simp only [putBits, BitVec.getLsbD_or, BitVec.getLsbD_and, BitVec.getLsbD_not, BitVec.getLsbD_ofNat, Nat.testBit_shiftLeft,
    Nat.testBit_two_pow_sub_one, h, decide_true, Bool.true_and, ge_iff_le]
  by_cases inside : lo ≤ i ∧ i < hi + 1
  · simp [inside, (field.mpr inside).1]
  · rw [if_neg inside]
    by_cases low : lo ≤ i
    · have : ¬ i - lo < hi + 1 - lo := by omega
      simp [low, this]
    · simp [low]

end Sys2Proof.Machine
end

section
/-! SUPPORT. The immediate forms, bit fields, addresses, constants and `sel`. -/

namespace Sys2Proof.Machine

/-! ### Immediates and fields (07 R169, R171) -/

theorem zextI_toNat (f : CI) : (zextI f).toNat = f.imm.toNat :=
  BitVec.toNat_setWidth_of_le (by decide)

/-- The highest bit of a field is the one below its end. -/
theorem bfEnd_eq (f : CI) : bfLo f + bfW f - 1 + 1 = bfLo f + bfW f := by
  unfold bfW
  omega

theorem bfField_eq (f : CI) (a : Word) : bfField f a = a.toNat / 2 ^ bfLo f % 2 ^ bfW f := by
  rw [bfField, bits, bfEnd_eq, Nat.add_sub_cancel_left, Nat.shiftRight_eq_div_pow]

/-- A field read as a signed number lies in the range of its width and is congruent to the field. -/
theorem intOf_spec {w x : Nat} (pos : 0 < w) (h : x < 2 ^ w) :
    -(2 ^ (w - 1) : Int) ≤ intOf true w x ∧ intOf true w x < 2 ^ (w - 1) ∧ intOf true w x % 2 ^ w = x := by
  obtain ⟨n, rfl⟩ : ∃ n, w = n + 1 := ⟨w - 1, by omega⟩
  have double : 2 ^ (n + 1) = 2 * 2 ^ n := Nat.pow_succ'
  have half : ((2 ^ n : Nat) : Int) = 2 ^ n := by norm_cast
  have whole : (2 : Int) ^ (n + 1) = 2 * ((2 ^ n : Nat) : Int) := by rw [half]; ring
  rw [whole, Nat.add_sub_cancel, ← half, intOf, Nat.add_sub_cancel, double]
  rw [double] at h
  generalize 2 ^ n = m at h
  simp only [Bool.true_and, decide_eq_true_eq, ge_iff_le]
  split_ifs with high
  · refine ⟨by push_cast; omega, by push_cast; omega, ?_⟩
    rw [show ((x : Int) - (2 * m : Nat)) = x + (2 * m) * (-1) by push_cast; ring, Int.add_mul_emod_self_left]
    exact Int.emod_eq_of_lt (by omega) (by omega)
  · exact ⟨by omega, by omega, Int.emod_eq_of_lt (by omega) (by omega)⟩

/-! ### The forms -/

section
variable {s : State} {f : CI}

theorem settle_aluCI (op : Word → Word → Word) (imm : Word) (readable : Readable s [f.ra]) :
    settle s (aluCI op imm f s) = ran (s.ws f.rd (op (s.rs f.ra) imm)) :=
  settle_useS readable

theorem exec_bfi (readable : Readable s [f.ra, f.rd]) :
    exec (.bfi f) s = ran (s.ws f.rd (putBits (s.rs f.rd) (bfLo f + bfW f - 1) (bfLo f) (s.rs f.ra).toNat)) :=
  settle_useS readable

theorem exec_lea (readable : Readable s [f.ra]) : exec (.lea f) s = ran (s.ws f.rd (leaAddr f s)) :=
  settle_useS readable

/-- `lea.g` of an address in the context's area, off the awn core, gives its global address (07 R172). -/
theorem exec_leaG_of_area (readable : Readable s [f.ra]) (priv : windowOf (leaAddr f s) = some 3) (context : s.cur.isAwn = false)
    (inside : offset (leaAddr f s) < areaSize (s.runRec s.cur.tile)) :
    exec (.leaG f) s = ran (s.ws f.rd (privAlias (s.runRec s.cur.tile) s.cur.ctx (offset (leaAddr f s)))) := by
  change execLeaG f s = _
  simp [execLeaG, readable f.ra (List.mem_singleton_self _), priv, context, inside, useS_ok readable]

/-- `lea.g` gives an address of any other window itself. -/
theorem exec_leaG_of_other (readable : Readable s [f.ra]) (other : windowOf (leaAddr f s) ≠ some 3) :
    exec (.leaG f) s = ran (s.ws f.rd (leaAddr f s)) := by
  have elsewhere : (windowOf (leaAddr f s) == some 3) = false := beq_false_of_ne other
  change execLeaG f s = _
  simp [execLeaG, readable f.ra (List.mem_singleton_self _), elsewhere, useS_ok readable]

theorem exec_movhi {rd : BitVec 5} (imm : BitVec 32) (readable : Readable s [rd]) :
    exec (.movhi rd imm) s = ran (s.ws rd (imm ++ (s.rs rd).extractLsb' 0 32)) :=
  settle_useS readable

theorem exec_sel {f : EX} (readable : Readable s [f.ra, f.rb, f.rc]) :
    exec (.sel f) s = ran (s.ws (f.fn9.extractLsb' 0 5) (if s.rs f.ra ≠ 0 then s.rs f.rb else s.rs f.rc)) :=
  settle_useS readable

end

/-- Settles O3: the immediate forms by their operations of the table, the fields by their bits, the addresses by their windows. -/
theorem scalarImmediateResults : Obligations.ScalarImmediateResults := by
  intro s d ra imm readable f a n w at14
  have write (op : Word → Word → Word) (x : Word) : settle s (aluCI op x f s) = ran (s.ws d (op a x)) := settle_aluCI op x readable
  have amount : (zextI f).toNat % 64 = n := congrArg (· % 64) (zextI_toNat f)
  refine ⟨write aluAdd _, write aluAnd _, write aluOr _, write aluXor _, ?shli, ?shri, ?sari, ?slti, ?sltiu, ?bfx, ?bfxs, ?bfi,
    exec_lea readable, exec_leaG_of_other (f := f) readable, exec_leaG_of_area (f := f) readable, fun t imm32 => ⟨rfl, exec_movhi imm32⟩⟩
  case shli => exact (write aluShl _).trans (by rw [aluShl, amount])
  case shri => exact (write aluShr _).trans (by rw [aluShr, amount])
  case sari => exact (write aluSar _).trans (by rw [aluSar, amount])
  case slti => exact (write aluSlt _).trans (by rw [aluSlt_eq]; rfl)
  case sltiu => exact (write aluSltu _).trans (by rw [aluSltu_eq]; rfl)
  case bfx => exact (write (fun a _ => wd (bfField f a)) 0).trans (by rw [bfField_eq]; rfl)
  case bfxs =>
    obtain ⟨least, below, congruent⟩ := intOf_spec (w := w) (x := a.toNat / 2 ^ n % 2 ^ w) (Nat.succ_pos _) (Nat.mod_lt _ (Nat.two_pow_pos _))
    exact ⟨_, (write (fun a _ => BitVec.ofInt 64 (intOf true (bfW f) (bfField f a))) 0).trans (by rw [bfField_eq]; rfl), least, below, congruent⟩
  case bfi =>
    intro target
    refine ⟨_, exec_bfi (readable.append target), fun i h => ?_⟩
    rw [getLsbD_putBits _ _ _ _ h, bfEnd_eq]
    rfl

/-- Settles O4: `sel`, its test turned round. -/
theorem selectChoosesRegister : Obligations.SelectChoosesRegister := by
  intro s f readable
  rw [exec_sel readable, ite_not]

end Sys2Proof.Machine
end

section
/-! SUPPORT. Scalar floating point: the ops that round and count their event, and the ops that are exact. -/

namespace Sys2Proof.Machine

section
variable {s : State} {f : AF}

theorem useF_ok {rs : List (BitVec 5)} (context : s.cur.isAwn = false) (readable : Readable s rs) : useF s rs = .ok () := by
  rw [useF, notAwn_ok context, run_bind_ok, useS_ok readable]

/-- An op that rounds writes the rounding of its exact value and counts its event (07 R175). -/
theorem settle_roundF (fma : Bool) (g : Num → Num → Num → Num) (context : s.cur.isAwn = false)
    (readable : Readable s ([f.sa, f.sb] ++ if fma then [f.sd] else [])) :
    let t := f.t.toNat
    let x := scalarNum t (s.rs f.sa)
    let y := scalarNum t (s.rs f.sb)
    let z := scalarNum t (s.rs f.sd)
    let r := (scalarFmt t).result ([x, y] ++ if fma then [z] else []) (g x y z) s.rm s.e4ns
    settle s (roundF f fma g s) = ran ((s.ws f.sd (wd r.1)).countV [r.2]) := by
  rw [roundF, useF_ok context readable]
  rfl

/-- An op that is exact writes its value and counts nothing. -/
theorem settle_exactF (two : Bool) (g : Num → Num → Num) (context : s.cur.isAwn = false)
    (readable : Readable s (f.sa :: if two then [f.sb] else [])) :
    let t := f.t.toNat
    settle s (exactF f two g s) =
      ran (s.ws f.sd (wd ((scalarFmt t).round (g (scalarNum t (s.rs f.sa)) (scalarNum t (s.rs f.sb))) 0 false).1)) := by
  rw [exactF, useF_ok context readable]
  rfl

theorem exec_fcmp (context : s.cur.isAwn = false) (readable : Readable s [f.sa, f.sb]) :
    exec (.fcmp f) s =
      ran (s.ws f.sd (if predicate f.t2.toNat (scalarNum f.t.toNat (s.rs f.sa)) (scalarNum f.t.toNat (s.rs f.sb)) then 1 else 0)) := by
  change execFcmp f s = _
  rw [execFcmp, useF_ok context readable, run_bind_ok, settle_ok]
  cases predicate f.t2.toNat (scalarNum f.t.toNat (s.rs f.sa)) (scalarNum f.t.toNat (s.rs f.sb)) <;> rfl

/-- `fcvt` converts to a floating type by its format, and to a signed or unsigned doubleword by its range. -/
theorem exec_fcvt (context : s.cur.isAwn = false) (readable : Readable s [f.sa]) :
    let u := scalarNum f.t2.toNat (s.rs f.sa)
    let r := match scalarTy f.t.toNat with
      | some ty => convertTo u ty s.rm s.e4ns
      | none => if f.t.toNat = 3 then toIntTy u 64 s.rm (-2 ^ 63) (2 ^ 63 - 1) else toIntTy u 64 s.rm 0 (2 ^ 64 - 1)
    exec (.fcvt f) s = ran ((s.ws f.sd (BitVec.ofNat 64 r.1)).countV [r.2]) := by
  intro u r
  change execFcvt f s = _
  rw [execFcvt, useF_ok context readable]
  rfl

end


/-- Settles O5: each op by its form, the one rounding or the exact selection. -/
theorem scalarFloatResults : Obligations.ScalarFloatResults := by
  intro s f sa context t x y z rounded exact
  refine ⟨fun sb => ?two, settle_exactF false (fun x _ => x.abs) context sa, settle_exactF false (fun x _ => x.neg) context sa,
    exec_fcvt context sa⟩
  have both : Readable s [f.sa, f.sb] := sa.append sb
  exact ⟨settle_roundF false (fun x y _ => exactSum [x, y]) context both, settle_roundF false (fun x y _ => exactSum [x, y.neg]) context both,
    settle_roundF false (fun x y _ => x.mul y) context both,
    fun sd => settle_roundF true (fun x y z => exactSum [x.mul y, z]) context (both.append sd),
    settle_exactF true (minMax true) context both, settle_exactF true (minMax false) context both, exec_fcmp context both⟩

end Sys2Proof.Machine
end

section
/-! SUPPORT. The identity reads and the clock, and the codes that name none of them. -/

namespace Sys2Proof.Machine

section
variable {s : State} {d : BitVec 5} {k : Nat}

/-- The unit that `gwork` is to answer next on the running rank of task k (02 R44). -/
def State.nextUnit (s : State) (k : Nat) : Nat :=
  (s.tile s.cur.tile).rank + recRanks (s.record k) * (s.task k).units.get 0 (s.tile s.cur.tile).rank

theorem exec_tid (running : s.taskOf s.cur = some k) :
    exec (.tid d) s = ran (s.ws d (BitVec.ofNat 64 (k + s.ua.pkg * 2 ^ 20 + s.cur.tile * 2 ^ 32))) := by
  change execTid d s = _
  rw [execTid, running, Nat.add_comm k]
  rfl

theorem exec_tid_of_empty (empty : s.taskOf s.cur = none) :
    exec (.tid d) s = ran (s.ws d (BitVec.ofNat 64 (2 ^ 30 - 1 + s.cur.tile * 2 ^ 32))) := by
  change execTid d s = _
  rw [execTid, empty]
  rfl

theorem exec_gwork_of_empty (empty : s.taskOf s.cur = none) : exec (.gwork d) s = ran (s.ws d (BitVec.allOnes 64)) := by
  change execGwork d s = _
  rw [execGwork, empty, settle_ok]

/-- `gwork` answers all ones once the rank's units are given out, and on the awn core. -/
theorem exec_gwork_of_done (running : s.taskOf s.cur = some k) (done : s.cur.isAwn = true ∨ recWork (s.record k) ≤ s.nextUnit k) :
    exec (.gwork d) s = ran (s.ws d (BitVec.allOnes 64)) := by
  change execGwork d s = _
  rw [execGwork, running]
  exact congrArg _ (if_pos (by simpa [State.nextUnit] using done))

/-- `gwork` answers the rank's next unit and counts it as given out (02 R44). -/
theorem exec_gwork_of_unit (running : s.taskOf s.cur = some k) (context : s.cur.isAwn = false) (unit : s.nextUnit k < recWork (s.record k)) :
    exec (.gwork d) s = ran ((s.setTask k { s.task k with
      units := (s.task k).units.set 0 (s.tile s.cur.tile).rank ((s.task k).units.get 0 (s.tile s.cur.tile).rank + 1) }).ws d
        (BitVec.ofNat 64 (s.nextUnit k))) := by
  change execGwork d s = _
  rw [execGwork, running]
  exact congrArg _ (if_neg (by simpa [State.nextUnit, context] using unit))

end

/-! ### Reserved codes (06 R149, R157) -/

/-- Major 0x1D has no op of a code beyond 4. -/
theorem decodeC_identity_error {w : BitVec 32} (major : fld w 25 6 = 0x1D) (beyond : 5 ≤ (fld w 10 5).toNat) : decodeC w = .error 2 := by
  delta decodeC
  rw [major]
  obtain ⟨n, code⟩ := Nat.exists_eq_add_of_le' beyond
  rw [code]
  rfl

/-- A pair whose C-op is not recognised is reserved, whatever its A-op. -/
theorem decodeSheaf_of_decodeC_error {w : BitVec 32} {e : Nat} (v : Bool) (x : BitVec 32) (pair : fld w 31 1 = 0) (bad : decodeC w = .error e) :
    ∃ code, decodeSheaf v w x = .reserved code := by
  rw [decodeSheaf, pair, bad]
  cases decodeA x <;> exact ⟨_, rfl⟩

/-- Settles O6: each read by what the running slot holds; a reserved code by the C-op that is not recognised. -/
theorem identityReadResults : Obligations.IdentityReadResults := by
  constructor
  · intro s d
    exact ⟨rfl, rfl, fun k => exec_tid, exec_tid_of_empty, rfl, exec_gwork_of_empty,
      fun k running => ⟨exec_gwork_of_done running, exec_gwork_of_unit running⟩⟩
  · intro v w x pair major beyond
    exact decodeSheaf_of_decodeC_error v x pair (decodeC_identity_error major beyond)

end Sys2Proof.Machine
end

section
/-! SUPPORT. The ops that write one s register: each run of one that goes through leaves its destination written and nothing else. -/

namespace Sys2Proof.Machine

/-! ### Runs that write one register -/

/-- Where a run goes through, it leaves one s register written. -/
def OnlyWrites (s : State) (d : BitVec 5) (r : Run State) : Prop := ∀ u, r = .ok u → ∃ w, u = s.ws d w

section
variable {s : State} {d : BitVec 5}

theorem OnlyWrites.ok {w : Word} : OnlyWrites s d (.ok (s.ws d w)) := fun _ h => ⟨w, (Except.ok.inj h).symm⟩

/-- Tests before a write answer no state of their own. -/
theorem OnlyWrites.bind {α : Type} {x : Run α} {k : α → Run State} (h : ∀ a, OnlyWrites s d (k a)) : OnlyWrites s d (x >>= k) := by
  match x with
  | .ok a => exact h a
  | .error _ => exact fun _ => nofun

theorem OnlyWrites.ite {c : Prop} [Decidable c] {x y : Run State} (hx : OnlyWrites s d x) (hy : OnlyWrites s d y) :
    OnlyWrites s d (if c then x else y) := by
  split_ifs
  · exact hx
  · exact hy

/-- An op of destination d is a run that writes its register alone. -/
def RunsToWrite (s : State) (d : BitVec 5) (i : Instr) : Prop := ∃ r, exec i s = settle s r ∧ OnlyWrites s d r

theorem RunsToWrite.of_dest {d' : BitVec 5} {i : Instr} {r : Run State} (dest : some d' = some d) (runs : exec i s = settle s r)
    (writes : OnlyWrites s d' r) : RunsToWrite s d i :=
  Option.some.inj dest ▸ ⟨r, runs, writes⟩

/-- Every register op but `erd` writes its destination alone: behind the tests of its form, or at once. -/
theorem runsToWrite_of_registerDest {i : Instr} (dest : registerDest i = some d) (other : ∀ f, i ≠ .erd f) : RunsToWrite s d i := by
  cases i
  -- integer arithmetic, immediates, bit fields, constants, `sel`, `fmin` to `fcmp`: the sources are read, then the result is written
  case addOp | subOp | andOp | orOp | xorOp | shl | shr | sar | mulOp | mulh | mulhu | divOp | divu | rem | remu | minOp | maxOp | minu | maxu
    | slt | sltu | clz | ctz | popc | addAs | subAs | andAs | orAs | xorAs | shlAs | shrAs | sarAs | mulAs | mulhAs | mulhuAs | divAs | divuAs
    | remAs | remuAs | minAs | maxAs | minuAs | maxuAs | sltAs | sltuAs | clzAs | ctzAs | popcAs | addi | andi | ori | xori | shli | shri | sari
    | slti | sltiu | bfx | bfxs | bfi | lea | crd | movhi | sel | fmin | fmax | fabs | fneg | fcmp | txstat | evq =>
    exact .of_dest dest rfl (.bind fun _ => .ok)
  -- no source
  case movi | hself | grank | tid | clk => exact .of_dest dest rfl .ok
  -- several tests
  case leaG =>
    exact .of_dest dest rfl (.ite (.bind fun _ => .bind fun _ => .bind fun _ => .bind fun _ => .ok)
      (.bind fun _ => .bind fun _ => .bind fun _ => .bind fun _ => .ok))
  case ctxrd => exact .of_dest dest rfl (.bind fun _ => .bind fun _ => .bind fun _ => .ok)
  case erd f => exact absurd rfl (other f)
  all_goals exact nomatch dest

end

/-! ### The frame -/

section
variable {s t : State} {i : Instr} {d : BitVec 5}

theorem State.updateEnergy_of_recent {k : Nat} (recent : s.time < (s.tile k).energyAt + 256) : s.updateEnergy k = s := if_pos recent

/-- The counters of a tile take on what it has spent, at the last multiple of 256 cycles since their update before (07 R191). -/
theorem State.updateEnergy_of_due {k : Nat} (due : (s.tile k).energyAt + 256 ≤ s.time) :
    s.updateEnergy k = s.setTile k { s.tile k with
      energyRun := (s.tile k).energyRun + (if (s.tile k).run.isSome then Config.energy s.fc else 0),
      energyAll := (s.tile k).energyAll + Config.energy s.fc, energyAt := s.time - (s.time - (s.tile k).energyAt) % 256 } :=
  if_neg (Nat.not_lt.mpr due)

theorem State.updateEnergy_eq (s : State) (k : Nat) : ∃ ts, s.updateEnergy k = { s with tiles := ts } := by
  rcases Nat.lt_or_ge s.time ((s.tile k).energyAt + 256) with recent | due
  · exact ⟨_, State.updateEnergy_of_recent recent⟩
  · exact ⟨_, State.updateEnergy_of_due due⟩

/-- Energy counters brought up to date are all that changes of any tile. -/
theorem State.updateEnergy_tile (wf : s.tiles.wf {} = true) (j k : Nat) :
    ∃ r a n : Nat, (s.updateEnergy j).tile k = { s.tile k with energyRun := r, energyAll := a, energyAt := n } := by
  rcases Nat.lt_or_ge s.time ((s.tile j).energyAt + 256) with recent | due
  · exact ⟨_, _, _, by rw [State.updateEnergy_of_recent recent]⟩
  · rw [State.updateEnergy_of_due due, State.tile_setTile s wf]
    by_cases same : k = j
    · rw [if_pos same, same]
      exact ⟨_, _, _, rfl⟩
    · rw [if_neg same]
      exact ⟨_, _, _, rfl⟩

/-- A register op that ran left its destination written, in the state before it or, of `erd`, in the one with its tile's counters up to date. -/
theorem exec_registerOp (dest : registerDest i = some d) (next : exec i s = .next t) (fate : t.fate = .ran) :
    ∃ u w, t = { u.ws d w with fate := .ran } ∧ (u = s ∨ (∃ f, i = .erd f) ∧ u = s.updateEnergy s.cur.tile) := by
  by_cases erd : ∃ f, i = .erd f
  · obtain ⟨f, rfl⟩ := erd
    obtain rfl : f.rc = d := Option.some.inj dest
    refine ⟨_, _, Host.Outcome.next.inj (next.symm.trans (exec_erd f s)), ?_⟩
    split_ifs
    · exact .inr ⟨⟨f, rfl⟩, rfl⟩
    · exact .inl rfl
  · obtain ⟨r, runs, writes⟩ := runsToWrite_of_registerDest (s := s) dest fun f same => erd ⟨f, same⟩
    obtain ⟨v, through, rfl⟩ := settle_ran (runs ▸ next) fate
    obtain ⟨w, rfl⟩ := writes v through
    exact ⟨s, w, rfl, .inl rfl⟩

/-- A register written in a state that differs from another in its tiles alone leaves all else of that one. -/
theorem ws_frame {ts : SMap Tile} {w : Word} (wf : s.ctxs.wf {} = true) (written : t = { ({ s with tiles := ts } : State).ws d w with fate := .ran }) :
    (∀ a, t.memByte a = s.memByte a) ∧ (∀ a, t.linePois a = s.linePois a) ∧ (∀ b : Agent, akey b ≠ akey s.cur → t.ctx b = s.ctx b) ∧
    (∃ w : Word, t.me = s.me.putS d.toNat w) ∧ { t with ctxs := s.ctxs, fate := s.fate, tiles := s.tiles } = s ∧ t.tiles = ts := by
  subst written
  exact ⟨fun _ => rfl, fun _ => rfl, fun b other => State.ctx_setMe_of_ne wf _ other,
    ⟨w, State.me_setMe wf _⟩, rfl, rfl⟩

end

/-- Settles O7: the destination of a register op is all that its run writes; a write of s0 writes nothing. -/
theorem registerOpFrame : Obligations.RegisterOpFrame := by
  constructor
  · intro s t i d dest ctxs tiles next fate
    obtain ⟨u, w, written, same | ⟨erd, updated⟩⟩ := exec_registerOp dest next fate
    · obtain ⟨mem, pois, others, me, rest, kept⟩ := ws_frame (ts := s.tiles) ctxs (same ▸ written)
      exact ⟨mem, pois, others, me, rest, fun _ => kept, fun k => ⟨_, _, _, congrArg (·.get {} k) kept⟩⟩
    · obtain ⟨ts, energy⟩ := s.updateEnergy_eq s.cur.tile
      obtain ⟨mem, pois, others, me, rest, kept⟩ := ws_frame ctxs ((updated.trans energy) ▸ written)
      refine ⟨mem, pois, others, me, rest, fun noErd => erd.elim fun f same => absurd same (noErd f), fun k => ?_⟩
      obtain ⟨r, a, n, counters⟩ := State.updateEnergy_tile tiles s.cur.tile k
      exact ⟨r, a, n, by rw [← counters, written, updated]; rfl⟩
  · intro s w
    exact ⟨rfl, rfl, fun ra rb readable => settle_useS readable⟩

end Sys2Proof.Machine
end

section
/-! SUPPORT. Branches and jumps, and the hardware loops. -/

namespace Sys2Proof.Machine

/-! ### Branches and jumps (07 R177) -/

theorem not_slt (a b : Word) : (!a.slt b) = decide (b.toInt ≤ a.toInt) :=
  (decide_not ..).symm.trans (decide_eq_decide.mpr Int.not_lt)

theorem not_ult (a b : Word) : (!a.ult b) = decide (b.toNat ≤ a.toNat) :=
  (decide_not ..).symm.trans (decide_eq_decide.mpr Nat.not_lt)

section
variable {s : State}

theorem settle_branch {f : CB} (rel : Word → Word → Bool) (readable : Readable s [f.ra, f.rb]) :
    settle s (branch f rel s) = ran (if rel (s.rs f.ra) (s.rs f.rb) then s.goto (target s.me.pc f.off) else s) :=
  settle_useS readable

/-- The target of `jalr`, from the value before its own write. -/
def jalrTarget (f : CI) (s : State) : Word := s.rs f.ra + 8 * sx f.imm

theorem exec_jalr {f : CI} (readable : Readable s [f.ra]) (aligned : jalrTarget f s &&& 7 = 0) :
    exec (.jalr f) s = ran ((s.ws f.rd (s.me.pc + 8)).goto (jalrTarget f s)) := by
  refine (settle_useS readable).trans ?_
  change settle s (need (jalrTarget f s &&& 7 == 0) 6 0x3001 0 (jalrTarget f s) >>= _) = _
  rw [aligned]
  rfl

theorem exec_jalr_of_misaligned {f : CI} (readable : Readable s [f.ra]) (misaligned : jalrTarget f s &&& 7 ≠ 0) :
    exec (.jalr f) s = trapped s ⟨6, 0x3001, 0, jalrTarget f s, none⟩ := by
  refine (settle_useS readable).trans ?_
  change settle s (need (jalrTarget f s &&& 7 == 0) 6 0x3001 0 (jalrTarget f s) >>= _) = _
  rw [beq_false_of_ne misaligned]
  rfl

/-- Settles O8: a branch by its relation, a jump by its target. -/
theorem controlTransferResults : Obligations.ControlTransferResults := by
  constructor
  · intro s f readable a b go
    refine ⟨settle_branch (· == ·) readable, settle_branch (· != ·) readable, settle_branch (fun a b => a.slt b) readable, ?bge,
      settle_branch (fun a b => a.ult b) readable, ?bgeu⟩
    case bge => exact (settle_branch (fun a b => !a.slt b) readable).trans (by rw [not_slt]; rfl)
    case bgeu => exact (settle_branch (fun a b => !a.ult b) readable).trans (by rw [not_ult]; rfl)
  · intro s d ra off imm
    exact ⟨rfl, fun readable => ⟨exec_jalr (f := ⟨d, ra, imm⟩) readable, exec_jalr_of_misaligned (f := ⟨d, ra, imm⟩) readable⟩⟩

/-! ### Hardware loops (07 R178) -/

theorem exec_loopOp_of_zero {f : CB} (readable : Readable s [f.ra]) (zero : s.rs f.ra = 0) :
    exec (.loopOp f) s = ran (s.goto (s.me.pc + 8 * (BitVec.ofNat 64 f.off.toNat + 1))) :=
  (settle_useS readable).trans (congrArg (settle s) (if_pos zero))

/-- A count other than 0 meets the one test of the loop stack's depth. -/
theorem exec_loopOp_of_ne_zero {f : CB} (readable : Readable s [f.ra]) (count : s.rs f.ra ≠ 0) :
    exec (.loopOp f) s = settle s (need (s.me.ldep < 4) 6 0x7002 0 0 >>= fun _ =>
      .ok (s.setMe (s.me.pushLoop (s.rs f.ra) (s.me.pc + 8) (s.me.pc + 8 * BitVec.ofNat 64 f.off.toNat)))) :=
  (settle_useS readable).trans (congrArg (settle s) (if_neg count))

/-- The end test of the innermost loop while its count does not run out: the count falls, and the body starts again. -/
theorem Ctx.loopEnd_of_count {c : Ctx} {a : Word} (fuel : Nat) (wf : c.creg.wf 0 = true) (inLoop : c.ldep ≠ 0)
    (atEnd : c.cr (lend (c.ldep - 1)) = a) (more : c.cr (lcnt (c.ldep - 1)) ≠ 1) :
    Ctx.loopEnd a (fuel + 1) c =
      (c.setCr (lcnt (c.ldep - 1)) (c.cr (lcnt (c.ldep - 1)) - 1), c.cr (lbeg (c.ldep - 1))) := by
  have stays : c.cr (lcnt (c.ldep - 1)) - 1 ≠ 0 := fun zero => more (by simpa using BitVec.sub_eq_iff_eq_add.mp zero)
  have begin_ne : lbeg (c.ldep - 1) ≠ lcnt (c.ldep - 1) := by unfold lbeg lcnt; omega
  have body : (c.setCr (lcnt (c.ldep - 1)) (c.cr (lcnt (c.ldep - 1)) - 1)).cr (lbeg (c.ldep - 1)) = c.cr (lbeg (c.ldep - 1)) :=
    (c.cr_setCr wf ..).trans (if_neg begin_ne)
  rw [Ctx.loopEnd, if_neg (by simp [inLoop, atEnd])]
  exact (if_pos stays).trans (by rw [body])

theorem Ctx.ldep_setCr_lcnt {c : Ctx} (wf : c.creg.wf 0 = true) (l : Nat) (w : Word) : (c.setCr (lcnt l) w).ldep = c.ldep := by
  have other : 0x20 ≠ lcnt l := by unfold lcnt; omega
  rw [Ctx.ldep, c.cr_setCr wf, if_neg other]
  rfl

end

/-- Settles O9: `loop` by its count and the depth, the end test by the count that is left. -/
theorem hardwareLoopResults : Obligations.HardwareLoopResults := by
  constructor
  · intro s f readable n
    refine ⟨exec_loopOp_of_zero readable, fun count room => ?push, fun count full => ?overflow⟩
    case push => rw [exec_loopOp_of_ne_zero readable count, decide_eq_true room]; rfl
    case overflow => rw [exec_loopOp_of_ne_zero readable count, decide_eq_false (Nat.not_lt.mpr full)]; rfl
  · intro c a fuel wf inLoop atEnd more l r
    have ended : r = _ := Ctx.loopEnd_of_count fuel wf inLoop atEnd more
    rw [ended]
    exact ⟨rfl, (c.cr_setCr wf ..).trans (if_pos rfl), Ctx.ldep_setCr_lcnt wf ..⟩

end Sys2Proof.Machine
end

section
/-! SUPPORT. `yield`, the energy counters and the energy account. -/

namespace Sys2Proof.Machine

/-! ### `yield` (07 R182) -/

theorem exec_yieldExpiry_of_early {s : State} {a : Agent} (early : s.time < (s.ctx a).yieldUntil) :
    exec (.yieldExpiry a) s = .next (s.post (.yieldExpiry a)) := if_pos early

theorem exec_yieldExpiry_of_due {s : State} {a : Agent} (due : (s.ctx a).yieldUntil ≤ s.time) :
    exec (.yieldExpiry a) s = .next (s.setCtx a { s.ctx a with yieldUntil := 0 }) := if_neg (Nat.not_lt.mpr due)

/-! ### The energy counters (07 R191) -/

theorem exec_energyCounterUpdate (s : State) (k : Nat) :
    exec (.energyCounterUpdate k) s = .next ((s.updateEnergy k).post (.energyCounterUpdate k)) := rfl

/-- The counters of a tile after an update that is due, in a canonical map. -/
theorem State.updateEnergy_counters {s : State} {k : Nat} (wf : s.tiles.wf {} = true) (due : (s.tile k).energyAt + 256 ≤ s.time) :
    ((s.updateEnergy k).tile k).energyAll = (s.tile k).energyAll + Config.energy s.fc ∧
    ((s.updateEnergy k).tile k).energyRun = (s.tile k).energyRun + (if (s.tile k).run.isSome then Config.energy s.fc else 0) ∧
    ((s.updateEnergy k).tile k).energyAt = s.time - (s.time - (s.tile k).energyAt) % 256 := by
  rw [State.updateEnergy_of_due due, State.tile_setTile s wf, if_pos rfl]
  exact ⟨rfl, rfl, rfl⟩

/-! ### The energy account (11 R339) -/

/-- The account after a refill: one P more up to its cap, and a changed limit cuts it to the new cap. -/
def State.refilled (s : State) : Int :=
  if s.budget ≥ 10000 * (s.limit : Int) then (if s.limit = s.power then s.budget else 10000 * (s.limit : Int))
  else min (10000 * (s.limit : Int)) (s.budget + s.limit)

theorem exec_energyRefill_of_early {s : State} (early : s.time < s.refillAt) : exec .energyRefill s = .next (s.post .energyRefill) := if_pos early

theorem exec_energyRefill_of_due {s : State} (due : s.refillAt ≤ s.time) : exec .energyRefill s =
    .next ({ s with budget := s.refilled, power := s.limit, refillAt := s.refillAt + 3600 }.post .energyRefill) := if_neg (Nat.not_lt.mpr due)

theorem State.refilled_of_lt {s : State} (below : s.budget < 10000 * (s.limit : Int)) :
    s.refilled = min (10000 * (s.limit : Int)) (s.budget + s.limit) := if_neg (Int.not_le.mpr below)

theorem State.refilled_le_of_changed {s : State} (changed : s.limit ≠ s.power) : s.refilled ≤ 10000 * (s.limit : Int) := by
  unfold State.refilled
  rw [if_neg changed]
  split_ifs
  · exact le_rfl
  · exact min_le_left ..

/-- Settles O10: each act by whether its time has come. -/
theorem yieldAndEnergyResults : Obligations.YieldAndEnergyResults := by
  refine ⟨fun s => ⟨rfl, rfl, fun a => ⟨exec_yieldExpiry_of_early, exec_yieldExpiry_of_due⟩⟩, ?counters,
    fun s => ⟨exec_energyRefill_of_early, ?account⟩⟩
  case counters =>
    intro s k wf
    rcases Nat.lt_or_ge s.time ((s.tile k).energyAt + 256) with recent | due
    · have act := exec_energyCounterUpdate s k
      rw [State.updateEnergy_of_recent recent] at act
      exact ⟨_, 0, act, rfl, by simp, fun _ => rfl, recent, rfl, rfl, rfl⟩
    · obtain ⟨all, run, updated⟩ := State.updateEnergy_counters wf due
      obtain ⟨ts, tiles⟩ := s.updateEnergy_eq k
      refine ⟨_, Config.energy s.fc, exec_energyCounterUpdate s k, all, run, fun recent => absurd recent (Nat.not_lt.mpr due), ?lag, ?_⟩
      case lag =>
        change (s.updateEnergy k).time < ((s.updateEnergy k).tile k).energyAt + 256
        rw [updated, tiles]
        change s.time < _
        omega
      · rw [tiles]
        exact ⟨rfl, rfl, rfl⟩
  case account => exact fun due => ⟨_, exec_energyRefill_of_due due, rfl, rfl, rfl, rfl, rfl, State.refilled_of_lt, State.refilled_le_of_changed⟩

end Sys2Proof.Machine
end

section
/-! SUPPORT. Taking a trap and returning from it: entry to the task's handler, and the fault that freezes the tile. -/

namespace Sys2Proof.Machine

/-! ### Handler mode -/

theorem Ctx.setCr_wf {c : Ctx} (wf : c.creg.wf 0 = true) (n : Nat) (w : Word) : (c.setCr n w).creg.wf 0 = true := SMap.wf_set wf n w

theorem Ctx.hm_setHm {c : Ctx} (wf : c.creg.wf 0 = true) (b : Bool) : (c.setHm b).hm = b := by
  rw [Ctx.hm, Ctx.setHm, c.cr_setCr wf, if_pos rfl, getLsbD_putBits _ _ _ _ (by decide)]
  cases b <;> rfl

theorem Ctx.cr_setHm {c : Ctx} (wf : c.creg.wf 0 = true) {n : Nat} (other : n ≠ 1) (b : Bool) : (c.setHm b).cr n = c.cr n :=
  (c.cr_setCr wf ..).trans (if_neg other)

@[simp] theorem Ctx.trapEntry_pc (c : Ctx) (t : Trap) (vec : Word) : (c.trapEntry t vec).pc = vec := rfl
@[simp] theorem Ctx.trapEntry_s (c : Ctx) (t : Trap) (vec : Word) : (c.trapEntry t vec).s = c.s := by
  simp only [Ctx.trapEntry, Ctx.setHm, Ctx.setCr]
@[simp] theorem Ctx.trapEntry_v (c : Ctx) (t : Trap) (vec : Word) : (c.trapEntry t vec).v = c.v := by
  simp only [Ctx.trapEntry, Ctx.setHm, Ctx.setCr]

/-- A context that enters its handler: handler mode, and the registers of the trap written (07 R183). -/
theorem Ctx.trapEntry_registers {c : Ctx} (wf : c.creg.wf 0 = true) (t : Trap) (vec : Word) :
    (c.trapEntry t vec).hm = true ∧ (c.trapEntry t vec).cr 4 = c.pc &&& ~~~7 ∧ (c.trapEntry t vec).cr 3 = t.addr ∧
    (c.trapEntry t vec).cr 2 = BitVec.ofNat 64 (t.code.toNat * 2 ^ 16 + t.cause.toNat) := by
  have wf4 := Ctx.setCr_wf wf 4 (c.pc &&& ~~~7)
  have wf3 := Ctx.setCr_wf wf4 3 t.addr
  have wf2 := Ctx.setCr_wf wf3 2 (wd (t.code.toNat * 2 ^ 16 + t.cause.toNat))
  refine ⟨Ctx.hm_setHm wf2 true, (Ctx.cr_setHm wf2 (by decide) true).trans ?_, (Ctx.cr_setHm wf2 (by decide) true).trans ?_,
    (Ctx.cr_setHm wf2 (by decide) true).trans ?_⟩
  · rw [Ctx.cr_setCr _ wf3, Ctx.cr_setCr _ wf4, Ctx.cr_setCr _ wf]
    rfl
  · rw [Ctx.cr_setCr _ wf3, Ctx.cr_setCr _ wf4]
    rfl
  · rw [Ctx.cr_setCr _ wf3]
    rfl

/-! ### Taking a trap (07 R183) -/

section
variable {s : State} {t : Trap}

/-- From task mode with a handler a trap enters it. -/
theorem trapped_enters (ctxs : s.ctxs.wf {} = true) (noTable : t.table = none) (context : s.cur.isAwn = false) (task : s.me.hm = false)
    (handler : s.thvec s.cur.tile ≠ 0) :
    ∃ u, trapped s t = .next u ∧ u.me = s.me.trapEntry t (s.thvec s.cur.tile) ∧ u.mem = s.mem := by
  have entry : s.isTaskFault = false := by simp only [State.isTaskFault, context, task, beq_false_of_ne handler, Bool.or_false]
  refine ⟨{ s.setMe (s.me.trapEntry t (s.thvec s.cur.tile)) with fate := .trapped t.step }, ?_,
    State.me_setMe ctxs _, rfl⟩
  simp [trapped, State.takeTrap, State.reportTable, noTable, entry]

/-- In handler mode, or without a handler, a trap is a task fault (20 R423). -/
theorem trapped_of_fault (noTable : t.table = none) (fault : s.me.hm = true ∨ s.thvec s.cur.tile = 0) :
    trapped s t = .next { (s.faultTile s.cur.tile s.cur.ctx t s.me.pc).waitOn (.structural .frozen) with fate := .trapped t.step } := by
  have taken : s.isTaskFault = true := by
    rcases fault with h | h <;> simp [State.isTaskFault, h]
  simp [trapped, State.takeTrap, State.reportTable, noTable, taken]

/-- A trap raised with the code of an op carries that code. -/
theorem settle_raise (step : Nat) (cause : BitVec 16) (code : BitVec 10) (addr : Word) :
    settle s (raise step cause code.toNat addr) = trapped s ⟨step, cause, code, addr, none⟩ := by
  rw [raise, settle_trap, BitVec.ofNat_toNat, BitVec.setWidth_eq]

theorem exec_brk (code : BitVec 10) : exec (.brk code) s = trapped s ⟨6, 1, code, 0, none⟩ := settle_raise ..

theorem exec_trapOp (code : BitVec 10) : exec (.trapOp code) s = trapped s ⟨6, 2, code, 0, none⟩ := settle_raise ..

end

/-- Settles O11: the trap that the op asks for, and the registers that its entry writes. -/
theorem requestedTrapEntersHandler : Obligations.RequestedTrapEntersHandler := by
  intro s code ctxs context task wf handler i n request
  have asked : exec i s = trapped s ⟨6, n, code, 0, none⟩ := by
    rcases request with ⟨rfl, rfl⟩ | ⟨rfl, rfl⟩
    · exact exec_brk code
    · exact exec_trapOp code
  obtain ⟨u, taken, me, mem⟩ := trapped_enters (t := ⟨6, n, code, 0, none⟩) ctxs rfl context task handler
  obtain ⟨hm, tpc, taddr, tcause⟩ := Ctx.trapEntry_registers wf ⟨6, n, code, 0, none⟩ (s.thvec s.cur.tile)
  refine ⟨u, asked.trans taken, ?_⟩
  rw [me]
  exact ⟨Ctx.trapEntry_pc .., hm, tpc, taddr, tcause, Ctx.trapEntry_s .., Ctx.trapEntry_v .., mem⟩

/-! ### `eret`, and the sheaves that have no op (07 R184, 21 R434, R438) -/

section
variable {s : State}

theorem exec_eret (h : s.handler = true) : exec .eret s = ran (if s.cur.isAwn then s.endHandler s.cur.tile else s.trapReturn) := by
  change execEret s = _
  rw [execEret, needHandler_ok h, run_bind_ok, settle_ok]

theorem exec_eret_of_task (h : s.handler = false) : exec .eret s = trapped s ⟨4, 0x2001, 0, 0, none⟩ := by
  change execEret s = _
  rw [execEret, needHandler_trap h, run_bind_error, settle_trap]

theorem exec_reservedEncoding (code : BitVec 10) : exec (.reservedEncoding code) s = trapped s ⟨3, 0x1001, code, 0, none⟩ := settle_raise ..

/-- A failed fetch traps with the cause of its check; no table line is named where the walk ended on none that is poisoned (22 R448). -/
theorem exec_instructionFetchFault {code : BitVec 10} {cause : BitVec 16} {a : Word}
    (clean : ∀ e, s.walk (s.root s.cur) (offset a) = .error e → cause = 0x3005 → e.table = none) :
    exec (.instructionFetchFault cause code a) s = trapped s ⟨2, cause, code, a, none⟩ := by
  change execInstructionFetchFault cause code a s = _
  cases walked : s.walk (s.root s.cur) (offset a) with
  | ok leaf => rw [execInstructionFetchFault, walked, settle_trap]
  | error e =>
    have unnamed : (if cause = 0x3005 then e.table else none) = none := by
      split_ifs with poison
      · exact clean e walked poison
      · rfl
    rw [execInstructionFetchFault, walked]
    exact congrArg (fun table => trapped s ⟨2, cause, code, a, table⟩) unnamed

end

/-- Settles O12: `eret` by the mode, a trap by whether it is a task fault, a sheaf without an op by its check. -/
theorem trapAndReturnResults : Obligations.TrapAndReturnResults := by
  refine ⟨fun s => ⟨?handler, ?task, ?awn⟩, fun s t fault noTable => trapped_of_fault noTable fault,
    fun s code cause a => ⟨exec_reservedEncoding code, exec_instructionFetchFault⟩⟩
  case handler => exact fun context mode => (exec_eret (by simp [State.handler, mode])).trans (congrArg ran (if_neg (by simp [context])))
  case task => exact fun context mode => exec_eret_of_task (by simp [State.handler, context, mode])
  case awn => exact fun awn => (exec_eret (by simp [State.handler, awn])).trans (congrArg ran (if_pos awn))

end Sys2Proof.Machine
end

section
/-! SUPPORT. Helpers, and the end of a task. -/

namespace Sys2Proof.Machine

section
variable {s : State} {f : CR}

theorem onlyCtx0_ok (main : s.cur.ctx = 0) : onlyCtx0 s = .ok () := by simp [onlyCtx0, main]

/-! ### `hstart` (07 R179) -/

/-- The helper that starts is Free, one of helpers 1 to 10, and the lowest that is. -/
theorem State.freeHelper_spec {h : Nat} (found : s.freeHelper = some h) :
    (s.ctx ⟨s.cur.tile, h⟩).st = .free ∧ 1 ≤ h ∧ h ≤ 10 ∧ ∀ g, 1 ≤ g → g < h → (s.ctx ⟨s.cur.tile, g⟩).st ≠ .free := by
  rw [State.freeHelper, List.find?_map, Option.map_eq_some_iff] at found
  obtain ⟨i, first, rfl⟩ := found
  obtain ⟨free, inRange, below⟩ := List.find?_range_eq_some.mp first
  refine ⟨eq_of_beq free, Nat.le_add_left .., List.mem_range.mp inRange, fun g least lower => ?_⟩
  have busy := below (g - 1) (by omega)
  rw [Function.comp_apply, Nat.sub_add_cancel least] at busy
  simpa using busy

theorem exec_hstart_of_none (main : s.cur.ctx = 0) (readable : Readable s [f.ra, f.rb]) (aligned : s.rs f.ra &&& 7 = 0) (busy : s.freeHelper = none) :
    exec (.hstart f) s = ran (s.ws f.rd 0) := by
  change execHstart f s = _
  rw [execHstart, onlyCtx0_ok main, useS_ok readable, aligned, busy]
  rfl

theorem exec_hstart_of_free {h : Nat} (main : s.cur.ctx = 0) (readable : Readable s [f.ra, f.rb]) (aligned : s.rs f.ra &&& 7 = 0)
    (found : s.freeHelper = some h) :
    exec (.hstart f) s = ran ((s.setCtx ⟨s.cur.tile, h⟩ ((s.ctx ⟨s.cur.tile, h⟩).startHelper (s.rs f.ra) (s.rs f.rb)
      (recPwsize (s.runRec s.cur.tile)))).ws f.rd (BitVec.ofNat 64 h)) := by
  change execHstart f s = _
  rw [execHstart, onlyCtx0_ok main, useS_ok readable, aligned, found]
  rfl

theorem exec_hstart_of_misaligned (main : s.cur.ctx = 0) (readable : Readable s [f.ra, f.rb]) (misaligned : s.rs f.ra &&& 7 ≠ 0) :
    exec (.hstart f) s = trapped s ⟨6, 0x3001, 0, s.rs f.ra, none⟩ := by
  change execHstart f s = _
  rw [execHstart, onlyCtx0_ok main, useS_ok readable, beq_false_of_ne misaligned]
  rfl

/-! ### `hjoin` and `hexit` (07 R180) -/

theorem exec_hjoin_of_range (main : s.cur.ctx = 0) (readable : Readable s [f.ra]) (outside : (s.rs f.ra).toNat = 0 ∨ 10 < (s.rs f.ra).toNat) :
    exec (.hjoin f) s = trapped s ⟨6, 0x7001, 1, 0, none⟩ := by
  have no : (decide (1 ≤ (s.rs f.ra).toNat) && decide ((s.rs f.ra).toNat ≤ 10)) = false := by
    rw [← Bool.decide_and, decide_eq_false_iff_not]
    omega
  change execHjoin f s = _
  simp only [execHjoin, onlyCtx0_ok main, useS_ok readable, run_bind_ok, no, need_false, run_bind_error, settle_trap]
  rfl

/-- `hjoin` of a helper's number goes by the state of that helper. -/
theorem exec_hjoin (main : s.cur.ctx = 0) (readable : Readable s [f.ra]) (least : 1 ≤ (s.rs f.ra).toNat) (most : (s.rs f.ra).toNat ≤ 10) :
    let a : Agent := ⟨s.cur.tile, (s.rs f.ra).toNat⟩
    exec (.hjoin f) s = if (s.ctx a).st = .free then ran s else if (s.ctx a).st = .done then ran (s.setCtx a { s.ctx a with st := .free })
      else waits s (.join (s.rs f.ra).toNat) := by
  change execHjoin f s = _
  simp only [execHjoin, onlyCtx0_ok main, useS_ok readable, run_bind_ok, decide_eq_true least, decide_eq_true most, Bool.and_true, need_true]
  cases (s.ctx ⟨s.cur.tile, (s.rs f.ra).toNat⟩).st <;> rfl

theorem exec_hexit (context : s.cur.isAwn = false) (helper : s.cur.ctx ≠ 0) (drained : s.me.undrained = none) :
    exec .hexit s = ran ((s.abortTx s.cur 6).setMe { (s.abortTx s.cur 6).me with st := .done }) := by
  change execHexit s = _
  rw [execHexit, context, bne_iff_ne.mpr helper, drained]
  rfl

/-! ### `texit` (07 R185) -/

theorem exec_texit_of_busy (main : s.cur.ctx = 0) (busy : s.helpersBusy s.cur.tile = true) : exec .texit s = waits s .retire := by
  change execTexit s = _
  rw [execTexit, onlyCtx0_ok main, run_bind_ok, if_pos busy, settle_wait_self]

theorem exec_texit (main : s.cur.ctx = 0) (idle : s.helpersBusy s.cur.tile = false) : exec .texit s =
    ran (((s.setMe { s.me with st := .waiting .retire }).goto s.me.pc).post (.taskRetirement s.cur.tile)) := by
  change execTexit s = _
  rw [execTexit, onlyCtx0_ok main, run_bind_ok, if_neg (ne_true_of_eq_false idle), settle_ok]

end

/-- Settles O13: a start by the helper found, a join by the helper's state, an exit by what is still at work. -/
theorem helperAndTaskExitResults : Obligations.HelperAndTaskExitResults := by
  refine ⟨fun s f main readable => ⟨exec_hstart_of_none main readable, ?start, exec_hstart_of_misaligned main readable⟩,
    fun s f => ⟨?join, exec_hexit⟩, fun s main => ⟨exec_texit_of_busy main, ?exit⟩⟩
  case start =>
    intro h aligned found
    obtain ⟨free, least, most, lowest⟩ := State.freeHelper_spec found
    exact ⟨free, least, most, lowest, _, exec_hstart_of_free main readable aligned found, rfl, rfl⟩
  case join =>
    intro main readable h a
    have joined := exec_hjoin (f := f) main readable
    refine ⟨fun least most free => ?_, fun least most done => ?_, fun least most notFree notDone => ?_, exec_hjoin_of_range main readable⟩
    · exact (joined least most).trans (if_pos free)
    · exact (joined least most).trans ((if_neg (by rw [done]; nofun)).trans (if_pos done))
    · exact (joined least most).trans ((if_neg notFree).trans (if_neg notDone))
  case exit =>
    intro idle ctxs
    have me := State.me_setMe ctxs { s.me with st := .waiting .retire }
    exact ⟨_, exec_texit main idle, rfl, congrArg Ctx.st me, rfl, rfl⟩

end Sys2Proof.Machine
end

section
/-! SUPPORT. `crd` and `cwr` by the privilege of their register. -/

namespace Sys2Proof.Machine

/-! ### Privilege (07 R165, R166) -/

theorem mayRead_iff {s : State} {n : Nat} : mayRead s n = true ↔ privOf n ≠ 2 ∨ s.handler = true := by
  simp [mayRead]

theorem mayRead_eq_false {s : State} {n : Nat} (handlers : privOf n = 2) (task : s.handler = false) : mayRead s n = false := by
  simp [mayRead, handlers, task]

theorem mayWrite_iff {s : State} {n : Nat} :
    mayWrite s n = true ↔ (privOf n = 0 ∨ privOf n ≠ 3 ∧ s.handler = true) ∨ s.cur.isAwn = true := by
  simp [mayWrite]

theorem mayWrite_eq_false {s : State} {n : Nat} (context : s.cur.isAwn = false) (refused : privOf n = 3 ∨ privOf n ≠ 0 ∧ s.handler = false) :
    mayWrite s n = false := by
  rcases refused with fixed | ⟨notUser, task⟩
  · simp [mayWrite, context, fixed]
  · simp [mayWrite, context, notUser, task]

/-- The bank formats are registers that every mode writes. -/
theorem privOf_bfmt {v : Bool} {n : Nat} {b : Nat × Nat} (register : bfmtBank v n = some b) : privOf n = 0 := by
  have range : 0x100 ≤ n ∧ n < 0x190 := by
    unfold bfmtBank at register
    split_ifs at register <;> simp only [Bool.and_eq_true, decide_eq_true_eq] at * <;> omega
  unfold privOf
  rw [if_neg (by simp; omega), if_neg (by omega), if_neg (by simp; omega), if_neg (by omega)]

/-! ### The ops (07 R168) -/

section
variable {s : State} {f : CI}

theorem exec_crd (may : mayRead s (cregNum f) = true) : exec (.crd f) s = ran (s.ws f.rd (s.crRead s.cur (cregNum f))) := by
  change execCrd f s = _
  rw [execCrd, may, need_true, run_bind_ok, settle_ok]

theorem exec_crd_of_privilege (mayNot : mayRead s (cregNum f) = false) : exec (.crd f) s = trapped s ⟨4, 0x2001, 0, 0, none⟩ := by
  change execCrd f s = _
  rw [execCrd, mayNot, need_false, run_bind_error, settle_trap]
  rfl

theorem needBfmt_ok {t n : Nat} {v : Word} (legal : ∀ buf bank, bfmtBank (isV t) n = some (buf, bank) → bfmtLegal (isV t) buf bank v = true) :
    needBfmt t n v = .ok () := by
  unfold needBfmt
  cases register : bfmtBank (isV t) n with
  | none => rfl
  | some b => exact congrArg (need · 6 0x7004 1 0) (legal b.1 b.2 register)

theorem needBfmt_trap {t n buf bank : Nat} {v : Word} (register : bfmtBank (isV t) n = some (buf, bank))
    (illegal : bfmtLegal (isV t) buf bank v = false) : needBfmt t n v = .error (.trap ⟨6, 0x7004, 1, 0, none⟩) := by
  rw [needBfmt, register]
  exact congrArg (need · 6 0x7004 1 0) illegal

/-- `cwr` in a mode that may issue it writes any register but one of privilege F (07 R168; log 28). -/
theorem exec_cwr (may : mayWrite s (cregNum f) = true) (readable : Readable s [f.ra])
    (legal : ∀ buf bank, bfmtBank (isV s.cur.tile) (cregNum f) = some (buf, bank) → bfmtLegal (isV s.cur.tile) buf bank (s.rs f.ra) = true) :
    exec (.cwr f) s = ran (if privOf (cregNum f) = 3 then s else s.crWrite s.cur (cregNum f) (s.rs f.ra)) := by
  change execCwr f s = _
  simp only [execCwr, may, need_true, useS_ok readable, needBfmt_ok legal, run_bind_ok, settle_ok]

theorem exec_cwr_of_illegal {buf bank : Nat} (may : mayWrite s (cregNum f) = true) (readable : Readable s [f.ra])
    (register : bfmtBank (isV s.cur.tile) (cregNum f) = some (buf, bank)) (illegal : bfmtLegal (isV s.cur.tile) buf bank (s.rs f.ra) = false) :
    exec (.cwr f) s = trapped s ⟨6, 0x7004, 1, 0, none⟩ := by
  change execCwr f s = _
  simp only [execCwr, may, need_true, useS_ok readable, needBfmt_trap register illegal, run_bind_ok, run_bind_error, settle_trap]

theorem exec_cwr_of_privilege (mayNot : mayWrite s (cregNum f) = false) : exec (.cwr f) s = trapped s ⟨4, 0x2001, 0, 0, none⟩ := by
  change execCwr f s = _
  simp only [execCwr, mayNot, need_false, run_bind_error, settle_trap]
  rfl

end

/-- Settles O14: the two ops by what the mode may read and write. -/
theorem controlRegisterResults : Obligations.ControlRegisterResults := by
  constructor
  · intro s f n
    exact ⟨fun may => exec_crd (mayRead_iff.mpr may), fun handlers task => exec_crd_of_privilege (mayRead_eq_false handlers task)⟩
  · intro s f readable n
    refine ⟨fun mode legal => ?written, fun user buf bank => exec_cwr_of_illegal (mayWrite_iff.mpr (.inl (.inl user))) readable,
      fun context refused => exec_cwr_of_privilege (mayWrite_eq_false context refused), fun awn fixed => ?dropped⟩
    case written =>
      have notFixed : privOf n ≠ 3 := by omega
      have may : mayWrite s n = true := mayWrite_iff.mpr (.inl (mode.imp_right fun h => ⟨notFixed, h.2⟩))
      exact (exec_cwr may readable legal).trans (congrArg ran (if_neg notFixed))
    case dropped =>
      have noBank (buf bank : Nat) (register : bfmtBank (isV s.cur.tile) n = some (buf, bank)) : False := by
        have := privOf_bfmt register
        omega
      exact (exec_cwr (mayWrite_iff.mpr (.inr awn)) readable fun buf bank register => (noBank buf bank register).elim).trans
        (congrArg ran (if_pos fixed))

end Sys2Proof.Machine
end

section
/-! SUPPORT. Fields of task records: what a field reads after one is written. -/

namespace Sys2Proof.Machine

section
variable {hi lo hi' lo' : Nat}

/-- A replaced field reads the low bits of its new value. -/
theorem bits_putBits (w : Word) (v : Nat) (top : hi < 64) : bits (putBits w hi lo v) hi lo = v % 2 ^ (hi + 1 - lo) := by
  refine Nat.eq_of_testBit_eq fun j => ?_
  rw [testBit_bits, Nat.testBit_mod_two_pow]
  by_cases inside : j < hi + 1 - lo
  · rw [getLsbD_putBits _ _ _ _ (by omega), if_pos (by omega), Nat.add_sub_cancel_left]
  · simp [inside]

/-- A field apart from the one replaced reads as before. -/
theorem bits_putBits_of_apart (w : Word) (v : Nat) (top : hi' < 64) (apart : hi' < lo ∨ hi < lo') :
    bits (putBits w hi lo v) hi' lo' = bits w hi' lo' := by
  refine Nat.eq_of_testBit_eq fun j => ?_
  rw [testBit_bits, testBit_bits]
  by_cases inside : j < hi' + 1 - lo'
  · rw [getLsbD_putBits _ _ _ _ (by omega), if_neg (by omega)]
  · simp [inside]

section
variable (r : BitVec 2048) (w : Word) {m n : Nat}

theorem getLsbD_setRecD {i : Nat} (h : i < 2048) :
    (setRecD r n w).getLsbD i = if 64 * n ≤ i ∧ i < 64 * n + 64 then w.getLsbD (i - 64 * n) else r.getLsbD i := by
  simp only [setRecD, BitVec.getLsbD_or, BitVec.getLsbD_and, BitVec.getLsbD_not, BitVec.getLsbD_shiftLeft, BitVec.getLsbD_setWidth,
    BitVec.getLsbD_allOnes, h, show i - 64 * n < 2048 by omega, decide_true, Bool.true_and]
  by_cases low : i < 64 * n
  · simp [low]
  · by_cases inside : i - 64 * n < 64
    · rw [if_pos (by omega)]
      simp [low, inside]
    · rw [if_neg (by omega), BitVec.getLsbD_of_ge w _ (Nat.not_lt.mp inside)]
      simp [low, inside]

theorem getLsbD_recD (i : Nat) : (recD r n).getLsbD i = (decide (i < 64) && r.getLsbD (64 * n + i)) := BitVec.getLsbD_extractLsb' ..

theorem recD_setRecD (h : n < 32) : recD (setRecD r n w) n = w := by
  refine BitVec.eq_of_getLsbD_eq fun i hi => ?_
  rw [getLsbD_recD, getLsbD_setRecD _ _ (by omega), if_pos (by omega), Nat.add_sub_cancel_left, decide_eq_true hi, Bool.true_and]

theorem recD_setRecD_of_ne (h : m < 32) (other : m ≠ n) : recD (setRecD r n w) m = recD r m := by
  refine BitVec.eq_of_getLsbD_eq fun i hi => ?_
  rw [getLsbD_recD, getLsbD_recD, getLsbD_setRecD _ _ (by omega), if_neg (by omega)]

theorem recF_setRecF (v : Nat) (h : n < 32) (top : hi < 64) : recF (setRecF r n hi lo v) n hi lo = v % 2 ^ (hi + 1 - lo) := by
  rw [recF, setRecF, recD_setRecD _ _ h, bits_putBits _ _ top]

theorem recF_setRecF_of_ne (v : Nat) (h : m < 32) (other : m ≠ n) : recF (setRecF r n hi lo v) m hi' lo' = recF r m hi' lo' := by
  rw [recF, setRecF, recD_setRecD_of_ne _ _ h other, recF]

theorem recF_setRecF_of_apart (v : Nat) (h : n < 32) (top : hi' < 64) (apart : hi' < lo ∨ hi < lo') :
    recF (setRecF r n hi lo v) n hi' lo' = recF r n hi' lo' := by
  rw [recF, setRecF, recD_setRecD _ _ h, bits_putBits_of_apart _ _ top apart, recF]

end

end

/-! ### The record of a new task (07 R187) -/

/-- The record that `tspawn` makes stands Pending. -/
theorem recState_spawnRecord (g : GraphOp) (t : BitVec 2048) : recState (spawnRecord g t none) = 2 := by
  rw [recState, spawnRecord]
  rw [recF_setRecF_of_ne _ _ (by decide) (by decide), recF_setRecF_of_ne _ _ (by decide) (by decide), recF_setRecF_of_ne _ _ (by decide) (by decide),
    recF_setRecF_of_apart _ _ (by decide) (by decide) (by decide), recF_setRecF _ _ (by decide) (by decide)]
  rfl

/-- Its counter is the low twelve bits of the op's amount. -/
theorem recCnt_spawnRecord (g : GraphOp) (t : BitVec 2048) : recCnt (spawnRecord g t none) = g.amount % 2 ^ 12 := by
  rw [recCnt, spawnRecord]
  rw [recF_setRecF_of_ne _ _ (by decide) (by decide), recF_setRecF_of_ne _ _ (by decide) (by decide), recF_setRecF_of_ne _ _ (by decide) (by decide),
    recF_setRecF _ _ (by decide) (by decide)]

end Sys2Proof.Machine
end

section
/-! SUPPORT. The graph ops: their fence, their sending, what the dispatcher of their record does, and the decrements that arrive. -/

namespace Sys2Proof.Machine

/-! ### The fence of a graph op (07 R186, 04 R98) -/

/-- The executing agent with its contexts and its sheaf's sources, and the package's place among its peers: what a fence does not change. -/
def State.seat (s : State) : (Agent × Option Ctx × SMap Ctx) × Ualink := ((s.cur, s.latch, s.ctxs), s.ua)

theorem State.writeBack_seat (s : State) (key : Nat) (l : RemLine) : (s.writeBack key l).seat = s.seat := by
  have bytes (line : Nat) (is : List Nat) : (is.foldl (fun u i => u.putDirty line l i) s).seat = s.seat := by
    refine foldl_leaves State.seat _ (fun u i => ?_) is s
    unfold State.putDirty
    split_ifs <;> rfl
  unfold State.writeBack
  dsimp only
  split_ifs
  · rfl
  all_goals exact bytes _ _

theorem State.podRelease_seat (s : State) (d : Nat) : (s.podRelease d).seat = s.seat :=
  foldl_leaves State.seat _ (fun u (e : Nat × RemLine) => u.writeBack_seat e.1 e.2) _ s

theorem State.performAt_seat (s : State) (t scope : Nat) : (s.performAt t scope).seat = s.seat := by
  have crossed (d : Nat) : (s.crossAll d).seat = s.seat := (congrArg State.seat (s.crossAll_sansMessages d) :)
  unfold State.performAt
  dsimp only
  split_ifs
  · exact (State.podRelease_seat ..).trans (crossed _)
  · exact State.podRelease_seat ..
  · exact crossed _
  · rfl

theorem State.showFenced_seat (s : State) (a : Agent) (mask : Nat) : (s.showFenced a mask).seat = s.seat := by
  obtain ⟨_, shown⟩ := s.showAll_eq (fun _ e p => e.writer.agent == a && mask.testBit e.writer.path && mask.testBit p)
  rw [State.showFenced, shown]
  rfl

/-- The state behind a fence over every path at a scope. -/
def State.fenced (s : State) (scope : Nat) : State :=
  let u := (s.performAt s.cur.tile scope).showFenced s.cur 63
  if scope = 4 then u.podAcquire s.cur.tile else u

theorem State.fenced_seat (s : State) (scope : Nat) : (s.fenced scope).seat = s.seat := by
  have shown : ((s.performAt s.cur.tile scope).showFenced s.cur 63).seat = s.seat := (State.showFenced_seat ..).trans (s.performAt_seat ..)
  unfold State.fenced
  dsimp only
  split_ifs <;> exact shown

theorem State.fenced_ua (s : State) (scope : Nat) : (s.fenced scope).ua = s.ua := congrArg Prod.snd (s.fenced_seat scope)

/-- A source register reads the same behind a fence. -/
theorem State.fenced_rs (s : State) (scope : Nat) (r : BitVec 5) : (s.fenced scope).rs r = s.rs r := by
  obtain ⟨⟨cur, latch, ctxs⟩, -⟩ : ((s.fenced scope).cur = s.cur ∧ (s.fenced scope).latch = s.latch ∧ (s.fenced scope).ctxs = s.ctxs) ∧
      (s.fenced scope).ua = s.ua := by simpa [State.seat] using s.fenced_seat scope
  rw [State.rs, State.src, State.me, State.ctx, cur, latch, ctxs]
  rfl

/-- A fence over every path passes where it waits for nothing. -/
theorem fence_of_free {s : State} {scope : Nat} (free : s.fenceBusy s.cur 63 scope = false) : fence s 63 scope = .ok (s.fenced scope) := by
  have cur : (s.performAt s.cur.tile scope).cur = s.cur := congrArg (·.1.1) (s.performAt_seat ..)
  have shown : ((s.performAt s.cur.tile scope).showFenced s.cur 63).cur = s.cur := by rw [State.showFenced, State.showAll_cur, cur]
  unfold fence State.fenced
  simp only [fenceMask, free, shown, Bool.false_eq_true, if_false, OfNat.ofNat_ne_zero]

/-! ### Sending (07 R186 to R190) -/

theorem graphAway_iff {g : GraphOp} {pkg : Nat} : graphAway g pkg = true ↔ g.target / 2 ^ 20 ≠ pkg ∧ g.target < 2 ^ 30 := by
  simp [graphAway]

theorem graphAway_eq_false {g : GraphOp} {pkg : Nat} (here : g.target / 2 ^ 20 = pkg ∨ 2 ^ 30 ≤ g.target) : graphAway g pkg = false :=
  Bool.eq_false_iff.mpr fun away => by
    obtain ⟨other, identifier⟩ := graphAway_iff.mp away
    omega

/-- The scope of a graph op's fence. -/
def graphScope (g : GraphOp) (pkg : Nat) : Nat := if graphAway g pkg then 4 else 3

section
variable {s : State} {f : EX}

theorem graphFence_of_free {g : GraphOp} (free : s.fenceBusy s.cur 63 (graphScope g s.ua.pkg) = false) :
    graphFence s g = .ok (s.fenced (graphScope g s.ua.pkg)) :=
  fence_of_free free

/-- A graph op for another package leaves this one, and its result register takes the answer (log 20). -/
theorem State.sendGraph_away {g : GraphOp} {pkg : Nat} (own : s.ua.pkg = pkg) (identifier : g.target < 2 ^ 30) (away : graphAway g pkg = true) :
    s.sendGraph f g = (({ s with outbox := s.outbox ++
      [{ cls := 2, kind := 5, pkg := g.target / 2 ^ 20, srcPkg := pkg, arg := wd (g.target + g.amount * 2 ^ 32) }] } : State).onLaunch
        g.launch (fun l => (l.send (akey s.cur) (b2n (g.kind == 0))).receive (akey s.cur) (b2n (g.kind == 0)))).ws f.rc
          (awayAnswer g.kind (g.target / 2 ^ 20) (Config.freePick s.fc)) := by
  subst own
  unfold State.sendGraph
  dsimp only
  rw [if_neg (Nat.not_le.mpr identifier), if_pos away]

/-- `tdec`, `tsetc` and `tsetc.add` leave behind their fence. -/
theorem settle_graphCount (kind : Nat) (readable : Readable s [f.ra]) {scope : Nat}
    (chosen : graphScope (graphOp s f kind (parF f.par 11 0)) s.ua.pkg = scope) (free : s.fenceBusy s.cur 63 scope = false) :
    settle s (graphCount kind f s) = ran ((s.fenced scope).sendGraph f (graphOp s f kind (parF f.par 11 0))) := by
  subst chosen
  simp only [graphCount, useS_ok readable, graphFence_of_free free, run_bind_ok, settle_ok]

/-- The graph op of a `tspawn` that has read these bytes of its rename table. -/
def spawnOp (s : State) (f : EX) (bs : List (Byte × Bool)) : GraphOp :=
  let word (o : Nat) : Word := wd (leNat (((bs.drop o).take 8).map (·.1)))
  { graphOp s f 3 (parF f.par 11 0) with
    die := if f.par.getLsbD 20 then parF f.par 19 16 else (s.rs f.ra).toNat / 65536 % 16,
    renames := (List.range (f.fn9.toNat % 256)).map (fun i => (word (16 * i), word (16 * i + 8))) }

/-- `tspawn` reads its rename table behind its fence and leaves (07 R187). -/
theorem exec_tspawn {ps : List Place} {v : State} {bs : List (Byte × Bool)} (readable : Readable s [f.ra, f.rb])
    (free : s.fenceBusy s.cur 63 (graphScope (graphOp s f 3 0) s.ua.pkg) = false)
    (checked : checkAll s s.who 1 false (cut (s.rs f.rb) (16 * (f.fn9.toNat % 256))) = .ok ps)
    (loaded : let u := s.fenced (graphScope (graphOp s f 3 0) s.ua.pkg)
      loadPieces u (u.view u.cur) 1 false false (cut (s.rs f.rb) (16 * (f.fn9.toNat % 256))) (s.rs f.rb) = .ok (v, bs)) :
    exec (.tspawn f) s = ran (v.sendGraph f (spawnOp v f bs)) := by
  dsimp only at loaded
  change execTspawn f s = _
  simp only [execTspawn, useS_ok readable, checked, graphFence_of_free free, State.fenced_rs, loaded, run_bind_ok]
  rfl

end

/-! ### At the dispatcher (07 R187 to R190) -/

section
variable {s : State} {m : GraphOp} {k asid : Nat}

theorem State.graphStatus_of_no_record (h : s.slotState k = 0 ∨ 9 ≤ s.slotState k) : s.graphStatus k asid = 5 :=
  if_pos (by simpa using h)

theorem State.graphStatus_of_record (used : 0 < s.slotState k) (task : s.slotState k < 9) :
    s.graphStatus k asid = if asidOf (recRoot (s.record k)) ≠ asid then 2 else 0 :=
  if_neg (by simp; omega)

theorem State.graphStatus_of_other (used : 0 < s.slotState k) (task : s.slotState k < 9) (other : asidOf (recRoot (s.record k)) ≠ asid) :
    s.graphStatus k asid = 2 := (State.graphStatus_of_record used task).trans (if_pos other)

theorem State.graphStatus_of_same (used : 0 < s.slotState k) (task : s.slotState k < 9) (same : asidOf (recRoot (s.record k)) = asid) :
    s.graphStatus k asid = 0 := (State.graphStatus_of_record used task).trans (if_neg (not_not.mpr same))

/-! #### Decrements and sets -/

/-- An op that may not act on its record answers the status. -/
theorem State.applyGraph_of_status (count : m.kind ≠ 3) {st : Nat} (status : s.graphStatus (m.target % 2 ^ 20) m.asid = st) (refused : st ≠ 0) :
    s.applyGraph m = (s, wd st) := by
  subst status
  unfold State.applyGraph
  dsimp only
  rw [if_neg count, if_pos refused]

/-- A decrement acts on a Pending record whose counter holds its amount (07 R188). -/
theorem State.applyGraph_of_dec (dec : m.kind = 0) (acts : s.graphStatus (m.target % 2 ^ 20) m.asid = 0) :
    s.applyGraph m = if recState (s.record (m.target % 2 ^ 20)) ≠ 2 then (s, 4)
      else if recCnt (s.record (m.target % 2 ^ 20)) < m.amount then (s, 3)
      else (s.setCount (m.target % 2 ^ 20) (recCnt (s.record (m.target % 2 ^ 20)) - m.amount), 0) := by
  unfold State.applyGraph
  dsimp only
  rw [if_neg (by omega), if_neg (not_not.mpr acts), if_pos dec]

/-- A set acts on a Pending or an Eligible record, with a count of at most 4,095 (07 R189). -/
theorem State.applyGraph_of_set (notDec : m.kind ≠ 0) (count : m.kind ≠ 3) (acts : s.graphStatus (m.target % 2 ^ 20) m.asid = 0) :
    let r := s.record (m.target % 2 ^ 20)
    let n := if m.kind = 2 then recCnt r + m.amount else m.amount
    s.applyGraph m = if recState r ≠ 2 ∧ recState r ≠ 3 then (s, 4) else if 4095 < n then (s, 3) else (s.setCount (m.target % 2 ^ 20) n, 0) := by
  unfold State.applyGraph
  dsimp only
  rw [if_neg count, if_neg (not_not.mpr acts), if_neg notDec]
  simp

/-! #### Spawns -/

theorem State.applyGraph_spawn (spawn : m.kind = 3) : s.applyGraph m = s.spawn m := if_pos spawn

theorem State.spawn_of_status {st : Nat} (status : s.graphStatus (m.target % 2 ^ 20) m.asid = st) (refused : st ≠ 0) :
    s.spawn m = (s, refusal st) := by
  subst status
  exact if_pos refused

theorem State.spawn_of_no_template (acts : s.graphStatus (m.target % 2 ^ 20) m.asid = 0) (other : s.slotState (m.target % 2 ^ 20) ≠ 1) :
    s.spawn m = (s, refusal 4) := (if_neg (not_not.mpr acts)).trans (if_pos other)

section
variable (acts : s.graphStatus (m.target % 2 ^ 20) m.asid = 0) (template : s.slotState (m.target % 2 ^ 20) = 1)
include acts template

theorem State.spawn_of_full (full : s.allocMany m.die (((s.blocksOf (m.target % 2 ^ 20)).map s.record).length + 1) = none) :
    s.spawn m = (s, refusal 1) := by
  unfold State.spawn
  dsimp only
  rw [if_neg (not_not.mpr acts), if_neg (not_not.mpr template), full]

/-- A template with slots for its task and its blocks makes a task, unless the record made is refused (07 R187, 11 R322). -/
theorem State.spawn_of_slots {v : State} {j : Nat} {js : List Nat}
    (slots : s.allocMany m.die (((s.blocksOf (m.target % 2 ^ 20)).map s.record).length + 1) = some (v, j :: js)) :
    let n := spawnRecord m (s.record (m.target % 2 ^ 20)) js.head?
    let w := ((v.putBlocks m.renames ((s.blocksOf (m.target % 2 ^ 20)).map s.record) js).setRecord j n).setTask j { owner := m.launch }
    s.spawn m = if (s.refuses j n).isSome then (s, refusal 4) else (if m.amount = 0 then w.countZero j else w, wd (s.tid j)) := by
  unfold State.spawn
  dsimp only
  rw [if_neg (not_not.mpr acts), if_neg (not_not.mpr template), slots]
  rfl

end
end

/-! ### Decrements that arrive (11 R325, 23 R471) -/

/-- What a launch counts changes the launches alone. -/
theorem State.onLaunch_eq (s : State) (id : Option Nat) (f : Launch → Launch) : ∃ ls, s.onLaunch id f = { s with launches := ls } := by
  unfold State.onLaunch
  split
  · exact ⟨_, rfl⟩
  · split <;> exact ⟨_, rfl⟩

section
variable {s : State} {target : Nat} {sender : DecSender}

/-- A decrement goes by the slot it names, as the state before its launch counted it shows. -/
theorem exec_decrementArrival : let k := target % 2 ^ 20
    let u := s.onLaunch sender.launch (fun l => l.receive (dieKey (k / 65536)) 1)
    exec (.decrementArrival target sender) s =
      if s.slotState k = 2 ∧ recCnt (s.record k) ≠ 0 then .next (u.setCount k (recCnt (s.record k) - 1))
      else .next (u.report none { cls := 2, reach := 1, detail := [(64, 1, 1), (68, 4, sender.id), (72, 4, target), (76, 1, s.slotState k)] }) := by
  intro k u
  obtain ⟨ls, counted⟩ := s.onLaunch_eq sender.launch (fun l => l.receive (dieKey (k / 65536)) 1)
  have slot : u.slotState k = s.slotState k := (congrArg (State.slotState · k) counted :)
  have record : u.record k = s.record k := (congrArg (State.record · k) counted :)
  have act : exec (.decrementArrival target sender) s =
      if u.slotState k = 2 && recCnt (u.record k) ≠ 0 then .next (u.setCount k (recCnt (u.record k) - 1))
      else .next (u.report none { cls := 2, reach := 1, detail := [(64, 1, 1), (68, 4, sender.id), (72, 4, target), (76, 1, u.slotState k)] }) := rfl
  rw [act, slot, record]
  simp only [Bool.and_eq_true, decide_eq_true_eq]

end

/-- Settles O44: the three ops that count and `tspawn` behind their fence, the dispatcher by the status of the record, a decrement by its slot. -/
theorem graphResults : Obligations.GraphResults := by
  refine ⟨⟨fun s f => ?issue, fun s m => ?dispatcher⟩, fun s target sender => ?arrival⟩
  case issue =>
    intro free h n sent away
    refine ⟨fun readable => ⟨fun unfenced here => ?near, fun unfenced other identifier => ?far⟩,
      fun ps readable unfenced checked => ?spawn, fun u g => ?send⟩
    case near =>
      have near (kind : Nat) : graphAway (graphOp s f kind n) s.ua.pkg = false := graphAway_eq_false here
      have issued (kind : Nat) : settle s (graphCount kind f s) = ran ((s.fenced 3).sendGraph f (graphOp s f kind n)) :=
        settle_graphCount kind readable (if_neg (ne_true_of_eq_false (near kind))) unfenced
      have near' (kind : Nat) : graphAway (graphOp s f kind n) (s.fenced 3).ua.pkg = false := by rw [State.fenced_ua, near]
      refine ⟨fun identifier => ⟨?_, ?_, ?_⟩, fun none => ⟨?_, ?_, ?_⟩⟩
      · exact (issued 0).trans (congrArg ran (sendGraph_here identifier (near' 0)))
      · exact (issued 1).trans (congrArg ran (sendGraph_here identifier (near' 1)))
      · exact (issued 2).trans (congrArg ran (sendGraph_here identifier (near' 2)))
      · exact (issued 0).trans (congrArg ran (sendGraph_none none))
      · exact (issued 1).trans (congrArg ran (sendGraph_none none))
      · exact (issued 2).trans (congrArg ran (sendGraph_none none))
    case far =>
      have far (kind : Nat) : graphAway (graphOp s f kind n) s.ua.pkg = true := graphAway_iff.mpr ⟨other, identifier⟩
      have issued (kind : Nat) : settle s (graphCount kind f s) = ran (away (s.fenced 4) (graphOp s f kind n)) := by
        rw [settle_graphCount kind readable (if_pos (far kind)) unfenced,
          State.sendGraph_away (g := graphOp s f kind n) (congrArg Ualink.pkg (s.fenced_ua 4)) identifier (far kind)]
        rfl
      exact ⟨issued 0, issued 1, issued 2⟩
    case spawn =>
      intro u v bs loaded
      have behind : u = s.fenced (graphScope (graphOp s f 3 0) s.ua.pkg) := by
        unfold graphScope
        cases away : graphAway (graphOp s f 3 0) s.ua.pkg <;> simp only [u, away] <;> rfl
      exact ⟨spawnOp v f bs, exec_tspawn readable unfenced checked (behind ▸ loaded), rfl, rfl, rfl, rfl, rfl, by simp [spawnOp], rfl⟩
    case send =>
      refine ⟨fun none => ?_, fun here identifier => sendGraph_here identifier (graphAway_eq_false (.inl here))⟩
      rw [sendGraph_none none]
      rfl
  case dispatcher =>
    intro k r st u
    refine ⟨fun dec => ?applied, fun count => ?applied', fun count => ⟨?absent, ?foreign, fun used task same => ?counted⟩,
      fun spawn => ⟨?noTask, ?foreignTask, ?noTemplate, fun template same => ?spawned⟩,
      fun small => ⟨recState_spawnRecord m r, (recCnt_spawnRecord m r).trans (Nat.mod_eq_of_lt (by omega))⟩⟩
    case applied =>
      change execGraphOpArrival m s = _
      rw [execGraphOpArrival, if_pos dec]
    case applied' =>
      change execGraphOpArrival m s = _
      rw [execGraphOpArrival, if_neg count]
    case absent => exact fun h => State.applyGraph_of_status count (State.graphStatus_of_no_record h) (by decide)
    case foreign => exact fun used task other => State.applyGraph_of_status count (State.graphStatus_of_other used task other) (by decide)
    case counted =>
      have acts := State.graphStatus_of_same used task same
      have settles (settable : recState r = 2 ∨ recState r = 3) : ¬(recState r ≠ 2 ∧ recState r ≠ 3) := fun h => settable.elim h.1 h.2
      refine ⟨fun dec pending short => ?_, fun dec pending enough => ?_, fun dec other => ?_, fun notDec other other' => ?_,
        fun set settable small => ?_, fun add settable small => ?_, fun add settable large => ?_⟩
      · rw [State.applyGraph_of_dec dec acts, if_neg (not_not.mpr pending), if_pos short]
      · rw [State.applyGraph_of_dec dec acts, if_neg (not_not.mpr pending), if_neg (Nat.not_lt.mpr enough)]
      · rw [State.applyGraph_of_dec dec acts, if_pos other]
      · rw [State.applyGraph_of_set notDec count acts, if_pos ⟨other, other'⟩]
      · rw [State.applyGraph_of_set (by omega) count acts, if_neg (settles settable), if_neg (by omega : m.kind ≠ 2), if_neg (Nat.not_lt.mpr small)]
      · rw [State.applyGraph_of_set (by omega) count acts, if_neg (settles settable), if_pos add, if_neg (Nat.not_lt.mpr small)]
      · rw [State.applyGraph_of_set (by omega) count acts, if_neg (settles settable), if_pos add, if_pos large]
    case noTask =>
      exact fun h => (State.applyGraph_spawn spawn).trans (State.spawn_of_status (State.graphStatus_of_no_record h) (by decide))
    case foreignTask =>
      exact fun used task other =>
        (State.applyGraph_spawn spawn).trans (State.spawn_of_status (State.graphStatus_of_other used task other) (by decide))
    case noTemplate =>
      exact fun used task same other =>
        (State.applyGraph_spawn spawn).trans (State.spawn_of_no_template (State.graphStatus_of_same used task same) other)
    case spawned =>
      have acts : s.graphStatus k m.asid = 0 := State.graphStatus_of_same (by omega) (by omega) same
      rw [State.applyGraph_spawn spawn]
      refine ⟨State.spawn_of_full acts template, fun v j js slots => ?_⟩
      have made := State.spawn_of_slots acts template slots
      exact ⟨fun refused => made.trans (if_pos refused), fun accepted => made.trans (if_neg (by rw [accepted]; decide))⟩
  case arrival =>
    intro k u st
    refine ⟨fun pending count => ?_, fun refused => ?_⟩
    · exact exec_decrementArrival.trans (if_pos ⟨pending, count⟩)
    · exact exec_decrementArrival.trans (if_neg fun h => refused.elim (· h.1) h.2)

end Sys2Proof.Machine
end

section
/-! SUPPORT. Scalar loads and stores: the value of a loaded word by its size code, and each form by the access it makes. -/

namespace Sys2Proof.Machine

/-! ### Loaded values (08 R200) -/

theorem wd_bitsOfInt (x : Int) : wd (bitsOfInt 64 x) = BitVec.ofInt 64 x := by
  apply BitVec.eq_of_toNat_eq
  have below : (x % (2 ^ 64 : Nat)).toNat < 2 ^ 64 := by omega
  rw [BitVec.toNat_ofInt, wd, BitVec.toNat_ofNat, bitsOfInt, Nat.mod_eq_of_lt below]

theorem intOf_eq_toInt {w : Nat} (positive : 0 < w) (x : Nat) : intOf true w (x % 2 ^ w) = (BitVec.ofNat w x).toInt := by
  obtain ⟨n, rfl⟩ := Nat.exists_eq_add_one.mpr positive
  rw [BitVec.toInt_eq_toNat_cond, BitVec.toNat_ofNat, intOf, Nat.add_sub_cancel, Nat.pow_succ]
  generalize x % (2 ^ n * 2) = y
  simp only [Bool.true_and, decide_eq_true_eq, ge_iff_le]
  split_ifs <;> omega

/-- An even size code sign-extends the bytes read. -/
theorem shape_of_even {size : Nat} (even : size % 2 = 0) (x : Nat) : shape size x = (BitVec.ofNat (8 * sizeBytes size) x).signExtend 64 := by
  have positive : 0 < 8 * sizeBytes size := by unfold sizeBytes; split_ifs <;> omega
  rw [shape, if_pos even, wd_bitsOfInt, intOf_eq_toInt positive, BitVec.signExtend]

/-- An odd size code zero-extends them. -/
theorem shape_of_odd {size x : Nat} (odd : size % 2 = 1) (inside : x < 2 ^ (8 * sizeBytes size)) :
    shape size x = (BitVec.ofNat (8 * sizeBytes size) x).setWidth 64 := by
  apply BitVec.eq_of_toNat_eq
  rw [shape, if_neg (by omega), BitVec.toNat_setWidth, BitVec.toNat_ofNat, Nat.mod_eq_of_lt inside, wd, BitVec.toNat_ofNat]

/-! ### The pair forms -/

section
variable {s : State} {f : CM} {i : Instr} {size : Nat}

/-- A pair form on bytes has its displacement as it stands. -/
theorem eaCM_byte (f : CM) (s : State) : eaCM f 1 s = s.rs f.ra + f.off.signExtend 64 := congrArg (s.rs f.ra + ·) (BitVec.mul_one _)

theorem loadCM_loads (free : TokensFree s f.kw f.kp) (readable : Readable s [f.ra]) (runs : exec i s = settle s (loadCM size f s)) :
    LoadsScalar s i (s.view s.cur) size 0 0 f.kw f.rd (eaCM f (sizeBytes size) s) :=
  loadScalar_loads (h1 := free) (h2 := readable) (hi := runs)

theorem storeCM_stores (free : TokensFree s f.kw f.kp) (readable : Readable s [f.ra, f.rd]) (runs : exec i s = settle s (storeCM size f s)) :
    StoresScalar s i false size 0 0 f.kw f.rd (eaCM f (sizeBytes size) s) :=
  storeScalar_stores (h1 := free) (h2 := readable) (hi := runs)

end

/-- Settles O16: each form by its access, the extension by the parity of the size code. -/
theorem scalarAccessResults : Obligations.ScalarAccessResults := by
  refine ⟨fun s => ⟨fun f free readable => ?_, fun f free readable => ?_, fun f free readable => ?_⟩,
    fun x => ⟨fun inside => ?_, fun inside => ?_, fun inside => ?_, fun _ => ?_⟩,
    fun s => ⟨fun f free readable => ?_, fun f free readable => ?_, fun f free readable => ?_⟩⟩
  · rw [← eaCM_byte]
    exact ⟨loadCM_loads free readable rfl, loadCM_loads free readable rfl, loadCM_loads free readable rfl, loadCM_loads free readable rfl,
      loadCM_loads free readable rfl, loadCM_loads free readable rfl, loadCM_loads free readable rfl⟩
  · exact loadScalar_loads (h1 := free) (h2 := readable) (hi := rfl)
  · exact loadScalar_loads (h1 := free) (h2 := readable) (hi := rfl)
  · exact ⟨shape_of_even rfl x, shape_of_odd rfl inside⟩
  · exact ⟨shape_of_even rfl x, shape_of_odd rfl inside⟩
  · exact ⟨shape_of_even rfl x, shape_of_odd rfl inside⟩
  · exact (shape_of_even rfl x).trans (BitVec.signExtend_eq _)
  · rw [← eaCM_byte]
    exact ⟨storeCM_stores free readable rfl, storeCM_stores free readable rfl, storeCM_stores free readable rfl, storeCM_stores free readable rfl⟩
  · exact storeScalar_stores (h1 := free) (h2 := readable) (hi := rfl)
  · exact storeScalar_stores (h1 := free) (h2 := readable) (hi := rfl)

/-! ### Misalignment (08 R196, 21 R432) -/

section
variable {s : State} {f : CM} {size : Nat} {a : Word}

theorem loadCM_trap (free : TokensFree s f.kw f.kp) (readable : Readable s [f.ra])
    (misaligned : (eaCM f (sizeBytes size) s).toNat % sizeBytes size ≠ 0) :
    settle s (loadCM size f s) = trapped s ⟨7, 0x3002, BitVec.ofNat 10 (sizeBytes size).log2, eaCM f (sizeBytes size) s, none⟩ := by
  simp only [loadCM, loadScalar, useTok_ok free, useS_ok readable, aligned_trap misaligned, run_bind_ok, run_bind_error, settle_trap]

theorem storeCM_trap (free : TokensFree s f.kw f.kp) (readable : Readable s [f.ra, f.rd])
    (misaligned : (eaCM f (sizeBytes size) s).toNat % sizeBytes size ≠ 0) :
    settle s (storeCM size f s) = trapped s ⟨7, 0x3002, BitVec.ofNat 10 (sizeBytes size).log2, eaCM f (sizeBytes size) s, none⟩ := by
  simp only [storeCM, storeScalar, useTok_ok free, useS_ok readable, aligned_trap misaligned, run_bind_ok, run_bind_error, settle_trap]

theorem checkAtomic_trap {n : Nat} (misaligned : a.toNat % n ≠ 0) :
    checkAtomic s a n = .error (.trap ⟨7, 0x3002, BitVec.ofNat 10 n.log2, a, none⟩) := by
  simp only [checkAtomic, aligned_trap misaligned, run_bind_error]

end

/-- Settles O17: the alignment is the first test behind the tokens and the source registers. -/
theorem misalignedAccessTraps : Obligations.MisalignedAccessTraps := by
  refine fun s a => ⟨fun f free readable => ?_, fun f readable at_a misaligned => ?_⟩
  · have base : Readable s [f.ra] := fun r h => readable r (List.mem_cons.mpr (.inl (List.mem_singleton.mp h)))
    exact ⟨fun odd => ⟨loadCM_trap (size := 2) free base odd, storeCM_trap (size := 2) free readable odd⟩,
      fun odd => ⟨loadCM_trap (size := 4) free base odd, storeCM_trap (size := 4) free readable odd⟩,
      fun odd => ⟨loadCM_trap (size := 6) free base odd, storeCM_trap (size := 6) free readable odd⟩⟩
  · subst at_a
    change settle s (amoOp 0 f s) = _
    simp only [amoOp, amoCR, atomic, useS_ok readable, checkAtomic_trap misaligned, run_bind_ok, run_bind_error, settle_trap]
    rfl

end Sys2Proof.Machine
end

section
/-! SUPPORT. Vector accesses: loads, stores, and the strided and indexed forms by their lane addresses. -/

namespace Sys2Proof.Machine

/-! ### Vector loads and stores (08 R201, R202) -/

section
variable {s : State} {i : Instr} {kw kp : BitVec 3} {srcs : List (BitVec 5)} {vd : BitVec 5} {a : Word}

theorem vecLoadTests_ok (free : TokensFree s kw kp) (context : s.cur.isAwn = false) (readable : Readable s srcs)
    (unbound : (s.src.bind vd.toNat).bound = false) : vecLoadTests s kw kp srcs vd = .ok () := by
  simp [vecLoadTests, useTok_ok free, notAwn_ok context, useS_ok readable, unbound]

theorem loadV_loads {v : View} {ord scope : Nat} (free : TokensFree s kw kp) (context : s.cur.isAwn = false) (readable : Readable s srcs)
    (unbound : (s.src.bind vd.toNat).bound = false) (runs : exec i s = settle s (loadV s v ord scope kw kp srcs vd a)) :
    LoadsVector s i v ord scope kw vd a := by
  intro t d served
  rw [runs]
  simp only [loadV, vecLoadTests_ok free context readable unbound, served, run_bind_ok, settle_ok]

theorem storeV_stores {fe : Bool} {ord scope : Nat} (free : TokensFree s kw kp) (context : s.cur.isAwn = false) (readable : Readable s srcs)
    (runs : exec i s = settle s (storeV s fe ord scope kw kp srcs vd a)) : StoresVector s i fe ord scope kw vd a := by
  intro u used strips
  rw [runs]
  refine ⟨fun plain alignment pl s1 t checked released stored => ?raw,
    fun d decodes alignment pl rl s1 s2 rb s3 checked records released ahead stored => ?encoded⟩
  case raw =>
    simp only [storeV, useTok_ok free, notAwn_ok context, useS_ok readable, used, plain, aligned_ok alignment, checked, strips, released,
      storePieces_ok stored, run_bind_ok, settle_ok]
  case encoded =>
    simp only [storeV, useTok_ok free, notAwn_ok context, useS_ok readable, used, decodes, aligned_ok alignment, checked, records, strips, released,
      ahead, run_bind_ok]
    rw [storeChecked_ok stored]
    rfl

end

/-! ### Strided and indexed accesses (08 R203 to R205) -/

section
variable {s : State} {f : MX} {as : List Word} {pl : List Place}

/-- The lanes of a strided or indexed load that passes its tests are outstanding for its destination. -/
theorem loadLanes_ok {t : State} {bs : List (Byte × Bool)} (checked : as.mapM (checkLane s (s.view s.cur) 1) = .ok pl)
    (loaded : loadChecked s (s.view s.cur) (podRead f.ord.toNat f.scope.toNat) none ((as.map (fun a => (a, 4))).zip pl) = .ok (t, bs)) :
    loadLanes s f as =
      .ok ((acquire t f.ord.toNat f.scope.toNat).issuePost 0 f.kw (vectorDst f.rc (fun j => (as[j]?).getD 0) bs)) := by
  simp only [loadLanes, checked, loaded, run_bind_ok]
  rfl

/-- The lanes of a strided or indexed store that passes its tests are written in order. -/
theorem storeLanes_ok {u t : State} (checked : as.mapM (checkLane s .now 2) = .ok pl) (strips : stripsOk s [f.rc] = .ok ())
    (released : release s f.ord.toNat f.scope.toNat = .ok u)
    (stored : StoresPlaces u false f.kw [] ((as.map (fun a => (a, 4))).zip pl) [] none (vBytes (u.rv f.rc)) [] t) :
    storeLanes s f as = .ok t := by
  simp only [storeLanes, checked, strips, released, storeChecked_ok stored, run_bind_ok]

end

/-- Settles O20: each form by its access; of the strided and indexed ones by the lanes' addresses. -/
theorem vectorAccessResults : Obligations.VectorAccessResults := by
  refine ⟨fun s context => ⟨fun f free base => ?pair, fun f free base => ?lone, fun f free readable unbound => ?snapshot,
    fun f free base => ?fullEmpty⟩, fun s f context free base => ?lanes⟩
  case pair => exact ⟨fun unbound => loadV_loads free context base unbound rfl, storeV_stores free context base rfl⟩
  case lone => exact ⟨fun unbound => loadV_loads free context base unbound rfl, storeV_stores free context base rfl⟩
  case snapshot => exact loadV_loads free context readable unbound rfl
  case fullEmpty => exact storeV_stores free context base rfl
  case lanes =>
    have both (stride : Readable s [f.rb]) : Readable s [f.ra, f.rb] := base.append stride
    refine ⟨fun stride unbound pl t bs checked loaded => ?vlds, fun stride u used pl s1 t checked strips released stored => ?vsts,
      fun u used unbound index pl t bs checked loaded => ?vldx, fun u used index pl s1 t checked strips released stored => ?vstx⟩
    case vlds =>
      change settle s (vecLoadTests s f.kw f.kp [f.ra, f.rb] f.rc >>= fun _ => loadLanes s f (strideAddrs f s)) = _
      rw [vecLoadTests_ok free context (both stride) unbound, run_bind_ok]
      exact congrArg (settle s) (loadLanes_ok checked loaded)
    case vsts =>
      change execVsts f s = _
      simp only [execVsts, useTok_ok free, notAwn_ok context, useS_ok (both stride), used, run_bind_ok]
      exact congrArg (settle s) (storeLanes_ok checked strips released stored)
    case vldx =>
      change execVldx f s = _
      simp only [execVldx, useTok_ok free, notAwn_ok context, useS_ok base, used, unbound, Bool.not_false, need_true, index, run_bind_ok]
      exact congrArg (settle s) (loadLanes_ok checked loaded)
    case vstx =>
      change execVstx f s = _
      simp only [execVstx, useTok_ok free, notAwn_ok context, useS_ok base, used, index, run_bind_ok]
      exact congrArg (settle s) (storeLanes_ok checked strips released stored)

end Sys2Proof.Machine
end

section
/-! SUPPORT. Full-empty loads: the read of the granules of a range, and what its destination takes. -/

namespace Sys2Proof.Machine

/-! ### The read (08 R206, R207) -/

section
variable {s : State} {i : Instr} {r : FeRead} {pl rl : List Place}

theorem State.feTouch_agent (s : State) (r : FeRead) : ((s.feTouch r).cur, (s.feTouch r).ctxs) = (s.cur, s.ctxs) := by
  unfold State.feTouch
  split_ifs
  · rfl
  · refine foldl_leaves (fun u => (u.cur, u.ctxs)) _ (fun u g => ?_) _ s
    rfl

theorem State.feTouch_cur (s : State) (r : FeRead) : (s.feTouch r).cur = s.cur := congrArg Prod.fst (s.feTouch_agent r)

/-- An op that is `feRead` reads full-empty. -/
theorem feRead_reads (runs : exec i s = settle s (feRead s r pl rl)) : ReadsFullEmpty s i r pl rl := by
  intro reached
  rw [s.feTouch_cur r]
  refine ⟨fun all records => ?_, fun rest => ?_⟩
  · simp only [runs, feRead, reached, all, records, run_bind_ok, if_true, settle_ok]
  · simp only [runs, feRead, reached, rest, run_bind_ok, Bool.false_eq_true, if_false, settle_wait]

/-- A full-empty read of one granule that is not full takes nothing and waits. -/
theorem ReadsFullEmpty.waits_of_empty {g : Nat} (reads : ReadsFullEmpty s i r pl []) (wf : s.tiles.wf {} = true) (one : granRange r.off r.len = [g])
    (resident : reside s s.cur.tile pl r.addr = .ok ()) (empty : (s.tile s.cur.tile).granFull r.win g = false)
    (untaken : s.me.feTaken.find (granKey r.win g) = none) :
    exec i s = waits (s.setTile s.cur.tile ((s.tile s.cur.tile).touch (pkey r.win (g / 2048)))) (.fullEmpty r) := by
  have notAll : s.me.allTaken r.win r.off r.len = false := by simp [Ctx.allTaken, one, untaken]
  have touched : s.feTouch r = s.setTile s.cur.tile ((s.tile s.cur.tile).touch (pkey r.win (g / 2048))) := by simp [State.feTouch, notAll, one]
  have still : ((s.feTouch r).tile s.cur.tile).granFull r.win g = false := by
    rw [touched, State.tile_setTile s wf, if_pos rfl]
    exact empty
  have nothing : (s.feTouch r).takeGranules (s.feTouch r).cur r.clr r.win r.off r.len = s.feTouch r := by
    simp [State.takeGranules, one, State.feTouch_cur, still]
  have me : (s.feTouch r).me = s.me := by rw [touched]; rfl
  have reached : reside s s.cur.tile (if s.me.allTaken r.win r.off r.len then [] else pl) r.addr = .ok () := by simpa [notAll] using resident
  obtain ⟨-, waiting⟩ := reads reached
  rw [nothing, me] at waiting
  rw [waiting notAll, touched]
  rfl

end

/-! ### The ops (08 R202, R206) -/

section
variable {s : State} {f : MX} {i : Instr} {clr : Bool}

theorem ldFe_loads (tokens : TokensFree s f.kw f.kp) (base : Readable s [f.ra]) (runs : exec i s = settle s (ldFe clr f s)) :
    LoadsFullEmpty s i (feOf clr f (eaMX f s) (sizeBytes f.size.toNat)) (sizeBytes f.size.toNat) (sizeBytes f.size.toNat) := by
  intro (alignment : (eaMX f s).toNat % sizeBytes f.size.toNat = 0) pl (range : checkAll s s.who 1 true (cut (eaMX f s) _) = .ok pl)
  refine feRead_reads (runs.trans ?_)
  rw [ldFe, useTok_ok tokens, useS_ok base]
  simp only [run_bind_ok, aligned_ok alignment, range]

theorem vldFe_loads (tokens : TokensFree s f.kw f.kp) (base : Readable s [f.ra]) (context : s.cur.isAwn = false)
    (unbound : (s.src.bind f.rc.toNat).bound = false) (plain : s.decodeAt s.cur.tile (eaMX f s) = none)
    (runs : exec i s = settle s (vldFe clr f s)) : LoadsFullEmpty s i { feOf clr f (eaMX f s) 256 with size := 7 } 256 16 := by
  intro (alignment : (eaMX f s).toNat % 16 = 0) pl (range : checkAll s s.who 1 true (cut (eaMX f s) 256) = .ok pl)
  refine feRead_reads (runs.trans ?_)
  simp only [vldFe, vecLoadTests_ok tokens context base unbound, run_bind_ok, plain, aligned_ok alignment, range]

theorem vldFe_decodes {d : DecodeAt} (tokens : TokensFree s f.kw f.kp) (base : Readable s [f.ra]) (context : s.cur.isAwn = false)
    (unbound : (s.src.bind f.rc.toNat).bound = false) (decodes : s.decodeAt s.cur.tile (eaMX f s) = some d)
    (runs : exec i s = settle s (vldFe clr f s)) : DecodesFullEmpty s i { feOf clr f (eaMX f s) d.len with size := 7 } d := by
  intro (alignment : (eaMX f s).toNat % d.len = 0) pl rl (range : checkAt s s.who (eaMX f s) 1 true (cut (eaMX f s) d.len) = .ok pl)
    (scales : checkAt s s.who (eaMX f s) 1 false (cut d.recAddr d.recLen) = .ok rl)
  refine feRead_reads (runs.trans ?_)
  simp only [vldFe, vecLoadTests_ok tokens context base unbound, run_bind_ok, decodes, aligned_ok alignment, range, scales]
  rfl

end

/-! ### The destination (08 R207, 03 R67) -/

section
variable {s : State} {r : FeRead}

/-- A decoding read whose bank still has a format of as many bytes gives the elements by the scale records found. -/
theorem State.feLanes_of_decoding {d : DecodeAt} {bs : List (Byte × Bool)} (decoding : r.dec = true) (format : s.decodeAt s.cur.tile r.addr = some d)
    (same : d.len = r.len) :
    let l := d.load (isV s.cur.tile) bs (((s.tile s.cur.tile).seenBy s.path).spRead d.win d.recOff d.recLen) s.rm
    s.feLanes r bs = (s.countV (l.map (·.2.2)), .v r.rc (vOfLanes (fun j => BitVec.ofNat 32 ((l[j]?).getD (0, false, none)).1))
      (poisLanes (l.map (·.2.1)) (fun j => r.addr + wd (j * tyWidth (fmtTy d.fmt) / 8)))) := by
  simp only [State.feLanes, decoding, format, Option.filter, same, beq_self_eq_true, Bool.not_true, Bool.false_eq_true, if_false, if_true]

theorem State.feLanes_of_raw {bs : List (Byte × Bool)} (raw : r.dec = false) : s.feLanes r bs =
    (s, .v r.rc (BitVec.ofNat 2048 (leNat (bs.map (·.1))))
      (poisLanes ((List.range 64).map (fun j => ((bs.drop (4 * j)).take 4).any (·.2))) (fun j => r.addr + wd (4 * j)))) := by
  simp only [State.feLanes, raw, Bool.not_false, if_true]

/-- The state in which a full-empty read that has all its granules gives them up. -/
def State.feGiven (s : State) (r : FeRead) : State := acquire (s.setMe (s.me.dropTaken r.win r.off r.len)) r.ord r.scope

theorem State.feLand_of_vector (vector : r.size = 7) : s.feLand r =
    ((s.feGiven r).feLanes r (s.me.taken r.win r.off r.len)).1.setMe
      (((s.feGiven r).feLanes r (s.me.taken r.win r.off r.len)).1.me.putDst ((s.feGiven r).feLanes r (s.me.taken r.win r.off r.len)).2) :=
  if_neg (by omega)

/-- The granule of 8 aligned bytes. -/
theorem granRange_of_aligned {a : Word} (alignment : a.toNat % 8 = 0) : granRange (offset a) 8 = [offset a / 16 * 16] := by
  have one : (offset a + 8 + 15) / 16 - offset a / 16 = 1 := by unfold offset; omega
  simp [granRange, granules, one]

end

/-- Settles O21: each load by its read, its destination by its size; on one empty granule nothing is taken. -/
theorem fullEmptyResults : Obligations.FullEmptyResults := by
  refine ⟨fun s f tokens base => ?loads, fun s f win pl tokens base double wf => ?empty⟩
  case loads =>
    intro a size r
    refine ⟨ldFe_loads tokens base rfl, ldFe_loads tokens base rfl, fun context unbound => ⟨fun plain => ?_, fun d decodes => ?_⟩, fun u q => ?land⟩
    · exact ⟨vldFe_loads tokens base context unbound plain rfl, vldFe_loads tokens base context unbound plain rfl⟩
    · exact ⟨vldFe_decodes tokens base context unbound decodes rfl, vldFe_decodes tokens base context unbound decodes rfl⟩
    case land =>
      refine ⟨fun scalar => if_pos scalar, fun vector raw => ?_, fun vector decoding d format same => ?_⟩
      · rw [State.feLand_of_vector vector, State.feLanes_of_raw raw]
        rfl
      · rw [State.feLand_of_vector vector, State.feLanes_of_decoding (s := u.feGiven q) decoding format same]
        rfl
  case empty =>
    intro a alignment window checked resident empty untaken t r
    have bytes : sizeBytes f.size.toNat = 8 := by rw [double]; rfl
    have read (clr : Bool) : feOf clr f (eaMX f s) 8 = r clr := by rw [feOf, show windowOf (eaMX f s) = some win from window, double]; rfl
    have page : offset a / 16 * 16 / 2048 = offset a / 2048 := by omega
    have wait {i : Instr} (clr : Bool) (runs : exec i s = settle s (ldFe clr f s)) : exec i s = waits t (.fullEmpty (r clr)) := by
      have loads := ldFe_loads tokens base runs
      rw [bytes, read] at loads
      have waiting := (loads alignment pl checked).waits_of_empty wf (granRange_of_aligned alignment) resident empty untaken
      rwa [page] at waiting
    exact ⟨wait false rfl, wait true rfl⟩

end Sys2Proof.Machine
end

section
/-! SUPPORT. Atomics of every form: the pair and lone forms by their one access, the vector forms by their lanes, and each function of the table. -/

namespace Sys2Proof.Machine

/-! ### The access (08 R213, R218) -/

@[simp] theorem State.askHome_me (s : State) (p : Place) : (s.askHome p).me = s.me := by
  cases p with
  | glob va l => unfold State.askHome State.askHandler; dsimp only; split_ifs <;> rfl
  | sp win page off => rfl
  | edge i win page off => rfl

section
variable {s : State} {a : Word} {n : Nat} {p : Place} {fn : Nat → Nat}

theorem atomic_of_busy (checked : checkAtomic s a n = .ok p) (resident : reside s s.cur.tile [p] a = .ok ()) (busy : s.homeBusy p = true) :
    atomic s a n fn = .error (.wait (s.homeWait p) (s.askHome p)) := by
  simp only [atomic, checked, resident, busy, run_bind_ok, if_true]

theorem atomic_of_free (checked : checkAtomic s a n = .ok p) (resident : reside s s.cur.tile [p] a = .ok ()) (free : s.homeBusy p = false) :
    atomic s a n fn = .ok (atomicAt s n p fn) := by
  simp only [atomic, checked, resident, free, run_bind_ok, Bool.false_eq_true, if_false]

end

/-! ### The forms (08 R214, R215, R217) -/

theorem amoCR_pairAtomic {s : State} {f : CR} {i : Instr} {srcs : List (BitVec 5)} {fn gn : Nat → Nat} (readable : Readable s srcs)
    (runs : exec i s = settle s (amoCR srcs fn f s)) (function : fn = gn) : PairAtomic s i f gn := by
  subst function
  intro p checked resident
  refine ⟨fun busy => ?_, fun free => ?_⟩
  · simp only [runs, amoCR, useS_ok readable, atomic_of_busy checked resident busy, run_bind_ok, run_bind_error, settle_wait, waits, State.waitOn,
      State.askHome_me]
  · simp only [runs, amoCR, useS_ok readable, atomic_of_free checked resident free, run_bind_ok]
    rfl

theorem amoMX_loneAtomic {s : State} {f : MX} {i : Instr} {srcs : List (BitVec 5)} {n sz : Nat} {fn gn : Nat → Nat} (tokens : TokensFree s f.kw f.kp)
    (readable : Readable s srcs) (runs : exec i s = settle s (amoMX srcs n sz fn f s)) (function : fn = gn) : LoneAtomic s i f n sz gn := by
  subst function
  intro p0 u p first released checked resident
  refine ⟨fun busy => ?_, fun free => ?_⟩
  · simp only [runs, amoMX, useTok_ok tokens, useS_ok readable, first, released, atomic_of_busy checked resident busy, run_bind_ok, run_bind_error,
      settle_wait]
  · simp only [runs, amoMX, useTok_ok tokens, useS_ok readable, first, released, atomic_of_free checked resident free, run_bind_ok]
    rfl

theorem vamo_vectorAtomic {s : State} {f : MX} {i : Instr} {code : Nat} (context : s.cur.isAwn = false) (tokens : TokensFree s f.kw f.kp)
    (readable : Readable s [f.ra]) (runs : exec i s = settle s (vamo code f s)) : VectorAtomic s i f code := by
  intro s0 pl s1 s2 r used unbound strips as alignment checked released performed
  simp only [runs, vamo, useTok_ok tokens, notAwn_ok context, useS_ok readable, used, unbound, Bool.not_false, need_true, aligned_ok alignment, strips,
    run_bind_ok]
  simp only [show (List.range 64).map (fun j => eaMX f s0 + wd (4 * j)) = as from rfl, checked, released, performed, run_bind_ok]
  rfl

/-! ### The functions (08 Table — Atomic functions) -/

theorem intOf_eq_signedOf (w x : Nat) : intOf true w x = signedOf w x := by
  by_cases below : x < 2 ^ (w - 1)
  · simp [intOf, signedOf, below]
  · simp [intOf, signedOf, below]

theorem amoFn_min (w old b : Nat) : amoFn 4 w old b = if signedOf w old ≤ signedOf w b then old else b := by
  simp only [amoFn, intOf_eq_signedOf]

theorem amoFn_max (w old b : Nat) : amoFn 5 w old b = if signedOf w old ≤ signedOf w b then b else old := by
  simp only [amoFn, intOf_eq_signedOf]

/-- Settles O22: each op by its form, and its function by its code. -/
theorem atomicResults : Obligations.AtomicResults := by
  refine ⟨fun s f readable => ?pair, fun s f tokens readable => ?lone, fun s f context tokens base => ?vector⟩
  case pair =>
    have op {i : Instr} (code : Nat) {gn : Nat → Nat} (runs : exec i s = settle s (amoOp code f s))
        (function : (fun old => amoFn code 64 old (s.rs f.rb).toNat) = gn) : PairAtomic s i f gn :=
      amoCR_pairAtomic readable runs function
    exact ⟨op 0 rfl rfl, op 1 rfl rfl, op 2 rfl rfl, op 3 rfl rfl,
      op 4 rfl (funext fun x => amoFn_min 64 x _), op 5 rfl (funext fun x => amoFn_max 64 x _), op 6 rfl rfl, op 7 rfl rfl, op 8 rfl rfl,
      fun expected => amoCR_pairAtomic (readable.append expected) rfl rfl⟩
  case lone =>
    intro sz n w b
    have op {i : Instr} (code : Nat) {gn : Nat → Nat} (runs : exec i s = settle s (amoS code f s)) (function : (fun old => amoFn code w old b) = gn) :
        LoneAtomic s i f n sz gn :=
      amoMX_loneAtomic tokens readable runs function
    exact ⟨op 0 rfl rfl, op 1 rfl rfl, op 2 rfl rfl, op 3 rfl rfl,
      op 4 rfl (funext fun x => amoFn_min w x b), op 5 rfl (funext fun x => amoFn_max w x b), op 6 rfl rfl, op 7 rfl rfl, op 8 rfl rfl,
      fun expected => amoMX_loneAtomic tokens (readable.append expected) rfl rfl,
      amoMX_loneAtomic tokens readable rfl rfl, amoMX_loneAtomic tokens readable rfl rfl⟩
  case vector =>
    have op {i : Instr} (code : Nat) (runs : exec i s = settle s (vamo code f s)) : VectorAtomic s i f code :=
      vamo_vectorAtomic context tokens base runs
    exact ⟨op 0 rfl, op 1 rfl, op 2 rfl, op 3 rfl, op 4 rfl, op 5 rfl, op 6 rfl, op 7 rfl, op 8 rfl⟩

end Sys2Proof.Machine
end

section
/-! SUPPORT. Prefetch, cache operations, `tkwait`, and the fence: what it waits for, and what its scope has performed behind it. -/

namespace Sys2Proof.Machine

/-! ### Prefetch and cache operations (08 R210 to R212) -/

section
variable {s : State} {f : LM}

/-- What a prefetch leaves for its place, or for the check that it fails. -/
def State.prefetched (s : State) (f : LM) : Run Place → State
  | .ok (.glob va l) => s.prefetch f.rd.toNat va l
  | .error (.trap t) => s.reportTable t
  | _ => s

theorem exec_pref (tokens : TokensFree s f.kw f.kp) (readable : Readable s [f.ra]) {r : Run Place}
    (check : checkPiece s s.who (s.rs f.ra + f.off.signExtend 64) 1 1 false = r) :
    exec (.pref f) s = ran ((s.prefetched f r).issuePost (s.prefetched f r).path f.kw .none) := by
  subst check
  change execPref f s = _
  simp only [execPref, useTok_ok tokens, useS_ok readable, run_bind_ok]
  rfl

theorem State.prefetched_of_other {p : Place} (other : ∀ va l, p ≠ .glob va l) : s.prefetched f (.ok p) = s := by
  cases p with
  | glob va l => exact absurd rfl (other va l)
  | sp win page off => rfl
  | edge i win page off => rfl

theorem settle_cacheOp {s : State} {f : MXC} (kind : Nat) (tokens : TokensFree s f.m.kw f.m.kp) (readable : Readable s [f.m.ra, f.m.rb]) :
    let met (key : Nat) : Bool := (cacheRanges s (eaMX f.m s) (s.rs f.m.rb).toNat).any
      (fun r => linesMet (s.leavesAt (bits s.who.root 43 12 * 4096) 0 4) r.1 r.2 key)
    let u := if kind = 1 then s else s.cleanLines met
    let v := if kind = 0 then u else if f.icache then u.invalidateI met f.m.scope.toNat else u.invalidate met f.m.scope.toNat
    let w := if f.port then v.closePort v.cur else v
    settle s (cacheOp kind f s) = ran (w.issuePost w.path f.m.kw .none) := by
  simp only [cacheOp, useTok_ok tokens, useS_ok readable, run_bind_ok, settle_ok]

end

/-! ### The fence (04 R97, R98; 08 R219, R220) -/

section
variable {s : State} {m : BitVec 6} {scope : BitVec 3} {paths : Nat}

theorem fenceMask_eq (m : BitVec 6) : fenceMask m.toNat = if m = 0 then 63 else m.toNat := by
  simp only [fenceMask, ← BitVec.toNat_inj]
  rfl

theorem exec_fenceOp_of_busy (named : fenceMask m.toNat = paths) (busy : s.fenceBusy s.cur paths scope.toNat = true) :
    exec (.fenceOp m scope) s = waits s (.structural (.fence paths scope.toNat)) := by
  subst named
  change settle s (fence s m.toNat scope.toNat) = _
  rw [fence, if_pos busy, settle_wait_self]

/-- The state of a fence that waits for nothing. -/
theorem exec_fenceOp (named : fenceMask m.toNat = paths) (free : s.fenceBusy s.cur paths scope.toNat = false) :
    let u := (s.performAt s.cur.tile scope.toNat).showFenced s.cur paths
    exec (.fenceOp m scope) s = ran (if scope.toNat = 4 then u.podAcquire s.cur.tile else u) := by
  subst named
  have cur : (s.performAt s.cur.tile scope.toNat).cur = s.cur := congrArg (·.1.1) (s.performAt_seat ..)
  have shown : ((s.performAt s.cur.tile scope.toNat).showFenced s.cur (fenceMask m.toNat)).cur = s.cur := by
    rw [State.showFenced, State.showAll_cur, cur]
  change settle s (fence s m.toNat scope.toNat) = _
  simp only [fence, free, shown, Bool.false_eq_true, if_false, settle_ok]

/-- A write kept after some have become visible is seen by every path that was to see it. -/
theorem mem_showTo {m : SMap Unseen} {more : Nat → Unseen → Nat → Bool} {e : Nat × Unseen} (kept : e ∈ showTo m more) :
    ∃ u : Unseen, e.2 = { u with seen := (List.range 6).filter (fun p => u.seen.contains p || more e.1 u p) } := by
  obtain ⟨listed, -⟩ := List.mem_filter.mp kept
  obtain ⟨x, -, rfl⟩ := List.mem_map.mp listed
  exact ⟨x.2, rfl⟩

theorem showFenced_seen {a : Agent} {mask : Nat} {e : Nat × Unseen} (kept : e ∈ (s.showFenced a mask).unseen) (own : e.2.writer.agent = a)
    (written : mask.testBit e.2.writer.path = true) {p : Nat} (path : p < 6) (named : mask.testBit p = true) : e.2.seen.contains p = true := by
  rw [State.showFenced, State.showAll_unseen] at kept
  obtain ⟨u, eq⟩ := mem_showTo kept
  rw [eq] at own written ⊢
  refine List.contains_iff_mem.mpr (List.mem_filter.mpr ⟨List.mem_range.mpr path, Bool.or_eq_true_iff.mpr (.inr ?_)⟩)
  simp only [show u.writer.agent = a from own, show mask.testBit u.writer.path = true from written, named, beq_self_eq_true, Bool.and_self]

theorem exec_tkwait_of_drained {k : BitVec 3} (drained : s.src.kc k.toNat = 0) : exec (.tkwait k) s = ran s := by
  change settle s (if s.src.kc k.toNat ≠ 0 then _ else _) = _
  rw [if_neg (not_not.mpr drained), settle_ok]

theorem exec_tkwait_of_outstanding {k : BitVec 3} (outstanding : s.src.kc k.toNat ≠ 0) : exec (.tkwait k) s = waits s (.token k.toNat) := by
  change settle s (if s.src.kc k.toNat ≠ 0 then _ else _) = _
  rw [if_pos outstanding, settle_wait_self]

theorem State.performAt_die (t : Nat) {n : Nat} (near : n ≤ 2) : s.performAt t n = s := by
  simp [State.performAt, Nat.not_le.mpr (Nat.lt_succ_of_le near), show n ≠ 4 by omega]

end

/-- Settles O25: a prefetch by what its check answers, a cache operation by its kind, the fence by what its scope performs. -/
theorem cacheAndFenceResults : Obligations.CacheAndFenceResults := by
  refine ⟨fun s => ⟨fun f tokens base => ⟨fun p checked other => ?elsewhere, fun t failed => ?failed⟩,
    fun f va l tokens base checked => ?global, fun f tokens readable => ?cache⟩, fun s k m scope => ?fence⟩
  case elsewhere => simpa only [State.prefetched_of_other other] using exec_pref tokens base checked
  case failed => exact exec_pref tokens base failed
  case global => exact exec_pref tokens base checked
  case cache => exact ⟨settle_cacheOp 0 tokens readable, settle_cacheOp 1 tokens readable, settle_cacheOp 2 tokens readable⟩
  case fence =>
    intro paths d
    have named : fenceMask m.toNat = paths := fenceMask_eq m
    refine ⟨exec_tkwait_of_drained, exec_tkwait_of_outstanding, fun free near => ?die, fun free package => ?package, fun free pod => ?pod,
      fun u e kept own written p path mask => showFenced_seen kept own written path mask, exec_fenceOp_of_busy named⟩
    case die =>
      rw [exec_fenceOp named free, if_neg (by omega), State.performAt_die _ near]
    case package =>
      subst package
      exact exec_fenceOp named free
    case pod =>
      subst pod
      exact exec_fenceOp named free

end Sys2Proof.Machine
end

section
/-! SUPPORT. The gang barrier: an arrival by whether one is pending, and by the task that counts it. -/

namespace Sys2Proof.Machine

/-- The state in which the arrival of context 0 stands before it is counted: behind its fence, its counts emitted, ARR set (08 R223). -/
def State.setArr (s : State) (st : Bool) : State :=
  let v := s.showFenced s.cur 63
  let u := if st then (v.setMe (v.me.setCr 0x18 (putBits (v.me.cr 0x18) 1 1 1))).emitAll v.cur.tile else v
  u.setMe (u.me.setCr 0x18 (putBits (u.me.cr 0x18) 0 0 1))

/-- The arrival of a rank of task k counted: of the last one the phase ends, at once where the task has one rank (08 R223). -/
def State.countArrival (s : State) (k : Nat) : State :=
  let v := s.setTask k { s.task k with arrived := (s.tile s.cur.tile).rank :: (s.task k).arrived }
  if v.allArrived k = false then v else if recRanks (v.record k) = 1 then v.completePhase k else v.post (.barrierPhaseComplete k)

section
variable {s : State} {st : Bool}

theorem arrive_of_pending (main : s.cur.ctx = 0) (pending : s.me.arr = true) : arrive st s = .error (.wait .barrier s) := by
  simp only [arrive, onlyCtx0_ok main, pending, if_true, run_bind_ok, run_bind_error]

/-- An arrival that waits for nothing is counted for the task that runs on its tile. -/
theorem arrive_of_free (main : s.cur.ctx = 0) (clear : s.me.arr = false) (free : s.fenceBusy s.cur 63 2 = false) :
    arrive st s = .ok (((s.setArr st).taskOf (s.setArr st).cur).elim ((s.setArr st).setMe (s.setArr st).me.phaseDone) (s.setArr st).countArrival) := by
  have fenced : fence s 63 2 = .ok (s.showFenced s.cur 63) := fence_of_free free
  unfold arrive
  rw [onlyCtx0_ok main, clear, fenced]
  change (match (s.setArr st).taskOf (s.setArr st).cur with | none => .ok _ | some k => .ok _ : Run State) = _
  cases (s.setArr st).taskOf (s.setArr st).cur with
  | none => rfl
  | some k => exact congrArg Except.ok (if_congr (Bool.not_eq_true' _).to_iff rfl rfl)

theorem exec_barWait_of_clear (main : s.cur.ctx = 0) (clear : s.me.arr = false) : exec (.barWait st) s = ran s := by
  change execBarWait st s = _
  simp only [execBarWait, onlyCtx0_ok main, clear, Bool.false_eq_true, if_false, run_bind_ok, settle_ok]

theorem exec_barWait_of_pending (main : s.cur.ctx = 0) (pending : s.me.arr = true) : exec (.barWait st) s = waits s .barrier := by
  change execBarWait st s = _
  simp only [execBarWait, onlyCtx0_ok main, pending, if_true, run_bind_ok, settle_wait_self]

end

/-- Settles O26: an arrival by what it finds of its phase, the end of a phase by its ranks. -/
theorem gangBarrierResults : Obligations.GangBarrierResults := by
  refine fun s st main => ⟨exec_barWait_of_clear main, fun pending => ⟨exec_barWait_of_pending main pending, ?arrive, ?sync⟩,
    fun clear free => ?count, fun k all ranks running => ?phase⟩
  case arrive =>
    change settle s (arrive st s) = _
    rw [arrive_of_pending main pending, settle_wait_self]
  case sync =>
    change settle s (arrive st s >>= _) = _
    rw [arrive_of_pending main pending, run_bind_error, settle_wait_self]
  case count =>
    have arrived := arrive_of_free (st := st) main clear free
    refine ⟨fun idle => ?_, fun k task => ⟨?_, ?_⟩⟩
    · change settle s (arrive st s) = _
      rw [arrived, show (s.setArr st).taskOf (s.setArr st).cur = none from idle]
      rfl
    · change settle s (arrive st s) = _
      rw [arrived, show (s.setArr st).taskOf (s.setArr st).cur = some k from task]
      rfl
    · change settle s (arrive st s >>= _) = _
      rw [arrived, show (s.setArr st).taskOf (s.setArr st).cur = some k from task]
      rfl
  case phase =>
    have clocked : (s.task k).tiles.all (fun t => (s.tile t).run == some k && !s.stoppedTile t) = true := by simpa using running
    change execBarrierPhaseComplete k s = _
    rw [execBarrierPhaseComplete, if_pos (by simp [all, clocked, ranks])]
    rfl

end Sys2Proof.Machine
end

section
/-! SUPPORT. The event ops, and the transitions of an entry under posts and signals. -/

namespace Sys2Proof.Machine

/-! ### The entry (08 R226) -/

section
variable {s : State} {e n : Nat}

theorem State.eventPost_of_fit {c : Nat} (sum : c = if (s.event e).state = 1 then (s.event e).count + n else n) (fits : c ≤ 65535) :
    s.eventPost e n = (s.setEvent e { s.event e with state := 1, count := c }, 0) := by
  subst sum
  exact if_neg (Nat.not_lt.mpr fits)

theorem State.eventPost_of_overflow {c : Nat} (sum : c = if (s.event e).state = 1 then (s.event e).count + n else n) (excess : 65535 < c) :
    s.eventPost e n = (s, 3) := by
  subst sum
  exact if_pos excess

theorem State.eventSig_of_idle (idle : (s.event e).state = 0) : s.eventSig e n = (s.fire e, 0) := if_pos idle

theorem State.eventSig_of_fired (fired : (s.event e).state = 2) : s.eventSig e n = (s, 0) := by
  simp [State.eventSig, fired]

/-- A signal of a Pending entry by what its count leaves. -/
theorem State.eventSig_of_pending (pending : (s.event e).state = 1) : s.eventSig e n =
    if (s.event e).count < n then (s, 3) else if n = (s.event e).count then (s.fire e, 0)
    else (s.setEvent e { s.event e with count := (s.event e).count - n }, 0) := by
  simp [State.eventSig, pending]

end

/-! ### The ops (08 R226 to R229) -/

section
variable {s : State} {f : EX}

theorem exec_evpost (readable : Readable s [f.ra]) : exec (.evpost f) s =
    ran ((s.eventPost (evName f s) (parF f.par 15 0)).1.countEvent.ws f.rc (wd (s.eventPost (evName f s) (parF f.par 15 0)).2)) :=
  settle_useS readable

/-- `evsig` signals behind a fence at package scope over every path (08 R228). -/
theorem exec_evsig (readable : Readable s [f.ra]) (free : s.fenceBusy s.cur 63 3 = false) :
    let u := (s.crossAll (dieOf s.cur.tile)).showFenced s.cur 63
    exec (.evsig f) s =
      ran ((u.eventSig (evName f s) (parF f.par 15 0)).1.countEvent.ws f.rc (wd (u.eventSig (evName f s) (parF f.par 15 0)).2)) := by
  have name : evName f (s.fenced 3) = evName f s := congrArg (fun w => w.toNat % 65536) (s.fenced_rs 3 f.ra)
  change settle s (useS s [f.ra] >>= fun _ => fence s 63 3 >>= _) = _
  rw [useS_ok readable, run_bind_ok, fence_of_free free, run_bind_ok, settle_ok, name]
  rfl

theorem exec_evsig_of_busy (readable : Readable s [f.ra]) (busy : s.fenceBusy s.cur 63 3 = true) :
    exec (.evsig f) s = waits s (.structural (.fence 63 3)) := by
  have wait : fence s 63 3 = .error (.wait (.structural (.fence 63 3)) s) := if_pos busy
  change settle s (useS s [f.ra] >>= fun _ => fence s 63 3 >>= _) = _
  rw [useS_ok readable, run_bind_ok, wait, run_bind_error, settle_wait_self]

theorem exec_evq (readable : Readable s [f.ra]) : exec (.evq f) s = ran (s.ws f.rc (s.event (evName f s)).value) := settle_useS readable

theorem exec_evqClr (context : s.cur.isAwn = false) (readable : Readable s [f.ra]) :
    exec (.evqClr f) s = ran ((s.eventClear (evName f s)).ws f.rc (s.event (evName f s)).value) := by
  change execEvqClr f s = _
  simp only [execEvqClr, notAwn_ok context, useS_ok readable, run_bind_ok, settle_ok]

theorem exec_evwait (context : s.cur.isAwn = false) (readable : Readable s [f.ra]) : exec (.evwait f) s =
    if (s.event (evName f s)).state = 2 then ran s
    else ran ((s.placeWaiter (evName f s) (.ctx s.cur)).waitOn (.event (BitVec.ofNat 16 (evName f s)))) := by
  change execEvwait f s = _
  simp only [execEvwait, notAwn_ok context, useS_ok readable, run_bind_ok]
  split_ifs <;> rfl

theorem exec_eventOpArrival (m : EventOp) : exec (.eventOpArrival m) s = .next (s.eventOp m.op m.name.toNat m.amount) := rfl

end

/-- Settles O28: the ops by the entry that they act on, the entry by its state. -/
theorem eventResults : Obligations.EventResults := by
  refine ⟨fun s f readable => ?ops, fun s e n => ?entry⟩
  case ops =>
    refine ⟨exec_evpost readable, exec_evsig readable, exec_evsig_of_busy readable, exec_evq readable,
      fun context => ⟨fun fired => ?_, fun other => ?_, exec_evqClr context readable⟩, exec_eventOpArrival⟩
    · exact (exec_evwait context readable).trans (if_pos fired)
    · exact (exec_evwait context readable).trans (if_neg other)
  case entry =>
    refine ⟨fun c sum => ⟨State.eventPost_of_fit sum, State.eventPost_of_overflow sum⟩, State.eventSig_of_idle, State.eventSig_of_fired,
      fun pending few => ?_, fun pending all => ?_, fun pending many => ?_⟩
    · rw [State.eventSig_of_pending pending, if_pos few]
    · rw [State.eventSig_of_pending pending, if_neg (by omega), if_pos all.symm]
    · rw [State.eventSig_of_pending pending, if_neg (by omega), if_neg (by omega)]

end Sys2Proof.Machine
end

section
/-! SUPPORT. The page ops: their tests, the first status whose test fails, and what they do to the entries of their range. -/

namespace Sys2Proof.Machine

/-! ### The tests of a range and the statuses (08 R237, R238) -/

/-- The range of pages that a page op of a context names lies in a scratchpad window (08 R237). -/
structure PageRange (s : State) (f : EX) (win : Nat) : Prop where
  context : s.cur.isAwn = false
  alignment : (s.rs f.ra).toNat % 2048 = 0
  window : windowOf (s.rs f.ra) = some win
  scratch : win < 3
  inside : offset (s.rs f.ra) / 2048 + pageCount f ≤ windowPages (isV s.cur.tile) win

theorem PageRange.tests {s : State} {f : EX} {win : Nat} (range : PageRange s f win) {srcs : List (BitVec 5)} (readable : Readable s srcs) :
    pageTests s f srcs = .ok () := by
  simp only [pageTests, notAwn_ok range.context, useS_ok readable, aligned_ok range.alignment, range.window, run_bind_ok, range.scratch, range.inside,
    decide_true, need_true]

theorem pageQuiet_ok {s : State} (noPageIn : (s.tile s.cur.tile).pageIns = [])
    (noOuts : (s.openOuts s.cur.tile).any (fun o => o.ctx != s.cur.ctx) = false) : pageQuiet s = .ok () := by
  simp [pageQuiet, noPageIn, noOuts]

theorem pageQuiet_wait {s : State} (pageIn : (s.tile s.cur.tile).pageIns ≠ []) : pageQuiet s = .error (.wait (.structural .pageIns) s) := by
  simp [pageQuiet, pageIn]

/-- The first status in the order 5, 1, 2, 3, 4 whose test fails ends the op. -/
theorem ite_pageStatus {α : Type} (answer : Nat → α) (go : α) (t5 t1 t2 t3 t4 : Bool) :
    (if pageStatus t5 t1 t2 t3 t4 ≠ 0 then answer (pageStatus t5 t1 t2 t3 t4) else go) =
      if t5 then answer 5 else if t1 then answer 1 else if t2 then answer 2 else if t3 then answer 3 else if t4 then answer 4 else go := by
  cases t5
  case true => rfl
  cases t1
  case true => rfl
  cases t2
  case true => rfl
  cases t3
  case true => rfl
  cases t4 <;> rfl

section
variable {s : State} {c : Bool} {x y : Run State}

theorem settle_ite_true (h : c = true) : settle s (if c then x else y) = settle s x := congrArg (settle s) (if_pos h)

theorem settle_ite_false (h : c = false) : settle s (if c then x else y) = settle s y := congrArg (settle s) (if_neg (ne_true_of_eq_false h))

end

/-- A page op ends with a status, written to its register. -/
def State.withStatus (s : State) (f : EX) (st : Nat) : Run State := .ok (s.ws f.rc (wd st))

/-! ### `spmap`, `spunmap`, `sppin`, `spunpin` (08 R239 to R241) -/

/-- Some page of the range is absent, and some page is pinned. -/
def State.anyAbsent (s : State) (f : EX) : Bool := (pageKeys f s).any (fun k => loc ((s.tile s.cur.tile).spte k) == 0)
def State.anyPinned (s : State) (f : EX) : Bool := (pageKeys f s).any (fun k => pinned ((s.tile s.cur.tile).spte k))
def State.anyMapped (s : State) (f : EX) : Bool := (pageKeys f s).any (fun k => loc ((s.tile s.cur.tile).spte k) != 0)

section
variable {s : State} {f : EX} {win : Nat} (range : PageRange s f win) (base : Readable s [f.ra])
include range base

theorem exec_spunmap (quiet : pageQuiet s = .ok ()) : exec (.spunmap f) s = settle s (
    if (pageKeys f s).any (s.inFoot s.cur.tile) then s.withStatus f 5 else if s.anyPinned f then s.withStatus f 1
    else .ok (((pageKeys f s).foldl (fun (s' : State) k => s'.leavePage s.cur.tile k 0) s).ws f.rc 0)) := by
  change execSpunmap f s = _
  simp only [execSpunmap, range.tests base, quiet, run_bind_ok]
  exact congrArg (settle s) (ite_pageStatus (s.withStatus f) _ _ _ false false false)

theorem exec_spunpin (quiet : pageQuiet s = .ok ()) : exec (.spunpin f) s = settle s (
    if (pageKeys f s).any (s.inFoot s.cur.tile) then s.withStatus f 5 else if s.anyAbsent f then s.withStatus f 1
    else .ok ((s.setTile s.cur.tile ((s.tile s.cur.tile).pinAll (pageKeys f s) false)).ws f.rc 0)) := by
  change execSpunpin f s = _
  simp only [execSpunpin, range.tests base, quiet, run_bind_ok]
  exact congrArg (settle s) (ite_pageStatus (s.withStatus f) _ _ _ false false false)

theorem exec_spmap_of_zeroFill (zeroFill : flX f = true) (quiet : pageQuiet s = .ok ()) : exec (.spmap f) s = settle s (
    if s.anyMapped f then s.withStatus f 1 else if decide (s.freeSlots s.cur.tile < (pageKeys f s).length) then s.withStatus f 3
    else .ok (((pageKeys f s).foldl (fun (u : State) k => u.takeSlot s.cur.tile k {}) s).ws f.rc 0)) := by
  change execSpmap f s = _
  simp only [execSpmap, zeroFill, if_true, range.tests base, quiet, run_bind_ok, Bool.true_and]
  exact congrArg (settle s) (ite_pageStatus (s.withStatus f) _ false _ false _ false)

theorem exec_spmap_of_backing (backed : flX f = false) (readable : Readable s [f.rb]) (backing : checkBacking s f [1, 2] = .ok ())
    (quiet : pageQuiet s = .ok ()) : exec (.spmap f) s = settle s (
    if s.anyMapped f then s.withStatus f 1
    else .ok ((s.setTile s.cur.tile ((pageKeys f s).zipIdx.foldl
      (fun u p => u.setSpte p.1 (mkSpte 3 false false ((s.rs f.rb).toNat / 2048 + p.2))) (s.tile s.cur.tile))).ws f.rc 0)) := by
  change execSpmap f s = _
  simp only [execSpmap, backed, Bool.false_eq_true, if_false, range.tests (srcs := [f.ra, f.rb]) (base.append readable), backing, quiet, run_bind_ok,
    Bool.false_and]
  exact congrArg (settle s) (ite_pageStatus (s.withStatus f) _ false _ false false false)

theorem exec_spmap_of_mapped (readable : Readable s [f.rb]) (checks : flX f = true ∨ checkBacking s f [1, 2] = .ok ()) (quiet : pageQuiet s = .ok ())
    (mapped : s.anyMapped f = true) : exec (.spmap f) s = settle s (s.withStatus f 1) := by
  cases mode : flX f with
  | true => exact (exec_spmap_of_zeroFill range base mode quiet).trans (settle_ite_true mapped)
  | false =>
    have backing := checks.resolve_left (by simp [mode])
    exact (exec_spmap_of_backing range base mode readable backing quiet).trans (settle_ite_true mapped)

/-- Pinning the range would leave a bank of the window with no frame that is not pinned (08 R241). -/
def State.crowded (s : State) (f : EX) (win : Nat) : Bool :=
  (pageKeys f s).any (fun k => decide (framesPerBank (isV s.cur.tile) win ≤ s.pinsOf s.cur.tile
    (((s.tile s.cur.tile).pinAll (pageKeys f s) true).spt) win (bankOfPage (isV s.cur.tile) win (k % 8192))))

theorem exec_sppin (quiet : pageQuiet s = .ok ()) : exec (.sppin f) s = settle s (
    if s.anyAbsent f then s.withStatus f 1 else if s.crowded f win then s.withStatus f 2
    else bringIn s (pageKeys f s) true >>= fun u =>
      .ok ((u.setTile s.cur.tile ((u.tile s.cur.tile).pinAll (pageKeys f s) true)).ws f.rc 0)) := by
  change execSppin f s = _
  simp only [execSppin, range.tests base, quiet, range.window, Option.getD_some, run_bind_ok]
  exact congrArg (settle s) (ite_pageStatus (s.withStatus f) _ false _ _ false false)

theorem exec_sppin_of_brought {u : State} (quiet : pageQuiet s = .ok ()) (whole : s.anyAbsent f = false) (room : s.crowded f win = false)
    (brought : bringIn s (pageKeys f s) true = .ok u) :
    exec (.sppin f) s = ran ((u.setTile s.cur.tile ((u.tile s.cur.tile).pinAll (pageKeys f s) true)).ws f.rc 0) := by
  rw [exec_sppin range base quiet, settle_ite_false whole, settle_ite_false room, brought, run_bind_ok, settle_ok]

theorem exec_spmigRes (quiet : pageQuiet s = .ok ()) : exec (.spmigRes f) s = settle s (
    if s.anyAbsent f then s.withStatus f 1 else bringIn s (pageKeys f s) false >>= fun u => .ok (u.ws f.rc 0)) := by
  change execSpmigRes f s = _
  simp only [execSpmigRes, range.tests base, quiet, run_bind_ok]
  exact congrArg (settle s) (ite_pageStatus (s.withStatus f) _ false _ false false false)

theorem exec_spmigRes_of_brought {u : State} (quiet : pageQuiet s = .ok ()) (whole : s.anyAbsent f = false)
    (brought : bringIn s (pageKeys f s) false = .ok u) : exec (.spmigRes f) s = ran (u.ws f.rc 0) := by
  rw [exec_spmigRes range base quiet, settle_ite_false whole, brought, run_bind_ok, settle_ok]

/-- Page ops wait while page-ins are under way. -/
theorem pageOps_wait (pageIn : (s.tile s.cur.tile).pageIns ≠ []) :
    ∀ i ∈ [Instr.spunmap f, .sppin f, .spunpin f, .spmigRes f, .spmigPold f], exec i s = waits s (.structural .pageIns) := by
  have wait (k : Unit → Run State) : settle s (pageTests s f [f.ra] >>= fun _ => pageQuiet s >>= k) = waits s (.structural .pageIns) := by
    rw [range.tests base, run_bind_ok, pageQuiet_wait pageIn, run_bind_error, settle_wait_self]
  simp only [List.mem_cons, List.not_mem_nil, or_false, forall_eq_or_imp, forall_eq]
  exact ⟨wait _, wait _, wait _, wait _, wait _⟩

end

/-! ### Pages brought in (08 R241, R242; 03 R69) -/

section
variable {s : State} {k : Nat}

theorem bringPage_of_there (range : List Nat) (pin : Bool) (there : loc ((s.tile s.cur.tile).spte k) < 2) : bringPage range pin s k = .ok s :=
  if_pos there

/-- Where no page of a range is away nothing is brought in. -/
theorem bringIn_of_there {keys : List Nat} (pin : Bool) (there : ∀ k ∈ keys, loc ((s.tile s.cur.tile).spte k) < 2) : bringIn s keys pin = .ok s := by
  suffices ∀ range, keys.foldlM (bringPage range pin) s = .ok s from this keys
  intro range
  induction keys with
  | nil => rfl
  | cons k keys ih =>
    rw [List.foldlM_cons, bringPage_of_there range pin (there k (List.mem_cons_self ..)), run_bind_ok]
    exact ih fun j h => there j (List.mem_cons_of_mem _ h)

/-- A page of the polder is its own source. -/
theorem State.sourcePage_of_polder {v : View} {e a : Word} (t : Nat) (polder : loc e = 2) :
    s.sourcePage t v e none a = .ok (s, (s.die (dieOf t)).polder.get {} (place e)) :=
  congrArg (fun p => Except.ok (s, p)) (if_pos polder)

/-- A page of the polder goes into the frame chosen beside its range. -/
theorem bringPage_of_polder {range : List Nat} (pin : Bool) {u : State} {fr : Nat} (polder : loc ((s.tile s.cur.tile).spte k) = 2)
    (frame : s.frameBeside s.cur.tile (k / 8192) (bankOfPage (isV s.cur.tile) (k / 8192) (k % 8192)) range = some (u, fr)) :
    bringPage range pin s k =
      .ok (u.fillPage s.cur.tile k fr pin ((s.die (dieOf s.cur.tile)).polder.get {} (place ((s.tile s.cur.tile).spte k)))) := by
  have source := State.sourcePage_of_polder (s := s) (v := s.taskView s.cur.tile) (a := keyAddr k) s.cur.tile polder
  have away : pageContent s s.cur.tile k = .ok (s, (s.die (dieOf s.cur.tile)).polder.get {} (place ((s.tile s.cur.tile).spte k))) := by
    rw [pageContent, if_neg (by omega), readBacking, if_pos (by omega), run_bind_ok]
    simp only [source]
  simp only [bringPage, if_neg (show ¬loc ((s.tile s.cur.tile).spte k) < 2 by omega), away, frame, run_bind_ok]

end

/-! ### Write-outs of resident pages (08 R242) -/

section
variable {v : State} {out : List Nat}

/-- The write-outs of a list of pages have ended, `kept` among them abandoned, and the op goes on in state u. -/
def State.OutsEnd (v : State) (out : List Nat) (u : State) (kept : List Nat) : Prop :=
  out = [] ∧ u = v ∧ kept = [] ∨ out ≠ [] ∧ ∃ o, v.myOuts out = some o ∧
    u = v.setTile v.cur.tile { v.tile v.cur.tile with outs := none } ∧ kept = (o.pages.filter (·.2)).map (·.1)

theorem writeOuts_ok {u : State} {kept : List Nat} (ended : v.OutsEnd out u kept) : writeOuts v out = .ok (u, kept) := by
  rcases ended with ⟨rfl, rfl, rfl⟩ | ⟨moves, o, mine, rfl, rfl⟩
  · rfl
  · simp [writeOuts, moves, mine]

/-- The write-outs of a list of pages for the executing context are under way. -/
def State.startOuts (v : State) (out : List Nat) : State := v.setTile v.cur.tile { v.tile v.cur.tile with
  outs := some { ctx := v.cur.ctx, pc := v.me.pc, pages := out.map (fun k => (k, false)) } }

theorem writeOuts_wait (moves : out ≠ []) (unasked : v.myOuts out = none) :
    writeOuts v out = .error (.wait (.structural .pageOuts) (v.startOuts out)) := by
  simp [writeOuts, moves, unasked, State.startOuts]

end

end Sys2Proof.Machine
end

section
/-! SUPPORT. The ops that move pages: where each page of the range goes, and how `spmig` ends. -/

namespace Sys2Proof.Machine

/-! ### Pages to the polder and to backing (08 R242) -/

section
variable {v : State} {t k : Nat} {kept : List Nat} {away : SMap Page}

theorem Tile.content_of_resident {x : Tile} (resident : loc (x.spte k) = 1) : x.content away k = x.page k := if_pos resident

theorem Tile.content_of_away {x : Tile} (other : loc (x.spte k) ≠ 1) : x.content away k = away.get {} k := if_neg other

theorem State.toPolder_of_stay (stays : loc ((v.tile t).spte k) = 2 ∨ k ∈ kept) : State.toPolder t kept away v k = v := by
  simp [State.toPolder, stays]

theorem State.toPolder_of_move (elsewhere : loc ((v.tile t).spte k) ≠ 2) (moves : k ∉ kept) :
    State.toPolder t kept away v k = v.moveToPolder t k ((v.tile t).content away k) := by
  simp [State.toPolder, elsewhere, moves]

theorem Tile.spte_setSpte {x : Tile} (wf : x.spt.wf 0 = true) (j : Nat) (e : Word) : (x.setSpte k e).spte j = if j = k then e else x.spte j :=
  SMap.get_set wf k j e

/-- A resident page with a slot of its own goes back to it. -/
theorem State.moveToPolder_spte {pg : Page} (tiles : v.tiles.wf {} = true) (table : (v.tile t).spt.wf 0 = true)
    (resident : loc ((v.tile t).spte k) = 1) (own : loc ((v.tile t).home.get 0 k) = 2) :
    ((v.moveToPolder t k pg).tile t).spte k = mkSpte 2 false false (place ((v.tile t).home.get 0 k)) := by
  unfold State.moveToPolder
  dsimp only
  rw [if_pos (by rw [resident, own]; rfl), State.tile_setTile (v.setDie _ _) tiles, if_pos rfl]
  exact (Tile.spte_setSpte table k _).trans (if_pos rfl)

theorem writeBacking_of_ok {b : Word} {q : Nat} {rest : List (Nat × Nat)} {w : State}
    (out : v.pageOut t ((v.tile t).content away k) (offset (b + wd (2048 * q))) v.handler = .ok w) :
    writeBacking t b away v ((k, q) :: rest) = writeBacking t b away w rest := by
  simp only [writeBacking, out]

theorem writeBacking_of_error {b : Word} {q : Nat} {rest : List (Nat × Nat)} {e : Trap}
    (failed : v.pageOut t ((v.tile t).content away k) (offset (b + wd (2048 * q))) v.handler = .error e) :
    writeBacking t b away v ((k, q) :: rest) = (v, some { e with addr := b + wd (2048 * q) }) := by
  simp only [writeBacking, failed]

end

/-! ### `spmig.pold` (08 R242) -/

/-- The resident pages of the range, which leave by way of a write-out. -/
def State.outPages (s : State) (f : EX) : List Nat := (pageKeys f s).filter (fun k => loc ((s.tile s.cur.tile).spte k) == 1)

/-- The pages of the range that need a slot of the polder are more than it has free. -/
def State.short (s : State) (f : EX) : Bool :=
  decide (s.freeSlots s.cur.tile < ((pageKeys f s).filter (fun k => loc ((s.tile s.cur.tile).spte k) == 3 ||
    (loc ((s.tile s.cur.tile).spte k) == 1 && loc ((s.tile s.cur.tile).home.get 0 k) != 2))).length)

/-- `spmig.pold` behind its tests. -/
def State.runPold (s : State) (f : EX) : Run State := do
  let (v, away) ← pagesAway s.cur.tile s ((pageKeys f s).filter (fun k => loc ((s.tile s.cur.tile).spte k) == 3))
  let (u, kept) ← writeOuts v (s.outPages f)
  .ok (((pageKeys f s).foldl (State.toPolder s.cur.tile kept away) u).ws f.rc (if kept.isEmpty then 0 else 6))

/-- An op that moves pages is refused for a page that is absent or pinned. -/
theorem any_absent_or_pinned (s : State) (f : EX) :
    (pageKeys f s).any (fun k => loc ((s.tile s.cur.tile).spte k) == 0 || pinned ((s.tile s.cur.tile).spte k)) = (s.anyAbsent f || s.anyPinned f) := by
  rw [Bool.eq_iff_iff]
  simp only [State.anyAbsent, State.anyPinned, List.any_eq_true, Bool.or_eq_true, ← exists_or, ← and_or_left]

/-- An op that moves pages tests their statuses where its write-outs are not under way. -/
theorem ite_pageStatus_unless {α : Type} (answer : Nat → α) (go : α) (m : Option PageOuts) (t1 t3 t4 : Bool) :
    (if pageStatus false t1 false t3 t4 ≠ 0 && m.isNone then answer (pageStatus false t1 false t3 t4) else go) =
      if m.isSome then go else if t1 then answer 1 else if t3 then answer 3 else if t4 then answer 4 else go := by
  cases m with
  | some o => simp only [Option.isNone_some, Bool.and_false, Bool.false_eq_true, if_false, Option.isSome_some, if_true]
  | none =>
    simp only [Option.isNone_none, Bool.and_true, decide_eq_true_eq, Option.isSome_none]
    exact ite_pageStatus answer go false t1 false t3 t4

section
variable {s : State} {f : EX} {win : Nat}

theorem exec_spmigPold (range : PageRange s f win) (base : Readable s [f.ra]) (quiet : pageQuiet s = .ok ()) : exec (.spmigPold f) s = settle s (
    if (s.myOuts (s.outPages f)).isSome then s.runPold f
    else if s.anyAbsent f || s.anyPinned f then s.withStatus f 1 else if s.short f then s.withStatus f 3 else s.runPold f) := by
  change execSpmigPold f s = _
  simp only [execSpmigPold, range.tests base, quiet, run_bind_ok, any_absent_or_pinned]
  exact congrArg (settle s) (ite_pageStatus_unless (s.withStatus f) (s.runPold f) _ _ _ false)

theorem exec_spmigPold_of_barred (range : PageRange s f win) (base : Readable s [f.ra]) (quiet : pageQuiet s = .ok ())
    (unasked : s.myOuts (s.outPages f) = none) (barred : s.anyAbsent f = true ∨ s.anyPinned f = true) :
    exec (.spmigPold f) s = settle s (s.withStatus f 1) := by
  rw [exec_spmigPold range base quiet, unasked, Option.isSome_none, settle_ite_false rfl, settle_ite_true (Bool.or_eq_true_iff.mpr barred)]

theorem exec_spmigPold_of_short (range : PageRange s f win) (base : Readable s [f.ra]) (quiet : pageQuiet s = .ok ())
    (unasked : s.myOuts (s.outPages f) = none) (whole : s.anyAbsent f = false) (unpinned : s.anyPinned f = false) (few : s.short f = true) :
    exec (.spmigPold f) s = settle s (s.withStatus f 3) := by
  rw [exec_spmigPold range base quiet, unasked, whole, unpinned, few]
  rfl

/-- With every status passed, or with its write-outs under way, `spmig.pold` moves its pages. -/
theorem exec_spmigPold_of_go (range : PageRange s f win) (base : Readable s [f.ra]) (quiet : pageQuiet s = .ok ())
    (go : s.anyAbsent f = false ∧ s.anyPinned f = false ∧ s.short f = false ∨ (s.myOuts (s.outPages f)).isSome = true) :
    exec (.spmigPold f) s = settle s (s.runPold f) := by
  rw [exec_spmigPold range base quiet]
  rcases go with ⟨whole, unpinned, enough⟩ | begun
  · rw [whole, unpinned, enough]
    exact congrArg (settle s) (ite_self _)
  · exact settle_ite_true begun

variable {v u : State} {away : SMap Page} {kept : List Nat}

theorem runPold_ok (read : pagesAway s.cur.tile s ((pageKeys f s).filter (fun k => loc ((s.tile s.cur.tile).spte k) == 3)) = .ok (v, away))
    (ended : v.OutsEnd (s.outPages f) u kept) :
    s.runPold f = .ok (((pageKeys f s).foldl (State.toPolder s.cur.tile kept away) u).ws f.rc (if kept = [] then 0 else 6)) := by
  simp only [State.runPold, read, writeOuts_ok ended, run_bind_ok, List.isEmpty_iff]

theorem runPold_wait (read : pagesAway s.cur.tile s ((pageKeys f s).filter (fun k => loc ((s.tile s.cur.tile).spte k) == 3)) = .ok (v, away))
    (moves : s.outPages f ≠ []) (unasked : v.myOuts (s.outPages f) = none) :
    s.runPold f = .error (.wait (.structural .pageOuts) (v.startOuts (s.outPages f))) := by
  simp only [State.runPold, read, writeOuts_wait moves unasked, run_bind_ok, run_bind_error]

end

/-! ### `spmig.hbm` (08 R242, 22 R458) -/

/-- The keys and indices of the pages of the range that move to backing where `kept` stay. -/
def State.toBacking (s : State) (f : EX) (kept : List Nat) : List (Nat × Nat) :=
  pagesToBacking (s.tile s.cur.tile) ((s.rs f.rb).toNat / 2048) kept (pageKeys f s)

/-- The pages of a list take their backing in the table. -/
def State.leaveAll (s w : State) (f : EX) (move : List (Nat × Nat)) : State :=
  move.foldl (fun (v : State) p => v.leavePage s.cur.tile p.1 (mkSpte 3 false false ((s.rs f.rb).toNat / 2048 + p.2))) w

/-- `spmig.hbm` behind its tests. -/
def State.runHbm (s : State) (f : EX) : Run (State × Option Trap) := do
  let (v, away) ← pagesAway s.cur.tile s ((s.toBacking f []).map (·.1))
  let (u, kept) ← writeOuts v (s.outPages f)
  match writeBacking s.cur.tile (s.rs f.rb) away u (s.toBacking f kept) with
  | (w, some e) => .ok (w, some e)
  | (w, none) => .ok ((s.leaveAll w f (s.toBacking f kept)).ws f.rc (if kept.isEmpty then 0 else 6), none)

/-- How `spmig.hbm` ends: also with a trap that keeps what has been written (22 R458). -/
def settleHbm (s : State) : Run (State × Option Trap) → Host.Outcome State Fault Refusal
  | .ok (u, none) => ran u
  | .ok (u, some e) => trapped u e
  | .error e => settle s (.error e)

theorem exec_spmigHbm_eq (s : State) (f : EX) : exec (.spmigHbm f) s = settleHbm s (spmigHbm f s) := by
  change execSpmigHbm f s = _
  unfold execSpmigHbm settleHbm
  rcases spmigHbm f s with e | ⟨u, _ | t⟩ <;> rfl

section
variable {s : State} {f : EX} {win : Nat}

theorem exec_spmigHbm (range : PageRange s f win) (readable : Readable s [f.ra, f.rb]) (backing : checkBacking s f [2] = .ok ())
    (quiet : pageQuiet s = .ok ()) : exec (.spmigHbm f) s = settleHbm s (
    if (s.myOuts (s.outPages f)).isSome then s.runHbm f
    else if s.anyAbsent f || s.anyPinned f then .ok (s.ws f.rc 1, none)
    else if (pageKeys f s).any (s.someEmpty s.cur.tile) then .ok (s.ws f.rc 4, none) else s.runHbm f) := by
  rw [exec_spmigHbm_eq]
  refine congrArg (settleHbm s) ?_
  simp only [spmigHbm, range.tests readable, backing, quiet, run_bind_ok, any_absent_or_pinned]
  exact ite_pageStatus_unless (fun st => Except.ok (s.ws f.rc (wd st), none)) (s.runHbm f) _ _ false _

theorem exec_spmigHbm_of_barred (range : PageRange s f win) (readable : Readable s [f.ra, f.rb]) (backing : checkBacking s f [2] = .ok ())
    (quiet : pageQuiet s = .ok ()) (unasked : s.myOuts (s.outPages f) = none) (barred : s.anyAbsent f = true ∨ s.anyPinned f = true) :
    exec (.spmigHbm f) s = ran (s.ws f.rc 1) := by
  rw [exec_spmigHbm range readable backing quiet, unasked, Bool.or_eq_true_iff.mpr barred]
  rfl

theorem exec_spmigHbm_of_empty (range : PageRange s f win) (readable : Readable s [f.ra, f.rb]) (backing : checkBacking s f [2] = .ok ())
    (quiet : pageQuiet s = .ok ()) (unasked : s.myOuts (s.outPages f) = none) (whole : s.anyAbsent f = false) (unpinned : s.anyPinned f = false)
    (empty : (pageKeys f s).any (s.someEmpty s.cur.tile) = true) : exec (.spmigHbm f) s = ran (s.ws f.rc 4) := by
  rw [exec_spmigHbm range readable backing quiet, unasked, whole, unpinned, empty]
  rfl

/-- With every status passed, or with its write-outs under way, `spmig.hbm` moves its pages. -/
theorem exec_spmigHbm_of_go (range : PageRange s f win) (readable : Readable s [f.ra, f.rb]) (backing : checkBacking s f [2] = .ok ())
    (quiet : pageQuiet s = .ok ()) (go : s.anyAbsent f = false ∧ s.anyPinned f = false ∧ (pageKeys f s).any (s.someEmpty s.cur.tile) = false ∨
      (s.myOuts (s.outPages f)).isSome = true) : exec (.spmigHbm f) s = settleHbm s (s.runHbm f) := by
  rw [exec_spmigHbm range readable backing quiet]
  rcases go with ⟨whole, unpinned, full⟩ | begun
  · rw [whole, unpinned, full]
    exact congrArg (settleHbm s) (ite_self _)
  · exact congrArg (settleHbm s) (if_pos begun)

variable {v u w : State} {away : SMap Page} {kept : List Nat}

theorem runHbm_ok (read : pagesAway s.cur.tile s ((s.toBacking f []).map (·.1)) = .ok (v, away)) (ended : v.OutsEnd (s.outPages f) u kept)
    (written : writeBacking s.cur.tile (s.rs f.rb) away u (s.toBacking f kept) = (w, none)) :
    s.runHbm f = .ok ((s.leaveAll w f (s.toBacking f kept)).ws f.rc (if kept = [] then 0 else 6), none) := by
  simp only [State.runHbm, read, writeOuts_ok ended, written, run_bind_ok, List.isEmpty_iff]

theorem runHbm_trap {e : Trap} (read : pagesAway s.cur.tile s ((s.toBacking f []).map (·.1)) = .ok (v, away))
    (ended : v.OutsEnd (s.outPages f) u kept) (failed : writeBacking s.cur.tile (s.rs f.rb) away u (s.toBacking f kept) = (w, some e)) :
    s.runHbm f = .ok (w, some e) := by
  simp only [State.runHbm, read, writeOuts_ok ended, failed, run_bind_ok]

theorem runHbm_wait (read : pagesAway s.cur.tile s ((s.toBacking f []).map (·.1)) = .ok (v, away)) (moves : s.outPages f ≠ [])
    (unasked : v.myOuts (s.outPages f) = none) : s.runHbm f = .error (.wait (.structural .pageOuts) (v.startOuts (s.outPages f))) := by
  simp only [State.runHbm, read, writeOuts_wait moves unasked, run_bind_ok, run_bind_error]

/-- A page that backing cannot keep, as its frame or its slot of the polder holds it. -/
theorem State.someEmpty_eq (s : State) (t k : Nat) : s.someEmpty t k =
    (k / 8192 != 1 && (loc ((s.tile t).spte k) == 1 || loc ((s.tile t).spte k) == 2) &&
      ((if loc ((s.tile t).spte k) = 1 then (s.tile t).page k else (s.die (dieOf t)).polder.get {} (place ((s.tile t).spte k))).full !=
        BitVec.allOnes 128)) := by
  unfold State.someEmpty
  by_cases resident : loc ((s.tile t).spte k) = 1
  · simp only [resident, if_true, beq_self_eq_true, Bool.true_or, Bool.and_true]
  · simp only [resident, if_false, beq_false_of_ne resident, Bool.false_or, Bool.and_assoc]

end

/-! ### `spfmt` (08 R243) -/

section
variable {s : State} {f : EX} {bank buf : Nat} (context : s.cur.isAwn = false) (readable : Readable s [f.rb]) (named : parF f.par 7 0 = bank)
  (ofBuffer : parF f.par 9 8 = buf)
include context readable named ofBuffer

theorem exec_spfmt (legal : bfmtLegal (isV s.cur.tile) buf bank (s.rs f.rb) = true) : exec (.spfmt f) s =
    if s.bankBusy s.cur.tile buf bank then waits s (.structural (.bank buf bank)) else ran (s.writeBfmt s.cur.tile buf bank (s.rs f.rb)) := by
  subst named ofBuffer
  change execSpfmt f s = _
  simp only [execSpfmt, notAwn_ok context, useS_ok readable, legal, need_true, run_bind_ok]
  split_ifs <;> rfl

theorem exec_spfmt_of_illegal (illegal : bfmtLegal (isV s.cur.tile) buf bank (s.rs f.rb) = false) :
    exec (.spfmt f) s = trapped s ⟨6, 0x7004, 1, 0, none⟩ := by
  subst named ofBuffer
  change execSpfmt f s = _
  simp only [execSpfmt, notAwn_ok context, useS_ok readable, illegal, need_false, run_bind_ok, run_bind_error, settle_trap]
  rfl

end

end Sys2Proof.Machine
end

section
/-! SUPPORT. Page-ins: how one that completes ends, by its victim, and the fill of its frame. -/

namespace Sys2Proof.Machine

section
variable {s : State} {t win page : Nat} {p : PageIn}

/-- The page-in of a page is over, or given up. -/
def State.dropPageIn (s : State) (t win page : Nat) : State :=
  s.setTile t { s.tile t with pageIns := (s.tile t).pageIns.filter (fun q => !(q.win == win && q.page == page)) }

/-- A page-in looks for another frame, and is given up where there is none (22 R453). -/
def State.retryPageIn (s : State) (t win page : Nat) (p : PageIn) : State :=
  match (s.dropPageIn t win page).chooseFrame t win (bankOfPage (isV t) win page) with
  | none => s.dropPageIn t win page
  | some (fr, v) => ((s.dropPageIn t win page).setTile t { s.tile t with
      pageIns := (s.tile t).pageIns.filter (fun q => !(q.win == win && q.page == page)) ++
        [{ p with frame := fr, victim := v.map (fun k => (false, k)), abandoned := false }] }).post (.pageInComplete t win page)

theorem State.finishPageIn_of_none (unknown : (s.tile t).pageIns.find? (fun p => p.win == win && p.page == page) = none) :
    s.finishPageIn t win page = s := by
  simp only [State.finishPageIn, unknown]

variable (found : (s.tile t).pageIns.find? (fun p => p.win == win && p.page == page) = some p)
include found

theorem State.finishPageIn_of_there (there : loc ((s.tile t).spte (pkey win page)) < 2) : s.finishPageIn t win page = s.dropPageIn t win page := by
  simp only [State.finishPageIn, found, there, if_true]
  rfl

variable (away : 2 ≤ loc ((s.tile t).spte (pkey win page)))
include away

theorem State.finishPageIn_of_abandoned (abandoned : p.abandoned = true) : s.finishPageIn t win page = s.retryPageIn t win page p := by
  simp only [State.finishPageIn, found, Nat.not_lt.mpr away, abandoned, if_false, if_true]
  rfl

variable (going : p.abandoned = false)
include going

theorem State.finishPageIn_of_free (free : p.victim = none) : s.finishPageIn t win page = s.bringIn t p := by
  simp only [State.finishPageIn, found, Nat.not_lt.mpr away, going, Bool.false_eq_true, if_false, free]

variable {b : Bool} {k : Nat} (victim : p.victim = some (b, k))
include victim

theorem State.finishPageIn_of_left (left : loc ((s.tile t).spte k) ≠ 1) : s.finishPageIn t win page = s.bringIn t p := by
  simp only [State.finishPageIn, found, Nat.not_lt.mpr away, going, Bool.false_eq_true, if_false, victim, bne_iff_ne.mpr left, if_true]

variable (resident : loc ((s.tile t).spte k) = 1)
include resident

theorem State.finishPageIn_of_evicted {u : State} (unpinned : pinned ((s.tile t).spte k) = false) (evicted : s.evict t k = some u) :
    s.finishPageIn t win page = u.bringIn t p := by
  simp only [State.finishPageIn, found, Nat.not_lt.mpr away, going, Bool.false_eq_true, if_false, victim, resident, bne_self_eq_false, unpinned, evicted]

/-- A victim that has been pinned, or can be written nowhere, is lost. -/
theorem State.finishPageIn_of_lost (lost : pinned ((s.tile t).spte k) = true ∨ s.evict t k = none) :
    s.finishPageIn t win page = s.retryPageIn t win page p := by
  simp only [State.finishPageIn, found, Nat.not_lt.mpr away, going, Bool.false_eq_true, if_false, victim, resident, bne_self_eq_false]
  rcases lost with pin | nowhere
  · rw [if_pos pin]
    rfl
  · rw [nowhere, ite_self]
    rfl

end

/-- A page-in whose source is read fills its frame. -/
theorem State.bringIn_of_source {s u : State} {t : Nat} {p : PageIn} {pg : Page}
    (source : s.sourcePage t (s.taskView t) ((s.tile t).spte (pkey p.win p.page)) (p.tr.map (·.2)) 0 = .ok (u, pg)) :
    s.bringIn t p = (u.dropPageIn t p.win p.page).fillPage t (pkey p.win p.page) p.frame p.pin pg := by
  simp only [State.bringIn, source]
  rfl

/-! ### The fill of a frame (03 R69) -/

section
variable {s : State} {t key frame : Nat} {pin : Bool} {pg : Page} (tiles : s.tiles.wf {} = true)
include tiles

theorem State.fillPage_spte (table : (s.tile t).spt.wf 0 = true) : ((s.fillPage t key frame pin pg).tile t).spte key = mkSpte 1 pin false frame := by
  unfold State.fillPage
  dsimp only
  rw [State.tile_setTile s tiles, if_pos rfl]
  dsimp only [Tile.spte, Tile.touch, Tile.setSpte, Tile.setFrame]
  rw [SMap.get_set table, if_pos rfl]

theorem State.fillPage_frame (frames : (s.tile t).frames.wf {} = true) : ((s.fillPage t key frame pin pg).tile t).frame (key / 8192) frame = pg := by
  unfold State.fillPage
  dsimp only
  rw [State.tile_setTile s tiles, if_pos rfl]
  dsimp only [Tile.frame, Tile.touch, Tile.setSpte, Tile.setFrame]
  rw [SMap.get_set frames, if_pos rfl]

end

/-- Settles O37: the statuses of each op in their order, its pages one by one, and a page-in by its victim. -/
theorem pageOpResults : Obligations.PageOpResults := by
  refine ⟨fun s f context => ?ops, fun s t win page => ?pageIns⟩
  case ops =>
    intro t x n a b keys
    refine ⟨fun readable win alignment window scratch inside => ?range, fun readable => ?format, fun v k pg kept range pin away => ?pages⟩
    case range =>
      intro status absent pins crowded foot out
      have range : PageRange s f win := ⟨context, alignment, window, scratch, inside⟩
      have base : Readable s [f.ra] := fun r h => readable r (List.mem_cons.mpr (.inl (List.mem_singleton.mp h)))
      have second : Readable s [f.rb] := fun r h => readable r (List.mem_cons_of_mem _ h)
      refine ⟨pageOps_wait range base, fun noPageIn noOuts => ?_⟩
      have quiet := pageQuiet_ok noPageIn noOuts
      have unmap := exec_spunmap range base quiet
      have unpin := exec_spunpin range base quiet
      refine ⟨fun checks mapped => ?mapped, fun unmapped => ⟨fun fill few => ?few, fun fill enough => ?fill, fun backed backing => ?backed⟩,
        fun inside => ?foot, fun outside => ⟨fun pinned => ?pinned, fun loose => ?unmapped, fun gap => ?absent, fun whole => ?unpinned⟩,
        fun gap => ?gap, fun whole => ?present, ?move⟩
      case mapped => exact exec_spmap_of_mapped range base second checks quiet mapped
      case few =>
        exact (exec_spmap_of_zeroFill range base fill quiet).trans ((settle_ite_false unmapped).trans (settle_ite_true (decide_eq_true few)))
      case fill =>
        exact (exec_spmap_of_zeroFill range base fill quiet).trans
          ((settle_ite_false unmapped).trans (settle_ite_false (decide_eq_false (Nat.not_lt.mpr enough))))
      case backed => exact (exec_spmap_of_backing range base backed second backing quiet).trans (settle_ite_false unmapped)
      case foot => exact ⟨unmap.trans (settle_ite_true inside), unpin.trans (settle_ite_true inside)⟩
      case pinned => exact unmap.trans ((settle_ite_false outside).trans (settle_ite_true pinned))
      case unmapped => exact unmap.trans ((settle_ite_false outside).trans (settle_ite_false loose))
      case absent => exact unpin.trans ((settle_ite_false outside).trans (settle_ite_true gap))
      case unpinned => exact unpin.trans ((settle_ite_false outside).trans (settle_ite_false whole))
      case gap =>
        exact ⟨(exec_sppin range base quiet).trans (settle_ite_true gap), (exec_spmigRes range base quiet).trans (settle_ite_true gap)⟩
      case present =>
        refine ⟨fun full => (exec_sppin range base quiet).trans ((settle_ite_false whole).trans (settle_ite_true full)), fun resident => ?_,
          fun u room brought => exec_sppin_of_brought range base quiet whole room brought,
          fun u brought => exec_spmigRes_of_brought range base quiet whole brought⟩
        have there (pin : Bool) : bringIn s keys pin = .ok s := bringIn_of_there pin fun k h => lt_of_eq_of_lt (resident k h) (by decide)
        exact ⟨fun room => exec_sppin_of_brought range base quiet whole room (there true),
          exec_spmigRes_of_brought range base quiet whole (there false)⟩
      case move =>
        intro short empty begun wait done
        refine ⟨fun unasked => ⟨exec_spmigPold_of_barred range base quiet unasked, exec_spmigPold_of_short range base quiet unasked,
          fun whole loose enough moves v away read unstarted => ?poldWaits⟩, fun go v away u kept read ended => ?poldEnds, fun backing => ?hbm⟩
        case poldWaits =>
          exact (exec_spmigPold_of_go range base quiet (.inl ⟨whole, loose, enough⟩)).trans (congrArg (settle s) (runPold_wait read moves unstarted))
        case poldEnds => exact (exec_spmigPold_of_go range base quiet go).trans (congrArg (settle s) (runPold_ok read ended))
        case hbm =>
          have empties : (pageKeys f s).any (s.someEmpty s.cur.tile) = empty := congrArg keys.any (funext (s.someEmpty_eq t))
          refine ⟨fun unasked => ⟨exec_spmigHbm_of_barred range readable backing quiet unasked, fun whole loose lacks => ?_,
            fun whole loose full moves v away read unstarted => ?_⟩, fun go v away u kept read ended => ?_⟩
          · exact exec_spmigHbm_of_empty range readable backing quiet unasked whole loose (empties.trans lacks)
          · exact (exec_spmigHbm_of_go range readable backing quiet (.inl ⟨whole, loose, empties.trans full⟩)).trans
              (congrArg (settleHbm s) (runHbm_wait read moves unstarted))
          · have goes := exec_spmigHbm_of_go range readable backing quiet (empties ▸ go)
            exact ⟨fun w written => goes.trans (congrArg (settleHbm s) (runHbm_ok read ended written)),
              fun w e failed => goes.trans (congrArg (settleHbm s) (runHbm_trap read ended failed))⟩
    case format =>
      intro bank buf
      refine ⟨exec_spfmt_of_illegal context readable rfl rfl, fun legal => ⟨fun rest => ?_, fun busy => ?_⟩⟩
      · exact (exec_spfmt context readable rfl rfl legal).trans (if_neg (Bool.eq_false_iff.mp rest))
      · exact (exec_spfmt context readable rfl rfl legal).trans (if_pos busy)
    case pages =>
      refine ⟨State.toPolder_of_stay, fun resident moves => ?_, fun notHere notThere moves => ?_, fun q rest => ?_, State.moveToPolder_spte,
        bringPage_of_there range pin, fun u fr => bringPage_of_polder pin⟩
      · rw [State.toPolder_of_move (by omega) moves, Tile.content_of_resident resident]
      · rw [State.toPolder_of_move notThere moves, Tile.content_of_away notHere]
      · exact ⟨fun w => writeBacking_of_ok, fun e => writeBacking_of_error⟩
  case pageIns =>
    have ends {u : State} (finish : s.finishPageIn t win page = u) : exec (.pageInComplete t win page) s = .next u := congrArg Host.Outcome.next finish
    refine ⟨fun unknown => ends (State.finishPageIn_of_none unknown), fun p found =>
      ⟨fun there => ends (State.finishPageIn_of_there found there), fun away => ?away⟩, fun p u pg source => State.bringIn_of_source source,
      fun tiles table frames frame pin pg => ⟨State.fillPage_spte tiles table, State.fillPage_frame tiles frames, rfl, rfl⟩⟩
    refine ⟨fun abandoned => ends (State.finishPageIn_of_abandoned found away abandoned), fun going =>
      ⟨fun free => ends (State.finishPageIn_of_free found away going free), fun b k victim => ⟨fun left => ?left, fun u resident unpinned out => ?out,
        fun resident lost => ?lost⟩⟩⟩
    case left => exact ends (State.finishPageIn_of_left found away going victim left)
    case out => exact ends (State.finishPageIn_of_evicted found away going victim resident unpinned out)
    case lost => exact ends (State.finishPageIn_of_lost found away going victim resident lost)

end Sys2Proof.Machine
end

section
/-! SUPPORT. Packed registers, the elements and lanes they hold, and the lanes that a write of a v register keeps. -/

namespace Sys2Proof.Machine

/-! ### Digits of a packed number (09 R244) -/

theorem packNat_lt (w : Nat) (xs : List Nat) : packNat w xs < 2 ^ (w * xs.length) := by
  induction xs with
  | nil => exact Nat.one_pos
  | cons x xs ih =>
    calc packNat w (x :: xs) < 2 ^ w + 2 ^ w * packNat w xs := Nat.add_lt_add_right (Nat.mod_lt _ (Nat.two_pow_pos w)) _
      _ = 2 ^ w * (packNat w xs + 1) := by ring
      _ ≤ 2 ^ w * 2 ^ (w * xs.length) := Nat.mul_le_mul_left _ ih
      _ = 2 ^ (w * (x :: xs).length) := by rw [← Nat.pow_add, List.length_cons, Nat.mul_succ, Nat.add_comm]

/-- Past the end of the list a digit is 0. -/
theorem packNat_digit (w : Nat) (xs : List Nat) (e : Nat) : (packNat w xs >>> (w * e)) % 2 ^ w = ((xs[e]?).getD 0) % 2 ^ w := by
  rw [Nat.shiftRight_eq_div_pow]
  induction xs generalizing e with
  | nil => simp [packNat]
  | cons x xs ih =>
    cases e with
    | zero => simp [packNat]
    | succ e =>
      have rest : packNat w (x :: xs) / 2 ^ w = packNat w xs := by
        rw [packNat, Nat.add_mul_div_left _ _ (Nat.two_pow_pos w), Nat.div_eq_of_lt (Nat.mod_lt _ (Nat.two_pow_pos w)), Nat.zero_add]
      rw [Nat.mul_succ, Nat.add_comm, Nat.pow_add, ← Nat.div_div_eq_div_mul, rest, ih, List.getElem?_cons_succ]

theorem packNat_concat (w : Nat) (xs : List Nat) (x : Nat) : packNat w (xs ++ [x]) = packNat w xs + x % 2 ^ w * 2 ^ (w * xs.length) := by
  induction xs with
  | nil => simp [packNat]
  | cons y ys ih =>
    rw [List.cons_append, packNat, packNat, ih, List.length_cons, Nat.mul_succ, Nat.pow_add]
    ring

theorem elem_vPack {w : Nat} {xs : List Nat} (fits : w * xs.length ≤ 2048) (e : Nat) : elem (vPack w xs) w e = ((xs[e]?).getD 0) % 2 ^ w := by
  rw [elem, vPack, BitVec.toNat_ofNat, Nat.mod_eq_of_lt ((packNat_lt w xs).trans_le (Nat.pow_le_pow_right Nat.two_pos fits)), packNat_digit]

/-! ### Lanes (02 R28) -/

theorem lane_toNat (v : VReg) (i : Nat) : (lane v i).toNat = elem v 32 i := BitVec.extractLsb'_toNat ..

/-- A register from lanes is the packed register of their numbers. -/
theorem vOfLanes_eq_vPack (f : Nat → BitVec 32) : vOfLanes f = vPack 32 ((List.range 64).map fun i => (f i).toNat) := by
  have sums (n : Nat) : (List.range n).foldl (fun acc i => acc + (f i).toNat * 2 ^ (32 * i)) 0 =
      packNat 32 ((List.range n).map fun i => (f i).toNat) := by
    induction n with
    | zero => rfl
    | succ n ih =>
      rw [List.range_succ, List.foldl_append, ih, List.map_append, List.map_singleton, packNat_concat, List.length_map, List.length_range,
        Nat.mod_eq_of_lt (f n).isLt]
      rfl
  exact congrArg (BitVec.ofNat 2048) (sums 64)

theorem lane_vOfLanes (f : Nat → BitVec 32) {i : Nat} (h : i < 64) : lane (vOfLanes f) i = f i := by
  apply BitVec.eq_of_toNat_eq
  rw [lane_toNat, vOfLanes_eq_vPack, elem_vPack (by simp), List.getElem?_map, List.getElem?_range h, Option.map_some, Option.getD_some,
    Nat.mod_eq_of_lt (f i).isLt]

/-! ### A write of a v register (09 R245) -/

/-- What a register holds after a write of `v` in the lanes of `m`. -/
def mergeLanes (v old : VReg) (m : BitVec 64) : VReg :=
  if m = BitVec.allOnes 64 then v else vOfLanes fun i => if m.getLsbD i then lane v i else lane old i

theorem lane_mergeLanes (v old : VReg) (m : BitVec 64) {i : Nat} (h : i < 64) :
    lane (mergeLanes v old m) i = if m.getLsbD i then lane v i else lane old i := by
  unfold mergeLanes
  by_cases full : m = BitVec.allOnes 64
  · rw [if_pos full, full, BitVec.getLsbD_allOnes, decide_eq_true h, if_pos rfl]
  · rw [if_neg full, lane_vOfLanes _ h]

theorem State.wv_of_unbound {s : State} {r : BitVec 5} (unbound : (s.me.bind r.toNat).bound = false) (v : VReg) (m : BitVec 64) :
    ∃ p, s.wv r v m = .ok (s.setMe { s.me with v := s.me.v.set 0 r.toNat (mergeLanes v (s.me.v.get 0 r.toNat) m), vPois := p }) :=
  ⟨_, if_neg (Bool.eq_false_iff.mp unbound)⟩

/-- Settles O29: the write of an unbound register replaces it by its merged lanes; an element of a packed register is a digit of its number. -/
theorem vectorWriteMergesLanes : Obligations.VectorWriteMergesLanes := by
  refine ⟨fun s vd v m contexts registers unbound => ?write, fun w xs e _ fits _ => elem_vPack fits e⟩
  obtain ⟨p, write⟩ := State.wv_of_unbound unbound v m
  refine ⟨_, write, ?_⟩
  rw [State.me_setMe contexts]
  refine ⟨fun i h => ?written, fun r other => (SMap.get_set registers ..).trans (if_neg other), rfl, rfl⟩
  rw [SMap.get_set registers, if_pos rfl, lane_mergeLanes _ _ _ h]

end Sys2Proof.Machine
end

section
/-! SUPPORT. The frame of the vector ops that write one v register: element-wise arithmetic, the special functions, and the lane-wise ops. -/

namespace Sys2Proof.Machine

section
variable {s : State} {i : Instr} {f : AV}

/-- `vecOp_writes` with the op in the form that its meaning gives it. -/
theorem frame_writes {vd : BitVec 5} {mm : BitVec 3} {vs ss : List (BitVec 5)} {rd : Bool} (op : State → VOut)
    (meaning : exec i s = settle s (vecOp vd mm vs rd ss op s)) : WritesVector s i vd mm vs rd ss op :=
  vecOp_writes _ _ _ _ _ _ _ _ _ meaning rfl

variable (op : AV → State → VOut)

theorem vec1_writes (meaning : exec i s = settle s (vec1 op f s)) : WritesVector s i f.vd f.mm [f.va] false [] (op f) :=
  frame_writes (op f) meaning

theorem vec2_writes (meaning : exec i s = settle s (vec2 op f s)) : WritesVector s i f.vd f.mm [f.va, f.vb] false [] (op f) :=
  frame_writes (op f) meaning

theorem vec3_writes (meaning : exec i s = settle s (vec3 op f s)) : WritesVector s i f.vd f.mm [f.va, f.vb] true [] (op f) :=
  frame_writes (op f) meaning

end

/-- Settles O30: each op by its floating form, rounded or exact, and its integer form; the special functions by their code. -/
theorem vectorArithmeticResults : Obligations.VectorArithmeticResults := by
  refine ⟨fun s f => ?arithmetic, fun s f => ?special⟩
  case arithmetic =>
    intro ty w fm sv clamp act rounded selected two one three
    have round2 (i : Instr) (fl : Num → Num → Num → Num) (int : Nat → Nat → Nat → Nat → Nat)
        (meaning : exec i s = settle s (vec2 (arith 2 fl int) f s)) : two i (rounded 2 fl (int ty w)) :=
      vec2_writes (arith 2 fl int) meaning
    have round3 (i : Instr) (fl : Num → Num → Num → Num) (meaning : exec i s = settle s (vec3 (arith 3 fl intNone) f s)) :
        three i (rounded 3 fl (fun _ _ => 0)) := vec3_writes (arith 3 fl intNone) meaning
    have select1 (i : Instr) (fl : Num → Num → Num) (int : Nat → Nat → Nat → Nat → Nat)
        (meaning : exec i s = settle s (vec1 (exactV fl int) f s)) : one i (selected fl (int ty w)) :=
      vec1_writes (exactV fl int) meaning
    have select2 (i : Instr) (fl : Num → Num → Num) (int : Nat → Nat → Nat → Nat → Nat)
        (meaning : exec i s = settle s (vec2 (exactV fl int) f s)) : two i (selected fl (int ty w)) :=
      vec2_writes (exactV fl int) meaning
    exact ⟨round2 (.vadd f) (fun x y _ => exactSum [x, y]) intAdd rfl, round2 (.vsub f) (fun x y _ => exactSum [x, y.neg]) intSub rfl,
      round2 (.vmul f) (fun x y _ => x.mul y) intMul rfl, round3 (.vfma f) (fun x y z => exactSum [x.mul y, z]) rfl,
      round3 (.vfms f) (fun x y z => exactSum [x.mul y, z.neg]) rfl, round3 (.vnfma f) (fun x y z => exactSum [(x.mul y).neg, z]) rfl,
      select2 (.vmin f) (minMax true) intMin rfl, select2 (.vmax f) (minMax false) intMax rfl, select1 (.vabs f) (fun x _ => x.abs) intAbs rfl,
      select1 (.vneg f) (fun x _ => x.neg) intNeg rfl, select2 (.vshl f) (fun x _ => x) intShl rfl, select2 (.vshr f) (fun x _ => x) intShr rfl,
      select2 (.vsar f) (fun x _ => x) intSar rfl, select2 (.vmulh f) (fun x _ => x) intMulh rfl, select2 (.vmulhu f) (fun x _ => x) intMulh rfl,
      select2 (.vadds f) (fun x _ => x) intAdds rfl, select2 (.vsubs f) (fun x _ => x) intSubs rfl⟩
  case special =>
    intro fm applied
    have apply1 (i : Instr) (fn : Nat) (meaning : exec i s = settle s (vec1 (special fn) f s)) : applied i fn :=
      vec1_writes (special fn) meaning
    exact ⟨apply1 (.vrcp f) 0 rfl, apply1 (.vrsq f) 1 rfl, apply1 (.vsqrt f) 2 rfl, apply1 (.vexp2 f) 3 rfl, apply1 (.vlog2 f) 4 rfl,
      apply1 (.vsin f) 5 rfl, apply1 (.vcos f) 6 rfl, apply1 (.vtanh f) 7 rfl⟩

/-- Settles O31: each op by what it puts in a lane or byte; the ops off the common forms by the frame they share. -/
theorem vectorLaneOpResults : Obligations.VectorLaneOpResults := by
  intro s f all lanes bytes act a b below set
  have logic2 (i : Instr) (op : BitVec 32 → BitVec 32 → BitVec 32) (meaning : exec i s = settle s (vec2 (logicV op) f s)) :
      lanes i [f.va, f.vb] false act (fun u l => op (a u l) (b u l)) := vec2_writes (logicV op) meaning
  exact ⟨logic2 (.vand f) _ rfl, logic2 (.vor f) _ rfl, logic2 (.vxor f) _ rfl, logic2 (.vandn f) (fun x y => x &&& ~~~y) rfl,
    vec1_writes (logicV fun x _ => ~~~x) rfl, vec2_writes selV rfl, vec2_writes permV rfl, vec2_writes permbV rfl, vec1_writes (nibV false) rfl,
    vec1_writes (nibV true) rfl, vec3_writes slideupV rfl, vec2_writes slidednV rfl, frame_writes (compressV f) rfl,
    frame_writes (expandV f) rfl, frame_writes (iotaV f) rfl⟩

end Sys2Proof.Machine
end

section
/-! SUPPORT. The vector ops that write something else than one v register: a mask, a pair of v registers, an s register. -/

namespace Sys2Proof.Machine

section
variable {s u : State}

/-- `vcmp` writes the active bits of a mask (09 R255). -/
theorem exec_vcmp {g : AVF} (context : s.cur.isAwn = false) (sources : useV s [g.va, g.vb] = .ok u) (strips : stripsOk u [g.va, g.vb] = .ok ()) :
    let val (v : VReg) (i : Nat) : Num := decodeTy g.ty.toNat (lane v i).toNat
    let md : BitVec 3 := g.vd.extractLsb' 0 3
    exec (.vcmp g) s = ran (u.wmask md (maskOf (u.rmask g.mm) (u.me.m.get 0 md.toNat)
      (fun i => predicate g.fn.toNat (val (u.rv g.va) i) (val (u.rv g.vb) i)))) := by
  change settle s (vcmp g s) = _
  simp only [vcmp, notAwn_ok context, sources, strips, run_bind_ok, settle_ok]
  rfl

variable {f : AV}

/-- An op on a register pair writes the two halves of its sequence, one register after the other (09 R264). -/
theorem settle_pairV (seq : Nat → VReg → VReg → List Nat) {t v : State} (context : s.cur.isAwn = false) (sources : useV s [f.va, f.vb] = .ok u)
    (first : destV u f.vd (f.mm != 0) false = .ok ()) (second : destV u (f.vd + 1) (f.mm != 0) false = .ok ())
    (strips : stripsOk u [f.va, f.vb] = .ok ()) :
    let w := tyWidth f.ty.toNat
    let xs := seq w (u.rv f.va) (u.rv f.vb)
    u.wv f.vd (vPack w (xs.take (elems w))) (u.rmask f.mm) = .ok t → t.wv (f.vd + 1) (vPack w (xs.drop (elems w))) (u.rmask f.mm) = .ok v →
      settle s (pairV seq f s) = ran v := by
  intro w xs low high
  simp only [pairV, notAwn_ok context, sources, first, second, strips, run_bind_ok, State.act]
  rw [low, run_bind_ok, high, settle_ok]

/-- `vext` writes an element, extended, or 0 past the last one (09 R266). -/
theorem exec_vext (context : s.cur.isAwn = false) (readable : Readable s [f.vb]) (sources : useV s [f.va] = .ok u)
    (strips : stripsOk u [f.va] = .ok ()) :
    let w := tyWidth f.ty.toNat
    let e := (u.rs f.vb).toNat
    exec (.vext f) s = ran (u.ws f.vd (if e ≥ elems w then 0 else extElem f.ty.toNat (elem (u.rv f.va) w e))) := by
  change settle s (vext f s) = _
  simp only [vext, notAwn_ok context, useS_ok readable, sources, strips, run_bind_ok, settle_ok]

/-- A reduction writes its result and counts its event (09 R267). -/
theorem settle_vred (fn : Nat) (context : s.cur.isAwn = false) (sources : useV s [f.va] = .ok u) (strips : stripsOk u [f.va] = .ok ()) :
    let r := reduce fn f.ty.toNat 64 u.rm (activeElems (tyWidth f.ty.toNat) (u.rmask f.mm) (u.rv f.va))
    settle s (vred fn f s) = ran ((u.ws f.vd (wd r.1)).countV [r.2]) := by
  simp only [vred, notAwn_ok context, sources, strips, run_bind_ok]
  rfl

end

/-- Settles O32: the ops that write one v register by their frame, each of the others by its own lemma. -/
theorem vectorElementAndReductionResults : Obligations.VectorElementAndReductionResults := by
  refine ⟨fun s f g => ?elements, fun s f g context => ?others⟩
  case elements =>
    exact ⟨vec1_writes classV rfl, frame_writes (bcastV f) rfl, frame_writes (insV f) rfl,
      vec1_writes (scanV 0) rfl, vec1_writes (scanV 1) rfl, vec1_writes (scanV 2) rfl, frame_writes (cvtV g) rfl,
      frame_writes (qntV g) rfl, frame_writes (deqV g) rfl⟩
  case others =>
    exact ⟨fun u sources strips => exec_vcmp context sources strips,
      fun u t v sources first second strips =>
        ⟨settle_pairV zipSeq context sources first second strips, settle_pairV unzipSeq context sources first second strips⟩,
      fun u readable sources strips => exec_vext context readable sources strips,
      fun u sources strips =>
        ⟨settle_vred 0 context sources strips, settle_vred 1 context sources strips, settle_vred 2 context sources strips⟩⟩

end Sys2Proof.Machine
end

section
/-! SUPPORT. The mask ops, and the traps of the vector ops: on the awn core, and at a destination that is bound for input. -/

namespace Sys2Proof.Machine

/-! ### Mask ops (09 R271) -/

section
variable {s : State} {f : AM} (context : s.cur.isAwn = false)
include context

theorem settle_maskM (op : BitVec 64 → BitVec 64 → BitVec 64) :
    settle s (maskM op f s) = ran (s.wmask f.md (op (s.rmask f.ma) (s.rmask f.mb))) := by
  rw [maskM, notAwn_ok context, run_bind_ok, settle_ok]

theorem settle_maskS (op : BitVec 64 → Word) : settle s (maskS op f s) = ran (s.ws f.sreg (op (s.rmask f.ma))) := by
  rw [maskS, notAwn_ok context, run_bind_ok, settle_ok]

theorem exec_mfroms (readable : Readable s [f.sreg]) : exec (.mfroms f) s = ran (s.wmask f.md (s.rs f.sreg)) := by
  change execMfroms f s = _
  rw [execMfroms, notAwn_ok context, run_bind_ok, useS_ok readable, run_bind_ok, settle_ok]

end

/-! ### The awn core (09 R251) -/

/-- An op whose first step traps takes the trap from the state before the op. -/
theorem settle_bind_trap {α : Type} {s : State} {t : Trap} {r : Run α} (trap : r = .error (.trap t)) (k : α → Run State) :
    settle s (r >>= k) = trapped s t := by
  rw [trap, run_bind_error, settle_trap]

section
variable {s : State} (awn : s.cur.isAwn = true)
include awn

theorem notAwn_trap : notAwn s = .error (.trap ⟨4, 0x2002, 0, 0, none⟩) := by
  rw [notAwn, awn]
  rfl

theorem useF_trap (rs : List (BitVec 5)) : useF s rs = .error (.trap ⟨4, 0x2002, 0, 0, none⟩) := by
  rw [useF, notAwn_trap awn, run_bind_error]

end

/-! ### The bindings of an op's registers (09 R247) -/

theorem poisonedV_ok {c : Ctx} {rs : List (BitVec 5)} (clean : ∀ r ∈ rs, ∀ l, l < 64 → c.vPois.find (64 * r.toNat + l) = none) :
    poisonedV c rs = .ok () := by
  induction rs with
  | nil => rfl
  | cons r rs ih =>
    have unpoisoned : (List.range 64).findSome? (fun l => c.vPois.find (64 * r.toNat + l)) = none :=
      List.findSome?_eq_none_iff.mpr fun l h => clean r List.mem_cons_self l (List.mem_range.mp h)
    rw [poisonedV, unpoisoned]
    exact ih fun x h => clean x (List.mem_cons_of_mem _ h)

theorem popStrip_of_unbound {s : State} {r : Nat} (unbound : (s.me.bind r).bound = false) : popStrip s r = .ok s := by
  simp [popStrip, unbound]

theorem popStrips_of_unbound {s : State} {rs : List (BitVec 5)} (unbound : ∀ r ∈ rs, (s.me.bind r.toNat).bound = false) :
    rs.foldlM (fun s r => popStrip s r.toNat) s = .ok s := by
  induction rs with
  | nil => rfl
  | cons r rs ih =>
    rw [List.foldlM_cons, popStrip_of_unbound (unbound r List.mem_cons_self), run_bind_ok]
    exact ih fun x h => unbound x (List.mem_cons_of_mem _ h)

/-- Source registers that no stream is bound to and no lane of which is poisoned are read as they stand. -/
theorem useV_of_unbound {s : State} {rs : List (BitVec 5)}
    (plain : ∀ r ∈ rs, (s.me.bind r.toNat).bound = false ∧ (s.src.bind r.toNat).bound = false ∧
      ∀ l, l < 64 → s.src.vPois.find (64 * r.toNat + l) = none) : useV s rs = .ok s := by
  have clean (p : BitVec 5 → Bool) : poisonedV s.src (rs.filter p) = .ok () :=
    poisonedV_ok fun r h => (plain r (List.mem_of_mem_filter h)).2.2
  have inward : rs.find? (fun r => (s.src.bind r.toNat).bound && (s.src.bind r.toNat).out) = none :=
    List.find?_eq_none.mpr fun r h => by simp [(plain r h).2.1]
  rw [useV, clean, run_bind_ok, popStrips_of_unbound fun r h => (plain r h).1, run_bind_ok, clean, run_bind_ok, inward, run_bind_ok]

/-- A destination bound for input traps, whatever the mask and whether or not the op reads it. -/
theorem destV_of_boundIn {s : State} {r : BitVec 5} (bound : (s.src.bind r.toNat).bound = true) (inward : (s.src.bind r.toNat).out = false)
    (masked reads : Bool) : destV s r masked reads = .error (.trap ⟨6, 0x7003, BitVec.ofNat 10 r.toNat, 0, none⟩) := by
  simp [destV, bound, inward]

/-- An op of two sources that reads them as they stand takes the trap of its destination. -/
theorem settle_vec2_of_destV {s : State} {f : AV} {t : Trap} (op : AV → State → VOut) (context : s.cur.isAwn = false)
    (sources : useV s [f.va, f.vb] = .ok s) (trap : destV s f.vd (f.mm != 0) false = .error (.trap t)) : settle s (vec2 op f s) = trapped s t := by
  have useNone : useS s [] = .ok () := useS_ok fun r h => absurd h List.not_mem_nil
  have use : useV s ([f.va, f.vb] ++ if false then [f.vd] else []) = .ok s := sources
  rw [vec2, vecOp, notAwn_ok context, run_bind_ok, useNone, run_bind_ok, use, run_bind_ok]
  exact settle_bind_trap trap _

/-- Settles O33: the mask ops by their form; on the awn core each op's first test is the one that traps; a destination by its binding. -/
theorem maskOpsAndVectorTraps : Obligations.MaskOpsAndVectorTraps := by
  refine ⟨fun s f context => ?masks, fun s f g h awn => ?awn, fun s f context _ plain bound inward => ?bindings⟩
  case masks =>
    intro a b
    exact ⟨settle_maskM context (fun a b => a &&& b), settle_maskM context (fun a b => a ||| b), settle_maskM context (fun a b => a ^^^ b),
      settle_maskM context (fun a b => a &&& ~~~b), settle_maskM context (fun a _ => ~~~a), settle_maskM context (fun a _ => a),
      exec_mfroms context, settle_maskS context (fun a => a), settle_maskS context (fun a => wd (popCount a.toNat 64)),
      settle_maskS context (fun a => wd (lowBit a.toNat 64)), rfl⟩
  case awn =>
    have refused {k : Unit → Run State} : settle s (notAwn s >>= k) = trapped s ⟨4, 0x2002, 0, 0, none⟩ := settle_bind_trap (notAwn_trap awn) k
    have refusedF {rs : List (BitVec 5)} {k : Unit → Run State} : settle s (useF s rs >>= k) = trapped s ⟨4, 0x2002, 0, 0, none⟩ :=
      settle_bind_trap (useF_trap awn rs) k
    simp only [List.forall_mem_cons, List.not_mem_nil, false_imp_iff, implies_true, and_true]
    exact ⟨refused, refused, refused, refused, refused, refused, refused, refused, refused, refused, refused, refusedF, refusedF⟩
  case bindings =>
    have trap := destV_of_boundIn bound inward (f.mm != 0) false
    exact ⟨settle_vec2_of_destV _ context (useV_of_unbound plain) trap, settle_vec2_of_destV _ context (useV_of_unbound plain) trap⟩

end Sys2Proof.Machine
end

section
/-! SUPPORT. A slot-table cycle of a die whose routers hold no flit: it brings the slot counter up to the clock. -/

namespace Sys2Proof.Machine

section
variable {s : State} {d : Nat}

theorem State.nextSlot_of_no_tile (s : State) (d : Nat) : s.nextSlot d [] = none := by simp [State.nextSlot]

/-- With no flit to forward, the cycle catches up with the slots that have passed. -/
theorem exec_slotTableCycle_of_empty (empty : s.slotTiles d = []) :
    exec (.slotTableCycle d) s = .next (s.setDie d { s.die d with slotAt := max (s.die d).slotAt s.time }) := by
  have stays : (s.setDie d { s.die d with slotAt := max (s.die d).slotAt s.time }).slotTiles d = [] := empty
  change execSlotTableCycle d s = _
  rw [execSlotTableCycle, empty, List.foldl_nil]
  simp only [State.nextSlot_of_no_tile, stays, List.isEmpty_nil, if_true]

/-- So it changes the state of a die whose counter is behind the clock. -/
theorem exec_slotTableCycle_ne_self (wf : s.dies.wf {} = true) (empty : s.slotTiles d = []) (behind : (s.die d).slotAt < s.time) :
    exec (.slotTableCycle d) s ≠ .next s := by
  intro still
  have same := Host.Outcome.next.inj ((exec_slotTableCycle_of_empty empty).symm.trans still)
  have caughtUp : ((s.setDie d { s.die d with slotAt := max (s.die d).slotAt s.time }).die d).slotAt = max (s.die d).slotAt s.time :=
    congrArg Die.slotAt ((State.die_setDie s wf d d _).trans (if_pos rfl))
  rw [same] at caughtUp
  omega

end

/-- The reset state one cycle later: no router of die 0 holds a flit, and its slot counter still stands at 0. -/
def oneCycleOn : State := { State.reset with time := 1 }

/-- Refutes O41: a slot-table cycle of a die without flits is said to change nothing, and it brings the die's slot counter up to the clock. -/
theorem not_configurationAndDieResults : ¬ Obligations.ConfigurationAndDieResults := by
  rintro ⟨-, steps⟩
  obtain ⟨still, -⟩ := steps oneCycleOn 0
  have empty : oneCycleOn.slotTiles 0 = [] := rfl
  exact exec_slotTableCycle_ne_self rfl empty (by decide) (still empty)

end Sys2Proof.Machine
end

section
/-! SUPPORT. The message ops: what they offer to the router, and the state in which they do. -/

namespace Sys2Proof.Machine

/-! ### Registers and the router (06 R148, 12 R355) -/

/-- Of registers that may be read, any may be. -/
theorem Readable.subset {s : State} {rs ts : List (BitVec 5)} (h : Readable s rs) (sub : ts ⊆ rs) : Readable s ts := fun r m => h r (sub m)

/-- The router takes a packet: the agent is a context, or the router has room for a handler's packet. -/
theorem routerTakes {u : State} (room : u.cur.isAwn = false ∨ u.injectRoom u.cur.tile = true) : (u.cur.isAwn && !u.injectRoom u.cur.tile) = false := by
  rcases room with context | taken
  · rw [context, Bool.false_and]
  · rw [taken, Bool.not_true, Bool.and_false]

theorem sendPacket_of_room {u : State} (room : u.cur.isAwn = false ∨ u.injectRoom u.cur.tile = true) (counted : Bool) (kw : BitVec 3) (p : Packet) :
    sendPacket u counted kw p = .ok (((if counted then u.countSent else u).issueOp 4 kw .none).offer u.cur u.nextOp p) :=
  if_neg (ne_true_of_eq_false (routerTakes room))

/-- An op whose last step sends a packet, and is counted, sends it. -/
theorem sends_of_sendPacket {s u : State} {i : Instr} {kw : BitVec 3} {p : Packet} (runs : exec i s = settle s (sendPacket u true kw p)) :
    Sends s i u kw p := by
  intro room
  rw [runs, sendPacket_of_room room, settle_ok, if_pos rfl]

/-! ### The message ops (10 R306 to R308) -/

section
variable {s u : State} {f : EX}

/-- The message of `amsend` without its payload, as the registers of u give it. -/
def amMessage (f : EX) (u : State) : Packet :=
  { u.header 0 with
    dest := if parF f.par 16 16 == 1 then 0 else bits (u.rs f.ra) 11 0
    pkg := if parF f.par 16 16 == 1 then u.ua.pkg else bits (u.rs f.ra) 21 12
    byRoute := parF f.par 16 16 == 1, route := parF f.par 15 8, handler := parF f.par 7 0, arg := u.rs f.rb }

/-- A message goes by a route class, or to a tile of a package that messages reach. -/
def amReaches (f : EX) (u : State) : Prop :=
  (parF f.par 16 16 == 1) = true ∨ (bits (u.rs f.ra) 11 0 < 2560 ∧ u.knownPkg (bits (u.rs f.ra) 21 12) = true)

theorem needDest_ok (reaches : amReaches f u) : need (parF f.par 16 16 == 1 ||
    (decide (bits (u.rs f.ra) 11 0 < 2560) && u.knownPkg (bits (u.rs f.ra) 21 12))) 6 0x8001 0 0 = .ok () := by
  rcases reaches with route | ⟨tile, known⟩
  · rw [route, Bool.true_or, need_true]
  · rw [decide_eq_true tile, known, Bool.and_self, Bool.or_true, need_true]

theorem amSources_ok (readable : Readable s [f.ra, f.rb]) : useS s (if parF f.par 16 16 == 1 then [f.rb] else [f.ra, f.rb]) = .ok () := by
  split
  · exact useS_ok (readable.subset (List.subset_cons_self ..))
  · exact useS_ok readable

theorem amsend_sends (tokens : TokensFree s (kwX f) (kpX f)) (readable : Readable s [f.ra, f.rb]) (plain : flX f = false) (reaches : amReaches f s) :
    Sends s (.amsend f) s (kwX f) (amMessage f s) := by
  apply sends_of_sendPacket
  change execAmsend f s = _
  simp only [execAmsend, useTok_ok tokens, plain, Bool.false_eq_true, if_false, amSources_ok readable, payloadOf, Bool.not_false, if_true,
    needDest_ok reaches, run_bind_ok]
  rfl

theorem amsend_sends_payload (tokens : TokensFree s (kwX f) (kpX f)) (readable : Readable s [f.ra, f.rb]) (loaded : flX f = true)
    (context : s.cur.isAwn = false) (source : useV s [f.rc] = .ok u) (reaches : amReaches f u) (strips : stripsOk u [f.rc] = .ok ()) :
    Sends s (.amsend f) u (kwX f) { amMessage f u with hasPayload := true, payload := u.rv f.rc } := by
  apply sends_of_sendPacket
  change execAmsend f s = _
  simp only [execAmsend, useTok_ok tokens, loaded, if_true, notAwn_ok context, amSources_ok readable, payloadOf, Bool.not_true, Bool.false_eq_true,
    if_false, source, needDest_ok reaches, strips, run_bind_ok]
  rfl

section
variable (tokens : TokensFree s (kwX f) (kpX f)) (awn : s.cur.isAwn = true) (plain : flX f = false) (readable : Readable s [f.rb])
include tokens awn plain readable

theorem exec_amreply_of_none (noMessage : (s.tile s.cur.tile).msg = none) : exec (.amreply f) s = ran s := by
  change execAmreply f s = _
  simp only [execAmreply, useTok_ok tokens, awn, need_true, plain, Bool.false_eq_true, if_false, useS_ok readable, noMessage, run_bind_ok, settle_ok]

theorem amreply_sends {m : Packet} {slot : Option Nat} (handled : (s.tile s.cur.tile).msg = some (m, slot)) :
    Sends s (.amreply f) s (kwX f) { s.header 0 with dest := m.src, pkg := m.srcPkg, handler := parF f.par 7 0, arg := s.rs f.rb } := by
  apply sends_of_sendPacket
  change execAmreply f s = _
  simp only [execAmreply, useTok_ok tokens, awn, need_true, plain, Bool.false_eq_true, if_false, useS_ok readable, handled, run_bind_ok]

end

theorem exec_amreply_of_context (tokens : TokensFree s (kwX f) (kpX f)) (context : s.cur.isAwn = false) :
    exec (.amreply f) s = trapped s ⟨4, 0x2002, if s.cur.ctx = 0 then 2 else 1, 0, none⟩ := by
  have code : BitVec.ofNat 10 (if s.cur.ctx = 0 then 2 else 1) = if s.cur.ctx = 0 then 2 else 1 := apply_ite ..
  change execAmreply f s = _
  simp only [execAmreply, useTok_ok tokens, context, need_false, run_bind_ok, run_bind_error, settle_trap, code]

/-- The contribution of `redsend`, plain (10 R308). -/
def contributionOf (f : EX) (u : State) : Packet :=
  { u.header 1 with byRoute := true, route := parF f.par 7 0, rtype := parF f.par 9 8, hdr := u.rs f.ra, hasPayload := true, payload := u.rv f.rc }

section
variable (tokens : TokensFree s (kwX f) (kpX f)) (context : s.cur.isAwn = false) (readable : Readable s [f.ra]) (source : useV s [f.rc] = .ok u)
  (legal : bits (u.rs f.ra) 63 56 = 0) (strips : stripsOk u [f.rc] = .ok ())
include tokens context readable source legal strips

theorem redsend_sends (plain : flX f = false) : Sends s (.redsend f) u (kwX f) (contributionOf f u) := by
  apply sends_of_sendPacket
  change execRedsend f s = _
  simp only [execRedsend, useTok_ok tokens, notAwn_ok context, useS_ok readable, source, legal, beq_self_eq_true, need_true, plain, Bool.not_false,
    if_true, strips, run_bind_ok]
  rfl

theorem redsend_sends_coded (coded : flX f = true) {pl : List Place} {v : State} {bs : List (Byte × Bool)}
    (checked : checkAll u u.who 1 false (cut (feedbackAddr (u.rs f.ra)) 256) = .ok pl)
    (resident : reside u u.cur.tile pl (feedbackAddr (u.rs f.ra)) = .ok ())
    (served : readAll u u.who .now false ((cut (feedbackAddr (u.rs f.ra)) 256).zip pl) = .ok (v, bs)) :
    Sends s (.redsend f)
      (writeAll v v.who false false v.nextOp ((cut (feedbackAddr (u.rs f.ra)) 256).zip pl) (codeContribution (contributionOf f u) bs).2)
      (kwX f) (codeContribution (contributionOf f u) bs).1 := by
  apply sends_of_sendPacket
  change execRedsend f s = _
  simp only [execRedsend, useTok_ok tokens, notAwn_ok context, useS_ok readable, source, legal, beq_self_eq_true, need_true, coded, Bool.not_true,
    Bool.false_eq_true, if_false, checked, strips, resident, served, run_bind_ok]
  rfl

end

/-- A tile whose handler table holds the address in ra as entry h (10 R307). -/
def State.putHandler (s : State) (f : EX) (u : State) (t : Nat) : State :=
  u.setTile t { u.tile t with
    handlers := if parF f.par 7 0 < 240 then (u.tile t).handlers.set 0 (parF f.par 7 0) (s.rs f.ra)
      else (u.tile t).handlers.put (parF f.par 7 0) (s.rs f.ra) }

/-- The tiles whose table `amhinst` writes: every tile of the gang where it says so, else the executing one. -/
def State.handlerTiles (s : State) (f : EX) : List Nat :=
  match s.taskOf s.cur with
  | some k => if flX f then (s.task k).tiles else [s.cur.tile]
  | none => [s.cur.tile]

theorem State.handlerTiles_of_own (own : flX f = false ∨ s.taskOf s.cur = none) : s.handlerTiles f = [s.cur.tile] := by
  rw [State.handlerTiles]
  rcases own with one | none
  · cases s.taskOf s.cur <;> simp [one]
  · simp [none]

theorem State.handlerTiles_of_gang {k : Nat} (gang : flX f = true) (task : s.taskOf s.cur = some k) : s.handlerTiles f = (s.task k).tiles := by
  simp only [State.handlerTiles, task, gang, if_true]

theorem exec_amhinst (readable : Readable s [f.ra]) (allowed : parF f.par 7 0 < 240 ∨ s.handler = true) :
    exec (.amhinst f) s = ran (((s.handlerTiles f).foldl (s.putHandler f) s).ws f.rc 0) := by
  have right : (decide (parF f.par 7 0 < 240) || s.handler) = true := by simpa using allowed
  change execAmhinst f s = _
  simp only [execAmhinst, right, need_true, useS_ok readable, run_bind_ok]
  rfl

end

/-! ### The awn queue (12 R355) -/

section
variable {s : State} {t : Nat} {p : Packet}

theorem exec_awnMessageArrival_of_full (full : 16 ≤ (s.tile t).awnQ.length ∨ (p.hasPayload = true ∧ ∀ k, k < 16 → (s.tile t).slots.get false k = true)) :
    exec (.awnMessageArrival t p) s = .next (s.again (.awnMessageArrival t p)) := by
  refine if_pos ?_
  rcases full with length | ⟨payload, used⟩
  · simp [length]
  · have noSlot : (List.range 16).find? (fun k => !(s.tile t).slots.get false k) = none := by simpa using used
    simp [payload, noSlot]

theorem exec_awnMessageArrival_of_bare (room : (s.tile t).awnQ.length < 16) (bare : p.hasPayload = false) :
    exec (.awnMessageArrival t p) s =
      .next ((s.setTile t { s.tile t with awnQ := (s.tile t).awnQ ++ [(p, none)] }).post (.handlerStart t)) := by
  change execAwnMessageArrival t p s = _
  rw [execAwnMessageArrival]
  simp [bare, Nat.not_le.mpr room]

theorem exec_awnMessageArrival_of_slot {k : Nat} (room : (s.tile t).awnQ.length < 16) (payload : p.hasPayload = true)
    (slot : (List.range 16).find? (fun k => !(s.tile t).slots.get false k) = some k) :
    let u := s.putPayload t k (plainPayload p) (plainPois p)
    exec (.awnMessageArrival t p) s = .next ((u.setTile t { u.tile t with
      awnQ := (s.tile t).awnQ ++ [(p, some k)], slots := (s.tile t).slots.set false k true }).post (.handlerStart t)) := by
  change execAwnMessageArrival t p s = _
  rw [execAwnMessageArrival]
  simp [payload, slot, Nat.not_le.mpr room]

end

/-! ### Handlers (10 R305) -/

section
variable {s : State} {t : Nat} {p : Packet} {slot : Option Nat} {q : List (Packet × Option Nat)}

theorem exec_handlerStart_of_idle (idle : s.awnStopped t = true ∨ (s.tile t).awnQ = []) : exec (.handlerStart t) s = .next s := by
  change execHandlerStart t s = _
  rw [execHandlerStart]
  rcases idle with stopped | empty
  · rw [if_pos stopped]
  · simp [empty]

theorem exec_handlerStart_of_busy (running : (s.tile t).msg.isSome = true) (oldest : (s.tile t).awnQ = (p, slot) :: q) (message : p.kind ≠ 4) :
    exec (.handlerStart t) s = .next s := by
  change execHandlerStart t s = _
  simp [execHandlerStart, oldest, message, running]

theorem exec_handlerStart_of_post (going : s.awnStopped t = false) (oldest : (s.tile t).awnQ = (p, slot) :: q) (mailbox : p.kind = 4) :
    exec (.handlerStart t) s =
      .next (((s.setTile t { s.tile t with awnQ := q }).post (.mailboxPostArrival t p)).post (.handlerStart t)) := by
  change execHandlerStart t s = _
  simp [execHandlerStart, going, oldest, mailbox]

/-- The state in which the oldest message of a tile has left its awn queue. -/
def State.takeOldest (s : State) (t : Nat) (q : List (Packet × Option Nat)) : State := s.setTile t { s.tile t with awnQ := q }

/-- The address space of a handler that starts while its tile's running slot holds `task` (03 R487). -/
def State.handlerSpace (s : State) (t : Nat) (task : Option Nat) (p : Packet) : Word :=
  if p.handler % 256 ≥ 240 || task.isNone then Config.firmwareSpace (dieOf t) else recRoot (s.runRec t)

/-- A tile that handles a message. -/
def Tile.handling (x : Tile) (space : Word) (task : Option Nat) (p : Packet) (slot : Option Nat) : Tile :=
  { x with msg := some (p, slot), msgSpace := space, msgTask := task }

/-- The state in which a tile handles a message, counted as received for its launch (02 R55). -/
def State.beginHandler (s : State) (t : Nat) (task : Option Nat) (p : Packet) (slot : Option Nat) : State :=
  (s.setTile t ((s.tile t).handling (s.handlerSpace t task p) task p slot)).onLaunch p.launch (fun l => l.receive (akey ⟨t, 15⟩) 1)

/-- The state in which the handler of a message runs from its entry's address. -/
def State.enterHandler (s : State) (t : Nat) (p : Packet) (slot : Option Nat) (pc : Word) : State :=
  s.setCtx ⟨t, 15⟩ ((s.ctx ⟨t, 15⟩).enterHandler t p slot pc)

section
variable (free : (s.tile t).msg = none) (going : s.awnStopped t = false) (oldest : (s.tile t).awnQ = (p, slot) :: q) (message : p.kind ≠ 4)
include free going oldest message

theorem exec_handlerStart_of_message : exec (.handlerStart t) s =
    let u := s.takeOldest t q
    let h := u.handlerAt t (p.handler % 256)
    if h = 0 then .next (u.dropMessage t p slot)
    else .next ((u.beginHandler t (s.tile t).run p slot).enterHandler t p slot (h &&& ~~~7)) := by
  have idle : ¬ (s.tile t).msg.isSome = true := by rw [free]; exact Bool.false_ne_true
  change execHandlerStart t s = _
  rw [execHandlerStart, going]
  simp only [oldest, Bool.false_eq_true, if_false]
  exact (if_neg message).trans ((if_neg idle).trans rfl)

end
end

/-! ### What a handler starts with (10 R305) -/

/-- Of four registers written in turn each reads what was written to it. -/
theorem Ctx.putS_args {c : Ctx} (wf : c.s.wf 0 = true) (w1 w2 w3 w4 : Word) :
    let d := (((c.putS 1 w1).putS 2 w2).putS 3 w3).putS 4 w4
    d.s.get 0 1 = w1 ∧ d.s.get 0 2 = w2 ∧ d.s.get 0 3 = w3 ∧ d.s.get 0 4 = w4 := by
  have wf1 := Ctx.putS_wf wf 1 w1
  have wf2 := Ctx.putS_wf wf1 2 w2
  have wf3 := Ctx.putS_wf wf2 3 w3
  simp only [Ctx.putS_get _ wf3, Ctx.putS_get _ wf2, Ctx.putS_get _ wf1, Ctx.putS_get _ wf]
  simp

/-- What a launch counts leaves every part of the state but the launches. -/
theorem State.onLaunch_leaves {β : Type} (part : State → β) (frame : ∀ (u : State) (ls : SMap Launch), part { u with launches := ls } = part u)
    (s : State) (id : Option Nat) (f : Launch → Launch) : part (s.onLaunch id f) = part s := by
  obtain ⟨ls, counted⟩ := State.onLaunch_eq s id f
  rw [counted, frame]

theorem State.onLaunch_launches (s u : State) (same : u.launches = s.launches) (id : Option Nat) (f : Launch → Launch) :
    (u.onLaunch id f).launches = (s.onLaunch id f).launches := by
  cases id with
  | none => exact same
  | some i =>
    simp only [State.onLaunch, same]
    cases s.launches.find i <;> simp [same]

section
variable {s : State}

theorem State.takeOldest_tile (wf : s.tiles.wf {} = true) (t : Nat) (q : List (Packet × Option Nat)) :
    (s.takeOldest t q).tile t = { s.tile t with awnQ := q } := (State.tile_setTile s wf t t _).trans (if_pos rfl)

theorem State.takeOldest_tiles_wf (wf : s.tiles.wf {} = true) (t : Nat) (q : List (Packet × Option Nat)) : (s.takeOldest t q).tiles.wf {} = true :=
  SMap.wf_set wf ..

/-- A handler that starts is its tile's, in the awn core's context, and counts for its launch; memory stays. -/
theorem State.enterHandler_beginHandler (tiles : s.tiles.wf {} = true) (ctxs : s.ctxs.wf {} = true) (t : Nat) (task : Option Nat) (p : Packet)
    (slot : Option Nat) (pc : Word) :
    let v := (s.beginHandler t task p slot).enterHandler t p slot pc
    v.tile t = (s.tile t).handling (s.handlerSpace t task p) task p slot ∧ v.ctx ⟨t, 15⟩ = (s.ctx ⟨t, 15⟩).enterHandler t p slot pc ∧
    v.launches = (s.onLaunch p.launch (fun l => l.receive (akey ⟨t, 15⟩) 1)).launches ∧ v.mem = s.mem := by
  intro v
  have begunTiles : (s.beginHandler t task p slot).tiles = _ := State.onLaunch_leaves State.tiles (fun _ _ => rfl) ..
  have begunCtxs : (s.beginHandler t task p slot).ctxs = s.ctxs := State.onLaunch_leaves State.ctxs (fun _ _ => rfl) ..
  have begunCore : (s.beginHandler t task p slot).ctx ⟨t, 15⟩ = s.ctx ⟨t, 15⟩ := congrArg (fun m : SMap Ctx => m.get ({} : Ctx) (akey ⟨t, 15⟩)) begunCtxs
  refine ⟨?tile, ?core, State.onLaunch_launches s (s.setTile t _) rfl .., State.onLaunch_leaves State.mem (fun _ _ => rfl) ..⟩
  case tile =>
    have written := State.tile_setTile s tiles t t ((s.tile t).handling (s.handlerSpace t task p) task p slot)
    exact (congrArg (fun m : SMap Tile => m.get ({} : Tile) t) begunTiles).trans (written.trans (if_pos rfl))
  case core =>
    have written := State.ctx_setCtx (s.beginHandler t task p slot) (begunCtxs ▸ ctxs) ⟨t, 15⟩ ⟨t, 15⟩
      (((s.beginHandler t task p slot).ctx ⟨t, 15⟩).enterHandler t p slot pc)
    exact (written.trans (if_pos rfl)).trans (congrArg (Ctx.enterHandler · t p slot pc) begunCore)

end

/-- Settles O39: each message op by what it offers; an arrival by the room of the queue; a handler's start by the oldest message. -/
theorem messageAndAwnResults : Obligations.MessageAndAwnResults := by
  refine ⟨fun s f => ⟨fun tokens => ⟨?amsend, ?amsendPayload, ?amreply, exec_amreply_of_context tokens, ?redsend⟩, ?amhinst⟩,
    fun s t p => ⟨exec_awnMessageArrival_of_full, exec_awnMessageArrival_of_bare, ?slot, exec_handlerStart_of_idle, fun _ _ => exec_handlerStart_of_busy,
      fun _ _ => exec_handlerStart_of_post, ?message⟩⟩
  case amsend => exact fun readable plain reaches => amsend_sends tokens readable plain reaches
  case amsendPayload =>
    exact fun readable loaded context u source reaches strips => amsend_sends_payload tokens readable loaded context source reaches strips
  case amreply =>
    exact fun awn plain readable => ⟨exec_amreply_of_none tokens awn plain readable, fun m slot => amreply_sends tokens awn plain readable⟩
  case redsend =>
    exact fun context readable u source legal strips => ⟨redsend_sends tokens context readable source legal strips,
      fun coded pl v bs => redsend_sends_coded tokens context readable source legal strips coded⟩
  case amhinst =>
    refine fun readable allowed => ⟨fun own => ?own, fun k gang task => ?gang⟩
    case own => rw [exec_amhinst readable allowed, State.handlerTiles_of_own own]; rfl
    case gang => rw [exec_amhinst readable allowed, State.handlerTiles_of_gang gang task]; rfl
  case slot =>
    intro k room payload inside free lowest
    refine exec_awnMessageArrival_of_slot room payload (List.find?_range_eq_some.mpr ⟨?_, List.mem_range.mpr inside, fun j below => ?_⟩)
    · simp [free]
    · simp [lowest j below]
  case message =>
    intro slot q free going oldest message
    have start := exec_handlerStart_of_message free going oldest message
    refine ⟨fun empty => start.trans (if_pos empty), fun entry tiles ctxs => ⟨_, start.trans (if_neg entry), ?_⟩⟩
    obtain ⟨tile, core, counted, mem⟩ := State.enterHandler_beginHandler (State.takeOldest_tiles_wf tiles t q) ctxs t (s.tile t).run p slot
      ((s.takeOldest t q).handlerAt t (p.handler % 256) &&& ~~~7)
    refine ⟨congrArg Tile.msg tile, (congrArg Tile.awnQ tile).trans (congrArg Tile.awnQ (State.takeOldest_tile tiles t q)), congrArg Ctx.st core,
      congrArg Ctx.pc core, counted.trans (State.onLaunch_launches s (s.takeOldest t q) rfl ..), mem, fun wf => ?_⟩
    rw [core]
    exact Ctx.putS_args wf ..

end Sys2Proof.Machine
end

section
/-! SUPPORT. Expert routing: its ops, and what its messages do where they arrive. -/

namespace Sys2Proof.Machine

/-! ### The agent of an op that reads v registers (10 R291) -/

/-- A run that ends leaves the agent that executes. -/
def KeepsAgent (s : State) (r : Run State) : Prop := ∀ u, r = .ok u → u.cur = s.cur

section
variable {s : State}

theorem KeepsAgent.ok {u : State} (same : u.cur = s.cur) : KeepsAgent s (.ok u) := fun _ ends => (Except.ok.inj ends) ▸ same

theorem KeepsAgent.error {e : Stop} : KeepsAgent s (.error e) := by
  intro u ends
  cases ends

theorem KeepsAgent.test {x : Run Unit} {k : Unit → Run State} (next : KeepsAgent s (k ())) : KeepsAgent s (x >>= k) := by
  cases x with
  | error e => exact .error
  | ok a => exact next

theorem KeepsAgent.bind {x : Run State} {k : State → Run State} (first : KeepsAgent s x) (next : ∀ v, v.cur = s.cur → KeepsAgent s (k v)) :
    KeepsAgent s (x >>= k) := by
  cases x with
  | error e => exact .error
  | ok v => exact next v (first v rfl)

theorem popStrip_keepsAgent (s : State) (r : Nat) : KeepsAgent s (popStrip s r) := by
  unfold popStrip
  dsimp only
  split
  · exact .ok rfl
  · split
    · split
      · exact .ok rfl
      · exact .error
    · split
      · exact .ok rfl
      · exact .ok rfl

theorem popStrips_keepsAgent (s : State) (rs : List (BitVec 5)) : KeepsAgent s (rs.foldlM (fun s r => popStrip s r.toNat) s) := by
  induction rs generalizing s with
  | nil => exact .ok rfl
  | cons r rs ih =>
    rw [List.foldlM_cons]
    exact (popStrip_keepsAgent s r.toNat).bind fun v same u ends => (ih v u ends).trans same

theorem useV_keepsAgent (s : State) (rs : List (BitVec 5)) : KeepsAgent s (useV s rs) :=
  .test ((popStrips_keepsAgent s rs).bind fun _ same => .test (.test (.ok same)))

end

/-! ### The tests on a V-tile (13 R361) -/

section
variable {s : State}

theorem settled_ok {rs : List (BitVec 5)} (readable : Readable s rs) : settled s rs = .ok () := by
  refine if_neg ?_
  simp only [List.any_eq_true, not_exists, not_and, Bool.not_eq_true]
  exact fun r m => (readable r m).1

theorem needVTile_ok {t : Nat} (vtile : isV t = true) : needVTile t = .ok () := by simp [needVTile, vtile]

theorem needTile_ok {t : Nat} (tile : t < 2560) : needTile t = .ok () := by simp [needTile, tile]

theorem onVTile_ok (context : s.cur.isAwn = false) (vtile : isV s.cur.tile = true) : onVTile s = .ok () := by
  rw [onVTile, notAwn_ok context, run_bind_ok, vtile, need_true]

end

/-! ### The mailbox (10 R312, R313) -/

section
variable {s : State} {f : EX}

theorem exec_mbpost (readable : Readable s [f.ra, f.rb, f.rc]) (tile : bits (s.rs f.ra) 11 0 < 2560) (vtile : isV (bits (s.rs f.ra) 11 0) = true)
    (legal : bits (s.rs f.rb) 63 48 = 0) (room : s.cur.isAwn = false ∨ s.injectRoom s.cur.tile = true) :
    exec (.mbpost f) s = ran ((s.issueOp 4 0 .none).offer s.cur s.nextOp { s.header 4 with
      poster := some s.cur, dest := bits (s.rs f.ra) 11 0, arg := s.rs f.rb, handler := bits (s.rs f.ra) 19 12,
      payload := BitVec.ofNat 2048 (bits (s.rs f.rc) 31 0) }) := by
  change execMbpost f s = _
  simp only [execMbpost, settled_ok readable, needVTile_ok vtile, useS_ok readable, needTile_ok tile, legal, beq_self_eq_true, need_true,
    sendPacket_of_room room, Bool.false_eq_true, if_false, run_bind_ok, settle_ok]

/-- What `mbrd` reads of a slot under index j. -/
def MbSlot.read (m : MbSlot) (j : Nat) : Word :=
  if j = 15 then wd (m.entries.length + m.seq * 2 ^ 32)
  else match m.entries[j]? with
    | some e => wd (e.1.toNat + e.2 * 2 ^ 32)
    | none => BitVec.allOnes 64

theorem MbSlot.read_of_entry {m : MbSlot} {j : Nat} {e : BitVec 32 × Nat} (index : j ≠ 15) (entry : m.entries[j]? = some e) :
    m.read j = wd (e.1.toNat + e.2 * 2 ^ 32) := by
  rw [MbSlot.read, if_neg index, entry]

theorem MbSlot.read_of_none {m : MbSlot} {j : Nat} (index : j ≠ 15) (noEntry : m.entries[j]? = none) : m.read j = BitVec.allOnes 64 := by
  rw [MbSlot.read, if_neg index, noEntry]

section
variable (context : s.cur.isAwn = false) (vtile : isV s.cur.tile = true)
include context vtile

theorem exec_mbrd (readable : Readable s [f.ra]) :
    exec (.mbrd f) s = ran (s.ws f.rc (((s.tile s.cur.tile).slot (bits (s.rs f.ra) 7 0)).read (parF f.par 3 0))) := by
  change execMbrd f s = _
  simp only [execMbrd, onVTile_ok context vtile, useS_ok readable, run_bind_ok]
  rfl

/-- A slot that `mbclr` has emptied and given its place (10 R313). -/
def clearSlot (f : EX) (s : State) (x : Tile) (i : Nat) : Tile :=
  let k := (s.rs f.ra).toNat + i
  x.setSlot k ((x.slot k).clear (parF f.par 12 9) (s.rs f.rb) (parF f.par 20 13))

theorem exec_mbclr (readable : Readable s [f.ra, f.rb]) (inside : (s.rs f.ra).toNat + parF f.par 8 0 ≤ 256) (aligned : (s.rs f.rb).toNat % 256 = 0)
    (place : windowOf (s.rs f.rb) = some 4 ∨ (windowOf (s.rs f.rb) = some 0 ∧ offset (s.rs f.rb) < windowPages true 0 * 2048)) :
    exec (.mbclr f) s = ran ((s.setTile s.cur.tile ((List.range (parF f.par 8 0)).foldl (clearSlot f s) (s.tile s.cur.tile))).ws f.rc 0) := by
  have window : (windowOf (s.rs f.rb) == some 0 || windowOf (s.rs f.rb) == some 4) = true := by
    rcases place with memory | ⟨scratch, -⟩
    · simp [memory]
    · simp [scratch]
  have limit : (windowOf (s.rs f.rb) != some 0 || decide (offset (s.rs f.rb) < windowPages true 0 * 2048)) = true := by
    rcases place with memory | ⟨-, below⟩
    · simp [memory]
    · simp [below]
  change execMbclr f s = _
  simp only [execMbclr, onVTile_ok context vtile, useS_ok readable, decide_eq_true inside, aligned, beq_self_eq_true, window, limit, need_true,
    run_bind_ok]
  rfl

theorem exec_mgrd_of_none (noSlot : (s.tile s.cur.tile).nextSlot s.ops = none) : exec (.mgrd f) s = ran (s.ws f.rc 0) := by
  change execMgrd f s = _
  simp only [execMgrd, onVTile_ok context vtile, noSlot, run_bind_ok, settle_ok]

theorem exec_mgrd_of_slot {k : Nat} {m : MbSlot} (slot : (s.tile s.cur.tile).nextSlot s.ops = some (k, m)) :
    let t := s.cur.tile
    let u := s.drlAppend (dieOf t) (s.tile t).mergePort (asidOf (s.tileRoot t)) 4 (s.slotTid t)
    exec (.mgrd f) s = ran ((u.setTile t ({ u.tile t with mergePort := none }.setSlot k { m with returned := true })).ws f.rc
      (wd (2 ^ 63 + m.seq * 2 ^ 8 + k))) := by
  change execMgrd f s = _
  simp only [execMgrd, onVTile_ok context vtile, slot, run_bind_ok, settle_ok]

end

end

/-! ### Steer packets (10 R314) -/

section
variable {s u : State} {f : EX} (context : s.cur.isAwn = false) (tokens : TokensFree s (kwX f) (kpX f)) (readable : Readable s [f.ra, f.rb])
  (source : useV s [f.rc] = .ok u) (strips : stripsOk u [f.rc] = .ok ())
include context tokens readable source strips

theorem steer_sends (legal : bits (u.rs f.ra) 63 47 = 0) : Sends s (.steer f) u (kwX f) { u.header 2 with
    byRoute := true, route := parF f.par 7 0, arg := u.rs f.ra, hdr := wd (bits (u.rs f.rb) 31 0), hasPayload := true, payload := u.rv f.rc } := by
  apply sends_of_sendPacket
  change execSteer f s = _
  simp only [execSteer, useTok_ok tokens, notAwn_ok context, useS_ok readable, source, legal, beq_self_eq_true, need_true, strips, run_bind_ok]

theorem exec_steerRet (legal : bits (s.rs f.ra) 63 47 = 0) (vtile : isV (stHome (s.rs f.ra)) = true) :
    exec (.steerRet f) s = ran ((u.issueOp 4 (kwX f) .none).offer u.cur u.nextOp { u.header 3 with
      dest := stHome (s.rs f.ra), arg := s.rs f.ra, hdr := wd (bits (u.rs f.rb) 31 0), hasPayload := true, payload := u.rv f.rc }) := by
  have room : u.cur.isAwn = false ∨ u.injectRoom u.cur.tile = true := .inl (useV_keepsAgent s [f.rc] u source ▸ context)
  change execSteerRet f s = _
  simp only [execSteerRet, useTok_ok tokens, notAwn_ok context, settled_ok readable, needVTile_ok vtile, useS_ok readable, source, legal,
    beq_self_eq_true, need_true, strips, sendPacket_of_room room, Bool.false_eq_true, if_false, run_bind_ok, settle_ok]

end

/-! ### The capacity ops (10 R316, R317, 13 R367) -/

/-- A capacity request of op `s.nextOp` is outstanding on path 4 with its result register waiting, and goes to the V-tile that ra names. -/
def State.askCapacity (s : State) (f : EX) (kind : Nat) : State :=
  let m : CapMsg := { tile := bits (s.rs f.ra) 11 0, entry := bits (s.rs f.ra) 19 12, operand := s.rs f.rb, issuer := s.cur, op := s.nextOp }
  let u := s.issueOp 4 0 (.late f.rc.toNat 0)
  let w := { u.setMe (u.me.pendOn f.rc.toNat s.nextOp) with
    ops := u.ops.put s.nextOp { agent := s.cur, path := 4, kw := 0, dst := .late f.rc.toNat 0, need := 1 } }
  w.offer s.cur s.nextOp { s.header 8 with dest := bits (s.rs f.ra) 11 0, arg := s.rs f.rb, cap := some (kind, m) }

theorem capIssue_ok {s : State} {f : EX} {kind : Nat} (readable : Readable s [f.ra, f.rb]) (tile : bits (s.rs f.ra) 11 0 < 2560)
    (vtile : isV (bits (s.rs f.ra) 11 0) = true) (room : s.cur.isAwn = false ∨ s.injectRoom s.cur.tile = true)
    (legal : kind ≠ 2 ∨ bits (s.rs f.rb) 63 29 = 0) : capIssue kind f s = .ok (s.askCapacity f kind) := by
  have sources : useS s (if kind = 1 then [f.ra] else [f.ra, f.rb]) = .ok () := by
    split
    · exact useS_ok (readable.subset (List.cons_subset_cons _ (List.nil_subset _)))
    · exact useS_ok readable
  have operand : (kind != 2 || bits (s.rs f.rb) 63 29 == 0) = true := by simpa using legal
  simp only [capIssue, settled_ok readable, needVTile_ok vtile, sources, needTile_ok tile, operand, need_true, routerTakes room, Bool.false_eq_true,
    if_false, run_bind_ok]
  rfl

/-! ### Arrivals at the mailbox (10 R312) -/

theorem insertEntry_length (e : BitVec 32 × Nat) (l : List (BitVec 32 × Nat)) : (insertEntry e l).length = l.length + 1 := by
  induction l with
  | nil => rfl
  | cons x xs ih =>
    rw [insertEntry]
    split
    · rfl
    · rw [List.length_cons, ih, List.length_cons]

theorem mem_insertEntry (e x : BitVec 32 × Nat) (l : List (BitVec 32 × Nat)) : x ∈ insertEntry e l ↔ x = e ∨ x ∈ l := by
  induction l with
  | nil => simp [insertEntry]
  | cons y ys ih =>
    rw [insertEntry]
    split
    · exact List.mem_cons
    · rw [List.mem_cons, ih, List.mem_cons]
      tauto

/-! ### Returned strips (10 R315, 13 R371) -/

/-- A slot has no place for a returned strip: no such row or strip, or the row has come already. -/
def MbSlot.refuses (m : MbSlot) (p : Packet) : Bool :=
  decide (m.entries.length ≤ stEntry p.arg) || decide (m.strips ≤ stStrip p.arg) || m.rows.any (fun r => r.1 == stEntry p.arg && r.2.1 == stStrip p.arg)

/-- A slot with a returned strip as one more row. -/
def MbSlot.withRow (m : MbSlot) (p : Packet) : MbSlot :=
  { m with rows := m.rows ++ [(stEntry p.arg, stStrip p.arg, p.hdr.setWidth 32, p.payload, p.pois != 0)] }

section
variable {s u : State} {t : Nat} {p : Packet}

theorem exec_returnStripArrival_of_refused (refused : ((s.tile t).slot (stSlot p.arg)).refuses p = true) :
    exec (.returnStripArrival t p) s = .next (s.dropStrip t (stSlot p.arg) (stEntry p.arg) (stStrip p.arg)) := if_pos refused

section
variable {m : MbSlot} (taken : ((s.tile t).slot (stSlot p.arg)).refuses p = false) (row : ((s.tile t).slot (stSlot p.arg)).withRow p = m)
include taken row

theorem exec_returnStripArrival_of_row (more : (m.rowsOf (stStrip p.arg)).length < m.entries.length) :
    exec (.returnStripArrival t p) s = .next (s.setTile t ((s.tile t).setSlot (stSlot p.arg) m)) := by
  subst row
  exact (if_neg (ne_true_of_eq_false taken)).trans (if_pos more)

/-- The last row of a strip merges it, and waits where the strip is not through. -/
theorem exec_returnStripArrival_of_last (last : m.entries.length ≤ (m.rowsOf (stStrip p.arg)).length) {through : Bool}
    (merged : s.writeMerged t (stSlot p.arg) (stStrip p.arg) m = (u, through)) :
    exec (.returnStripArrival t p) s = .next (if through then
      if ((u.tile t).slot (stSlot p.arg)).written.contains (stStrip p.arg) then u else u.setTile t ((u.tile t).setSlot (stSlot p.arg) m)
      else u.again (.returnStripArrival t p)) := by
  subst row
  change execReturnStripArrival t p s = _
  refine (if_neg (ne_true_of_eq_false taken)).trans ((if_neg (Nat.not_lt.mpr last)).trans ?_)
  rw [MbSlot.withRow] at merged
  simp only [merged]
  cases through <;> rfl

end

theorem State.writeMerged_of_stopped (stopped : s.stoppedTile t = true) (k e : Nat) (m : MbSlot) : s.writeMerged t k e m = (s, false) := if_pos stopped

end

/-! ### The capacity table (10 R316, R317, 13 R367, R368) -/

section
variable {s : State} {c : CapMsg}

/-- The state with another entry of the capacity table that a request names. -/
def State.putCap (s : State) (c : CapMsg) (e : CapEnt) : State := s.setTile c.tile ((s.tile c.tile).setCap c.entry e)

theorem capacity_waits (contained : (s.tile c.tile).contained = true) :
    exec (.capacityClaimArrival c) s = .next (s.again (.capacityClaimArrival c)) ∧
    exec (.capacityEndArrival c) s = .next (s.again (.capacityEndArrival c)) ∧
    exec (.capacitySetArrival c) s = .next (s.again (.capacitySetArrival c)) := ⟨if_pos contained, if_pos contained, if_pos contained⟩

theorem exec_capacitySetArrival (serves : (s.tile c.tile).contained = false) : exec (.capacitySetArrival c) s = .next ((s.putCap c
    { cap := bits c.operand 15 0, srcs := bits c.operand 27 16, unordered := c.operand.getLsbD 28 }).reply c 0) :=
  if_neg (ne_true_of_eq_false serves)

section
variable {e : CapEnt} (serves : (s.tile c.tile).contained = false) (entry : (s.tile c.tile).cap c.entry = e)
include serves entry

theorem exec_capacityClaimArrival : exec (.capacityClaimArrival c) s =
    if e.decided || decide (e.cap ≤ e.granted) then .next (s.reply c (BitVec.allOnes 64))
    else if e.unordered then .next ((s.putCap c { e with granted := e.granted + 1 }).reply c (wd e.granted))
    else .next (s.putCap c { e with held := e.held ++ [⟨bits c.operand 31 0, c⟩] }) := by
  subst entry
  exact if_neg (ne_true_of_eq_false serves)

theorem exec_capacityEndArrival : exec (.capacityEndArrival c) s =
    if e.decided || decide (e.ends + 1 < e.srcs) then .next ((s.reply c 0).putCap c { e with ends := e.ends + 1 })
    else
      let cs := e.held.foldl (fun l x => insertClaim x l) []
      .next (((s.reply c 0).putCap c { e with
        ends := e.ends + 1, decided := true, held := [], granted := min e.cap (e.granted + cs.length) }).grantHeld e.cap e.granted cs) := by
  subst entry
  exact if_neg (ne_true_of_eq_false serves)

end

theorem State.deliver_of_answer {t : Nat} {v : Word} {q : Packet} (response : q.kind = 9) (answer : q.cap = some (3, { c with operand := v })) :
    s.deliver t q = s.answer c.op v := by
  rw [State.deliver, response, answer]
  rfl

end

/-- Settles O42: each op by its own lemma, an arrival by the slot or the entry that it finds. -/
theorem expertRoutingResults : Obligations.ExpertRoutingResults := by
  refine ⟨fun s f => ⟨?mbpost, ?mailbox, ?steer, ?capacity⟩, fun s t p c => ⟨rfl, fun e l => ⟨insertEntry_length e l, fun x => mem_insertEntry e x l⟩,
    ?returned, ⟨capacity_waits, ?table⟩, fun v => rfl, fun v q => State.deliver_of_answer⟩⟩
  case mbpost => exact fun readable tile vtile legal room => exec_mbpost readable tile vtile legal room
  case mailbox =>
    refine fun context vtile => ⟨fun readable => ⟨?count, ?entry, ?none⟩, fun readable inside aligned place => ?mbclr,
      exec_mgrd_of_none context vtile, fun k m => exec_mgrd_of_slot context vtile⟩
    case count => exact fun all => (exec_mbrd context vtile readable).trans (congrArg (fun w => ran (s.ws f.rc w)) (if_pos all))
    case entry =>
      exact fun e index entry => (exec_mbrd context vtile readable).trans (congrArg (fun w => ran (s.ws f.rc w)) (MbSlot.read_of_entry index entry))
    case none =>
      exact fun index noEntry => (exec_mbrd context vtile readable).trans (congrArg (fun w => ran (s.ws f.rc w)) (MbSlot.read_of_none index noEntry))
    case mbclr => exact exec_mbclr context vtile readable inside aligned place
  case steer =>
    exact fun context tokens readable u source strips => ⟨fun legal => steer_sends context tokens readable source strips legal,
      fun legal _ vtile => exec_steerRet context tokens readable source strips legal vtile⟩
  case capacity =>
    intro readable tile vtile room
    exact ⟨congrArg (settle s) (capIssue_ok readable tile vtile room (.inl (by decide))),
      congrArg (settle s) (capIssue_ok readable tile vtile room (.inl (by decide))),
      fun legal => congrArg (settle s) (capIssue_ok readable tile vtile room (.inr legal))⟩
  case returned =>
    exact ⟨exec_returnStripArrival_of_refused, fun taken more => exec_returnStripArrival_of_row taken rfl more, fun taken last =>
      ⟨fun u merged => ⟨fun written => (exec_returnStripArrival_of_last taken rfl last merged).trans (congrArg _ (if_pos written)),
         fun fresh => (exec_returnStripArrival_of_last taken rfl last merged).trans (congrArg _ (if_neg (ne_true_of_eq_false fresh)))⟩,
       fun u merged => exec_returnStripArrival_of_last taken rfl last merged, fun stopped => State.writeMerged_of_stopped stopped ..⟩⟩
  case table =>
    intro serves
    have claim := exec_capacityClaimArrival serves rfl
    have ended := exec_capacityEndArrival serves rfl
    refine ⟨fun denied => claim.trans (if_pos ?_), fun undecided room unordered => ?_, fun undecided room ordered => ?_,
      ⟨fun early => ended.trans (if_pos ?_), fun undecided all => ended.trans (if_neg ?_)⟩, exec_capacitySetArrival serves⟩
    · simpa using denied
    · rw [claim, if_neg (by simp [undecided, room]), if_pos unordered]; rfl
    · rw [claim, if_neg (by simp [undecided, room]), if_neg (ne_true_of_eq_false ordered)]; rfl
    · simpa using early
    · simpa using ⟨undecided, all⟩

end Sys2Proof.Machine
end

section
/-! SUPPORT. The matrix engine: the ops that the sequencer holds, and one step of it. -/

namespace Sys2Proof.Machine

/-! ### Operands of matrix ops (10 R273 to R275) -/

/-- The format of the bank in which an operand begins. -/
def State.firstFmt (s : State) (x : Word) : Word := s.fmtAt s.cur.tile ((windowOf x).getD 0) (offset x)

/-- The formats of the banks that n bytes of an operand lie in. -/
def State.operandFmts (s : State) (x : Word) (n : Nat) : List Word := s.spanFmts s.cur.tile ⟨(windowOf x).getD 0, offset x, n⟩

/-- The bytes of n elements of a format. -/
abbrev fmtBytes (fm : Word) (n : Nat) : Nat := n * tyWidth (fmtTy fm) / 8

/-- An operand of n bytes passes its checks, and its banks are of the format of the first (10 R275). -/
structure Uniform (s : State) (x : Word) (win n : Nat) (dest : Bool) : Prop where
  fits : OperandOk s x 256 win n dest
  banks : ∀ fm ∈ s.operandFmts x n, fmtKey fm = fmtKey (s.firstFmt x)

section
variable {s : State} {x : Word} {align win n : Nat} {dest : Bool}

theorem OperandOk.firstFmt_eq (fits : OperandOk s x align win n dest) : s.fmtAt s.cur.tile win (offset x) = s.firstFmt x := by
  rw [State.firstFmt, fits.2.1, Option.getD_some]

theorem OperandOk.operandFmts_eq (fits : OperandOk s x align win n dest) : s.spanFmts s.cur.tile ⟨win, offset x, n⟩ = s.operandFmts x n := by
  rw [State.operandFmts, fits.2.1, Option.getD_some]

/-- An operand that passes its checks is its span. -/
theorem Uniform.operand (uniform : Uniform s x win n dest) {only : Option Nat} {len : Word → Nat} (allowed : only = none ∨ only = some win)
    (length : len (s.firstFmt x) = n) : operand s x 256 only dest len = .ok ⟨win, offset x, n⟩ :=
  operand_ok allowed ((congrArg len uniform.fits.firstFmt_eq).trans length) uniform.fits

theorem Uniform.sameBanks (uniform : Uniform s x win n dest) : sameBanks s ⟨win, offset x, n⟩ x = .ok () :=
  sameBanks_ok (uniform.fits.operandFmts_eq ▸ uniform.banks)

end

/-! ### Matrix ops at issue (10 R276 to R285) -/

/-- What every matrix op tells the sequencer of itself. -/
def State.matOp (s : State) (f : EX) (kind : Nat) : MatOp := { op := s.nextOp, kind := kind, ctx := s.cur.ctx, mb := mbOf f, nb := nbOf f }

/-- The elements of `blocks` rows of blocks of a source of `mma`, K padded to groups of 32. -/
abbrev mmaElems (s : State) (f : EX) (blocks : Nat) : Nat := blocks * blockEdge s.cur.tile * (32 * ceilDiv (kOf f) 32)

/-- The elements of the accumulators of `mma`. -/
abbrev mmaCells (s : State) (f : EX) : Nat := mbOf f * blockEdge s.cur.tile * (nbOf f * blockEdge s.cur.tile)

section
variable {s : State} {f : EX} (context : s.cur.isAwn = false) (tokens : TokensFree s (kwX f) (kpX f)) (room : (s.tile s.cur.tile).mq.length < 4)
include context tokens room

/-- `mma` and the masked forms: the op stands in the sequencer with its operands and the formats of their first banks. -/
theorem mmaIssue_ok {kind g pk : Nat} (readable : Readable s (if kind = 0 then [f.ra, f.rb, f.rc] else [f.ra, f.rb, f.rc, f.rc + 1]))
    (opA : Uniform s (s.rs f.ra) 0 (fmtBytes (s.firstFmt (s.rs f.ra)) (mmaElems s f (mbOf f))) false)
    (opW : Uniform s (s.rs f.rb) 1 (fmtBytes (s.firstFmt (s.rs f.rb)) (mmaElems s f (nbOf f))) false)
    (opC : Uniform s (s.rs f.rc) 2 (mmaCells s f * 4) false)
    (mask : kind = 0 ∨ OperandOk s (s.rs (f.rc + 1)) 16 2 (mmaCells s f / 8) false)
    (pairs : pairing (s.firstFmt (s.rs f.ra)) (s.firstFmt (s.rs f.rb)) (s.firstFmt (s.rs f.rc)) = some (g, pk)) (whole : pk = 2 → kOf f % g = 0) :
    mmaIssue kind f s = .ok (s.holdMatrix f { s.matOp f kind with
      a := s.rs f.ra, w := s.rs f.rb, c := s.rs f.rc, msk := if kind = 0 then 0 else s.rs (f.rc + 1), k := kOf f,
      fmtA := s.firstFmt (s.rs f.ra), fmtW := s.firstFmt (s.rs f.rb) }) := by
  have spanA := opA.operand (len := fun fm => fmtBytes fm (mmaElems s f (mbOf f))) (.inr rfl) rfl
  have spanW := opW.operand (len := fun fm => fmtBytes fm (mmaElems s f (nbOf f))) (.inr rfl) rfl
  have spanC := opC.operand (len := fun _ => mmaCells s f * 4) (.inr rfl) rfl
  have groups : (!(pk == 2 && kOf f % g != 0)) = true := by
    by_cases grouped : pk = 2
    · simp [whole grouped]
    · simp [grouped]
  simp only [mmaIssue, matrixTests_ok tokens context readable, spanA, opA.sameBanks, spanW, opW.sameBanks, spanC, opC.sameBanks,
    opA.fits.firstFmt_eq, opW.fits.firstFmt_eq, opC.fits.firstFmt_eq, pairs, groups, need_true, issueMatrix_ok room, run_bind_ok]
  split
  · rfl
  · next masked =>
    rw [operand_ok (.inr rfl) rfl (mask.resolve_left masked)]
    rfl

theorem exec_mzero {win : Nat} (readable : Readable s [f.ra]) (target : Uniform s (s.rs f.ra) win (mnOf f s.cur.tile * 4) true) :
    exec (.mzero f) s = ran (s.holdMatrix f { s.matOp f 3 with c := s.rs f.ra }) := by
  have span := target.operand (len := fun _ => mnOf f s.cur.tile * 4) (.inl rfl) rfl
  change execMzero f s = _
  simp only [execMzero, matrixTests_ok tokens context readable, span, target.sameBanks, issueMatrix_ok room, run_bind_ok, settle_ok]
  rfl

section
variable (readable : Readable s [f.ra, f.rb])
include readable

theorem exec_mcvt {win vin : Nat} (source : Uniform s (s.rs f.ra) win (mnOf f s.cur.tile * 4) false)
    (target : Uniform s (s.rs f.rb) vin (fmtBytes (s.firstFmt (s.rs f.rb)) (mnOf f s.cur.tile)) true)
    (types : ∀ fm ∈ s.operandFmts (s.rs f.ra) (mnOf f s.cur.tile * 4), fmtTy fm = 0 ∨ fmtTy fm = 6)
    (plain : ∀ fm ∈ s.operandFmts (s.rs f.rb) (fmtBytes (s.firstFmt (s.rs f.rb)) (mnOf f s.cur.tile)), fmtTy fm ≠ 14) :
    exec (.mcvt f) s = ran (s.holdMatrix f { s.matOp f 4 with c := s.rs f.ra, w := s.rs f.rb, fmtW := s.firstFmt (s.rs f.rb) }) := by
  have spanS := source.operand (only := none) (len := fun _ => mnOf f s.cur.tile * 4) (.inl rfl) rfl
  have spanD := target.operand (only := none) (len := fun fm => fmtBytes fm (mnOf f s.cur.tile)) (.inl rfl) rfl
  have typesS : (s.operandFmts (s.rs f.ra) (mnOf f s.cur.tile * 4)).all (fun fm => fmtTy fm == 0 || fmtTy fm == 6) = true := by simpa using types
  have typesD : (s.operandFmts (s.rs f.rb) (fmtBytes (s.firstFmt (s.rs f.rb)) (mnOf f s.cur.tile))).all (fun fm => fmtTy fm != 14) = true := by
    simpa using plain
  change execMcvt f s = _
  simp only [execMcvt, matrixTests_ok tokens context readable, spanS, source.sameBanks, source.fits.operandFmts_eq, typesS, spanD, target.sameBanks,
    target.fits.operandFmts_eq, typesD, target.fits.firstFmt_eq, need_true, issueMatrix_ok room, run_bind_ok, settle_ok]
  rfl

theorem exec_mtr {win vin : Nat} (source : OperandOk s (s.rs f.ra) 256 win (fmtBytes (s.firstFmt (s.rs f.ra)) (mnOf f s.cur.tile)) false)
    (target : OperandOk s (s.rs f.rb) 256 vin (fmtBytes (s.firstFmt (s.rs f.ra)) (mnOf f s.cur.tile)) true) (ungrouped : fmtGsz (s.firstFmt (s.rs f.ra)) = 0)
    (same : ∀ fm ∈ s.operandFmts (s.rs f.ra) (fmtBytes (s.firstFmt (s.rs f.ra)) (mnOf f s.cur.tile)) ++
      s.operandFmts (s.rs f.rb) (fmtBytes (s.firstFmt (s.rs f.ra)) (mnOf f s.cur.tile)), fm = s.firstFmt (s.rs f.ra)) :
    exec (.mtr f) s = ran (s.holdMatrix f { s.matOp f 5 with c := s.rs f.ra, w := s.rs f.rb, fmtW := s.firstFmt (s.rs f.ra) }) := by
  have keys {l : List Word} (sub : ∀ fm ∈ l, fm = s.firstFmt (s.rs f.ra)) : ∀ fm ∈ l, fmtKey fm = fmtKey (s.firstFmt (s.rs f.ra)) :=
    fun fm m => congrArg fmtKey (sub fm m)
  have spanS : operand s (s.rs f.ra) 256 none false (fun fm => fmtBytes fm (mnOf f s.cur.tile)) = _ :=
    operand_ok (.inl rfl) (congrArg (fmtBytes · _) source.firstFmt_eq) source
  have spanD : operand s (s.rs f.rb) 256 none true (fun _ => fmtBytes (s.firstFmt (s.rs f.ra)) (mnOf f s.cur.tile)) = _ := operand_ok (.inl rfl) rfl target
  have banksS := sameBanks_ok (b := s.rs f.ra) (source.operandFmts_eq ▸ keys fun fm m => same fm (List.mem_append_left _ m))
  have banksD := sameBanks_ok (b := s.rs f.rb) (target.operandFmts_eq ▸ keys fun fm m => same fm (List.mem_append_right _ m))
  have legal : (fmtGsz (s.firstFmt (s.rs f.ra)) == 0 && (s.operandFmts (s.rs f.ra) (fmtBytes (s.firstFmt (s.rs f.ra)) (mnOf f s.cur.tile)) ++
      s.operandFmts (s.rs f.rb) (fmtBytes (s.firstFmt (s.rs f.ra)) (mnOf f s.cur.tile))).all (· == s.firstFmt (s.rs f.ra))) = true := by
    rw [ungrouped, beq_self_eq_true, Bool.true_and, List.all_eq_true]
    exact fun fm m => beq_iff_eq.mpr (same fm m)
  change execMtr f s = _
  simp only [execMtr, matrixTests_ok tokens context readable, spanS, banksS, source.firstFmt_eq, spanD, banksD, source.operandFmts_eq,
    target.operandFmts_eq, legal, need_true, issueMatrix_ok room, run_bind_ok, settle_ok]
  rfl

/-- `mscale` by columns or rows. -/
theorem settle_mscale (row : Bool) (target : Uniform s (s.rs f.ra) 2 (mnOf f s.cur.tile * 4) false)
    (scales : Uniform s (s.rs f.rb) 2 ((if row then mbOf f else nbOf f) * blockEdge s.cur.tile * 4) false)
    (types : ∀ fm ∈ s.operandFmts (s.rs f.ra) (mnOf f s.cur.tile * 4), fmtTy fm = 6) :
    settle s (mscale row f s) = ran (s.holdMatrix f { s.matOp f (if row then 7 else 6) with c := s.rs f.ra, w := s.rs f.rb }) := by
  have spanC := target.operand (only := some 2) (len := fun _ => mnOf f s.cur.tile * 4) (.inr rfl) rfl
  have spanV := scales.operand (only := some 2) (len := fun _ => (if row then mbOf f else nbOf f) * blockEdge s.cur.tile * 4) (.inr rfl) rfl
  have floats : (s.operandFmts (s.rs f.ra) (mnOf f s.cur.tile * 4)).all (fun fm => fmtTy fm == 6) = true := by simpa using types
  simp only [mscale, matrixTests_ok tokens context readable, spanC, target.sameBanks, target.fits.operandFmts_eq, floats, spanV, scales.sameBanks,
    need_true, issueMatrix_ok room, run_bind_ok, settle_ok]
  rfl

end

end

/-! ### Waiting, and one step of the engine (10 R276, R286) -/

section
variable {s : State} {f : EX} (context : s.cur.isAwn = false)
include context

theorem exec_mwait_of_none (none : (s.tile s.cur.tile).mq.any (fun m => m.ctx == s.cur.ctx) = false) : exec (.mwait f) s = ran s := by
  change execMwait f s = _
  simp only [execMwait, notAwn_ok context, none, run_bind_ok, Bool.false_eq_true, if_false, settle_ok]

theorem exec_mwait_of_any (some : (s.tile s.cur.tile).mq.any (fun m => m.ctx == s.cur.ctx) = true) : exec (.mwait f) s = waits s .matrix := by
  change execMwait f s = _
  simp only [execMwait, notAwn_ok context, some, run_bind_ok, if_true]
  rfl

end

theorem exec_matrixStep_of_idle {s : State} {t : Nat} (idle : s.stoppedTile t = true ∨ (s.tile t).mq = []) :
    exec (.matrixStep t) s = .next s := by
  change execMatrixStep t s = _
  rcases idle with stopped | empty
  · rw [execMatrixStep, if_pos stopped]
  · rw [execMatrixStep, empty, ite_self]

/-- The state once the pages of a step's reads are touched and the columns have loaded their records. -/
def State.matLoaded (s : State) (t : Nat) (st : MStep) : State :=
  let u := s.engineTouch t st.reads
  u.setTile t ((u.tile t).loadPe (st.pe (u.setTile t ((u.tile t).seenBy 1))))

/-- The state a step computes on: what path 1 sees of its operands. -/
def State.matSeen (s : State) (t : Nat) (st : MStep) : State :=
  let u := s.engineTouch t st.reads
  (u.setTile t ((u.tile t).seenBy 1)).setTile t (((s.matLoaded t st).tile t).seenBy 1)

/-- The scale records a step writes beside its results. -/
def matScales (t : Nat) (m : MatOp) (seen : State) (writes : List MWrite) : List MWrite :=
  if m.kind = 4 && !writes.isEmpty then mcvtScales t m seen else []

/-- The granules a step writes to outbound pages. -/
def State.matOut (s : State) (t : Nat) (writes : List MWrite) : List EdgeGranule :=
  writes.flatMap (fun w => s.engineGranules t w.1 w.2.1 w.2.2)

/-- The state once a step's writes are made and its events counted. -/
def State.matWritten (s : State) (t : Nat) (m : MatOp) (writes scales : List MWrite) (events : List (Option Nat)) : State :=
  let x := (s.matWrite ⟨t, m.ctx⟩ writes).plainStore ⟨t, m.ctx⟩ scales
  let y := x.setTile t ((x.tile t).countAll 1 events)
  if m.kind = 4 then y.emitStats t 1 else y

section
variable {s : State} {t : Nat} {m : MatOp} {rest : List MatOp} (running : s.stoppedTile t = false) (held : (s.tile t).mq = m :: rest)
include running held

theorem exec_matrixStep_of_fault {e : Trap} (need : s.engineNeed t (matStep t m s).reads (matStep t m s).spans = .error e) :
    exec (.matrixStep t) s = .next ((s.engineFault ⟨t, m.ctx⟩ 1 e).matDone t m rest) := by
  change execMatrixStep t s = _
  simp only [execMatrixStep, running, held, need, Bool.false_eq_true, if_false]

theorem exec_matrixStep_of_pageIn {u : State} (need : s.engineNeed t (matStep t m s).reads (matStep t m s).spans = .ok (some u)) :
    exec (.matrixStep t) s = .next (u.post (.matrixStep t)) := by
  change execMatrixStep t s = _
  simp only [execMatrixStep, running, held, need, Bool.false_eq_true, if_false]

section
variable (need : s.engineNeed t (matStep t m s).reads (matStep t m s).spans = .ok none)
  {writes : List MWrite} {events : List (Option Nat)} {next : MatOp}
  (results : (matStep t m s).run (s.matSeen t (matStep t m s)) = (writes, events, next))
  {v : State} {n : Nat}
include need results

theorem exec_matrixStep_of_noPermit {e : Nat}
    (sent : (s.matLoaded t (matStep t m s)).sendRest ⟨t, m.ctx⟩ m.sent ((s.matLoaded t (matStep t m s)).matOut t
      (writes ++ matScales t m (s.matSeen t (matStep t m s)) writes)) = (v, n, some e)) :
    exec (.matrixStep t) s = .next ((v.setTile t { v.tile t with mq := { m with sent := n } :: rest }).post (.matrixStep t)) := by
  change execMatrixStep t s = _
  unfold State.matOut matScales State.matSeen State.matLoaded at *
  simp only [execMatrixStep, running, held, need, results, sent, Bool.false_eq_true, if_false]

section
variable (sent : (s.matLoaded t (matStep t m s)).sendRest ⟨t, m.ctx⟩ m.sent ((s.matLoaded t (matStep t m s)).matOut t
      (writes ++ matScales t m (s.matSeen t (matStep t m s)) writes)) = (v, n, none))
include sent

theorem exec_matrixStep_of_last (last : m.steps ≤ m.step + 1) :
    exec (.matrixStep t) s =
      .next ((v.matWritten t m writes (matScales t m (s.matSeen t (matStep t m s)) writes) events).matDone t m rest) := by
  change execMatrixStep t s = _
  unfold State.matWritten
  unfold State.matOut matScales State.matSeen State.matLoaded at *
  simp only [execMatrixStep, running, held, need, results, sent, Bool.false_eq_true, if_false, ge_iff_le, last, if_true]

theorem exec_matrixStep_of_more (more : m.step + 1 < m.steps) {w : State}
    (written : v.matWritten t m writes (matScales t m (s.matSeen t (matStep t m s)) writes) events = w) :
    exec (.matrixStep t) s =
      .next ((w.setTile t { w.tile t with mq := { next with step := m.step + 1, sent := 0 } :: rest }).post (.matrixStep t)) := by
  change execMatrixStep t s = _
  subst written
  unfold State.matWritten
  unfold State.matOut matScales State.matSeen State.matLoaded at *
  simp only [execMatrixStep, running, held, need, results, sent, Bool.false_eq_true, if_false, ge_iff_le, Nat.not_le.mpr more]

end

end

end

/-- The writes of a step of `mzero`: zeros in the rows of its block. -/
theorem matStep_mzero_writes {t : Nat} {m : MatOp} (kind : m.kind = 3) {s u : State} {x : MWrite} (written : x ∈ ((matStep t m s).run u).1) :
    x.1 = (windowOf m.c).getD 2 ∧ x.2.2 = List.replicate (4 * blockEdge t) (0, false) := by
  have step : matStep t m s = mzeroStep t m := by simp only [matStep, kind, Nat.reduceLeDiff, if_false, if_true]
  rw [step] at written
  obtain ⟨row, -, rfl⟩ := List.mem_map.mp written
  exact ⟨rfl, congrArg (List.replicate · _) (Nat.mul_comm _ _)⟩

/-- Settles O34: each op by the lemma about its issue, each step of the engine by what its checks, permits and remaining steps allow. -/
theorem matrixResults : Obligations.MatrixResults := by
  refine ⟨fun s f context tokens => ⟨fun room => ⟨fun readable => ?_, fun readable => ⟨?_, ?_⟩, ?_, ?_⟩,
    exec_mwait_of_none context, exec_mwait_of_any context⟩, fun s t => ⟨exec_matrixStep_of_idle, fun m rest running held => ⟨?_, ?_, ?_, ?_⟩⟩⟩
  · intro g pk fitsA fitsW fitsC _ banksA banksW banksC pairs whole
    exact congrArg (settle s) (mmaIssue_ok context tokens room (kind := 0) readable ⟨fitsA, banksA⟩ ⟨fitsW, banksW⟩ ⟨fitsC, banksC⟩ (.inl rfl)
      pairs whole)
  · intro g pk fitsA fitsW fitsC mask banksA banksW banksC pairs whole
    exact congrArg (settle s) (mmaIssue_ok context tokens room (kind := 1) readable ⟨fitsA, banksA⟩ ⟨fitsW, banksW⟩ ⟨fitsC, banksC⟩ (.inr mask)
      pairs whole)
  · intro g pk fitsA fitsW fitsC mask banksA banksW banksC pairs whole
    exact congrArg (settle s) (mmaIssue_ok context tokens room (kind := 2) readable ⟨fitsA, banksA⟩ ⟨fitsW, banksW⟩ ⟨fitsC, banksC⟩ (.inr mask)
      pairs whole)
  · exact fun readable win fits banks => exec_mzero context tokens room readable ⟨fits, banks⟩
  · refine fun readable => ⟨?_, ?_, fun fitsC banksC => ⟨fun fitsV banksV => ?_, fun fitsV banksV => ?_⟩⟩
    · exact fun win vin fitsS banksS fitsD banksD => exec_mcvt context tokens room readable ⟨fitsS, fun fm h => (banksS fm h).1⟩
        ⟨fitsD, fun fm h => (banksD fm h).1⟩ (fun fm h => (banksS fm h).2) (fun fm h => (banksD fm h).2)
    · exact fun win vin source target ungrouped same => exec_mtr context tokens room readable source target ungrouped same
    · exact settle_mscale context tokens room readable false ⟨fitsC, fun fm h => (banksC fm h).2⟩ ⟨fitsV, banksV⟩ (fun fm h => (banksC fm h).1)
    · exact settle_mscale context tokens room readable true ⟨fitsC, fun fm h => (banksC fm h).2⟩ ⟨fitsV, banksV⟩ (fun fm h => (banksC fm h).1)
  · exact fun e need => exec_matrixStep_of_fault running held need
  · exact fun u need => exec_matrixStep_of_pageIn running held need
  · intro need
    refine ⟨fun v n e sent => exec_matrixStep_of_noPermit running held need rfl sent, fun v n sent => ⟨fun last => ?_, fun more => ?_⟩⟩
    · exact exec_matrixStep_of_last running held need rfl sent last
    · exact exec_matrixStep_of_more running held need rfl sent more rfl
  · exact fun kind u x written => matStep_mzero_writes kind written

end Sys2Proof.Machine
end

section
/-! SUPPORT. Stream ops, and the steps of the stream units. -/

namespace Sys2Proof.Machine

/-! ### Stream ops (10 R287 to R290, R294, R295) -/

/-- What a `sbind` binds: the generator of its register over its base address. -/
def State.newBinding (s : State) (f : EX) (out : Bool) : Binding :=
  { bound := true, out := out, fe := f.fn9.getLsbD 1, base := s.rs f.ra, levels := s.src.genLevels f.rc.toNat (parF f.par 3 0), hand := s.handler }

/-- A binding as `sunbind` leaves it. -/
def Binding.unbound (b : Binding) : Binding := { b with bound := false, queue := [], port := none, writes := [], sent := 0 }

theorem b2n_mul (b : Bool) (n : Nat) : b2n b * n = if b then n else 0 := by cases b <;> simp [b2n]

section
variable {s : State} {f : EX} (context : s.cur.isAwn = false)
include context

theorem exec_sgen (readable : Readable s [f.ra]) :
    exec (.sgen f) s = ran (s.setMe { s.me with levels := s.me.levels.set {} (8 * f.rc.toNat + f.fn9.toNat % 8) ⟨f.par.toNat, s.rs f.ra⟩ }) := by
  change execSgen f s = _
  simp only [execSgen, notAwn_ok context, useS_ok readable, run_bind_ok, settle_ok]

theorem sbind_ok {out : Bool} (readable : Readable s [f.ra]) (free : (s.src.bind f.rc.toNat).bound = false) (base : (s.rs f.ra).toNat % 16 = 0)
    (strides : ∀ l ∈ s.src.genLevels f.rc.toNat (parF f.par 3 0), l.stride.toNat % 16 = 0) (unit : s.unitsUsed s.cur.tile < 16)
    (checked : checkBase s out (s.rs f.ra) = .ok ()) {t : State} (bound : s.setMe (s.me.setBind f.rc.toNat (s.newBinding f out)) = t) :
    sbind out f s = .ok (if out then t else t.post (.streamStripFetch s.cur f.rc.toNat)) := by
  have aligned : ((s.rs f.ra).toNat % 16 == 0 && (s.src.genLevels f.rc.toNat (parF f.par 3 0)).all (fun l => l.stride.toNat % 16 == 0)) = true := by
    simpa [base] using strides
  subst bound
  simp only [sbind, notAwn_ok context, useS_ok readable, free, Bool.not_false, aligned, checked, need_true, run_bind_ok, ge_iff_le,
    Nat.not_le.mpr unit, if_false]
  rfl

theorem sbind_of_bound {out : Bool} (readable : Readable s [f.ra]) (bound : (s.src.bind f.rc.toNat).bound = true) :
    settle s (sbind out f s) = trapped s ⟨6, 0x7003, BitVec.ofNat 10 f.rc.toNat, 0, none⟩ := by
  simp only [sbind, notAwn_ok context, useS_ok readable, bound, Bool.not_true, need_false, run_bind_ok, run_bind_error, settle_trap]

theorem exec_sstat : exec (.sstat f) s = ran (s.ws f.rc (s.src.bind f.rb.toNat).status) := by
  change execSstat f s = _
  simp only [execSstat, notAwn_ok context, run_bind_ok, settle_ok]

section
variable (tokens : TokensFree s (kwX f) (kpX f))
include tokens

theorem exec_sunbind_of_free (free : (s.me.bind f.rc.toNat).bound = false) : exec (.sunbind f) s = ran s := by
  change execSunbind f s = _
  simp only [execSunbind, useTok_ok tokens, notAwn_ok context, free, Bool.not_false, run_bind_ok, if_true, settle_ok]

/-- An input binding, or an output one whose strips are written, ends at once. -/
theorem exec_sunbind_at_once (bound : (s.me.bind f.rc.toNat).bound = true)
    (written : (s.me.bind f.rc.toNat).out = false ∨ ((s.me.bind f.rc.toNat).queue = [] ∧ s.writesHeld (s.me.bind f.rc.toNat) = false))
    {u : State} (shut : s.closeBindPort s.cur (s.me.bind f.rc.toNat) = u) :
    exec (.sunbind f) s = ran (u.setMe (u.me.setBind f.rc.toNat (s.me.bind f.rc.toNat).unbound)) := by
  have done : (!(s.me.bind f.rc.toNat).out || ((s.me.bind f.rc.toNat).queue.isEmpty && !s.writesHeld (s.me.bind f.rc.toNat))) = true := by
    rcases written with input | ⟨empty, performed⟩
    · simp [input]
    · simp [empty, performed]
  subst shut
  change execSunbind f s = _
  simp only [execSunbind, useTok_ok tokens, notAwn_ok context, bound, done, Bool.not_true, Bool.false_eq_true, run_bind_ok, if_true, if_false, settle_ok]
  rfl

/-- An output binding with strips that are not performed yet closes once they are. -/
theorem exec_sunbind_later (bound : (s.me.bind f.rc.toNat).bound = true) (output : (s.me.bind f.rc.toNat).out = true)
    (left : (s.me.bind f.rc.toNat).queue ≠ [] ∨ s.writesHeld (s.me.bind f.rc.toNat) = true) {u : State} (issued : s.issueOp 3 (kwX f) .none = u) :
    exec (.sunbind f) s = ran ((u.setMe ((u.me.setBind f.rc.toNat { (s.me.bind f.rc.toNat).unbound with closing := some s.nextOp }).setBind
      (32 + s.nextOp) { s.me.bind f.rc.toNat with closing := some s.nextOp })).post (.streamStripWrite u.cur (32 + s.nextOp))) := by
  have notDone : (!(s.me.bind f.rc.toNat).out || ((s.me.bind f.rc.toNat).queue.isEmpty && !s.writesHeld (s.me.bind f.rc.toNat))) = false := by
    rcases left with strips | held
    · simp [output, strips]
    · simp [output, held]
  subst issued
  change execSunbind f s = _
  simp only [execSunbind, useTok_ok tokens, notAwn_ok context, bound, notDone, Bool.not_true, Bool.false_eq_true, run_bind_ok, if_false, settle_ok]
  rfl

end

end

/-! ### Steps of the stream units (10 R290 to R294) -/

/-- The binding an agent has for a register. -/
abbrev State.binding (s : State) (a : Agent) (r : Nat) : Binding := (s.ctx a).bind r

/-- Who a binding's unit accesses memory for. -/
abbrev State.streamWho (s : State) (a : Agent) (r : Nat) : Who := ⟨a, s.root a, (s.binding a r).hand, true, 3, []⟩

/-- The address of the next strip of a binding. -/
abbrev State.stripAddr (s : State) (a : Agent) (r : Nat) : Word := (s.binding a r).addr (s.binding a r).reached

/-- An input binding with room in its queue and strips to come. -/
structure State.Fetches (s : State) (a : Agent) (r : Nat) : Prop where
  running : s.stoppedTile a.tile = false
  bound : (s.binding a r).bound = true
  input : (s.binding a r).out = false
  room : (s.binding a r).queue.length < 4
  more : (s.binding a r).reached < (s.binding a r).total

/-- An output binding of a tile that runs. -/
structure State.Writes (s : State) (a : Agent) (r : Nat) : Prop where
  running : s.stoppedTile a.tile = false
  bound : (s.binding a r).bound = true
  output : (s.binding a r).out = true

section
variable {s : State} {a : Agent} {r : Nat}

theorem exec_streamStep_of_idle (idle : s.stoppedTile a.tile = true ∨ (s.binding a r).bound = false) :
    exec (.streamStripFetch a r) s = .next s ∧ exec (.streamStripWrite a r) s = .next s := by
  change execStreamStripFetch a r s = _ ∧ execStreamStripWrite a r s = _
  rcases idle with stopped | free
  · simp only [execStreamStripFetch, execStreamStripWrite, stopped, Bool.true_or, if_true, and_self]
  · simp only [execStreamStripFetch, execStreamStripWrite, free, Bool.not_false, Bool.true_or, Bool.or_true, if_true, and_self]

section
variable (fetches : s.Fetches a r)
include fetches

/-- The test at the head of a fetch lets it go on. -/
theorem State.Fetches.goesOn : (s.stoppedTile a.tile || !(s.binding a r).bound || (s.binding a r).out || decide ((s.binding a r).queue.length ≥ 4) ||
    decide ((s.binding a r).reached ≥ (s.binding a r).total)) = false := by
  obtain ⟨running, bound, input, room, more⟩ := fetches
  simp [running, bound, input, room, more]

theorem exec_streamStripFetch_of_trap {t : Trap}
    (check : checkStrip s (s.streamWho a r) 1 (s.binding a r).fe (s.stripAddr a r) = .error (.trap t)) :
    exec (.streamStripFetch a r) s = .next (s.putStrip a r { err := some t }) := by
  change execStreamStripFetch a r s = _
  simp only [execStreamStripFetch, fetches.goesOn, check, Bool.false_eq_true, if_false]

section
variable {pl : List Place} (check : checkStrip s (s.streamWho a r) 1 (s.binding a r).fe (s.stripAddr a r) = .ok pl)
include check

theorem exec_streamStripFetch_of_fault {t : Trap} (pages : s.engineReside a.tile pl (s.stripAddr a r) = .error t) :
    exec (.streamStripFetch a r) s = .next ((s.engineFault a 3 t).putStrip a r { err := some t }) := by
  change execStreamStripFetch a r s = _
  simp only [execStreamStripFetch, fetches.goesOn, check, pages, Bool.false_eq_true, if_false]

theorem exec_streamStripFetch_of_pageIn {u : State} (pages : s.engineReside a.tile pl (s.stripAddr a r) = .ok (some u)) :
    exec (.streamStripFetch a r) s = .next (u.stripWaits a r (.streamStripFetch a r)) := by
  change execStreamStripFetch a r s = _
  simp only [execStreamStripFetch, fetches.goesOn, check, pages, Bool.false_eq_true, if_false]

section
variable (pages : s.engineReside a.tile pl (s.stripAddr a r) = .ok none)
include pages

theorem exec_streamStripFetch_of_empty (fe : (s.binding a r).fe = true)
    (empty : s.stripFull a.tile ((cut (s.stripAddr a r) 256).zip pl) = false) :
    exec (.streamStripFetch a r) s = .next (s.stripWaits a r (.streamStripFetch a r)) := by
  have waits : ((s.binding a r).fe && !s.stripFull a.tile ((cut (s.stripAddr a r) 256).zip pl)) = true := by simp [fe, empty]
  change execStreamStripFetch a r s = _
  simp only [execStreamStripFetch, fetches.goesOn, check, pages, waits, Bool.false_eq_true, if_false, if_true]

theorem exec_streamStripFetch_of_full {u : State} {bs : List (Byte × Bool)}
    (full : (s.binding a r).fe = false ∨ s.stripFull a.tile ((cut (s.stripAddr a r) 256).zip pl) = true)
    (read : readAll s (s.streamWho a r) (s.taskView a.tile) false ((cut (s.stripAddr a r) 256).zip pl) = .ok (u, bs)) :
    exec (.streamStripFetch a r) s = .next ((if (s.binding a r).fe then u.stripClear a.tile ((cut (s.stripAddr a r) 256).zip pl) else u).putStrip a r
      (stripOf (s.stripAddr a r) bs)) := by
  have ready : ((s.binding a r).fe && !s.stripFull a.tile ((cut (s.stripAddr a r) 256).zip pl)) = false := by
    rcases full with plain | full
    · simp [plain]
    · simp [full]
  change execStreamStripFetch a r s = _
  simp only [execStreamStripFetch, fetches.goesOn, check, pages, ready, read, Bool.false_eq_true, if_false]

end

end

end

section
variable (writes : s.Writes a r)
include writes

/-- The test at the head of a write lets it go on. -/
theorem State.Writes.goesOn : (s.stoppedTile a.tile || !(s.binding a r).bound || !(s.binding a r).out) = false := by
  simp [writes.running, writes.bound, writes.output]

theorem exec_streamStripWrite_of_open (drained : (s.binding a r).queue = []) (unclosed : (s.binding a r).closing = none) :
    exec (.streamStripWrite a r) s = .next s := by
  change execStreamStripWrite a r s = _
  simp only [execStreamStripWrite, writes.goesOn, drained, unclosed, Bool.false_eq_true, if_false]

theorem exec_streamStripWrite_of_closing {id : Nat} (drained : (s.binding a r).queue = []) (closing : (s.binding a r).closing = some id) :
    exec (.streamStripWrite a r) s = .next (if s.writesHeld (s.binding a r) then s.post (.streamStripWrite a r) else s.endBinding a r (s.binding a r) id) := by
  change execStreamStripWrite a r s = _
  simp only [execStreamStripWrite, writes.goesOn, drained, closing, Bool.false_eq_true, if_false]

section
variable {st : Strip} {q : List Strip} (queued : (s.binding a r).queue = st :: q)
include queued

theorem exec_streamStripWrite_of_trap {t : Trap} (check : checkStrip s (s.streamWho a r) 2 false (s.stripAddr a r) = .error (.trap t)) :
    exec (.streamStripWrite a r) s = .next (s.strandBinding a r t) := by
  change execStreamStripWrite a r s = _
  simp only [execStreamStripWrite, writes.goesOn, queued, check, Bool.false_eq_true, if_false]

section
variable {pl : List Place} (check : checkStrip s (s.streamWho a r) 2 false (s.stripAddr a r) = .ok pl)
  (pages : s.engineReside a.tile pl (s.stripAddr a r) = .ok none) {v : State} {n : Nat}
include check pages

theorem exec_streamStripWrite_of_noPermit {e : Nat}
    (sent : s.sendRest a (s.binding a r).sent (placeGranules (((s.tile a.tile).run).getD 0) ((cut (s.stripAddr a r) 256).zip pl) (vBytes st.data)) =
      (v, n, some e)) :
    exec (.streamStripWrite a r) s =
      .next ((v.setCtx a ((v.ctx a).setBind r { v.binding a r with sent := n })).stripWaits a r (.streamStripWrite a r)) := by
  change execStreamStripWrite a r s = _
  simp only [execStreamStripWrite, writes.goesOn, queued, check, pages, sent, Bool.false_eq_true, if_false]

/-- The binding of a unit that has written its first strip. -/
def State.bindingAfter (s : State) (a : Agent) (r id : Nat) (b : Binding) (q : List Strip) (ps : List ((Word × Nat) × Place)) : Binding :=
  { s.binding a r with
    queue := q, reached := b.reached + 1, port := portOf b.port ps, sent := 0, began := false, writes := id :: b.writes.filter s.opNeeds }

theorem exec_streamStripWrite_of_sent
    (sent : s.sendRest a (s.binding a r).sent (placeGranules (((s.tile a.tile).run).getD 0) ((cut (s.stripAddr a r) 256).zip pl) (vBytes st.data)) =
      (v, n, none)) {u x : State}
    (written : (writeAll (v.openPart a 3) (s.streamWho a r) false true v.nextOp ((cut (s.stripAddr a r) 256).zip pl) (vBytes st.data)).shutPart v.nextOp = u)
    (bound : u.setCtx a ((u.ctx a).setBind r (u.bindingAfter a r v.nextOp (s.binding a r) q ((cut (s.stripAddr a r) 256).zip pl))) = x) :
    exec (.streamStripWrite a r) s = .next (if (s.binding a r).closing = none ∧ q = [] then x else x.post (.streamStripWrite a r)) := by
  subst written bound
  change execStreamStripWrite a r s = _
  simp only [execStreamStripWrite, writes.goesOn, queued, check, pages, sent, Bool.false_eq_true, if_false]
  generalize (s.binding a r).closing = closing
  cases closing <;> cases q <;> rfl

end

end

end

end

/-- Settles O35: each op by its lemma, each unit by what its checks, its pages and its permits allow. -/
theorem streamResults : Obligations.StreamResults := by
  refine ⟨fun s f context => ⟨fun readable => ⟨exec_sgen context readable, fun free base strides unit => ⟨fun checked => ?_, fun checked => ?_⟩,
    fun bound => ⟨sbind_of_bound context readable bound, sbind_of_bound context readable bound⟩⟩, fun tokens => ⟨?_, ?_, ?_⟩, ?_⟩,
    fun s a r => ⟨exec_streamStep_of_idle, ?_, ?_, ?_⟩⟩
  · exact congrArg (settle s) (sbind_ok context readable free base strides unit checked rfl)
  · exact congrArg (settle s) (sbind_ok context readable free base strides unit checked rfl)
  · exact exec_sunbind_of_free context tokens
  · exact fun bound written => exec_sunbind_at_once context tokens bound written rfl
  · exact fun bound output left => exec_sunbind_later context tokens bound output left rfl
  · rw [exec_sstat context, Binding.status, b2n_mul, b2n_mul, b2n_mul]
    rfl
  · intro running bound input room more
    have fetches : s.Fetches a r := ⟨running, bound, input, room, more⟩
    exact ⟨fun t check => exec_streamStripFetch_of_trap fetches check,
      fun pl check pages => ⟨exec_streamStripFetch_of_empty fetches check pages, fun u bs => exec_streamStripFetch_of_full fetches check pages⟩,
      fun pl u check pages => exec_streamStripFetch_of_pageIn fetches check pages,
      fun pl t check pages => exec_streamStripFetch_of_fault fetches check pages⟩
  · intro st q running bound output queued
    have writes : s.Writes a r := ⟨running, bound, output⟩
    exact ⟨fun t check => exec_streamStripWrite_of_trap writes queued check, fun pl check pages =>
      ⟨fun v n e sent => exec_streamStripWrite_of_noPermit writes queued check pages sent,
        fun v n sent => exec_streamStripWrite_of_sent writes queued check pages sent rfl rfl⟩⟩
  · intro running bound output drained
    have writes : s.Writes a r := ⟨running, bound, output⟩
    refine ⟨exec_streamStripWrite_of_open writes drained, fun id closing => ⟨fun held => ?_, fun performed => ?_⟩⟩
    · rw [exec_streamStripWrite_of_closing writes drained closing, held, if_pos rfl]
    · rw [exec_streamStripWrite_of_closing writes drained closing, performed, if_neg Bool.false_ne_true]

end Sys2Proof.Machine
end

section
/-! SUPPORT. Transfer ops, and the steps of the transfer engine. -/

namespace Sys2Proof.Machine

/-! ### Transfer ops at issue (10 R296 to R303) -/

/-- The task and the tile of the executing agent have room for a transfer. -/
def State.HasRoom (s : State) (k : Nat) : Prop :=
  s.taskOf s.cur = some k ∧ s.taskXfers k < 2 ^ recCrlog (s.record k) ∧ s.tileXfers s.cur.tile < 32

theorem issueXfer_of_room {s : State} {f : EX} {k : Nat} {x : Xfer} (room : s.HasRoom k) : issueXfer s f x = .ok (s.startXfer f k x) :=
  issueXfer_ok room.1 room.2.1 room.2.2

/-- A transfer whose operands are checked, with the formats of its destinations. -/
def State.checkedXfer (s : State) (x : Xfer) : Xfer :=
  { x with checked := true, dsts := x.dsts.map (fun d => { d with fmts := (s.tile s.cur.tile).bfmt }) }

/-- The bytes a row of a copy writes. -/
def State.copyLen (s : State) (x : Xfer) : Nat :=
  convLen (convOf (isV s.cur.tile) (isV s.cur.tile) (s.tile s.cur.tile).bfmt (s.tile s.cur.tile).bfmt x.src (x.dsts.headD ⟨0, none, []⟩).addr x.row) x.row

/-- An op issues the copy x of state u: with the source as it stands where the copy overlaps its destination (22 R464). -/
def State.Copies (s : State) (f : EX) (k : Nat) (i : Instr) (u : State) (x : Xfer) : Prop :=
  (overlaps (u.checkedXfer x).pairs x.row (u.copyLen x) = false → u.HasRoom k → exec i s = ran (u.startXfer f k (u.checkedXfer x))) ∧
  (overlaps (u.checkedXfer x).pairs x.row (u.copyLen x) = true → ∀ p w, captureRows x.row u (u.checkedXfer x).pairs = .ok (p, w) → p.HasRoom k →
    exec i s = ran (p.startXfer f k { u.checkedXfer x with whole := some w }))

theorem State.copies_of_issueCopy {s u : State} {f : EX} {k : Nat} {i : Instr} {x : Xfer} (issues : exec i s = settle s (issueCopy u f x)) :
    s.Copies f k i u x := by
  unfold State.Copies State.checkedXfer State.copyLen
  refine ⟨fun apart room => ?_, fun overlap p w captured room => ?_⟩
  · rw [issues]
    simp only [issueCopy, apart, Bool.false_eq_true, if_false, issueXfer_of_room room, settle_ok]
  · rw [issues]
    simp only [issueCopy, overlap, if_true, captured, run_bind_ok, issueXfer_of_room room, settle_ok]

theorem wd_toNat_mod_16 (n : Nat) : (wd n).toNat % 16 = n % 16 := by
  rw [wd, BitVec.toNat_ofNat, Nat.mod_mod_of_dvd _ (by decide)]

/-- The transfer that the bytes of a descriptor ask for (10 R300). -/
def descCopy (agent : Agent) (b : List Byte) : Xfer :=
  { op := 0, q := 0, task := 0, agent := agent, kind := 1, src := wd (fieldOf b 0 8), dsts := [{ addr := wd (fieldOf b 8 8) }], row := fieldOf b 16 4,
    rows := fieldOf b 20 4, planes := fieldOf b 40 4, sRow := wd (fieldOf b 24 8), dRow := wd (fieldOf b 32 8), sPlane := wd (fieldOf b 48 8),
    dPlane := wd (fieldOf b 56 8) }

/-- The fields of a descriptor lie within their limits (10 R300). -/
structure DescLegal (b : List Byte) : Prop where
  src : fieldOf b 0 8 % 16 = 0
  dst : fieldOf b 8 8 % 16 = 0
  row : fieldOf b 16 4 % 16 = 0
  rowMin : 16 ≤ fieldOf b 16 4
  rowMax : fieldOf b 16 4 ≤ 2 ^ 32 - 16
  rowsMin : 1 ≤ fieldOf b 20 4
  rowsMax : fieldOf b 20 4 ≤ 65535
  sRow : fieldOf b 24 8 % 16 = 0
  dRow : fieldOf b 32 8 % 16 = 0
  planesMin : 1 ≤ fieldOf b 40 4
  planesMax : fieldOf b 40 4 ≤ 65535
  reserved : fieldOf b 44 4 = 0
  sPlane : fieldOf b 48 8 % 16 = 0
  dPlane : fieldOf b 56 8 % 16 = 0

theorem descXfer_ok {s : State} {b : List Byte} {kept : List TlbEnt} (legal : DescLegal b)
    (checked : checkRows s (descCopy s.cur b).pairs (fieldOf b 16 4) = .ok kept) : descXfer s b = .ok { descCopy s.cur b with kept := kept } := by
  obtain ⟨src, dst, row, rowMin, rowMax, rowsMin, rowsMax, sRow, dRow, planesMin, planesMax, reserved, sPlane, dPlane⟩ := legal
  unfold descCopy at *
  simp only [descXfer, wd_toNat_mod_16, src, dst, row, rowMin, rowMax, rowsMin, rowsMax, sRow, dRow, planesMin, planesMax, reserved, sPlane, dPlane,
    checked, beq_self_eq_true, decide_true, Bool.and_true, need_true, run_bind_ok]

/-- The c entries that the bytes of a list of `bmcast` hold (10 R301). -/
def castEntries (c : Nat) (b : List Byte) : List (Word × Nat × Nat) :=
  (List.range c).map (fun e => (wd (fieldOf b (16 * e) 8), fieldOf b (16 * e + 8) 2, fieldOf b (16 * e + 10) 6))

theorem listDests_ok {s : State} {hb b : List Byte} (min : 1 ≤ fieldOf hb 0 2) (max : fieldOf hb 0 2 ≤ 8) (reserved : fieldOf hb 2 6 = 0)
    (legal : ∀ e ∈ castEntries (fieldOf hb 0 2) b, (e.2.1 = 0xFFFF ∨ e.2.1 < recRanks (s.runRec s.cur.tile)) ∧ e.2.2 = 0) :
    listDests s hb b = .ok ((castEntries (fieldOf hb 0 2) b).map (fun e => { addr := e.1, rank := some e.2.1 })) := by
  have entries : (castEntries (fieldOf hb 0 2) b).all (fun e => (e.2.1 == 0xFFFF || e.2.1 < recRanks (s.runRec s.cur.tile)) && e.2.2 == 0) = true := by
    simpa using legal
  unfold castEntries at *
  simp only [listDests, min, max, reserved, entries, decide_true, beq_self_eq_true, Bool.and_true, need_true, run_bind_ok]

theorem listBytes_of_le {a : Word} {hb : List Byte} (max : fieldOf hb 0 2 ≤ 8) : listBytes a hb = cut (a + 8) (16 * fieldOf hb 0 2) := by
  rw [listBytes, Nat.min_eq_right max]

/-- What an op tells the engine of a transfer before the sequencer has numbered it. -/
def newXfer (agent : Agent) : Xfer := { op := 0, q := 0, task := 0, agent := agent, kind := 0 }

section
variable {s : State} {f : EX} {k : Nat} (task : s.taskOf s.cur = some k) (ring : recCrlog (s.record k) ≠ 0) (tokens : TokensFree s (kwX f) (kpX f))
include task ring tokens

section
variable (readable : Readable s [f.ra, f.rb, f.rc]) (count : (s.rs f.rc).toNat ≤ 2 ^ 32 - 16) (granules : (s.rs f.rc).toNat % 16 = 0)
include readable count granules

theorem exec_bcopy (src : (s.rs f.ra).toNat % 16 = 0) (dst : (s.rs f.rb).toNat % 16 = 0) {k1 kept : List TlbEnt}
    (source : checkRange s s.who 1 (s.rs f.ra) (s.rs f.rc).toNat = .ok k1)
    (rows : checkRows s [(s.rs f.ra, s.rs f.rb)] (s.rs f.rc).toNat = .ok kept) :
    exec (.bcopy f) s = settle s (issueCopy s f { newXfer s.cur with
      src := s.rs f.ra, dsts := [{ addr := s.rs f.rb }], row := (s.rs f.rc).toNat, kept := kept }) := by
  change execBcopy f s = _
  simp only [execBcopy, xferTests_ok tokens readable task ring, needCount_ok count, aligned_ok src, granules, source, aligned_ok dst, rows,
    beq_self_eq_true, need_true, run_bind_ok]
  rfl

theorem exec_bfill (dst : (s.rs f.rb).toNat % 16 = 0) (room : s.HasRoom k) {kept : List TlbEnt}
    (target : checkRange s s.who 2 (s.rs f.rb) (s.rs f.rc).toNat = .ok kept) :
    exec (.bfill f) s = ran (s.startXfer f k { newXfer s.cur with
      kind := 3, pat := s.rs f.ra, dsts := [{ addr := s.rs f.rb }], row := (s.rs f.rc).toNat, checked := true, kept := kept }) := by
  change execBfill f s = _
  simp only [execBfill, xferTests_ok tokens readable task ring, needCount_ok count, aligned_ok dst, granules, target, issueXfer_of_room room,
    beq_self_eq_true, need_true, run_bind_ok, settle_ok]
  rfl

theorem exec_bmcast (src : (s.rs f.ra).toNat % 16 = 0) (list : (s.rs f.rb).toNat % 16 = 0) {kept : List TlbEnt} {p u v : State} {h0 : List Peeked}
    {h es : List (Byte × Bool)} (source : checkRange s s.who 1 (s.rs f.ra) (s.rs f.rc).toNat = .ok kept)
    (looked : peekPieces s s.who (cut (s.rs f.rb) 8) = .ok (p, h0))
    (whole : ∀ hb, peeked h0 = some hb → ∃ pl, checkAt s s.who (s.rs f.rb) 1 false (listBytes (s.rs f.rb) hb) = .ok pl)
    (head : loadPieces s (s.view s.cur) 1 false false (cut (s.rs f.rb) 8) (s.rs f.rb) = .ok (u, h))
    (entries : loadPieces u (u.view u.cur) 1 false false (listBytes (s.rs f.rb) (h.map (·.1))) (s.rs f.rb) = .ok (v, es))
    {ds : List XDst} (dests : listDests v (h.map (·.1)) (es.map (·.1)) = .ok ds) (room : v.HasRoom k) :
    exec (.bmcast f) s = ran (v.startXfer f k { newXfer v.cur with
      kind := 2, src := s.rs f.ra, row := (s.rs f.rc).toNat, dsts := ds, kept := kept }) := by
  change execBmcast f s = _
  simp only [execBmcast, xferTests_ok tokens readable task ring, needCount_ok count, aligned_ok src, granules, source, aligned_ok list, looked,
    beq_self_eq_true, need_true, run_bind_ok]
  cases standing : peeked h0 with
  | none =>
    simp only [head, entries, dests, issueXfer_of_room room, run_bind_ok, settle_ok]
    rfl
  | some hb =>
    obtain ⟨pl, checked⟩ := whole hb standing
    simp only [checked, Except.map, head, entries, dests, issueXfer_of_room room, run_bind_ok, settle_ok]
    rfl

end

theorem exec_bcopyn (readable : Readable s [f.ra]) (aligned : (s.rs f.ra).toNat % 64 = 0) {p u : State} {h0 : List Peeked} {bs : List (Byte × Bool)}
    (looked : peekPieces s s.who (cut (s.rs f.ra) 64) = .ok (p, h0)) (asked : ∀ hb, peeked h0 = some hb → ∃ x, descXfer s hb = .ok x)
    (read : loadPieces s (s.view s.cur) 1 false false (cut (s.rs f.ra) 64) (s.rs f.ra) = .ok (u, bs)) {x : Xfer}
    (described : descXfer u (bs.map (·.1)) = .ok x) : exec (.bcopyn f) s = settle s (issueCopy u f x) := by
  change execBcopyn f s = _
  simp only [execBcopyn, xferTests_ok tokens readable task ring, aligned_ok aligned, looked, run_bind_ok]
  cases standing : peeked h0 with
  | none => simp only [read, described, run_bind_ok]
  | some hb =>
    obtain ⟨y, described'⟩ := asked hb standing
    simp only [described', Except.map, read, described, run_bind_ok]

theorem exec_bmig (readable : Readable s [f.ra, f.rb]) (context : s.cur.isAwn = false) (mode : s.me.hm = true) (tile0 : (s.rs f.ra).toNat < 2560)
    (tile1 : (s.rs f.rb).toNat < 2560) (room : s.HasRoom k) :
    exec (.bmig f) s = ran (s.startXfer f k { newXfer s.cur with kind := 4, tile0 := (s.rs f.ra).toNat, tile1 := (s.rs f.rb).toNat }) := by
  have handler : s.handler = true := by rw [State.handler, mode, Bool.or_true]
  change execBmig f s = _
  simp only [execBmig, useTok_ok tokens, needHandler_ok handler, notAwn_ok context, useS_ok readable, needRing_ok task ring, tile0, tile1, decide_true,
    need_true, issueXfer_of_room room, run_bind_ok, settle_ok]
  rfl

end

/-! ### Reading a transfer's status (10 R304) -/

section
variable {s : State} {f : EX} (readable : Readable s [f.ra])
include readable

theorem exec_bpoll_of_noTask (noTask : s.taskOf s.cur = none) : exec (.bpoll f) s = ran (s.ws f.rc 0xFF) := by
  change execBpoll f s = _
  simp only [execBpoll, useS_ok readable, noTask, run_bind_ok, settle_ok]
  rfl

theorem exec_bpoll {k : Nat} (task : s.taskOf s.cur = some k) : exec (.bpoll f) s = ran (s.ws f.rc (wd (s.pollQ k (s.rs f.ra).toNat))) := by
  change execBpoll f s = _
  simp only [execBpoll, useS_ok readable, task, run_bind_ok, settle_ok]

theorem exec_bwait_of_noTask (noTask : s.taskOf s.cur = none) : exec (.bwait f) s = trapped s ⟨6, 0x7006, 0, 0, none⟩ := by
  change execBwait f s = _
  simp only [execBwait, useS_ok readable, noTask, run_bind_ok]
  rfl

section
variable {k : Nat} (task : s.taskOf s.cur = some k)
include task

theorem exec_bwait_of_unissued (unissued : (s.task k).nextQ ≤ (s.rs f.ra).toNat) : exec (.bwait f) s = trapped s ⟨6, 0x7006, 0, 0, none⟩ := by
  change execBwait f s = _
  simp only [execBwait, useS_ok readable, task, Nat.not_lt.mpr unissued, decide_false, need_false, run_bind_ok, run_bind_error, settle_trap]
  rfl

theorem exec_bwait_of_done (issued : (s.rs f.ra).toNat < (s.task k).nextQ) (done : s.pollQ k (s.rs f.ra).toNat ≠ 0) : exec (.bwait f) s = ran s := by
  change execBwait f s = _
  simp only [execBwait, useS_ok readable, task, issued, decide_true, need_true, done, run_bind_ok, if_false, settle_ok]

theorem exec_bwait_of_underWay (issued : (s.rs f.ra).toNat < (s.task k).nextQ) (underWay : s.pollQ k (s.rs f.ra).toNat = 0) :
    exec (.bwait f) s = waits s (.transfer (s.rs f.ra).toNat) := by
  change execBwait f s = _
  simp only [execBwait, useS_ok readable, task, issued, decide_true, need_true, underWay, run_bind_ok, if_true]
  rfl

end

end

/-! ### The engine's step for a transfer (10 R296, R298) -/

theorem exec_transferCompletion_of_none {s : State} {id : Nat} (none : s.xfers.find? (fun x => x.op == id) = none) :
    exec (.transferCompletion id) s = .next s := by
  change execTransferCompletion id s = _
  simp only [execTransferCompletion, none]

/-- The engine takes a transfer on: its tile's clock runs, or its task is not there, or it is a COPY's. -/
def State.TakesOn (s : State) (x : Xfer) : Prop := x.kind = 5 ∨ s.stoppedTile x.agent.tile = false ∨ (s.tile x.agent.tile).run ≠ some x.task

/-- The test at the head of the engine's step lets it go on. -/
theorem State.TakesOn.goesOn {s : State} {x : Xfer} (takesOn : s.TakesOn x) :
    (decide (x.kind ≠ 5) && s.stoppedTile x.agent.tile && (s.tile x.agent.tile).run == some x.task) = false := by
  rcases takesOn with copy | running | other
  · simp [copy]
  · simp [running]
  · simp [other]

section
variable {s : State} {id : Nat} {x : Xfer} (found : s.xfers.find? (fun x => x.op == id) = some x)
include found

theorem exec_transferCompletion_of_stopped (kind : x.kind ≠ 5) (stopped : s.stoppedTile x.agent.tile = true)
    (run : (s.tile x.agent.tile).run = some x.task) : exec (.transferCompletion id) s = .next s := by
  change execTransferCompletion id s = _
  simp only [execTransferCompletion, found, kind, stopped, run, ne_eq, not_false_eq_true, decide_true, beq_self_eq_true, Bool.and_true, if_true]

section
variable (takesOn : s.TakesOn x)
include takesOn

theorem exec_transferCompletion_of_written {st : Nat} (written : x.fin = some st) :
    exec (.transferCompletion id) s = .next (if s.opNeeds x.op then s.keepXfer x else s.endXfer x st) := by
  change execTransferCompletion id s = _
  simp only [execTransferCompletion, found, takesOn.goesOn, written, Bool.false_eq_true, if_false]

theorem exec_transferCompletion_of_migration (unwritten : x.fin = none) (kind : x.kind = 4) :
    exec (.transferCompletion id) s = .next (s.migrate x) := by
  change execTransferCompletion id s = _
  simp only [execTransferCompletion, found, takesOn.goesOn, unwritten, Bool.false_eq_true, if_false]
  exact if_pos kind

theorem exec_transferCompletion_of_step (unwritten : x.fin = none) (kind : x.kind ≠ 4) {u : State} (steps : s.stepXfer x = u) :
    exec (.transferCompletion id) s = .next u := by
  change execTransferCompletion id s = _
  simp only [execTransferCompletion, found, takesOn.goesOn, unwritten, kind, steps, Bool.false_eq_true, if_false]

end

end

section
variable {s : State} {x : Xfer}

theorem State.stepXfer_of_unchecked (unchecked : x.checked = false) : s.stepXfer x = s.checkDsts x := by
  simp only [State.stepXfer, unchecked, Bool.not_false, if_true]

section
variable (checked : x.checked = true)
include checked

theorem State.stepXfer_of_end (last : x.dsts[x.dst]? = none) :
    s.stepXfer x = if s.opNeeds x.op then s.keepXfer x else s.finishXfer x (if x.pois then 2 else 1) 0 x.done := by
  simp only [State.stepXfer, checked, last, Bool.not_true, Bool.false_eq_true, if_false]

section
variable {d : XDst} (next : x.dsts[x.dst]? = some d)
include next

theorem State.stepXfer_of_noRow (row : x.row = 0) : s.stepXfer x = s.finishXfer x 1 0 0 := by
  simp only [State.stepXfer, checked, next, row, Bool.not_true, Bool.false_eq_true, if_false, if_true]

section
variable (row : x.row ≠ 0)
include row

/-- The conversion of the transfer's present row. -/
def State.stepConv (s : State) (x : Xfer) (d : XDst) : Option (Word × Word) :=
  if x.kind = 3 ∨ x.kind = 5 then none
  else convOf (isV x.agent.tile) (isV ((s.dstTile x d).getD 0)) x.fmts d.fmts (x.srcAt x.pos) (x.dstAt d x.pos) x.row

/-- The source bytes of the chunk that a transfer holds. -/
def Xfer.heldLen (x : Xfer) (c : Option (Word × Word)) : Nat :=
  c.elim x.held.length (fun c => min (x.row - x.off) (16 * tyWidth (fmtTy c.1)))

section
variable (there : s.runsThere x d = true)
include there

theorem State.stepXfer_of_read (read : x.held = []) :
    s.stepXfer x = s.readChunk x (s.stepConv x d) (x.chunk (s.stepConv x d) (x.dstAt d x.pos) (Config.freePick s.fc)) := by
  simp only [State.stepXfer, checked, next, row, there, read, State.stepConv, Bool.or_eq_true, decide_eq_true_eq, Bool.not_true, Bool.false_eq_true,
    if_false, List.isEmpty_nil, if_true]

theorem State.stepXfer_of_write (write : x.held ≠ []) : s.stepXfer x = s.writeChunk x d (s.stepConv x d) (x.heldLen (s.stepConv x d)) := by
  have held : x.held.isEmpty = false := by simpa using write
  have conv : (if x.kind = 3 || x.kind = 5 then none else
      convOf (isV x.agent.tile) (isV ((s.dstTile x d).getD 0)) x.fmts d.fmts (x.srcAt x.pos) (x.dstAt d x.pos) x.row) = s.stepConv x d := by
    simp only [State.stepConv, Bool.or_eq_true, decide_eq_true_eq]
  simp only [State.stepXfer, checked, next, row, there, held, conv, Bool.not_true, Bool.false_eq_true, if_false]
  cases s.stepConv x d <;> rfl

end

section
variable (away : s.runsThere x d = false)
include away

theorem State.stepXfer_of_frozen (stopped : s.stoppedTile ((s.dstTile x d).getD 0) = true)
    (run : (s.tile ((s.dstTile x d).getD 0)).run = some x.task) : s.stepXfer x = s.keepXfer x := by
  simp only [State.stepXfer, checked, next, row, away, stopped, run, Bool.not_true, Bool.not_false, Bool.false_eq_true, beq_self_eq_true, Bool.and_self,
    if_false, if_true]

theorem State.stepXfer_of_gone (gone : s.stoppedTile ((s.dstTile x d).getD 0) = false ∨ (s.tile ((s.dstTile x d).getD 0)).run ≠ some x.task) :
    s.stepXfer x = s.failXfer x ⟨8, 0x8001, 0, d.addr, none⟩ := by
  have notFrozen : (s.stoppedTile ((s.dstTile x d).getD 0) && (s.tile ((s.dstTile x d).getD 0)).run == some x.task) = false := by
    rcases gone with running | other
    · simp [running]
    · simp [other]
  simp only [State.stepXfer, checked, next, row, away, notFrozen, Bool.not_true, Bool.not_false, Bool.false_eq_true, if_false, if_true]

end

end

end

end

/-- A transfer that held no permission of a port writes its record, and completes once that is performed. -/
theorem State.finishXfer_of_noPort {st code n : Nat} (kind : x.kind ≠ 5) (conv : x.conv = false) (port : x.port = none) :
    s.finishXfer x st code n = if (s.putRecord x st code n).opNeeds x.op then (s.putRecord x st code n).keepXfer { x with fin := some st }
      else (s.putRecord x st code n).endXfer x st := by
  simp only [State.finishXfer, kind, conv, port, State.drlAppend, Bool.false_eq_true, if_false]

end

/-- Settles O36: each op by the lemma about its issue, each step by where the transfer stands. -/
theorem transferResults : Obligations.TransferResults := by
  refine ⟨fun s f => ⟨fun k task ring tokens => ⟨fun readable count granules => ⟨?_, ?_, ?_⟩, ?_, ?_⟩, fun readable => ⟨fun noTask =>
    ⟨exec_bpoll_of_noTask readable noTask, exec_bwait_of_noTask readable noTask⟩, fun k task => ⟨?_, exec_bwait_of_done readable task,
    exec_bwait_of_underWay readable task, exec_bwait_of_unissued readable task⟩⟩⟩, fun s id => ⟨exec_transferCompletion_of_none, fun x found =>
    ⟨exec_transferCompletion_of_stopped found, fun takesOn st written => ⟨fun held => ?_, fun performed => ?_⟩, fun takesOn unwritten => ?_⟩, ?_⟩⟩
  · exact fun src dst k1 kept source rows =>
      State.copies_of_issueCopy (exec_bcopy task ring tokens readable count granules src dst source rows)
  · exact fun dst room kept target => exec_bfill task ring tokens readable count granules dst room target
  · intro src list kept p h0 u h v es source looked whole head c min max reserved entries ents legal room
    have read : loadPieces u (u.view u.cur) 1 false false (listBytes (s.rs f.rb) (h.map (·.1))) (s.rs f.rb) = .ok (v, es) :=
      (congrArg (loadPieces u (u.view u.cur) 1 false false · (s.rs f.rb)) (listBytes_of_le max)).trans entries
    exact exec_bmcast task ring tokens readable count granules src list source looked whole head read (listDests_ok min max reserved legal) room
  · intro readable aligned p h0 u bs looked asked read w h x src dst row rowMin rowMax rowsMin rowsMax sRow dRow planesMin planesMax reserved sPlane
      dPlane kept checked
    have legal : DescLegal (bs.map (·.1)) :=
      ⟨src, dst, row, rowMin, rowMax, rowsMin, rowsMax, sRow, dRow, planesMin, planesMax, reserved, sPlane, dPlane⟩
    exact State.copies_of_issueCopy (exec_bcopyn task ring tokens readable aligned looked asked read (descXfer_ok legal checked))
  · exact fun readable context mode tile0 tile1 room => exec_bmig task ring tokens readable context mode tile0 tile1 room
  · rw [exec_bpoll readable task, State.pollQ]
    simp only [ge_iff_le, Bool.or_eq_true, decide_eq_true_eq]
    rfl
  · rw [exec_transferCompletion_of_written found takesOn written, if_pos held]
  · rw [exec_transferCompletion_of_written found takesOn written, performed, if_neg Bool.false_ne_true]
  · have step {u : State} (kind : x.kind ≠ 4) (steps : s.stepXfer x = u) : exec (.transferCompletion id) s = .next u :=
      exec_transferCompletion_of_step found takesOn unwritten kind steps
    refine ⟨exec_transferCompletion_of_migration found takesOn unwritten, fun kind unchecked => step kind (State.stepXfer_of_unchecked unchecked),
      fun kind checked last => ⟨fun performed => step kind ?_, fun held => step kind ?_⟩,
      fun kind checked d next row => step kind (State.stepXfer_of_noRow checked next row),
      fun kind checked d next row there => ⟨fun read => step kind (State.stepXfer_of_read checked next row there read), fun write =>
        ⟨x.heldLen (s.stepConv x d), step kind (State.stepXfer_of_write checked next row there write), congrArg x.heldLen,
          fun a b => congrArg x.heldLen⟩⟩,
      fun kind checked d next row away => ⟨fun stopped run => step kind (State.stepXfer_of_frozen checked next row away stopped run),
        fun gone => step kind (State.stepXfer_of_gone checked next row away gone)⟩⟩
    · rw [State.stepXfer_of_end checked last, performed, if_neg Bool.false_ne_true]
    · rw [State.stepXfer_of_end checked last, held, if_pos rfl]
  · intro x st code n kind conv port
    have ended := State.finishXfer_of_noPort (s := s) (st := st) (code := code) (n := n) kind conv port
    exact ⟨fun held => ended.trans (if_pos held), fun performed => ended.trans (if_neg (Bool.not_eq_true _ ▸ performed))⟩

end Sys2Proof.Machine
end

section
/-! SUPPORT. The decisions of a dispatcher, and the two steps of a footprint fetch. -/

namespace Sys2Proof.Machine

/-! ### Decisions (02 R45, R48; 11 R327; 14 R392) -/

section
variable {u v : State} {k : Nat}

theorem State.stageFirst_of_free (free : u.tryStage k false = some v) (ks : List Nat) : u.stageFirst (k :: ks) = some v := by
  simp only [State.stageFirst, free]

theorem State.stageFirst_of_displacing (taken : u.tryStage k false = none) (displacing : u.tryStage k true = some v) (ks : List Nat) :
    u.stageFirst (k :: ks) = some v := by
  simp only [State.stageFirst, taken, displacing]

theorem State.stageFirst_of_none (taken : u.tryStage k false = none) (unplaced : u.tryStage k true = none) (ks : List Nat) :
    u.stageFirst (k :: ks) = u.stageFirst ks := by
  simp only [State.stageFirst, taken, unplaced]

end

section
variable {s : State} {d : Nat}

theorem exec_dispatchDecision_of_quiesced (quiesced : s.owner.quiesced = true) : exec (.dispatchDecision d) s = .next s :=
  if_pos quiesced

variable (awake : s.owner.quiesced = false)
include awake

/-- A decision: one task staged if one can be, every Eligible task's request raised, and the next decision due while one is left. -/
theorem exec_dispatchDecision_of_awake : let u := s.takePrios d
    let v := (u.stageFirst (u.eligible d)).getD u
    let w := (v.eligible d).foldl (fun w k => w.request k) v
    exec (.dispatchDecision d) s = .next (if w.recsIn d 3 = [] then w else w.wake d) := by
  intro u v w
  change execDispatchDecision d s = _
  simp only [execDispatchDecision, awake, Bool.false_eq_true, if_false, List.isEmpty_iff, w, v]
  cases u.stageFirst (u.eligible d) <;> rfl

theorem exec_dispatchDecision_of_noneEligible (idle : s.recsIn d 3 = []) : exec (.dispatchDecision d) s = .next s := by
  have prios : s.takePrios d = s := by rw [State.takePrios, idle, List.foldl_nil]
  have eligible : s.eligible d = [] := by rw [State.eligible, idle, List.foldl_nil]
  rw [exec_dispatchDecision_of_awake awake]
  simp only [prios, eligible, State.stageFirst, Option.getD_none, List.foldl_nil, idle, if_true]

end

/-! ### The start of a fetch (11 R329, R489; 16 R410) -/

theorem State.mayFetch_iff {s : State} {d : Nat} {f : Fetch} :
    s.mayFetch d f = true ↔ (∀ g ∈ (s.die d).fetchQ, g.started = none) ∧ f.queued < s.time := by
  simp [State.mayFetch]

section
variable {s u : State} {d : Nat} (placed : (s.recsIn d 4).foldl (fun u k => (u.placePages k).checkRunnable k) s = u)
include placed

theorem exec_footprintFetchStart_of_noneWaiting (started : (u.die d).fetchQ.findIdx? (fun f => f.started.isNone) = none) :
    exec (.footprintFetchStart d) s = .next (u.wakeFetch d) := by
  change execFootprintFetchStart d s = _
  simp only [execFootprintFetchStart, placed, started]

variable {i : Nat} {f : Fetch} (first : (u.die d).fetchQ.findIdx? (fun f => f.started.isNone) = some i) (row : (u.die d).fetchQ[i]? = some f)
include first row

/-- A fetch starts behind the one before it, and after the cycle in which it was queued. -/
theorem exec_footprintFetchStart_of_early (early : u.mayFetch d f = false) : exec (.footprintFetchStart d) s = .next (u.wakeFetch d) := by
  change execFootprintFetchStart d s = _
  simp only [execFootprintFetchStart, placed, first, row, early, Bool.not_false, if_true]

variable (may : u.mayFetch d f = true)
include may

theorem exec_footprintFetchStart_of_fault {c : BitVec 16 × BitVec 10 × Option Nat} (fault : u.fetchLeaf f = .error c) :
    exec (.footprintFetchStart d) s = .next ((u.failFetch d i f c.1 c.2.1 c.2.2).wakeFetch d) := by
  change execFootprintFetchStart d s = _
  simp only [execFootprintFetchStart, placed, first, row, may, Bool.not_true, Bool.false_eq_true, if_false, fault]

theorem exec_footprintFetchStart_of_leaf {l : Leaf} (leaf : u.fetchLeaf f = .ok l) :
    exec (.footprintFetchStart d) s = .next ((((u.noteTlb f.tlb f.root f.src l).setDie d
      { u.die d with fetchQ := (u.die d).fetchQ.modify i (fun f => { f with started := some l }) }).post (.footprintFetchComplete d)).wakeFetch d) := by
  change execFootprintFetchStart d s = _
  simp only [execFootprintFetchStart, placed, first, row, may, Bool.not_true, Bool.false_eq_true, if_false, leaf]

end

/-! ### The completion of a fetch (11 R330; 16 R410) -/

/-- A fetch reads through the leaf it started with, or through a new one where that has been cut. -/
theorem State.keptLeaf_eq_ok {s : State} {f : Fetch} {l : Leaf}
    (leaf : f.started = some l ∧ f.cut = false ∨ f.cut = true ∧ s.fetchLeaf f = .ok l) : s.keptLeaf f = .ok l := by
  unfold State.keptLeaf
  rcases leaf with ⟨started, uncut⟩ | ⟨cut, again⟩
  · simp only [started, uncut, Bool.false_eq_true, if_false]
  · simp only [cut, if_true, again]
    cases f.started <;> rfl

/-- The page of a fetch, read once, in each frame that still waits for it (11 R330). -/
def State.fetchFilled (v : State) (d i : Nat) (f : Fetch) (bs : List (Byte × Bool)) : State :=
  (f.dsts.filter (fun y => !y.gone)).foldl (fun w y => w.fillStaged y.tile y.key y.frame (Page.ofBytes bs) (mkSpte 3 false false (f.src / 2048)))
    (v.setDie d { v.die d with fetchQ := (v.die d).fetchQ.eraseIdx i })

section
variable {s : State} {d : Nat}

theorem exec_footprintFetchComplete_of_noneStarted (waiting : (s.die d).fetchQ.findIdx? (fun f => f.started.isSome) = none) :
    exec (.footprintFetchComplete d) s = .next s := by
  change execFootprintFetchComplete d s = _
  simp only [execFootprintFetchComplete, waiting]

variable {i : Nat} {f : Fetch} {l : Leaf} {v : State} (first : (s.die d).fetchQ.findIdx? (fun f => f.started.isSome) = some i)
  (row : (s.die d).fetchQ[i]? = some f) (leaf : s.keptLeaf f = .ok l)
include first row leaf

theorem exec_footprintFetchComplete_of_wait {w : Wait} (held : s.unitLines d .now l (wd f.src) 64 (l.pa f.src) = .error (.wait w v)) :
    exec (.footprintFetchComplete d) s = .next (v.post (.footprintFetchComplete d)) := by
  change execFootprintFetchComplete d s = _
  simp only [execFootprintFetchComplete, first, row, leaf, held]

theorem exec_footprintFetchComplete_of_read {bs : List (Byte × Bool)} (read : s.unitLines d .now l (wd f.src) 64 (l.pa f.src) = .ok (v, bs)) :
    exec (.footprintFetchComplete d) s = .next (((((f.dsts.filter (fun y => !y.gone)).map (fun y => y.task)).dedup).foldl
      (fun w k => w.checkRunnable k) ((v.fetchFilled d i f bs).fetchWritten d)).wakeFetch d) := by
  change execFootprintFetchComplete d s = _
  simp only [execFootprintFetchComplete, first, row, leaf, read]
  rfl

end

/-- Settles O45: a decision by whether the package is quiesced, a fetch's start and completion by the fetch that its die finds. -/
theorem dispatcherResults : Obligations.DispatcherResults := by
  intro s d
  refine ⟨exec_dispatchDecision_of_quiesced, exec_dispatchDecision_of_noneEligible,
    fun u k ks => ⟨fun v free => State.stageFirst_of_free free ks, fun taken v displacing => State.stageFirst_of_displacing taken displacing ks,
      fun taken unplaced => State.stageFirst_of_none taken unplaced ks⟩,
    fun awake _ => exec_dispatchDecision_of_awake awake, ⟨exec_footprintFetchStart_of_noneWaiting rfl, fun i f first row => ⟨fun early => ?_, ?_, ?_⟩⟩,
    ⟨exec_footprintFetchComplete_of_noneStarted, fun i f l first row leaf =>
      ⟨fun w v => exec_footprintFetchComplete_of_wait first row (State.keptLeaf_eq_ok leaf),
        fun v bs => exec_footprintFetchComplete_of_read first row (State.keptLeaf_eq_ok leaf)⟩⟩⟩
  · refine exec_footprintFetchStart_of_early rfl first row (Bool.eq_false_iff.mpr fun may => ?_)
    obtain ⟨idle, late⟩ := State.mayFetch_iff.mp may
    rcases early with ⟨g, queued, started⟩ | early
    · simp [idle g queued] at started
    · exact absurd late (Nat.not_lt.mpr early)
  · exact fun c idle late => exec_footprintFetchStart_of_fault rfl first row (State.mayFetch_iff.mpr ⟨idle, late⟩)
  · exact fun l idle late => exec_footprintFetchStart_of_leaf rfl first row (State.mayFetch_iff.mpr ⟨idle, late⟩)

end Sys2Proof.Machine
end

section
/-! SUPPORT. Granules of stream edges where they arrive, and the permits and holds that come back to their producers. -/

namespace Sys2Proof.Machine

/-! ### Granules that a page takes (03 R67) -/

/-- Setting a bit of a word shows in that bit alone. -/
theorem getLsbD_setBit_true {w n : Nat} (x : BitVec w) (inside : n < w) (j : Nat) : (setBit x n true).getLsbD j = (x.getLsbD j || decide (j = n)) := by
  have power : (BitVec.ofNat w (2 ^ n)).getLsbD j = decide (j = n) := by
    rw [BitVec.getLsbD_ofNat, Nat.testBit_two_pow]
    by_cases same : n = j
    · simp [← same, inside]
    · simp [same, Ne.symm same]
  rw [setBit, if_pos rfl, BitVec.getLsbD_or, power]

theorem Page.putGranule_full (p : Page) {n : Nat} (inside : n < 128) (data : BitVec 128) (mask : BitVec 16) (pois : Bool) (j : Nat) :
    (p.putGranule n data mask pois).full.getLsbD j = (p.full.getLsbD j || decide (j = n)) :=
  getLsbD_setBit_true p.full inside j

/-! ### Arrivals (11 R334, 23 R470) -/

section
variable {s : State} {g : EdgeGranule}

/-- A granule that nobody is to take is acknowledged. -/
theorem exec_streamEdgeGranuleArrival_of_untaken (untaken : (s.task g.task).closed.get false g.edge = true ∨ s.peerEdge g.task g.edge = none) :
    exec (.streamEdgeGranuleArrival g) s = .next (s.acknowledge g.task g.edge g.maker) := by
  change execStreamEdgeGranuleArrival g s = _
  unfold execStreamEdgeGranuleArrival
  rcases untaken with closed | alone
  · rw [if_pos closed]
  · rw [alone, ite_self]

variable {c j : Nat} (opened : (s.task g.task).closed.get false g.edge = false) (peer : s.peerEdge g.task g.edge = some (c, j))
include opened peer

theorem exec_streamEdgeGranuleArrival_of_noTile (away : s.regionTable c = none) :
    exec (.streamEdgeGranuleArrival g) s = .next (s.again (.streamEdgeGranuleArrival g)) := by
  change execStreamEdgeGranuleArrival g s = _
  simp only [execStreamEdgeGranuleArrival, opened, Bool.false_eq_true, if_false, peer, away]

variable {t : Nat} {running : Bool} {spt : SMap Word} (table : s.regionTable c = some (t, running, spt)) {key i : Nat}
  (slot : regionPlace (recEdge (s.record g.task) g.edge) (recEdge (s.record c) j) g.gran = (key, i))
include table slot

/-- A granule whose page is in no frame, or full there, waits at the edge. -/
theorem exec_streamEdgeGranuleArrival_of_noRoom
    (noRoom : loc (spt.get 0 key) ≠ 1 ∨ ((s.tile t).frame (key / 8192) (place (spt.get 0 key))).full.getLsbD i = true) :
    exec (.streamEdgeGranuleArrival g) s = .next (s.again (.streamEdgeGranuleArrival g)) := by
  change execStreamEdgeGranuleArrival g s = _
  simp only [execStreamEdgeGranuleArrival, opened, Bool.false_eq_true, if_false, peer, table, slot]
  rcases noRoom with absent | full
  · rw [decide_eq_true absent, Bool.true_or, Bool.true_or, if_pos rfl]
  · rw [full, Bool.or_true, if_pos rfl]

/-- An empty granule of a frame that no freeze has imaged takes the data, and keeps the producer's count. -/
theorem exec_streamEdgeGranuleArrival_of_room (resident : loc (spt.get 0 key) = 1)
    (empty : ((s.tile t).frame (key / 8192) (place (spt.get 0 key))).full.getLsbD i = false)
    (unimaged : ∀ z, (s.tile t).frz = some z → z.imaged = false) :
    exec (.streamEdgeGranuleArrival g) s = .next (s.setTile t (((s.tile t).putRegion running key (spt.get 0 key)
      (((s.tile t).frame (key / 8192) (place (spt.get 0 key))).putGranule i g.data g.mask g.poisoned)).putMaker running (key * 128 + i) g.maker)) := by
  change execStreamEdgeGranuleArrival g s = _
  simp only [execStreamEdgeGranuleArrival, opened, Bool.false_eq_true, if_false, peer, table, slot, resident, empty]
  cases frozen : (s.tile t).frz with
  | none => simp
  | some z => simp [unimaged z frozen]

end

/-! ### Permits (11 R335) -/

theorem State.task_setTask (s : State) (wf : s.tasks.wf {} = true) (k j : Nat) (x : Task) : (s.setTask k x).task j = if j = k then x else s.task j :=
  SMap.get_set wf k j x

/-- An acknowledgement gives one permit back. -/
theorem State.acknowledge_permits {s : State} {k : Nat} (tasks : s.tasks.wf {} = true) (permits : (s.task k).permits.wf 0 = true) (i : Nat)
    (m : Option (Nat × Nat)) : ((s.acknowledge k i m).task k).permits.get 0 i = (s.task k).permits.get 0 i - 1 := by
  dsimp only [State.acknowledge, State.balance]
  rw [State.onLaunch_leaves (State.task · k) (fun _ _ => rfl), State.task_setTask s tasks, if_pos rfl]
  dsimp only
  rw [SMap.get_set permits, if_pos rfl]

/-- Settles O48: an arrival by whether its granule is taken, has a place and finds it empty; a full bit; a permit; a hold. -/
theorem streamEdgeResults : Obligations.StreamEdgeResults := by
  intro s g k i h m
  refine ⟨exec_streamEdgeGranuleArrival_of_untaken, fun c j opened peer => ⟨exec_streamEdgeGranuleArrival_of_noTile opened peer,
    fun t running spt table => ⟨exec_streamEdgeGranuleArrival_of_noRoom opened peer table rfl,
      exec_streamEdgeGranuleArrival_of_room opened peer table rfl⟩⟩, fun p n data inside => ⟨?_, fun j other => ?_⟩, rfl,
    fun tasks permits _ => State.acknowledge_permits tasks permits i m, rfl⟩
  · simp [Page.putGranule_full p inside]
  · simp [Page.putGranule_full p inside, other]

end Sys2Proof.Machine
end

section
/-! SUPPORT. The grid of routers: a tile's column and row, the links between neighbours, and the hop of dimension order. -/

namespace Sys2Proof.Machine

/-! ### Columns and rows (12 R343) -/

section
variable {x y : Nat}

theorem tileAt_lt (hx : x < 64) (hy : y < 40) : tileAt x y < 2560 := by unfold tileAt; omega

theorem gridX_tileAt (hx : x < 64) : gridX (tileAt x y) = x := by unfold gridX tileAt dieOf; omega

theorem gridY_tileAt (hx : x < 64) : gridY (tileAt x y) = y := by unfold gridY tileAt dieOf; omega

/-- Every tile of the package stands at one place of the grid. -/
theorem exists_tileAt {t : Nat} (ht : t < 2560) : ∃ x y, x < 64 ∧ y < 40 ∧ t = tileAt x y :=
  ⟨gridX t, gridY t, by unfold gridX dieOf; omega, by unfold gridY dieOf; omega, by unfold tileAt gridX gridY dieOf; omega⟩

/-! ### Links (12 R343, Table — Direction codes) -/

/-- Ports e and w of two routers side by side in a row face each other. -/
theorem joins_along_row (hx : x + 1 < 64) :
    joins (tileAt x y) 2 = .router (tileAt (x + 1) y) ∧ joins (tileAt (x + 1) y) 4 = .router (tileAt x y) := by
  have inner : x ≠ 63 := by omega
  constructor <;> simp [joins, gridX_tileAt, gridY_tileAt, hx, Nat.lt_of_succ_lt hx, inner]

/-- Ports s and n of two routers one above the other in a column face each other. -/
theorem joins_along_column (hx : x < 64) (hy : y + 1 < 40) :
    joins (tileAt x y) 3 = .router (tileAt x (y + 1)) ∧ joins (tileAt x (y + 1)) 1 = .router (tileAt x y) := by
  have inner : y ≠ 39 := by omega
  constructor <;> simp [joins, gridX_tileAt, gridY_tileAt, hx, inner]

/-! ### Dimension order (12 R346) -/

theorem dimOrder_self (t : Nat) : dimOrder t t false = 0 := by simp [dimOrder]

end

/-- Hops between two tiles: the columns and the rows apart. -/
def gridDistance (t u : Nat) : Nat := ((gridX t : Int) - gridX u).natAbs + ((gridY t : Int) - gridY u).natAbs

/-- At another tile of the package, the port of dimension order leads one column nearer, or in the same column one row nearer. -/
def HopNearer (t dest u : Nat) : Prop :=
  joins t (dimOrder t dest false) = .router u ∧ u < 2560 ∧ joins u (facing (dimOrder t dest false)) = .router t ∧
    gridDistance u dest + 1 = gridDistance t dest ∧ (gridX t ≠ gridX dest → gridY u = gridY t)

/-- A hop by a port of dimension order, over a link of the grid, to a router that is one column nearer or one row nearer. -/
theorem hopNearer_of_link {t dest u port back : Nat} (order : dimOrder t dest false = port) (faces : facing port = back)
    (link : joins t port = .router u ∧ joins u back = .router t) (inside : u < 2560)
    (nearer : gridDistance u dest + 1 = gridDistance t dest) (columnsFirst : gridX t ≠ gridX dest → gridY u = gridY t) : HopNearer t dest u := by
  obtain ⟨out, home⟩ := link
  exact ⟨order ▸ out, inside, by rw [order, faces]; exact home, nearer, columnsFirst⟩

/-- Dimension order goes e or w to the column of the destination, and then s or n to its row. -/
theorem exists_hopNearer {t dest : Nat} (ht : t < 2560) (hdest : dest < 2560) (other : t ≠ dest) : ∃ u, HopNearer t dest u := by
  obtain ⟨x, y, hx, hy, rfl⟩ := exists_tileAt ht
  obtain ⟨a, b, ha, hb, rfl⟩ := exists_tileAt hdest
  rcases Nat.lt_trichotomy x a with east | rfl | west
  · have hx' : x + 1 < 64 := by omega
    refine ⟨tileAt (x + 1) y, hopNearer_of_link (port := 2) ?_ rfl (joins_along_row hx') (tileAt_lt hx' hy) ?_ ?_⟩
    · simp [dimOrder, gridX_tileAt, hx, ha, east]
    · simp only [gridDistance, gridX_tileAt, gridY_tileAt, hx, ha, hx']
      omega
    · simp [gridY_tileAt, hx, hx']
  · have sameColumn : gridX (tileAt x y) = gridX (tileAt x b) := by simp [gridX_tileAt, hx]
    rcases Nat.lt_trichotomy y b with south | rfl | north
    · refine ⟨tileAt x (y + 1), hopNearer_of_link (port := 3) ?_ rfl (joins_along_column hx (by omega)) (tileAt_lt hx (by omega)) ?_
        (absurd sameColumn)⟩
      · simp [dimOrder, gridX_tileAt, gridY_tileAt, hx, south]
      · simp only [gridDistance, gridX_tileAt, gridY_tileAt, hx]
        omega
    · exact absurd rfl other
    · obtain ⟨z, rfl⟩ := Nat.exists_eq_succ_of_ne_zero (Nat.ne_zero_of_lt north)
      refine ⟨tileAt x z, hopNearer_of_link (port := 1) ?_ rfl (joins_along_column hx hy).symm (tileAt_lt hx (by omega)) ?_
        (absurd sameColumn)⟩
      · simp [dimOrder, gridX_tileAt, gridY_tileAt, hx, north, Nat.lt_asymm north]
      · simp only [gridDistance, gridX_tileAt, gridY_tileAt, hx]
        omega
  · obtain ⟨z, rfl⟩ := Nat.exists_eq_succ_of_ne_zero (Nat.ne_zero_of_lt west)
    have hz : z < 64 := Nat.lt_of_succ_lt hx
    refine ⟨tileAt z y, hopNearer_of_link (port := 4) ?_ rfl (joins_along_row hx).symm (tileAt_lt hz hy) ?_ ?_⟩
    · simp [dimOrder, gridX_tileAt, hx, ha, west, Nat.lt_asymm west]
    · simp only [gridDistance, gridX_tileAt, gridY_tileAt, hx, ha, hz]
      omega
    · simp [gridY_tileAt, hx, hz]

/-- Settles O38: at the destination the port is t; elsewhere its hop is along the row while the columns differ, and then along the column. -/
theorem dimensionOrderReachesDestination : Obligations.DimensionOrderReachesDestination :=
  ⟨fun t _ => dimOrder_self t, fun _ _ => exists_hopNearer⟩

end Sys2Proof.Machine
end

section
/-! SUPPORT. Routers and the merges of the fabric: a packet at a router by the way it goes, a contribution by what the adder holds of its sum, and a
count token by whether its route class merges. -/

namespace Sys2Proof.Machine

/-! ### Routers (12 R346, R350) -/

section
variable {s : State} {t port : Nat} {p : Packet} {cs : List (Nat × Packet)}

theorem State.wayOf_of_address (byAddress : p.byRoute = false) (here : p.pkg = s.ua.pkg) (inside : p.dest < 2560) :
    s.wayOf t p = .out [(dimOrder t p.dest false, p)] := by
  simp [State.wayOf, byAddress, here, inside]

theorem State.canGo_iff : s.canGo t port p cs = true ↔
    (∀ c ∈ cs, s.canLeave t c = true) ∧ (s.tile t).hasTurn port p.cls (turnsFor t cs) = true := by
  simp only [State.canGo, Bool.and_eq_true, List.all_eq_true]

theorem State.canGo_eq_false_iff : s.canGo t port p cs = false ↔
    (∃ c ∈ cs, s.canLeave t c = false) ∨ (s.tile t).hasTurn port p.cls (turnsFor t cs) = false := by
  simp only [State.canGo, Bool.and_eq_false_iff, List.all_eq_false, Bool.not_eq_true]

theorem exec_routerPacketArrival_of_contained (contained : (s.tile t).contained = true) : exec (.routerPacketArrival t port p) s = .next s := by
  change execRouterPacketArrival t port p s = _
  rw [execRouterPacketArrival, if_pos contained]

variable (opened : (s.tile t).contained = false)
include opened

theorem exec_routerPacketArrival_of_drop (way : s.wayOf t p = .drop) :
    exec (.routerPacketArrival t port p) s = .next (((s.returnCredits t port p).dropTurn t port p.cls).discard t p.route p.kind) := by
  change execRouterPacketArrival t port p s = _
  simp only [execRouterPacketArrival, opened, way, Bool.false_eq_true, if_false]

theorem exec_routerPacketArrival_of_adder (way : s.wayOf t p = .adder) :
    exec (.routerPacketArrival t port p) s = .next ((s.dropTurn t port p.cls).again (.adderContributionArrival t port p)) := by
  change execRouterPacketArrival t port p s = _
  simp only [execRouterPacketArrival, opened, way, Bool.false_eq_true, if_false]

theorem exec_routerPacketArrival_of_wait (way : s.wayOf t p = .out cs) (waits : s.canGo t port p cs = false) :
    exec (.routerPacketArrival t port p) s = .next ((s.takeTurn t port p.cls (turnsFor t cs)).again (.routerPacketArrival t port p)) := by
  change execRouterPacketArrival t port p s = _
  simp only [execRouterPacketArrival, opened, way, waits, Bool.false_eq_true, if_false]

/-- A packet that goes leaves by each port; the copies that a fan-out adds count as sent. -/
theorem exec_routerPacketArrival_of_go (way : s.wayOf t p = .out cs) (goes : s.canGo t port p cs = true) :
    exec (.routerPacketArrival t port p) s =
      let v := cs.foldl (fun v c => v.leave t c) ((s.returnCredits t port p).dropTurn t port p.cls)
      .next (if cs.length ≤ 1 ∨ 2 < p.kind then v else v.onLaunch p.launch (fun l => l.send (akey ⟨t, 15⟩) (cs.length - 1))) := by
  change execRouterPacketArrival t port p s = _
  simp only [execRouterPacketArrival, opened, way, goes, Bool.false_eq_true, if_false, if_true, Bool.or_eq_true, decide_eq_true_eq, gt_iff_lt]

end

/-! ### Adders (12 R356) -/

/-- The partial sum that a contribution belongs to: the one of its key, or an empty one. -/
def Tile.partialOf (x : Tile) (p : Packet) : Partial := (x.adder.find? (isPartial p)).getD ⟨p.route, redColl p.hdr, redStep p.hdr, []⟩

/-- The adder can take a contribution of a port: its sum lacks that port's, or one of the adder's eight sums is free. -/
def Tile.adderTakes (x : Tile) (port : Nat) (p : Packet) : Bool :=
  (x.adder.any (isPartial p) && ((x.partialOf p).ports.find port).isNone) || (!x.adder.any (isPartial p) && decide (x.adder.length < 8))

section
variable {x : Tile} {port : Nat} {p : Packet} {q : Partial}

theorem Tile.partialOf_of_find (sum : x.adder.find? (isPartial p) = some q) : x.partialOf p = q := by rw [Tile.partialOf, sum, Option.getD_some]

theorem Tile.partialOf_of_no_sum (noSum : x.adder.find? (isPartial p) = none) : x.partialOf p = ⟨p.route, redColl p.hdr, redStep p.hdr, []⟩ := by
  rw [Tile.partialOf, noSum, Option.getD_none]

theorem Tile.adderTakes_of_find (sum : x.adder.find? (isPartial p) = some q) : x.adderTakes port p = (q.ports.find port).isNone := by
  have held : x.adder.any (isPartial p) = true := by rw [← List.isSome_find?, sum, Option.isSome_some]
  simp [Tile.adderTakes, held, Tile.partialOf_of_find sum]

theorem Tile.adderTakes_of_no_sum (noSum : x.adder.find? (isPartial p) = none) : x.adderTakes port p = decide (x.adder.length < 8) := by
  have unheld : x.adder.any (isPartial p) = false := by rw [← List.isSome_find?, noSum, Option.isSome_none]
  simp [Tile.adderTakes, unheld]

end

section
variable {s : State} {t port : Nat} {p : Packet}

theorem exec_adderContributionArrival_of_contained
    (contained : (s.tile t).contained = true ∨ (s.die (dieOf t)).contained.get 0 (16 + t % 160) ≠ 0) :
    exec (.adderContributionArrival t port p) s = .next s := by
  change execAdderContributionArrival t port p s = _
  rw [execAdderContributionArrival, if_pos (by simpa using contained)]

variable (opened : (s.tile t).contained = false) (sound : (s.die (dieOf t)).contained.get 0 (16 + t % 160) = 0)
include opened sound

/-- A packet that by the present tables is no contribution goes back to the router. -/
theorem exec_adderContributionArrival_of_other_way (way : s.wayOf t p ≠ .adder) :
    exec (.adderContributionArrival t port p) s = .next ((s.dropTurn t (6 + port) p.cls).again (.routerPacketArrival t port p)) := by
  change execAdderContributionArrival t port p s = _
  simp [execAdderContributionArrival, opened, sound, way]

variable (way : s.wayOf t p = .adder)
include way

theorem exec_adderContributionArrival_of_dropped
    (dropped : (rtIn (s.routeEntry t p.route)).contains port = false ∨ ((s.tile t).seen.get [] port).contains (contribId p) = true) :
    exec (.adderContributionArrival t port p) s = .next ((s.returnCredits t port p).dropTurn t (6 + port) p.cls) := by
  have out : (!(rtIn (s.routeEntry t p.route)).contains port || ((s.tile t).seen.get [] port).contains (contribId p)) = true := by
    simpa only [Bool.or_eq_true, Bool.not_eq_true'] using dropped
  change execAdderContributionArrival t port p s = _
  simp only [execAdderContributionArrival, opened, sound, way, bne_self_eq_false, Bool.or_false, Bool.false_eq_true, if_false, out, if_true]

variable (named : (rtIn (s.routeEntry t p.route)).contains port = true) (fresh : ((s.tile t).seen.get [] port).contains (contribId p) = false)
include named fresh

/-- A contribution that counts is added where the adder takes it and the sum it completes has room, and waits otherwise. -/
theorem exec_adderContributionArrival_of_fresh :
    exec (.adderContributionArrival t port p) s =
      let takes := (s.tile t).adderTakes port p
      let room := s.sumRoom t port p (s.routeEntry t p.route) ((s.tile t).partialOf p)
      .next (if takes && room then
        ((s.returnCredits t port p).dropTurn t (6 + port) p.cls).addContribution t port p (s.routeEntry t p.route) ((s.tile t).partialOf p)
      else s.sumWaits t port p (!takes || room)) := by
  change execAdderContributionArrival t port p s = _
  simp only [execAdderContributionArrival, opened, sound, way, named, fresh, bne_self_eq_false, Bool.or_false, Bool.not_true, Bool.false_eq_true,
    if_false]
  exact (apply_ite Host.Outcome.next ..).symm

theorem exec_adderContributionArrival_of_room (takes : (s.tile t).adderTakes port p = true)
    (room : s.sumRoom t port p (s.routeEntry t p.route) ((s.tile t).partialOf p) = true) :
    exec (.adderContributionArrival t port p) s = .next (((s.returnCredits t port p).dropTurn t (6 + port) p.cls).addContribution t port p
      (s.routeEntry t p.route) ((s.tile t).partialOf p)) := by
  rw [exec_adderContributionArrival_of_fresh opened sound way named fresh]
  simp only [takes, room, Bool.and_self, if_true]

theorem exec_adderContributionArrival_of_no_room (takes : (s.tile t).adderTakes port p = true)
    (room : s.sumRoom t port p (s.routeEntry t p.route) ((s.tile t).partialOf p) = false) :
    exec (.adderContributionArrival t port p) s = .next (s.sumWaits t port p false) := by
  rw [exec_adderContributionArrival_of_fresh opened sound way named fresh]
  simp only [takes, room, Bool.and_false, Bool.not_true, Bool.or_self, Bool.false_eq_true, if_false]

theorem exec_adderContributionArrival_of_not_taken (takes : (s.tile t).adderTakes port p = false) :
    exec (.adderContributionArrival t port p) s = .next (s.sumWaits t port p true) := by
  rw [exec_adderContributionArrival_of_fresh opened sound way named fresh]
  simp only [takes, Bool.false_and, Bool.not_false, Bool.true_or, Bool.false_eq_true, if_false]

end

/-- A sum travels in the class of its contributions. -/
theorem adderSum_cls (ps : List Packet) (p : Packet) : (adderSum ps p).cls = p.cls := by
  unfold adderSum
  dsimp only
  split
  · rfl
  · split
    · split <;> rfl
    · rfl

/-- A sum no longer than the contribution by port t that completes it has room in the place that this gives up. -/
theorem State.sumRoom_of_own_place {s : State} {t : Nat} {p : Packet} {q : Partial} (e : Word)
    (short : flitsOf (adderSum ((q.ports.put 0 p).map (·.2)) p) ≤ flitsOf p) (credits : (s.tile t).sentFlits 0 p.cls ≤ 16)
    (turn : (s.tile t).hasTurn 6 p.cls [5] = true) : s.sumRoom t 0 p e q = true := by
  have room : (s.tile t).sentFlits 0 p.cls + flitsOf (adderSum ((q.ports.put 0 p).map (·.2)) p) ≤ 16 + flitsOf p := by omega
  simp [State.sumRoom, adderSum_cls, room, turn]

/-! ### Count tokens (05 R141, 12 R354, R358) -/

/-- The entry of a route class is a merge of count tokens: a statistics root, or an adder entry. -/
def rtMerges (e : Word) : Bool := rtMode e = 2 || (rtMode e = 0 && rtAdd e)

theorem rtMerges_iff {e : Word} : rtMerges e = true ↔ rtMode e = 2 ∨ (rtMode e = 0 ∧ rtAdd e = true) := by
  simp only [rtMerges, Bool.or_eq_true, Bool.and_eq_true, decide_eq_true_eq]

theorem rtMerges_eq_false_iff {e : Word} : rtMerges e = false ↔ rtMode e ≠ 2 ∧ (rtMode e ≠ 0 ∨ rtAdd e = false) := by
  simp only [rtMerges, Bool.or_eq_false_iff, Bool.and_eq_false_iff, decide_eq_false_iff_not, ne_eq]

theorem State.returnCredits_time (s : State) (t port : Nat) (p : Packet) : (s.returnCredits t port p).time = s.time := by
  unfold State.returnCredits
  dsimp only
  split
  · exact foldl_leaves State.time (fun s _ => s.post _) (fun _ _ => rfl) ..
  · exact foldl_leaves State.time (fun s _ => s.post _) (fun _ _ => rfl) ..
  · rfl
  · rfl

theorem State.tokenCredit_time (s : State) (t port : Nat) : (s.tokenCredit t port).time = s.time := by
  unfold State.tokenCredit
  split
  · rfl
  · exact s.returnCredits_time t port tokenFlit

/-- The ports by which an entry that is no merge sends a token on. -/
def rtTokenPorts (e : Word) : List Nat := if rtMode e = 1 then [bits e 26 24] else rtOut e

section
variable {s : State} {t port : Nat} {k : CountToken}

theorem exec_statTokenArrival_of_contained (contained : (s.tile t).contained = true) : exec (.statTokenArrival t port k) s = .next s := by
  change execStatTokenArrival t port k s = _
  simp only [execStatTokenArrival, contained, if_true]

variable (opened : (s.tile t).contained = false)
include opened

/-- Where its route class does not merge, a token is discarded for want of a port, and else goes on or waits for room at its ports. -/
theorem exec_statTokenArrival_of_passing (passes : rtMerges (s.routeEntry t k.route) = false) :
    exec (.statTokenArrival t port k) s = .next (
      if rtTokenPorts (s.routeEntry t k.route) = [] then (s.tokenCredit t port).discard t k.route 7
      else if s.tokenRoom t (rtTokenPorts (s.routeEntry t k.route)) then
        (rtTokenPorts (s.routeEntry t k.route)).foldl (fun u o => u.sendToken t k o) (s.tokenCredit t port)
      else s.again (.statTokenArrival t port k)) := by
  unfold rtMerges at passes
  change execStatTokenArrival t port k s = _
  simp only [execStatTokenArrival, opened, Bool.false_eq_true, if_false, passes, rtTokenPorts, List.isEmpty_iff]
  by_cases chosen : rtMode (s.routeEntry t k.route) = 1
  · simp only [chosen, if_true, List.cons_ne_nil, if_false]
    exact (apply_ite Host.Outcome.next ..).symm
  · simp only [chosen, if_false, apply_ite Host.Outcome.next]

section
variable (merges : rtMerges (s.routeEntry t k.route) = true)
include merges

theorem exec_statTokenArrival_of_unnamed (unnamed : (rtIn (s.routeEntry t k.route)).contains port = false) :
    exec (.statTokenArrival t port k) s = .next (s.tokenCredit t port) := by
  unfold rtMerges at merges
  change execStatTokenArrival t port k s = _
  simp only [execStatTokenArrival, opened, Bool.false_eq_true, if_false, merges, if_true, unnamed, Bool.not_false]

/-- A token of a port that the merge names joins it; the one that makes it complete ends it. -/
theorem exec_statTokenArrival_of_named (named : (rtIn (s.routeEntry t k.route)).contains port = true) :
    exec (.statTokenArrival t port k) s =
      let key := k.route * 65536 + k.tree
      let n := (s.tile t).statNodes.get {} key
      let c := s.tokenCredit t port
      let u := c.setTile t { c.tile t with statNodes := (s.tile t).statNodes.set {} key (n.add port s.time k) }
      .next (if ∀ i ∈ rtIn (s.routeEntry t k.route), (n.add port s.time k).ports.get 0 i ≠ 0 then c.statDone t k.route key (n.add port s.time k)
        else if n.open_ then u else u.post (.statMergeTimeout t k.route)) := by
  unfold rtMerges at merges
  change execStatTokenArrival t port k s = _
  simp only [execStatTokenArrival, opened, Bool.false_eq_true, if_false, merges, if_true, named, Bool.not_true, List.all_eq_true, bne_iff_ne,
    State.tokenCredit_time]
  by_cases complete : ∀ i ∈ rtIn (s.routeEntry t k.route),
      (((s.tile t).statNodes.get {} (k.route * 65536 + k.tree)).add port s.time k).ports.get 0 i ≠ 0
  · simp only [if_pos complete]
  · simp only [if_neg complete]

end

end

/-- A node adds a token's counts, saturating, and its number of converter tokens. -/
theorem StatNode.add_counts (n : StatNode) (port time : Nat) (k : CountToken) {i : Nat} (field : i < 5) :
    (n.add port time k).counts[i]? = some (min 0xFFFFFFFF ((n.counts[i]?).getD 0 + (k.counts[i]?).getD 0)) := by
  simp [StatNode.add, field]

/-! ### The end of a merge (12 R358) -/

/-- The merges of a route class that a tile holds open, and those of them whose first token is 4,096 cycles old. -/
def State.openMerges (s : State) (t cls : Nat) : List (Nat × StatNode) := (s.tile t).statNodes.filter (fun e => e.1 / 65536 == cls)
def State.dueMerges (s : State) (t cls : Nat) : List (Nat × StatNode) := (s.openMerges t cls).filter (fun e => decide (e.2.since + 4096 ≤ s.time))

section
variable {s : State} {t cls : Nat}

theorem exec_statMergeTimeout_of_all_due (due : ∀ e ∈ s.openMerges t cls, e.2.since + 4096 ≤ s.time) :
    s.dueMerges t cls = s.openMerges t cls ∧
      exec (.statMergeTimeout t cls) s = .next ((s.dueMerges t cls).foldl (fun u e => u.statDone t cls e.1 e.2) s) := by
  have all : s.dueMerges t cls = s.openMerges t cls := List.filter_eq_self.mpr (fun e he => decide_eq_true (due e he))
  refine ⟨all, ?_⟩
  change Host.Outcome.next (if (s.dueMerges t cls).length < (s.openMerges t cls).length then _ else _) = _
  rw [if_neg (by rw [all]; exact Nat.lt_irrefl _)]
  rfl

/-- While a merge of the class is younger, the test comes again. -/
theorem exec_statMergeTimeout_of_not_due (young : ∃ e ∈ s.openMerges t cls, s.time < e.2.since + 4096) :
    exec (.statMergeTimeout t cls) s =
      .next (((s.dueMerges t cls).foldl (fun u e => u.statDone t cls e.1 e.2) s).post (.statMergeTimeout t cls)) := by
  have fewer : (s.dueMerges t cls).length < (s.openMerges t cls).length :=
    List.length_filter_lt_length_iff_exists.mpr (by simpa using young)
  change Host.Outcome.next (if (s.dueMerges t cls).length < (s.openMerges t cls).length then _ else _) = _
  rw [if_pos fewer]
  rfl

end

/-- Settles O40: the router by the way of the packet, the adder by what it holds of the sum, a token by the entry of its route class. -/
theorem fabricResults : Obligations.FabricResults := by
  refine ⟨fun s t port cls p => ⟨rfl, State.wayOf_of_address, exec_routerPacketArrival_of_contained, fun opened =>
      ⟨exec_routerPacketArrival_of_drop opened, exec_routerPacketArrival_of_adder opened, fun cs way waits =>
        exec_routerPacketArrival_of_wait opened way (State.canGo_eq_false_iff.mpr waits), fun cs way rooms turn => ?leaves⟩⟩,
    fun s t port cls p k => ⟨fun contained => ⟨exec_adderContributionArrival_of_contained (.inl contained),
        exec_statTokenArrival_of_contained contained⟩,
      fun contained => exec_adderContributionArrival_of_contained (.inr contained), exec_adderContributionArrival_of_other_way,
      fun opened notRoot notAdder => ?passes, fun opened sound way => ⟨exec_adderContributionArrival_of_dropped opened sound way,
        fun named fresh => ?adds⟩,
      fun q => State.sumRoom_of_own_place _, fun opened merges => ⟨exec_statTokenArrival_of_unnamed opened (rtMerges_iff.mpr merges),
        fun named => ?merges⟩,
      fun n => ⟨rfl, fun i field => n.add_counts port s.time k field⟩, exec_statMergeTimeout_of_all_due, exec_statMergeTimeout_of_not_due⟩⟩
  case leaves =>
    have goes := exec_routerPacketArrival_of_go opened way (State.canGo_iff.mpr ⟨rooms, turn⟩)
    refine ⟨fun fan message => goes.trans ?_, fun single => goes.trans ?_⟩
    · exact congrArg Host.Outcome.next (if_neg (by omega))
    · exact congrArg Host.Outcome.next (if_pos single)
  case passes =>
    have passing := exec_statTokenArrival_of_passing (port := port) opened
      (rtMerges_eq_false_iff.mpr ⟨notRoot, notAdder⟩)
    refine ⟨fun none => passing.trans ?_, fun some room => passing.trans ?_, fun some room => passing.trans ?_⟩
    · exact congrArg Host.Outcome.next (if_pos none)
    · exact congrArg Host.Outcome.next ((if_neg some).trans (if_pos room))
    · exact congrArg Host.Outcome.next ((if_neg some).trans (if_neg (Bool.eq_false_iff.mp room)))
  case adds =>
    have added := exec_adderContributionArrival_of_room opened sound way named fresh
    have waits := exec_adderContributionArrival_of_no_room opened sound way named fresh
    have busy := exec_adderContributionArrival_of_not_taken opened sound way named fresh
    refine ⟨fun q sum missing => ?_, fun q sum missing => ?_, fun q sum present => busy ?_, fun noSum => ?_⟩
    · rw [Tile.adderTakes_of_find sum, Tile.partialOf_of_find sum] at added
      exact added (by rw [missing, Option.isNone_none])
    · rw [Tile.adderTakes_of_find sum, Tile.partialOf_of_find sum] at waits
      exact waits (by rw [missing, Option.isNone_none])
    · rw [Tile.adderTakes_of_find sum, ← Option.not_isSome, present, Bool.not_true]
    · rw [Tile.adderTakes_of_no_sum noSum] at added waits busy
      rw [Tile.partialOf_of_no_sum noSum] at added waits
      exact ⟨fun free => added (decide_eq_true free), fun free => waits (decide_eq_true free),
        fun full => busy (decide_eq_false (Nat.not_lt.mpr full))⟩
  case merges =>
    have named' := exec_statTokenArrival_of_named opened (rtMerges_iff.mpr merges) named
    exact ⟨fun all => named'.trans (congrArg Host.Outcome.next (if_pos all)),
      fun ⟨i, port, missing⟩ => named'.trans (congrArg Host.Outcome.next (if_neg (fun all => all i port missing)))⟩

end Sys2Proof.Machine
end

section
/-! SUPPORT. Every act and every op answers a next state, so that a turn stops only before it has chosen one of them. -/

namespace Sys2Proof.Machine

/-- An outcome that is a next state. -/
def Answers (o : Host.Outcome State Fault Refusal) : Prop := ∃ t, o = .next t

/-- An instruction that answers a next state whatever the state it meets. -/
def AlwaysAnswers (i : Instr) : Prop := ∀ s, Answers (exec i s)

theorem answers_next (s : State) : Answers (.next s) := ⟨s, rfl⟩

theorem answers_settle (s : State) (r : Run State) : Answers (settle s r) := settle_next s r

/-! ### What acts share -/

theorem State.ownerMsg_answers (s : State) (m : Msg) (typ : Nat) (bad refused : Bool) (go : State → State) :
    Answers (s.ownerMsg m typ bad refused go) := by
  unfold State.ownerMsg
  dsimp only
  split_ifs <;> exact answers_next _

theorem State.startPacket_answers (s : State) (q i : Nat) (act : Instr) (work : State → Queue → BitVec 1024 → PacketWork) :
    Answers (s.startPacket q i act work) := by
  unfold State.startPacket
  repeat' split
  all_goals exact answers_next _

theorem State.rdmaAtomic_answers (s : State) (i : Instr) (r : Rdma) (f : Nat → Nat) : Answers (s.rdmaAtomic i r f) := by
  unfold State.rdmaAtomic
  dsimp only
  repeat' split
  all_goals exact answers_next _

theorem execSluiceImageWritten_answers (t : Nat) (s : State) : Answers (execSluiceImageWritten t s) := by
  unfold execSluiceImageWritten
  dsimp only
  repeat' split
  all_goals exact answers_next _

/-! ### Every instruction -/

/-- An op ends as `settle` ends it; of the acts some are one next state, some take a shared course, and each branch of the others is one. -/
theorem exec_answers (i : Instr) : AlwaysAnswers i := by
  cases i with
  -- acts that are one next state
  | packageReset | pageInComplete | graphOpArrival | energyCounterUpdate | permitReturn | leveeBatchArrival | statMergeTimeout | memoryPortGrant
  | mailboxPostArrival | tlbinvWrite | ctxholdWrite | ctxrelWrite | bfmtWrite | frec0ValidClear | efaultValidClear | drlovfClear | controlRegisterWrite
  | correctedError | packetCompletion | rdmaUnsupportedRequest | report | status | ualinkBringup | ualinkTimeout | hostPortLinkFailure
  | eventOpArrival | reservedControlMessage | producerHoldArrival | creditArrival =>
    exact fun s => answers_next _
  -- acts that share a course
  | nopPacket | launchPacket | graphPacket | copyPacket | signalPacket | waitPacket | fencePacket =>
    intro s
    simp only [exec, execNopPacket, execLaunchPacket, execGraphPacket, execCopyPacket, execSignalPacket, execWaitPacket, execFencePacket]
    apply State.startPacket_answers
  | handover | qcreate | qprio | setlimit =>
    intro s
    simp only [exec, execHandover, execQcreate, execQprio, execSetlimit]
    apply State.ownerMsg_answers
  | rdmaCompareAndSwap | rdmaFetchAndAdd =>
    intro s
    simp only [exec, execRdmaCompareAndSwap, execRdmaFetchAndAdd]
    apply State.rdmaAtomic_answers
  | heartbeat | resume | fdiscard =>
    intro s
    simp only [exec, execHeartbeat, execResume, execFdiscard]
    split
    · exact answers_next _
    · apply State.ownerMsg_answers
  -- acts of which each branch is a next state
  | powerInputChange | measuredBootStage | contextWaitClear | yieldExpiry | operationCompletion | taskRetirement | decrementArrival
  | dispatchDecision | footprintFetchStart | footprintFetchComplete | taskEnterRunning | watchdogExpiry | gangRestore | energyRefill
  | freezeRequestArrival | freezeStoppingPoint | dikeComplete | barrierPhaseComplete | launchSweep | routerPacketArrival
  | streamEdgeGranuleArrival | configWavefrontArrival | adderContributionArrival | statTokenArrival | awnMessageArrival | handlerStart
  | directoryOverflow | overflowHandlerReport | returnStripArrival | capacityClaimArrival | capacityEndArrival | capacitySetArrival
  | transferCompletion | matrixStep | streamStripFetch | streamStripWrite | uncorrectableError | commandQueueDoorbell | rdmaWrite | rdmaRead
  | claim | qdestroy | mreg | update | quiesce | frestore | leaseLapse | handoverLapse | complexFailover | queueWaitCycleSweep | ualinkRead
  | ualinkWrite | ualinkAtomic | memoryRequestArrival | slotTableCycle =>
    intro s
    simp only [exec, execPowerInputChange, execMeasuredBootStage, execContextWaitClear, execYieldExpiry, execOperationCompletion,
      execTaskRetirement, execDecrementArrival, execDispatchDecision, execFootprintFetchStart, execFootprintFetchComplete,
      execTaskEnterRunning, execWatchdogExpiry, execGangRestore, execEnergyRefill, execFreezeRequestArrival, execFreezeStoppingPoint,
      execDikeComplete, execBarrierPhaseComplete, execLaunchSweep, execRouterPacketArrival, execStreamEdgeGranuleArrival,
      execConfigWavefrontArrival, execAdderContributionArrival, execStatTokenArrival, execAwnMessageArrival, execHandlerStart,
      execDirectoryOverflow, execOverflowHandlerReport, execReturnStripArrival, execCapacityClaimArrival, execCapacityEndArrival,
      execCapacitySetArrival, execTransferCompletion, execMatrixStep, execStreamStripFetch, execStreamStripWrite, execUncorrectableError,
      execCommandQueueDoorbell, execRdmaWrite, execRdmaRead, execClaim, execQdestroy, execMreg, execUpdate, execQuiesce, execFrestore,
      execLeaseLapse, execHandoverLapse, execComplexFailover, execQueueWaitCycleSweep, execUalinkRead, execUalinkWrite, execUalinkAtomic,
      execMemoryRequestArrival, execSlotTableCycle]
    repeat' split
    all_goals exact answers_next _
  | sluiceImageWritten t => exact execSluiceImageWritten_answers t
  | spmigHbm =>
    intro s
    simp only [exec, execSpmigHbm]
    split
    · exact answers_settle s _
    · exact answers_next _
    · exact answers_settle s _
  -- ops without a test, and ops that are tested
  | reservedEncoding | instructionFetchFault | nopOp | yield | brk | trapOp | jal | hself | grank | tid | clk | anop | movi | stflush | erd =>
    exact fun s => answers_next _
  | _ => exact fun s => answers_settle s _

/-! ### A turn -/

/-- Both ops of a pair answer, and so does whichever of them the pair ends as. -/
theorem execPair_answers (c a : Instr) (s : State) : Answers (execPair c a s) := by
  obtain ⟨sa, ha⟩ := exec_answers a s
  obtain ⟨sc, hc⟩ := exec_answers c s
  obtain ⟨sb, hb⟩ := exec_answers c sa
  simp only [execPair, ha, hc, hb]
  repeat' split
  all_goals exact answers_next _

theorem execSheaf_answers (sh : Sheaf) (s : State) : Answers (execSheaf sh s) := by
  cases sh with
  | lone i => exact exec_answers i s
  | pair c a => exact execPair_answers c a s
  | reserved code => exact exec_answers (.reservedEncoding _) s

theorem finish_answers {o : Host.Outcome State Fault Refusal} (h : Answers o) (pc : Word) (act : Bool) (t : Nat) : Answers (finish pc act t o) := by
  obtain ⟨s, rfl⟩ := h
  exact answers_next _

theorem stall_answers {o : Host.Outcome State Fault Refusal} (h : Answers o) (n : Nat) : Answers (stall n o) := by
  obtain ⟨s, rfl⟩ := h
  exact answers_next _

/-- An issue ends at a debug stop, at a wait of its fetch, or as its ops or the act of its fetch fault end. -/
theorem issue_answers (a : Agent) (s : State) : Answers (issue a s) := by
  unfold issue
  dsimp only
  split
  · exact answers_next _
  · split
    · exact finish_answers (exec_answers _ _) ..
    · exact answers_next _
    · split
      · exact answers_next _
      · exact finish_answers (execSheaf_answers _ _) ..

theorem issueTurn_answers (s : State) : Answers (issueTurn s) := by
  unfold issueTurn
  dsimp only
  split
  · exact issue_answers _ _
  · exact answers_next _

theorem perform_answers (i : Instr) (rest : List Instr) (s : State) : Answers (perform i rest s) := by
  unfold perform
  obtain ⟨t, ht⟩ := exec_answers i (({ s with agenda := rest, fc := s.fc + 1 } : State).inCycle (orderOf i))
  rw [ht]
  split <;> exact answers_next _

/-- A booted package that has power or an act pending takes a turn, which answers. -/
theorem turn_answers {s : State} (booted : s.bootFailed = false) (goes : s.mainUp = true ∨ s.agenda ≠ []) : Answers (turn s) := by
  have runs : (!s.mainUp && s.agenda.isEmpty) = false := by
    rcases goes with up | pending
    · simp [up]
    · simp [pending]
  simp only [turn, booted, runs, Bool.false_eq_true, if_false]
  split
  · exact stall_answers (issueTurn_answers s) _
  · split
    · exact stall_answers (issueTurn_answers s) _
    · exact stall_answers (perform_answers _ _ s) _

theorem step_answers {s : State} (booted : s.bootFailed = false) (goes : s.mainUp = true ∨ s.agenda ≠ []) : Answers (step s) :=
  turn_answers (by rwa [State.showSome_bootFailed]) (by rwa [State.showSome_mainUp, State.showSome, State.showAll_agenda])

/-- Settles O56: every instruction answers, and so a step stops only where its turn begins with a stop. -/
theorem stepStopsOnlyWithoutBootOrPower : Obligations.StepStopsOnlyWithoutBootOrPower := by
  refine ⟨exec_answers, fun s => ?_⟩
  by_cases booted : s.bootFailed = false
  · by_cases goes : s.mainUp = true ∨ s.agenda ≠ []
    · exact .inl (step_answers booted goes)
    · obtain ⟨off, idle⟩ : s.mainUp = false ∧ s.agenda = [] := by simpa using goes
      exact .inr (.inr ⟨off, idle, step_of_unpowered booted off idle⟩)
  · have failed : s.bootFailed = true := by simpa using booted
    exact .inr (.inl ⟨failed, step_of_bootFailed failed⟩)

end Sys2Proof.Machine
end

section
/-! SUPPORT. The end of a dike: once everything has come in, it also makes the writes of the tile's agents visible on every path. -/

namespace Sys2Proof.Machine

/-- The dike of a rank other than 0, with every answer, page-in and fill in, empties the caches and shows the tile's writes (15 R396, R397; log 53). -/
theorem exec_dikeComplete_of_quiet {s : State} {t k : Nat} {g : Freeze} (frozen : (s.tile t).frz = some g) (runs : (s.tile t).run = some k)
    (stopped : g.stopped = true) (waits : g.dike = false) (rank : (s.tile t).rank ≠ 0) (pageIns : (s.tile t).pageIns = [])
    (answered : s.awaitsResponse t = false) (filled : s.filling t = false) :
    exec (.dikeComplete t) s =
      let u := ((s.settleSnapshots t).dropCaches t).showTile t
      .next ((u.setTile t { u.tile t with frz := some { g with dike := true } }).post (.sluiceImageWritten t)) := by
  change execDikeComplete t s = _
  simp [execDikeComplete, frozen, runs, stopped, waits, rank, pageIns, answered, filled]

/-- Where showing the writes of a tile makes no difference to the end of its dike, there is no write left to show. -/
theorem State.unseen_of_showTile_same {u : State} {t : Nat} {x y : Tile} {i : Instr}
    (same : (u.setTile t x).post i = ((u.showTile t).setTile t y).post i) :
    u.unseen = showTo u.unseen (fun _ e _ => e.writer.agent.tile == t) := by
  have same := congrArg State.unseen same
  rwa [State.post_unseen, State.post_unseen, State.setTile_unseen, State.setTile_unseen, State.showTile, State.showAll_unseen] at same

/-- Rank 1 of a task on tile 0, stopped with its dike under way, after a write that only the reads of its own path see. -/
def dikeDue : State :=
  { State.reset with tiles := [(0, { run := some 0, rank := 1, frz := some { stop := 0, stopped := true } })],
                     unseen := [(0, ⟨⟨0, ⟨0, 0⟩, none⟩, [0], []⟩)] }

theorem dikeDue_tile : (dikeDue.tile 0).frz = some { stop := 0, stopped := true } ∧ (dikeDue.tile 0).run = some 0 ∧ (dikeDue.tile 0).rank = 1 ∧
    (dikeDue.tile 0).pageIns = [] := ⟨rfl, rfl, rfl, rfl⟩

/-- Neither the end of the tile's commits nor the dropping of its caches shows a write. -/
theorem dikeDue_unseen : ((dikeDue.settleSnapshots 0).dropCaches 0).unseen = dikeDue.unseen := by decide +kernel

/-- Refutes O47: a dike that completes is said to drop the caches and nothing else, and it makes the writes of its tile visible on every path. -/
theorem not_freezeAndRestoreResults : ¬ Obligations.FreezeAndRestoreResults := by
  rintro ⟨freezing, -⟩
  obtain ⟨-, -, -, -, -, -, dike, -⟩ := freezing dikeDue 0 none
  obtain ⟨frozen, runs, rank, pageIns⟩ := dikeDue_tile
  have answered : dikeDue.awaitsResponse 0 = false := rfl
  have filled : dikeDue.filling 0 = false := rfl
  simp only [pageIns, rank, one_ne_zero, if_false, List.foldl_nil] at dike
  have said := (dike _ _ frozen runs rfl rfl).2 answered filled trivial (fun _ h => nomatch h) frozen
  have done := exec_dikeComplete_of_quiet frozen runs rfl rfl (rank ▸ one_ne_zero) pageIns answered filled
  have same := State.unseen_of_showTile_same (Host.Outcome.next.inj (said.symm.trans done))
  rw [dikeDue_unseen] at same
  exact absurd same (by decide +kernel)

end Sys2Proof.Machine
end

section
/-! SUPPORT. The watch over the package: failover between the complexes, the sweeps of launches, and the sweeps over queues that wait for each other. -/

namespace Sys2Proof.Machine

/-! ### Failover (23 R480) -/

section
variable {s : State}

theorem exec_complexFailover_of_beat (beats : s.cx.missed < 2) :
    exec (.complexFailover false) s = .next { s with cx := { s.cx with missed := s.cx.missed + 1 } } :=
  if_pos (by simp [beats])

/-- The complexes once the active one has failed. -/
def Complex.dead (c : Complex) : Complex := if c.active = 0 then { c with failedA := true } else { c with failedB := true }

theorem Complex.standbyRuns_eq (c : Complex) : c.standbyRuns = !(if c.active = 0 then c.failedB else c.failedA) := (apply_ite (!·) ..).symm

section
variable {e : Bool} (failed : e = true ∨ 2 ≤ s.cx.missed)
include failed

theorem execComplexFailover_of_failed : execComplexFailover e s =
    if s.cx.standbyRuns = false then .next { s with cx := s.cx.dead }
    else .next ((({ s with cx := { s.cx.dead with active := 1 - s.cx.active, missed := 0, pause := none } } : State).handOn).report none
      { cls := 5, reach := 5, detail := [(64, 1, 11), (68, 1, 1 - s.cx.active), (72, 4, s.cx.version)] }) := by
  have last : (!e && decide (s.cx.missed < 2)) = false := by
    rcases failed with rfl | late
    · rfl
    · simp [Nat.not_lt.mpr late]
  simp only [execComplexFailover, last, Bool.false_eq_true, if_false, Bool.not_eq_true']
  rfl

/-- With both complexes failed none is active. -/
theorem exec_complexFailover_of_both (other : (if s.cx.active = 0 then s.cx.failedB else s.cx.failedA) = true) :
    exec (.complexFailover e) s = .next { s with cx := s.cx.dead } :=
  (execComplexFailover_of_failed failed).trans (if_pos (by rw [Complex.standbyRuns_eq, other]; rfl))

theorem exec_complexFailover_of_standby (other : (if s.cx.active = 0 then s.cx.failedB else s.cx.failedA) = false) :
    exec (.complexFailover e) s =
      .next ((({ s with cx := { s.cx.dead with active := 1 - s.cx.active, missed := 0, pause := none } } : State).handOn).report none
        { cls := 5, reach := 5, detail := [(64, 1, 11), (68, 1, 1 - s.cx.active), (72, 4, s.cx.version)] }) :=
  (execComplexFailover_of_failed failed).trans (if_neg (by rw [Complex.standbyRuns_eq, other]; decide))

end

end

/-! ### Sweeps of launches (02 R55 to R57) -/

section
variable {s : State} {id : Nat}

theorem exec_launchSweep_of_none (none : s.launches.find id = none) : exec (.launchSweep id) s = .next s := by
  change execLaunchSweep id s = _
  rw [execLaunchSweep, none]

theorem exec_launchSweep_of_ended {l : Launch} (found : s.launches.find id = some l) (ended : l.ended = true) :
    exec (.launchSweep id) s = .next s := by
  change execLaunchSweep id s = _
  simp only [execLaunchSweep, found, ended, if_true]

/-- Two successive sweeps of a launch have found the same totals. -/
def Launch.steady (l : Launch) : Bool := l.sweeps ≠ 0 && l.totals.1 = l.lastSent && l.totals.2 = l.lastRecv

theorem Launch.steady_iff (l : Launch) : l.steady = true ↔ l.sweeps ≠ 0 ∧ l.totals = (l.lastSent, l.lastRecv) := by
  simp [Launch.steady, Prod.ext_iff, and_assoc]

/-- The tiles that linger in a launch, and those of them that have lingered since a sweep with the same totals. -/
def State.lingering (s : State) (id : Nat) (l : Launch) : List Nat := (s.tiles.map Prod.fst).filter (s.lingers id l)
def State.stuckIn (s : State) (id : Nat) (l : Launch) : List Nat := if l.steady then (s.lingering id l).filter (fun t => l.states.contains t) else []

/-- A sweep ends its launch. -/
def State.sweepEnds (s : State) (id : Nat) (l : Launch) : Bool :=
  s.launchIdle id && l.idle && l.steady && l.totals.1 = l.totals.2 && l.tasks.isEmpty && (s.stuckIn id l).isEmpty

/-- A launch after a sweep that finds some tiles stuck, and ends it or not. -/
def State.swept (s : State) (id : Nat) (l : Launch) (ended : Bool) (stuck : List Nat) : Launch :=
  { l with sweeps := l.sweeps + 1, idle := s.launchIdle id, lastSent := l.totals.1, lastRecv := l.totals.2, states := s.lingering id l,
           ended := ended, stuck := stuck }

section
variable {l : Launch}

theorem State.stuckIn_of_moved (moved : ¬ (l.sweeps ≠ 0 ∧ l.totals = (l.lastSent, l.lastRecv))) : s.stuckIn id l = [] :=
  if_neg (fun steady => moved (l.steady_iff.mp steady))

theorem State.stuckIn_of_steady (steady : l.sweeps ≠ 0 ∧ l.totals = (l.lastSent, l.lastRecv)) :
    s.stuckIn id l = (s.lingering id l).filter (fun t => l.states.contains t) :=
  if_pos (l.steady_iff.mpr steady)

theorem State.sweepEnds_iff : s.sweepEnds id l = true ↔ s.launchIdle id = true ∧ l.idle = true ∧
    (l.sweeps ≠ 0 ∧ l.totals = (l.lastSent, l.lastRecv)) ∧ l.totals.1 = l.totals.2 ∧ l.tasks = [] ∧ s.stuckIn id l = [] := by
  simp only [State.sweepEnds, Bool.and_eq_true, decide_eq_true_eq, List.isEmpty_iff, Launch.steady_iff, and_assoc]

variable (found : s.launches.find id = some l) (running : l.ended = false)
include found running

theorem exec_launchSweep_of_running : exec (.launchSweep id) s =
    let u := ((s.stuckIn id l).filter (fun t => !l.stuck.contains t)).foldl (fun u t => u.stuckRec id l t l.totals.1) s
    .next (({ u with launches := u.launches.put id (s.swept id l (s.sweepEnds id l) (s.stuckIn id l)) } : State).post
      (if s.sweepEnds id l then .packetCompletion l.queue l.idx else .launchSweep id)) := by
  change execLaunchSweep id s = _
  simp only [execLaunchSweep, found, running, Bool.false_eq_true, if_false]
  rfl

/-- A sweep that finds no tile stuck reports none. -/
theorem exec_launchSweep_of_none_stuck (free : s.stuckIn id l = []) {ended : Bool} (ends : s.sweepEnds id l = ended) : exec (.launchSweep id) s =
    .next (({ s with launches := s.launches.put id (s.swept id l ended []) } : State).post
      (if ended then .packetCompletion l.queue l.idx else .launchSweep id)) := by
  rw [exec_launchSweep_of_running found running, ends, free]
  rfl

/-- A sweep that finds tiles stuck reports those that are not reported yet, and the launch goes on. -/
theorem exec_launchSweep_of_stuck (stuck : s.stuckIn id l ≠ []) : exec (.launchSweep id) s =
    let u := ((s.stuckIn id l).filter (fun t => !l.stuck.contains t)).foldl (fun u t => u.stuckRec id l t l.totals.1) s
    .next (({ u with launches := u.launches.put id (s.swept id l false (s.stuckIn id l)) } : State).post (.launchSweep id)) := by
  have goesOn : s.sweepEnds id l = false := Bool.eq_false_iff.mpr (fun ends => stuck (State.sweepEnds_iff.mp ends).2.2.2.2.2)
  rw [exec_launchSweep_of_running found running, goesOn]
  rfl

end

theorem State.lingers_iff (l : Launch) (t : Nat) :
    s.lingers id l t = true ↔ (s.tileIdle id t = true ∧ l.balanceAt t ≠ 0) ∨ s.quiescent id t = true := by
  simp [State.lingers]

end

/-! ### Queues that wait for each other (23 R473) -/

section
variable {s : State}

theorem exec_queueWaitCycleSweep_of_early (early : s.time < s.sweepAt) :
    exec .queueWaitCycleSweep s = .next (s.post .queueWaitCycleSweep) := if_pos early

theorem exec_queueWaitCycleSweep_of_due (due : s.sweepAt ≤ s.time) :
    exec .queueWaitCycleSweep s =
      let u : State := { s with sweepAt := s.time + 3600000,
                                waitCycle := s.queueCycles.map (fun c => if c ∈ s.waitCycle ∨ 4096 :: c ∈ s.waitCycle then 4096 :: c else c) }
      let v := (s.queueCycles.filter (fun c => decide (c ∈ s.waitCycle))).foldl (fun (v : State) c => v.report none (cycleRec c)) u
      .next (if v.queues = [] then v else v.post .queueWaitCycleSweep) := by
  have known : s.waitCycle.contains = fun c => decide (c ∈ s.waitCycle) := funext (fun c => List.contains_eq_mem ..)
  change execQueueWaitCycleSweep s = _
  simp only [execQueueWaitCycleSweep, if_neg (Nat.not_lt.mpr due), perMs, known, List.isEmpty_iff, Bool.or_eq_true, List.contains_iff_mem]

/-- What `cyclesBack` finds goes through at least two queues. -/
theorem State.length_of_mem_cyclesBack {home : Nat} {c : List Nat} (n q : Nat) (seen : List Nat) (h : c ∈ s.cyclesBack home n q seen) : 2 ≤ c.length := by
  induction n generalizing q seen with
  | zero => cases h
  | succ n ih =>
    rw [State.cyclesBack, List.mem_append, List.mem_flatMap] at h
    rcases h with here | ⟨r, -, later⟩
    · split at here
      case isTrue long =>
        obtain rfl := List.mem_singleton.mp here
        simp only [Bool.and_eq_true, decide_eq_true_eq] at long
        exact long.2
      case isFalse => cases here
    · split at later
      case isTrue => cases later
      case isFalse => exact ih _ _ later

theorem State.queueCycles_waiting {c : List Nat} (h : c ∈ s.queueCycles) : 2 ≤ c.length ∧ ∀ k ∈ s.tasksIn 6, recQueue (s.record k) ∉ c := by
  obtain ⟨found, idle⟩ := List.mem_filter.mp h
  obtain ⟨e, -, back⟩ := List.mem_flatMap.mp found
  refine ⟨State.length_of_mem_cyclesBack 8 _ _ back, fun k hk mem => ?_⟩
  simp only [Bool.not_eq_true', List.any_eq_false, List.contains_eq_mem, decide_eq_true_eq] at idle
  exact idle k hk mem

end

/-- Settles O53: failover by what has failed, a sweep of a launch by its totals and its stuck tiles, the cycles by how they are found. -/
theorem watchResults : Obligations.WatchResults := by
  intro s id
  refine ⟨exec_complexFailover_of_beat, fun e failed => ⟨exec_complexFailover_of_both failed, exec_complexFailover_of_standby failed⟩,
    exec_launchSweep_of_none, fun l => exec_launchSweep_of_ended, fun l found running => ⟨fun moved => ?_, fun steady free => ?_, fun steady some => ?_⟩,
    fun l t => State.lingers_iff l t, exec_queueWaitCycleSweep_of_early, exec_queueWaitCycleSweep_of_due, fun c => State.queueCycles_waiting⟩
  · have goesOn : s.sweepEnds id l = false := Bool.eq_false_iff.mpr (fun ends => moved (State.sweepEnds_iff.mp ends).2.2.1)
    exact exec_launchSweep_of_none_stuck found running (State.stuckIn_of_moved moved) goesOn
  · have none : s.stuckIn id l = [] :=
      (State.stuckIn_of_steady steady).trans (List.filter_eq_nil_iff.mpr (fun t ht => by rw [free t ht]; decide))
    refine ⟨fun idle was equal done => ?_, fun goes => ?_⟩
    · exact exec_launchSweep_of_none_stuck found running none (State.sweepEnds_iff.mpr ⟨idle, was, steady, equal, done, none⟩)
    · refine exec_launchSweep_of_none_stuck found running none (Bool.eq_false_iff.mpr (fun ends => ?_))
      obtain ⟨idle, was, -, equal, done, -⟩ := State.sweepEnds_iff.mp ends
      rcases goes with h | h | h | h
      · rw [idle] at h; cases h
      · rw [was] at h; cases h
      · exact h equal
      · exact h done
  · have stuck := State.stuckIn_of_steady (s := s) (id := id) steady
    obtain ⟨t, ht, kept⟩ := some
    have found' := exec_launchSweep_of_stuck found running (s := s) (id := id)
      (stuck ▸ List.ne_nil_of_mem (List.mem_filter.mpr ⟨ht, kept⟩))
    rw [stuck] at found'
    exact found'

end Sys2Proof.Machine
end

section
/-! SUPPORT. Command queues: a doorbell reads packets, a packet that is read is checked, and one that may start does the work of its type. -/

namespace Sys2Proof.Machine

/-! ### Reading packets (14 R378, 23 R475) -/

section
variable {s : State} {q : Nat}

theorem exec_commandQueueDoorbell_of_none (none : s.queue q = none) : exec (.commandQueueDoorbell q) s = .next s := by
  change execCommandQueueDoorbell q s = _
  rw [execCommandQueueDoorbell, none]

section
variable {x : Queue} (found : s.queue q = some x)
include found

theorem exec_commandQueueDoorbell_of_pause (paused : s.cx.pause ≠ none) :
    exec (.commandQueueDoorbell q) s = .next (s.post (.commandQueueDoorbell q)) := by
  change execCommandQueueDoorbell q s = _
  simp only [execCommandQueueDoorbell, found, Option.isSome_iff_ne_none.mpr paused, if_true]

theorem exec_commandQueueDoorbell_of_unread (running : s.cx.pause = none) (unread : x.isErr = true ∨ x.stopped = true ∨ s.owner.quiesced = true) :
    exec (.commandQueueDoorbell q) s = .next s := by
  change execCommandQueueDoorbell q s = _
  have held : (x.isErr || x.stopped || s.owner.quiesced || (s.cx.failedA && s.cx.failedB)) = true := by
    rcases unread with h | h | h <;> simp [h]
  simp only [execCommandQueueDoorbell, found, running, held, Option.isSome_none, Bool.false_eq_true, if_false, if_true]

/-- A queue that is read is read up to its write index, which may be no more than the ring's size ahead. -/
theorem exec_commandQueueDoorbell_of_read (running : s.cx.pause = none) (noErr : x.isErr = false) (going : x.stopped = false)
    (open_ : s.owner.quiesced = false) (alive : s.cx.failedA = false ∨ s.cx.failedB = false) {w : Nat} (index : s.writeIndex x = some w) :
    exec (.commandQueueDoorbell q) s = if ahead w x.read > x.size then .next (s.stopQueue q w)
      else .next ((List.range (ahead w x.read - ahead x.write x.read)).foldl (fun u i => u.readPacket q ((x.write + i) % 2 ^ 32)) s) := by
  have read : (x.isErr || x.stopped || s.owner.quiesced || (s.cx.failedA && s.cx.failedB)) = false := by
    rcases alive with h | h <;> simp [h, noErr, going, open_]
  change execCommandQueueDoorbell q s = _
  simp only [execCommandQueueDoorbell, found, running, read, index, Option.isSome_none, Bool.false_eq_true, if_false]

variable {i : Nat}

/-- Bytes that cannot be read stand for a packet that is refused. -/
theorem State.readPacket_of_unreadable (none : s.packetAt x i = none) :
    s.readPacket q i = (s.setQueue q { x with pkts := x.pkts.put i 0, write := (i + 1) % 2 ^ 32 }).rejectPacket q i 0 (0, 3) := by
  simp only [State.readPacket, found, none]

theorem State.readPacket_of_offence {p : BitVec 1024} {o : Offence} (bytes : s.packetAt x i = some p)
    (bad : firstOffence (s.offences q x p) = some o) :
    s.readPacket q i = (s.setQueue q { x with pkts := x.pkts.put i p, write := (i + 1) % 2 ^ 32 }).rejectPacket q i (pkTag p) o := by
  simp only [State.readPacket, found, bytes, bad]

theorem State.readPacket_of_sound {p : BitVec 1024} (bytes : s.packetAt x i = some p) (sound : firstOffence (s.offences q x p) = none) :
    s.readPacket q i = (s.setQueue q { x with pkts := x.pkts.put i p, write := (i + 1) % 2 ^ 32 }).post (packetAct q i p) := by
  simp only [State.readPacket, found, bytes, sound]

end

theorem State.offences_of_packetBad {x : Queue} {p : BitVec 1024} (own : packetBad p = [] ∨ pkType p ≠ 1) : s.offences q x p = packetBad p :=
  if_pos (by simpa using own)

end

/-! ### Starting packets (14 R380) -/

/-- The act of a packet is the start of the packet with the work of its type. -/
theorem exec_packetAct (s : State) (q i : Nat) (p : BitVec 1024) : ∃ work, exec (packetAct q i p) s = s.startPacket q i (packetAct q i p) work := by
  unfold packetAct
  split
  all_goals
    simp only [exec, execNopPacket, execLaunchPacket, execGraphPacket, execCopyPacket, execSignalPacket, execWaitPacket, execFencePacket]
    exact ⟨_, rfl⟩

@[simp] theorem State.takeAndFree_nil (s : State) : s.takeAndFree [] = s := rfl

theorem State.takeAndFree_of_allocFor {s v : State} {ds : List Nat} {l : List (Nat × Nat)} (found : s.allocFor id ds = some (v, l)) :
    s.takeAndFree ds = l.foldl (fun u e => u.freeSlot e.2) v := by
  rw [State.takeAndFree, found]

/-- The state in which a packet's work begins: its acquire scope has acted, and it is marked as started. -/
def State.startedPacket (s : State) (q i : Nat) (p : BitVec 1024) : State := (s.acquireScope (pkAcquire p)).markPacket q i 1

section
variable {s : State} {q i : Nat} {x : Queue} {p : BitVec 1024} (queued : s.queue q = some x) (read : x.pkts.find i = some p)
include queued read

theorem exec_packetCompletion_of_started (open_ : x.status.get 0 i ≠ 2) :
    exec (.packetCompletion q i) s =
      let v := (s.releaseScope (pkRelease p)).markPacket q i 2
      .next (if pk p 10 1 % 2 = 1 then (v.eventSig (pk p 8 2) 1).1 else v) := by
  change Host.Outcome.next (s.completePacket q i) = _
  simp only [State.completePacket, queued, read, if_neg open_]

variable (new : x.status.get 0 i = 0)
include new

theorem State.startPacket_of_behind {act : Instr} (named : packetAct q i p = act) (behind : x.mayStart i (pkBarrier p) = false)
    (work : State → Queue → BitVec 1024 → PacketWork) : s.startPacket q i act work = .next (s.post act) := by
  subst named
  simp only [State.startPacket, queued, read, new, behind, ne_eq, not_true_eq_false, decide_false, bne_self_eq_false, Bool.or_false,
    Bool.false_eq_true, Bool.not_false, if_false, if_true]

variable (may : x.mayStart i (pkBarrier p) = true)
include may

section
variable {act : Instr} (named : packetAct q i p = act) {work : State → Queue → BitVec 1024 → PacketWork}
include named

theorem State.startPacket_of_first : s.startPacket q i act work = match work (s.startedPacket q i p) x p with
    | .complete s => .next (s.completePacket q i)
    | .running s => .next s
    | .refuse o dies => .next ((s.takeAndFree dies).rejectPacket q i (pkTag p) o)
    | .later => .next (s.post act) := by
  subst named
  simp only [State.startPacket, queued, read, new, may, ne_eq, not_true_eq_false, decide_false, bne_self_eq_false, Bool.or_false,
    Bool.false_eq_true, Bool.not_true, if_false]
  rfl

theorem State.startPacket_complete {v : State} (h : work (s.startedPacket q i p) x p = .complete v) :
    s.startPacket q i act work = .next (v.completePacket q i) := by rw [State.startPacket_of_first queued read new may named, h]
theorem State.startPacket_running {v : State} (h : work (s.startedPacket q i p) x p = .running v) :
    s.startPacket q i act work = .next v := by rw [State.startPacket_of_first queued read new may named, h]
theorem State.startPacket_refuse {o : Offence} {dies : List Nat} (h : work (s.startedPacket q i p) x p = .refuse o dies) :
    s.startPacket q i act work = .next ((s.takeAndFree dies).rejectPacket q i (pkTag p) o) := by
  rw [State.startPacket_of_first queued read new may named, h]
theorem State.startPacket_later (h : work (s.startedPacket q i p) x p = .later) : s.startPacket q i act work = .next (s.post act) := by
  rw [State.startPacket_of_first queued read new may named, h]

end

end

/-! ### The work of each type (14 R380, R381) -/

section
variable {s : State} {q i : Nat} {x : Queue} {p : BitVec 1024} (queued : s.queue q = some x) (read : x.pkts.find i = some p)
  (new : x.status.get 0 i = 0)
include queued read new

theorem exec_packetAct_of_behind (behind : x.mayStart i (pkBarrier p) = false) :
    exec (packetAct q i p) s = .next (s.post (packetAct q i p)) := by
  obtain ⟨work, starts⟩ := exec_packetAct s q i p
  exact starts.trans (State.startPacket_of_behind queued read new rfl behind work)

variable (may : x.mayStart i (pkBarrier p) = true)
include may

theorem exec_nopPacket (type : pkType p = 0) : exec (.nopPacket q i) s = .next ((s.startedPacket q i p).completePacket q i) :=
  State.startPacket_complete queued read new may (by simp [packetAct, type]) (work := fun s _ _ => .complete s) rfl

theorem exec_fencePacket (type : pkType p = 6) : exec (.fencePacket q i) s = .next ((s.startedPacket q i p).completePacket q i) :=
  State.startPacket_complete queued read new may (by simp [packetAct, type]) (work := fun s _ _ => .complete s) rfl

theorem exec_signalPacket (type : pkType p = 4) :
    exec (.signalPacket q i) s = .next (((s.startedPacket q i p).eventSig (pk p 16 2) (pk p 18 2)).1.completePacket q i) := by
  change execSignalPacket q i s = _
  exact State.startPacket_complete queued read new may (by simp [packetAct, type]) rfl

theorem exec_waitPacket_of_fired (type : pkType p = 5) (fired : ((s.startedPacket q i p).event (pk p 16 2)).state = 2) :
    exec (.waitPacket q i) s = .next ((s.startedPacket q i p).completePacket q i) := by
  change execWaitPacket q i s = _
  exact State.startPacket_complete queued read new may (by simp [packetAct, type]) (if_pos fired)

/-- A WAIT on an event that has not fired is parked in the spillway (11 R338). -/
theorem exec_waitPacket_of_pending (type : pkType p = 5) (pending : ((s.startedPacket q i p).event (pk p 16 2)).state ≠ 2) {y : Queue}
    (kept : (s.startedPacket q i p).queue q = some y) : exec (.waitPacket q i) s =
      .next (((s.startedPacket q i p).setQueue q { y with parked := y.parked ++ [(i, pk p 16 2)] }).spillWaiter (pk p 16 2) (.queue q)) := by
  change execWaitPacket q i s = _
  refine State.startPacket_running queued read new may (by simp [packetAct, type]) ((if_neg pending).trans ?_)
  rw [kept]

/-! #### COPY -/

/-- A transfer of the copy that a packet asks for, by a die's engine, with the translations that its check has found. -/
def copyXfer (op q i d : Nat) (root : Word) (p : BitVec 1024) (kept : List TlbEnt) : Xfer :=
  { op := op, q := q, task := i, agent := ⟨d * 160, 14⟩, hand := true, kind := 5, root := root, src := BitVec.ofNat 64 (pk p 16 8),
    dsts := [{ addr := BitVec.ofNat 64 (pk p 24 8) }], row := pk p 32 8, checked := true, kept := kept }

theorem exec_copyPacket_of_ranges (type : pkType p = 3) {ks kd : List TlbEnt} 
    (source : (s.startedPacket q i p).rangeLeaves x.desc.gvroot 1 (pk p 16 8) (pk p 32 8) = some ks)
    (dest : (s.startedPacket q i p).rangeLeaves x.desc.gvroot 2 (pk p 24 8) (pk p 32 8) = some kd) (some : pk p 32 8 ≠ 0) :
    ∃ d, d < 16 ∧ exec (.copyPacket q i) s =
      let u := s.startedPacket q i p
      .next (({ u with xfers := u.xfers ++ [copyXfer u.nextOp q i d x.desc.gvroot p (ks ++ kd).dedup], nextOp := u.nextOp + 1,
                       ops := u.ops.put u.nextOp { agent := ⟨d * 160, 14⟩, path := 2, kw := 0 } } : State).post (.transferCompletion u.nextOp)) := by
  refine ⟨match kd.head? with
    | .some e => homeDie (e.leaf.pa (pk p 24 8)) % 16
    | .none => 0, ?_, ?_⟩
  · split
    · exact Nat.mod_lt _ (by decide)
    · decide
  · change execCopyPacket q i s = _
    refine State.startPacket_running queued read new may (by simp [packetAct, type]) ?_
    simp only [source, dest, if_neg some]
    rfl

theorem exec_copyPacket_of_bad_source (type : pkType p = 3)
    (source : (s.startedPacket q i p).rangeOk x.desc.gvroot 1 (pk p 16 8) (pk p 32 8) = false) :
    exec (.copyPacket q i) s = .next (s.rejectPacket q i (pkTag p) (16, 4)) := by
  change execCopyPacket q i s = _
  refine State.startPacket_refuse queued read new may (by simp [packetAct, type]) (dies := []) ?_
  simp only [Option.isSome_eq_false_iff.mp source |> Option.isNone_iff_eq_none.mp]

theorem exec_copyPacket_of_bad_dest (type : pkType p = 3)
    (source : (s.startedPacket q i p).rangeOk x.desc.gvroot 1 (pk p 16 8) (pk p 32 8) = true)
    (dest : (s.startedPacket q i p).rangeOk x.desc.gvroot 2 (pk p 24 8) (pk p 32 8) = false) :
    exec (.copyPacket q i) s = .next (s.rejectPacket q i (pkTag p) (24, 4)) := by
  obtain ⟨ks, source⟩ := Option.isSome_iff_exists.mp source
  have dest := Option.isNone_iff_eq_none.mp (Option.isSome_eq_false_iff.mp dest)
  change execCopyPacket q i s = _
  refine State.startPacket_refuse queued read new may (by simp [packetAct, type]) (dies := []) ?_
  simp only [source, dest]

/-- A copy of no bytes checks no page and is complete at once. -/
theorem exec_copyPacket_of_empty (type : pkType p = 3) (none : pk p 32 8 = 0) :
    exec (.copyPacket q i) s = .next ((s.startedPacket q i p).completePacket q i) := by
  change execCopyPacket q i s = _
  refine State.startPacket_complete queued read new may (by simp [packetAct, type]) ?_
  simp only [none]
  rfl

/-! #### LAUNCH -/

theorem exec_launchPacket_of_offence (type : pkType p = 1) {o : Offence} (bad : firstOffence ((s.startedPacket q i p).launchBad q x p) = some o) :
    exec (.launchPacket q i) s = .next (s.rejectPacket q i (pkTag p) o) := by
  change execLaunchPacket q i s = _
  refine State.startPacket_refuse queued read new may (by simp [packetAct, type]) (dies := []) ?_
  simp only [bad]

section
variable (type : pkType p = 1) (sound : firstOffence ((s.startedPacket q i p).launchBad q x p) = none)
include type sound

theorem exec_launchPacket_of_no_slot (full : (s.startedPacket q i p).allocSlot (pk p 26 1 / 4 % 16) = none) :
    exec (.launchPacket q i) s = .next (s.post (.launchPacket q i)) := by
  change execLaunchPacket q i s = _
  refine State.startPacket_later queued read new may (by simp [packetAct, type]) ?_
  simp only [sound, full]

theorem exec_launchPacket_of_slot {v : State} {k : Nat} (slot : (s.startedPacket q i p).allocSlot (pk p 26 1 / 4 % 16) = some (v, k)) :
    exec (.launchPacket q i) s =
      .next ((((v.setRecord k (launchRecord q x p ((v.launchFoot x p).getD 0))).noteTaken (pk p 26 1 / 4 % 16) q i).beginLaunch q i [k]).countZero k) := by
  change execLaunchPacket q i s = _
  refine State.startPacket_running queued read new may (by simp [packetAct, type]) ?_
  simp only [sound, slot]

end

end

/-! ### GRAPH (14 R382, 23 R475) -/

/-- What an image of n entries holds: each entry, the die of each, and the records with their chains of overflow blocks. -/
def graphEntries (bs : List Byte) (n : Nat) : List (BitVec 2048) := (List.range n).map (graphEntry bs)
def graphDie (bs : List Byte) (n j : Nat) : Nat := (((bs.drop (256 * n))[j]?).getD 0).toNat
def graphRecs (bs : List Byte) (n : Nat) : List (Nat × List Nat) × List Offence := graphRecords (graphEntries bs n) (graphDie bs n) n

/-- The offences of an image before any record of it is written. -/
def graphOffences (q : Nat) (x : Queue) (p : BitVec 1024) (bs : List Byte) (n : Nat) : List Offence :=
  (graphRecs bs n).2 ++ graphBad (graphEntries bs n) (graphDie bs n) n (graphRecs bs n).1 ++
    recordsBad q x (pkQp p) (graphEntries bs n) (graphRecs bs n).1

/-- Slots for the entries of an image; none where an entry names no die. -/
def State.graphSlots (s : State) (bs : List Byte) (n : Nat) : Option (State × List (Nat × Nat)) :=
  if (∀ j < n, graphDie bs n j ≤ 15) then s.allocFor (graphDie bs n) (List.range n) else none

/-- The records of an image in their slots, and those of them that run; and the state in which each die has noted the packet. -/
def State.graphWritten (s : State) (q : Nat) (x : Queue) (p : BitVec 1024) (bs : List Byte) (n : Nat) (slots : List (Nat × Nat)) : State :=
  s.writeGraph q x (pkQp p) (graphEntries bs n) (graphRecs bs n).1 slots
def State.graphRuns (s : State) (bs : List Byte) (n : Nat) (slots : List (Nat × Nat)) : List Nat :=
  ((slots.filter (fun e => (graphRecs bs n).1.any (fun p => p.1 == e.1))).map (fun e => e.2)).filter (fun k => recState (s.record k) = 2)
def State.graphNoted (s : State) (q i : Nat) (slots : List (Nat × Nat)) : State :=
  ((slots.map (fun e => e.2 / 65536)).dedup).foldl (fun y d => y.noteTaken d q i) s

/-- The work of a GRAPH packet whose image has been read: the offences of the image come before the wait for slots, and with slots those of the records
written are looked at too. -/
def State.graphWork (s : State) (q i : Nat) (x : Queue) (p : BitVec 1024) (bs : List Byte) : PacketWork :=
  let n := pk p 24 4
  match s.graphSlots bs n with
  | none => match firstOffence (graphOffences q x p bs n) with
    | none => .later
    | some o => graphRefusal [] o
  | some (v, slots) =>
    let w := v.graphWritten q x p bs n slots
    match firstOffence (graphOffences q x p bs n ++ w.graphRefused (graphRecs bs n).1 slots) with
    | some o => graphRefusal ((List.range n).map (graphDie bs n)) o
    | none =>
      if w.graphRuns bs n slots = [] then .complete (w.graphNoted q i slots)
      else .running ((w.graphRuns bs n slots).foldl (fun z k => if recState (z.record k) = 2 ∧ recCnt (z.record k) = 0 then z.countZero k else z)
        ((w.graphNoted q i slots).beginLaunch q i (w.graphRuns bs n slots)))

theorem graphSlots_eq (s : State) (bs : List Byte) (n : Nat) :
    (if (List.range n).all (fun j => decide ((((bs.drop (256 * n))[j]?).getD 0).toNat ≤ 15)) = true then
      s.allocFor (fun j => (((bs.drop (256 * n))[j]?).getD 0).toNat) (List.range n) else none) = s.graphSlots bs n := by
  simp only [State.graphSlots, graphDie, List.all_eq_true, List.mem_range, decide_eq_true_eq]
  rfl

/-- What the work of a GRAPH packet is, by the slots and the offences found. -/
theorem State.graphWork_of_no_slots {s : State} {q i : Nat} {x : Queue} {p : BitVec 1024} {bs : List Byte} (none : s.graphSlots bs (pk p 24 4) = none) :
    (firstOffence (graphOffences q x p bs (pk p 24 4)) = .none → s.graphWork q i x p bs = .later) ∧
    ∀ o, firstOffence (graphOffences q x p bs (pk p 24 4)) = some o → s.graphWork q i x p bs = graphRefusal [] o := by
  constructor
  · intro sound
    simp only [State.graphWork, none, sound]
  · intro o bad
    simp only [State.graphWork, none, bad]

section
variable {s v : State} {q i : Nat} {x : Queue} {p : BitVec 1024} {bs : List Byte} {slots : List (Nat × Nat)}
  (found : s.graphSlots bs (pk p 24 4) = some (v, slots))
include found

theorem State.graphWork_of_offence {o : Offence} (bad : firstOffence (graphOffences q x p bs (pk p 24 4) ++
      (v.graphWritten q x p bs (pk p 24 4) slots).graphRefused (graphRecs bs (pk p 24 4)).1 slots) = some o) :
    s.graphWork q i x p bs = graphRefusal ((List.range (pk p 24 4)).map (graphDie bs (pk p 24 4))) o := by
  simp only [State.graphWork, found, bad]

variable (sound : firstOffence (graphOffences q x p bs (pk p 24 4) ++
  (v.graphWritten q x p bs (pk p 24 4) slots).graphRefused (graphRecs bs (pk p 24 4)).1 slots) = none)
include sound

theorem State.graphWork_of_templates (none : (v.graphWritten q x p bs (pk p 24 4) slots).graphRuns bs (pk p 24 4) slots = []) :
    s.graphWork q i x p bs = .complete ((v.graphWritten q x p bs (pk p 24 4) slots).graphNoted q i slots) := by
  simp only [State.graphWork, found, sound, none, if_true]

theorem State.graphWork_of_runs (some : (v.graphWritten q x p bs (pk p 24 4) slots).graphRuns bs (pk p 24 4) slots ≠ []) :
    s.graphWork q i x p bs =
      let w := v.graphWritten q x p bs (pk p 24 4) slots
      .running ((w.graphRuns bs (pk p 24 4) slots).foldl (fun z k =>
        if recState (z.record k) = 2 ∧ recCnt (z.record k) = 0 then z.countZero k else z)
          ((w.graphNoted q i slots).beginLaunch q i (w.graphRuns bs (pk p 24 4) slots))) := by
  simp only [State.graphWork, found, sound, if_neg some]

end

/-- A GRAPH packet whose image can be read starts with `graphWork`. -/
theorem exec_graphPacket_of_image {s : State} {q i : Nat} {x : Queue} {p : BitVec 1024} {bs : List Byte}
    (image : (s.startedPacket q i p).readRange x.desc.gvroot (257 * pk p 24 4 / 4096 + 2) (pk p 16 8) (257 * pk p 24 4) = some bs) :
    ∃ work, exec (.graphPacket q i) s = s.startPacket q i (.graphPacket q i) work ∧
      work (s.startedPacket q i p) x p = (s.startedPacket q i p).graphWork q i x p bs := by
  refine ⟨_, show execGraphPacket q i s = _ from rfl, ?_⟩
  have dies : graphDie bs (pk p 24 4) = fun j => (((bs.drop (256 * pk p 24 4))[j]?).getD 0).toNat := rfl
  simp only [image, graphSlots_eq, State.graphWork, graphOffences, graphRecs, graphEntries, dies, State.graphWritten, State.graphRuns, State.graphNoted,
    List.isEmpty_iff, Bool.and_eq_true, decide_eq_true_eq]
  rcases (s.startedPacket q i p).graphSlots bs (pk p 24 4) with _ | ⟨v, slots⟩
  · generalize firstOffence _ = o
    cases o <;> rfl
  · rfl

section
variable {s : State} {q i : Nat} {x : Queue} {p : BitVec 1024} (queued : s.queue q = some x) (read : x.pkts.find i = some p)
  (new : x.status.get 0 i = 0) (may : x.mayStart i (pkBarrier p) = true) (type : pkType p = 2)
include queued read new may type

theorem exec_graphPacket_of_unreadable
    (none : (s.startedPacket q i p).readRange x.desc.gvroot (257 * pk p 24 4 / 4096 + 2) (pk p 16 8) (257 * pk p 24 4) = none) :
    exec (.graphPacket q i) s = .next (s.rejectPacket q i (pkTag p) (16, 3)) := by
  change execGraphPacket q i s = _
  refine State.startPacket_refuse queued read new may (by simp [packetAct, type]) (dies := []) ?_
  simp only [none]

variable {bs : List Byte}
  (image : (s.startedPacket q i p).readRange x.desc.gvroot (257 * pk p 24 4 / 4096 + 2) (pk p 16 8) (257 * pk p 24 4) = some bs)
include image

theorem exec_graphPacket_of_later (waits : (s.startedPacket q i p).graphWork q i x p bs = .later) :
    exec (.graphPacket q i) s = .next (s.post (.graphPacket q i)) := by
  obtain ⟨work, starts, works⟩ := exec_graphPacket_of_image image
  exact starts.trans (State.startPacket_later queued read new may (by simp [packetAct, type]) (works.trans waits))

theorem exec_graphPacket_of_refusal {dies : List Nat} {o : Offence} (refused : (s.startedPacket q i p).graphWork q i x p bs = graphRefusal dies o) :
    exec (.graphPacket q i) s = .next ((s.takeAndFree (if o.2 = 2 then dies else [])).rejectPacket q i (pkTag p) (o.1 % 65536, o.2)) := by
  obtain ⟨work, starts, works⟩ := exec_graphPacket_of_image image
  exact starts.trans (State.startPacket_refuse queued read new may (by simp [packetAct, type]) (works.trans refused))

theorem exec_graphPacket_of_complete {v : State} (done : (s.startedPacket q i p).graphWork q i x p bs = .complete v) :
    exec (.graphPacket q i) s = .next (v.completePacket q i) := by
  obtain ⟨work, starts, works⟩ := exec_graphPacket_of_image image
  exact starts.trans (State.startPacket_complete queued read new may (by simp [packetAct, type]) (works.trans done))

theorem exec_graphPacket_of_running {v : State} (runs : (s.startedPacket q i p).graphWork q i x p bs = .running v) :
    exec (.graphPacket q i) s = .next v := by
  obtain ⟨work, starts, works⟩ := exec_graphPacket_of_image image
  exact starts.trans (State.startPacket_running queued read new may (by simp [packetAct, type]) (works.trans runs))

end

/-- Settles O49: a doorbell by whether its queue is read, a packet by what it holds, and the work of each type by its own lemma. -/
theorem commandQueueResults : Obligations.CommandQueueResults := by
  refine ⟨fun s q => ⟨exec_commandQueueDoorbell_of_none, fun x => exec_commandQueueDoorbell_of_pause, fun x found running =>
      ⟨exec_commandQueueDoorbell_of_unread found running, fun noErr going open_ alive w index => ?doorbell, fun i =>
        ⟨State.readPacket_of_unreadable found, fun p o => State.readPacket_of_offence found, fun p => State.readPacket_of_sound found,
          fun p => State.offences_of_packetBad⟩⟩⟩,
    fun s q i x p queued read new => ⟨exec_packetAct_of_behind queued read new, fun may =>
      ⟨exec_nopPacket queued read new may, exec_fencePacket queued read new may, exec_signalPacket queued read new may,
        exec_waitPacket_of_fired queued read new may, fun y type pending => exec_waitPacket_of_pending queued read new may type pending,
        fun ks kd type => exec_copyPacket_of_ranges queued read new may type, exec_copyPacket_of_bad_source queued read new may,
        exec_copyPacket_of_bad_dest queued read new may, exec_copyPacket_of_empty queued read new may,
        fun o type => exec_launchPacket_of_offence queued read new may type,
        fun type sound => ⟨exec_launchPacket_of_no_slot queued read new may type sound, fun v k => exec_launchPacket_of_slot queued read new may type sound⟩,
        exec_graphPacket_of_unreadable queued read new may, fun type bs image => ?graph⟩,
      s.takeAndFree_nil, fun ds v l => State.takeAndFree_of_allocFor, exec_packetCompletion_of_started queued read (by simp [new])⟩⟩
  case doorbell =>
    have reads := exec_commandQueueDoorbell_of_read found running noErr going open_ alive index
    exact ⟨fun far => reads.trans (if_pos far), fun near => reads.trans (if_neg (Nat.not_lt.mpr near))⟩
  case graph =>
    refine ⟨fun none sound => ?_, fun o none bad => ?_, fun v slots found => ⟨fun o bad => ?_, fun sound => ⟨fun none => ?_, fun some => ?_⟩⟩⟩
    · exact exec_graphPacket_of_later queued read new may type image ((State.graphWork_of_no_slots none).1 sound)
    · exact exec_graphPacket_of_refusal queued read new may type image ((State.graphWork_of_no_slots none).2 o bad)
    · exact exec_graphPacket_of_refusal queued read new may type image (State.graphWork_of_offence found bad)
    · exact exec_graphPacket_of_complete queued read new may type image (State.graphWork_of_templates found sound none)
    · exact exec_graphPacket_of_running queued read new may type image (State.graphWork_of_runs found sound some)

end Sys2Proof.Machine
end

section
/-! SUPPORT. Control messages: who may send them, what they answer, and the bytes that stand for them; leases and handovers. -/

namespace Sys2Proof.Machine

/-! ### Lapses (14 R384) -/

section
variable {s : State}

theorem State.due_of_current (current : s.lapsed = false) : s.due = s := if_neg (by simp [current])
theorem State.due_of_lapsed (lapsed : s.lapsed = true) : s.due = s.lapse := if_pos lapsed

theorem State.lapsed_iff : s.lapsed = true ↔
    (∃ d, s.owner.digest = some d) ∧ s.cx.pause = none ∧ s.owner.beatAt + 3 * s.owner.beatMs * 3600000 < s.time := by
  simp only [State.lapsed, Bool.and_eq_true, decide_eq_true_eq, Option.isSome_iff_exists, Option.isNone_iff_eq_none, and_assoc]
  rfl

theorem exec_leaseLapse_of_none (none : s.owner.digest = none) : exec .leaseLapse s = .next s := by
  change execLeaseLapse s = _
  rw [execLeaseLapse, none]

theorem exec_leaseLapse_of_current {d : BitVec 384} (owned : s.owner.digest = some d)
    (current : s.cx.pause ≠ none ∨ s.time < s.owner.beatAt + 3 * s.owner.beatMs * 3600000) :
    exec .leaseLapse s = .next (s.post .leaseLapse) := by
  have waits : (s.cx.pause.isSome || decide (s.time < s.owner.deadline)) = true := by
    rw [Bool.or_eq_true, decide_eq_true_eq, Option.isSome_iff_ne_none]
    exact current
  change execLeaseLapse s = _
  simp only [execLeaseLapse, owned, waits, if_true]

theorem exec_leaseLapse_of_over {d : BitVec 384} (owned : s.owner.digest = some d) (running : s.cx.pause = none)
    (over_ : s.owner.beatAt + 3 * s.owner.beatMs * 3600000 ≤ s.time) : exec .leaseLapse s = .next s.lapse := by
  have waits : (s.cx.pause.isSome || decide (s.time < s.owner.deadline)) = false := by
    rw [running, Option.isSome_none, Bool.false_or, decide_eq_false_iff_not, Nat.not_lt]
    exact over_
  change execLeaseLapse s = _
  simp only [execLeaseLapse, owned, waits, Bool.false_eq_true, if_false]

theorem exec_handoverLapse_of_none (none : s.owner.heir = none) : exec .handoverLapse s = .next s := by
  change execHandoverLapse s = _
  rw [execHandoverLapse, none]

section
variable {d : BitVec 384} (named : s.owner.heir = some d)
include named

theorem exec_handoverLapse_of_early (early : s.time < s.owner.heirAt) : exec .handoverLapse s = .next (s.post .handoverLapse) := by
  change execHandoverLapse s = _
  simp only [execHandoverLapse, named, if_pos early]

theorem exec_handoverLapse_of_over (over_ : s.owner.heirAt ≤ s.time) :
    exec .handoverLapse s = .next { s with owner := { s.owner with heir := none } } := by
  change execHandoverLapse s = _
  simp only [execHandoverLapse, named, if_neg (Nat.not_lt.mpr over_)]

end

end

/-! ### Who may send what (14 R385) -/

section
variable {s : State} {m : Msg}

section
variable {typ : Nat} {bad refused : Bool} {go : State → State}

theorem State.ownerMsg_of_other (other : s.due.owner.digest ≠ some m.key) : s.ownerMsg m typ bad refused go = .next (s.due.answerTo m typ 1 []) :=
  if_pos other

variable (owner : s.owner.digest = some m.key) (current : s.lapsed = false)
include owner current

theorem State.ownerMsg_of_owner : s.ownerMsg m typ bad refused go =
    if bad then .next (s.answerTo m typ 2 []) else if refused then .next (s.answerTo m typ 3 []) else .next ((go s).answerTo m typ 0 []) := by
  simp only [State.ownerMsg, State.due_of_current current, owner, ne_eq, not_true_eq_false, if_false]

theorem State.ownerMsg_of_bad (malformed : bad = true) : s.ownerMsg m typ bad refused go = .next (s.answerTo m typ 2 []) :=
  (State.ownerMsg_of_owner owner current).trans (if_pos malformed)
theorem State.ownerMsg_of_refused (sound : bad = false) (no : refused = true) : s.ownerMsg m typ bad refused go = .next (s.answerTo m typ 3 []) := by
  rw [State.ownerMsg_of_owner owner current, sound, no]
  rfl
theorem State.ownerMsg_of_sound (sound : bad = false) (yes : refused = false) :
    s.ownerMsg m typ bad refused go = .next ((go s).answerTo m typ 0 []) := by
  rw [State.ownerMsg_of_owner owner current, sound, yes]
  rfl

end

/-- What a host that is not the owner is answered, once a lapse that is due has taken effect. -/
theorem exec_ownerMsg_of_other {u : State} (now : s.due = u) (other : u.owner.digest ≠ some m.key) (running : s.cx.pause = none)
    (ms watts q prio : Nat) (desc : QueueDesc) (reg : RegionDesc) (heir : BitVec 384) :
    exec (.heartbeat m ms) s = .next (u.answerTo m 2 1 []) ∧ exec (.handover m heir) s = .next (u.answerTo m 3 1 []) ∧
    exec (.qcreate m q desc) s = .next (u.answerTo m 4 1 []) ∧ exec (.qdestroy m q) s = .next (u.answerTo m 5 1 []) ∧
    exec (.qprio m q prio) s = .next (u.answerTo m 6 1 []) ∧ exec (.setlimit m watts) s = .next (u.answerTo m 7 1 []) ∧
    exec (.mreg m reg) s = .next (u.answerTo m 8 1 []) ∧ exec (.quiesce m) s = .next (u.answerTo m 10 1 []) ∧
    exec (.resume m) s = .next (u.answerTo m 11 1 []) := by
  subst now
  refine ⟨(if_neg ?_).trans (State.ownerMsg_of_other other), show execHandover m heir s = _ from State.ownerMsg_of_other other,
    show execQcreate m q desc s = _ from State.ownerMsg_of_other other, if_pos other,
    show execQprio m q prio s = _ from by unfold execQprio; exact State.ownerMsg_of_other other, show execSetlimit m watts s = _ from State.ownerMsg_of_other other,
    if_pos other, if_pos other, (if_neg ?_).trans (State.ownerMsg_of_other other)⟩
  · simp [running]
  · simp [other]

/-! ### Claims (14 R383, R387) -/

section
variable {c : ClaimBody}

/-- A claim may come while there is no owner, or from the successor that a pending handover names. -/
def State.mayClaim (s : State) (d : BitVec 384) : Prop := s.owner.digest = none ∨ (s.owner.heir = some d ∧ s.time < s.owner.heirAt)

theorem State.mayClaim_iff {d : BitVec 384} :
    (s.owner.digest.isNone || (s.owner.heir == some d && decide (s.time < s.owner.heirAt))) = true ↔ s.mayClaim d := by
  simp [State.mayClaim]

theorem exec_claim_of_barred (barred : ¬ s.due.mayClaim (Config.sha384 (leBytes 96 c.pub.toNat))) :
    exec (.claim m c) s = .next (s.due.answerTo m 1 1 []) :=
  if_pos (by rwa [Bool.not_eq_true', Bool.eq_false_iff, ne_eq, State.mayClaim_iff])

section
variable (may : s.due.mayClaim (Config.sha384 (leBytes 96 c.pub.toNat)))
include may

theorem exec_claim_of_may : exec (.claim m c) s =
    if (decide (c.chain.length < 1) || decide (c.chain.length > 3888)) = true then .next (s.due.answerTo m 1 2 [])
    else if (!s.due.claimValid c) = true then .next (s.due.answerTo m 1 1 [])
    else .next ((s.due.elect (Config.sha384 (leBytes 96 c.pub.toNat))).answerTo m 1 0 []) :=
  if_neg (by rw [Bool.not_eq_true', Bool.eq_false_iff, ne_eq, State.mayClaim_iff]; exact not_not.mpr may)

theorem exec_claim_of_bad_length (bad : c.chain.length = 0 ∨ 3888 < c.chain.length) : exec (.claim m c) s = .next (s.due.answerTo m 1 2 []) :=
  (exec_claim_of_may may).trans (if_pos (by simpa using bad))

theorem exec_claim_of_length (some : 1 ≤ c.chain.length) (fits : c.chain.length ≤ 3888) : exec (.claim m c) s =
    if s.due.claimValid c then .next ((s.due.elect (Config.sha384 (leBytes 96 c.pub.toNat))).answerTo m 1 0 []) else .next (s.due.answerTo m 1 1 []) := by
  have sound : (decide (c.chain.length < 1) || decide (c.chain.length > 3888)) = false := by
    rw [Bool.or_eq_false_iff, decide_eq_false_iff_not, decide_eq_false_iff_not]
    omega
  rw [exec_claim_of_may may, sound]
  cases s.due.claimValid c <;> rfl

end

end

/-- The host elected is the owner, and its lease starts with the claim. -/
theorem State.elect_owner (s : State) (d : BitVec 384) : (s.elect d).owner.digest = some d ∧ (s.elect d).owner.beatAt = s.time := by
  unfold State.elect
  dsimp only
  split_ifs <;> exact ⟨rfl, rfl⟩

/-! ### The messages of the owner (14 R384 to R387, 01 R22) -/

section
variable (owner : s.owner.digest = some m.key) (current : s.lapsed = false)
include owner current

theorem exec_heartbeat_of_bad (running : s.cx.pause = none) {ms : Nat} (bad : ms ≠ 0 ∧ (ms < 10 ∨ 10000 < ms)) :
    exec (.heartbeat m ms) s = .next (s.answerTo m 2 2 []) :=
  (if_neg (by simp [running])).trans (State.ownerMsg_of_bad owner current (by simpa using bad))

theorem exec_heartbeat_of_sound (running : s.cx.pause = none) {ms : Nat} (sound : ms = 0 ∨ (10 ≤ ms ∧ ms ≤ 10000)) :
    exec (.heartbeat m ms) s =
      .next (({ s with owner := { s.owner with beatAt := s.time, beatMs := if ms = 0 then s.owner.beatMs else ms } } : State).answerTo m 2 0 []) := by
  refine (if_neg (by simp [running])).trans (State.ownerMsg_of_sound owner current ?_ rfl)
  rcases sound with rfl | ⟨low, high⟩
  · rfl
  · simp [Nat.not_lt.mpr low, Nat.not_lt.mpr high]

theorem exec_handover (d : BitVec 384) : exec (.handover m d) s =
    .next ((({ s with owner := { s.owner with heir := some d, heirAt := s.time + 1000 * 3600000 } } : State).post .handoverLapse).answerTo m 3 0 []) :=
  show execHandover m d s = _ from State.ownerMsg_of_sound owner current rfl rfl

theorem exec_setlimit_of_bad {w : Nat} (bad : w < 1000 ∨ 6000 < w) : exec (.setlimit m w) s = .next (s.answerTo m 7 2 []) :=
  show execSetlimit m w s = _ from State.ownerMsg_of_bad owner current (by simpa using bad)

theorem exec_setlimit_of_sound {w : Nat} (low : 1000 ≤ w) (high : w ≤ 6000) :
    exec (.setlimit m w) s = .next (({ s with limit := w } : State).answerTo m 7 0 []) :=
  show execSetlimit m w s = _ from State.ownerMsg_of_sound owner current (by simp [low, high]) rfl

/-! #### Queues (14 R377) -/

theorem exec_qcreate_of_bad {q : Nat} {d : QueueDesc} (bad : 1023 < q ∨ descBad d = true) : exec (.qcreate m q d) s = .next (s.answerTo m 4 2 []) :=
  show execQcreate m q d s = _ from State.ownerMsg_of_bad owner current (by simpa using bad)

section
variable {q : Nat} {d : QueueDesc} (number : q ≤ 1023) (sound : descBad d = false)
include number sound

theorem exec_qcreate_of_refused (no : (s.queue q).isSome = true ∨ s.errqOk q d.errq = false) : exec (.qcreate m q d) s = .next (s.answerTo m 4 3 []) :=
  show execQcreate m q d s = _ from State.ownerMsg_of_refused owner current (by simp [number, sound]) (by simpa using no)

/-- A queue that is created is an error queue where another names it as one; the sweeps over waiting queues start with the first. -/
theorem exec_qcreate_of_sound (none : s.queue q = none) (yes : s.errqOk q d.errq = true) : exec (.qcreate m q d) s =
    (let e := match s.queue d.errq with
      | some x => s.setQueue d.errq { x with isErr := true }
      | .none => s
     let u := e.setQueue q { desc := d, base := d.base, size := 2 ^ d.log, prio := d.prio, isErr := e.queues.any (fun x => x.2.desc.errq == q) }
     let v : State := { u with qps := bindPort u.qps d.qp m.port, hosts := bindQp u.hosts d.qp m.key }
     .next ((if v.agenda.contains .queueWaitCycleSweep then v else { v with sweepAt := v.time + 3600000 }.post .queueWaitCycleSweep).answerTo m 4 0 [])) := by
  change execQcreate m q d s = _
  exact State.ownerMsg_of_sound owner current (by simp [number, sound]) (by simp [none, yes])

end

theorem exec_qdestroy_of_bad {q : Nat} (bad : 1023 < q) : exec (.qdestroy m q) s = .next (s.answerTo m 5 2 []) := by
  change execQdestroy m q s = _
  simp [execQdestroy, State.due_of_current current, owner, bad]

section
variable {q : Nat} (number : q ≤ 1023)
include number

theorem exec_qdestroy_of_none (none : s.queue q = none) : exec (.qdestroy m q) s = .next (s.answerTo m 5 3 []) := by
  change execQdestroy m q s = _
  simp [execQdestroy, State.due_of_current current, owner, Nat.not_lt.mpr number, none]

section
variable {x : Queue} (found : s.queue q = some x)
include found

/-- A queue is destroyed once its packets are complete and, while it is read, no packet of it is left to read. -/
theorem exec_qdestroy_of_found : exec (.qdestroy m q) s =
    if (!x.pkts.isEmpty || (!x.isErr && !x.stopped && s.unread x)) = true then .next (s.post (.qdestroy m q))
    else .next (({ s with queues := s.queues.del q } : State).answerTo m 5 0 []) := by
  change execQdestroy m q s = _
  simp only [execQdestroy, State.due_of_current current, owner, Nat.not_lt.mpr number, found, ne_eq, not_true_eq_false, if_false]

theorem exec_qdestroy_of_done (done : x.pkts = []) (read : x.isErr = true ∨ x.stopped = true ∨ s.unread x = false) :
    exec (.qdestroy m q) s = .next (({ s with queues := s.queues.del q } : State).answerTo m 5 0 []) := by
  refine (exec_qdestroy_of_found owner current number found).trans (if_neg ?_)
  rcases read with h | h | h <;> simp [done, h]

theorem exec_qdestroy_of_waiting (waits : x.pkts ≠ [] ∨ (x.isErr = false ∧ x.stopped = false ∧ s.unread x = true)) :
    exec (.qdestroy m q) s = .next (s.post (.qdestroy m q)) :=
  (exec_qdestroy_of_found owner current number found).trans (if_pos (by simpa [and_assoc] using waits))

end

end

theorem exec_qprio_of_bad {q prio : Nat} (bad : 1023 < q ∨ 7 < prio) : exec (.qprio m q prio) s = .next (s.answerTo m 6 2 []) := by
  change execQprio m q prio s = _
  unfold execQprio
  exact State.ownerMsg_of_bad owner current (by simpa using bad)

section
variable {q prio : Nat} (number : q ≤ 1023) (level : prio ≤ 7)
include number level

theorem exec_qprio_of_refused (no : s.queue q = none ∨ ∃ x, s.queue q = some x ∧ x.stopped = true) :
    exec (.qprio m q prio) s = .next (s.answerTo m 6 3 []) := by
  change execQprio m q prio s = _
  unfold execQprio
  refine State.ownerMsg_of_refused owner current (by simp [number, level]) ?_
  rcases no with none | ⟨x, found, stopped⟩
  · rw [none]
  · rw [found]
    exact stopped

/-- The Pending and Eligible records of the queue take its new priority, and the dispatchers of the Eligible ones look again. -/
theorem exec_qprio_of_found {x : Queue} (found : s.queue q = some x) (going : x.stopped = false) : exec (.qprio m q prio) s =
    (let u := s.setQueue q { x with prio := prio }
     let mine := (u.recs.filter (fun e => recQv e.2 && recQueue e.2 == q && (u.slotState e.1 == 2 || u.slotState e.1 == 3))).map (fun e => e.1)
     .next ((mine.foldl (fun v k =>
       let w := v.setTask k { v.task k with newPrio := some prio }
       if w.slotState k = 3 then w.wake (k / 65536) else w) u).answerTo m 6 0 [])) := by
  change execQprio m q prio s = _
  unfold execQprio
  refine (State.ownerMsg_of_sound owner current (by simp [number, level]) (by rw [found]; exact going)).trans ?_
  rw [found]

end

/-! #### Regions (14 R376) -/

theorem execMreg_eq {r : RegionDesc} : exec (.mreg m r) s =
    if (!globalAddr r.base.toNat || r.base.toNat % 4096 != 0 || r.len % 4096 != 0 || r.len < 4096 || r.rights.toNat > 7 || r.asid > 65535) = true then
      .next (s.answerTo m 8 2 [])
    else .next (({ s with regions := s.regions.put s.freshKey { desc := r, key := s.freshKey } } : State).answerTo m 8 0 (leBytes 4 s.freshKey)) := by
  change execMreg m r s = _
  simp only [execMreg, State.due_of_current current, owner, ne_eq, not_true_eq_false, if_false]

theorem exec_mreg_of_bad {r : RegionDesc} (bad : 2 ^ 57 ≤ r.base.toNat ∨ r.base.toNat % 4096 ≠ 0 ∨ r.len % 4096 ≠ 0 ∨ r.len < 4096 ∨ 7 < r.rights.toNat ∨
    65535 < r.asid) : exec (.mreg m r) s = .next (s.answerTo m 8 2 []) :=
  (execMreg_eq owner current).trans (if_pos (by simpa [globalAddr, or_assoc] using bad))

theorem exec_mreg_of_sound {r : RegionDesc} (base : r.base.toNat < 2 ^ 57) (aligned : r.base.toNat % 4096 = 0) (whole : r.len % 4096 = 0)
    (some : 4096 ≤ r.len) (rights : r.rights.toNat ≤ 7) (asid : r.asid ≤ 65535) : exec (.mreg m r) s =
      .next (({ s with regions := s.regions.put s.freshKey { desc := r, key := s.freshKey } } : State).answerTo m 8 0 (leBytes 4 s.freshKey)) :=
  (execMreg_eq owner current).trans (if_neg (by simpa [globalAddr, aligned, whole, some, rights, asid] using base))

end

end

/-! ### Queue pairs (14 R375, 23 R481) -/

section
variable {qps : SMap Nat} {qp : Nat} {port : Fin 8}

theorem bindPort_of_error (failed : qps.find qp = some 256) : bindPort qps qp port = qps := if_pos failed

theorem bindPort_of_room (up : qps.find qp ≠ some 256) (room : qps.length < 4096 ∨ (qps.find qp).isSome = true) :
    bindPort qps qp port = qps.put qp port.val := by
  refine (if_neg up).trans (if_neg ?_)
  rcases room with h | h
  · simp [h]
  · simp [Option.isSome_iff_ne_none.mp h]

theorem bindPort_of_full (full : 4096 ≤ qps.length) (new : qps.find qp = none) : bindPort qps qp port = qps :=
  (if_neg (by simp [new])).trans (if_pos (by simp [new, full]))

end

/-! ### The bytes of a message (14 R386) -/

section
variable {key : BitVec 384} {qp : Nat} {port : Fin 8} {carried : Signed × Nat × Nat} {bs : List Byte}

/-- The message that a SEND's header gives. -/
def sendMsg (key : BitVec 384) (qp : Nat) (port : Fin 8) (bs : List Byte) : Msg :=
  { key := key, qp := qp, port := port, tag := leNat ((bs.drop 4).take 4), typ := leNat (bs.take 2) }

theorem sendAct_of_bad (bad : sendOk bs = false) : sendAct key qp port carried bs = .reservedControlMessage (sendMsg key qp port bs) :=
  if_pos (by rw [bad]; rfl)

theorem bodyBytes_type {t n : Nat} (h : bodyBytes t = some n) : t ≠ 0 ∧ t ≤ 15 := by
  unfold bodyBytes at h
  split at h
  case h_16 => cases h
  all_goals decide

/-- A SEND is a control message by its length, its header's zeros, and what its type says of its body. -/
theorem sendOk_iff : sendOk bs = true ↔ 8 ≤ bs.length ∧ bs.length ≤ 4096 ∧ leNat ((bs.drop 2).take 2) = 0 ∧
    ∃ n, bodyBytes (leNat (bs.take 2)) = some n ∧ n ≤ (bs.drop 8).length ∧
      (∀ z ∈ bodyZeros (leNat (bs.take 2)), leNat (((bs.drop 8).drop z.1).take z.2) = 0) ∧
      (leNat (bs.take 2) = 1 → 200 + leNat (((bs.drop 8).drop 192).take 2) ≤ (bs.drop 8).length) := by
  unfold sendOk
  dsimp only
  cases bodyBytes (leNat (bs.take 2)) with
  | none => simp
  | some n =>
    simp only [Bool.and_eq_true, Bool.or_eq_true, decide_eq_true_eq, beq_iff_eq, bne_iff_ne, List.all_eq_true, Option.some.injEq, exists_eq_left',
      ← imp_iff_not_or, and_assoc, ne_eq]

theorem sendAct_of_malformed (bad : bs.length < 8 ∨ 4096 < bs.length ∨ leNat (bs.take 2) = 0 ∨ 15 < leNat (bs.take 2) ∨
      leNat ((bs.drop 2).take 2) ≠ 0 ∨ ∃ n, bodyBytes (leNat (bs.take 2)) = some n ∧ bs.length < 8 + n) :
    sendAct key qp port carried bs = .reservedControlMessage (sendMsg key qp port bs) := by
  refine sendAct_of_bad (Bool.eq_false_iff.mpr (fun ok => ?_))
  obtain ⟨long, short, zero, n, body, fits, -⟩ := sendOk_iff.mp ok
  have type := bodyBytes_type body
  rw [List.length_drop] at fits
  rcases bad with h | h | h | h | h | ⟨n', body', h⟩
  · omega
  · omega
  · exact type.1 h
  · omega
  · exact h zero
  · obtain rfl := Option.some.inj (body.symm.trans body')
    omega

theorem sendAct_of_nonzero {z : Nat × Nat} (marked : z ∈ bodyZeros (leNat (bs.take 2))) (bad : leNat (((bs.drop 8).drop z.1).take z.2) ≠ 0) :
    sendAct key qp port carried bs = .reservedControlMessage (sendMsg key qp port bs) := by
  refine sendAct_of_bad (Bool.eq_false_iff.mpr (fun ok => ?_))
  obtain ⟨-, -, -, n, -, -, zeros, -⟩ := sendOk_iff.mp ok
  exact bad (zeros z marked)

/-- A SEND of a type whose body has no zeros needs its length alone. -/
theorem sendOk_of_plain {t n : Nat} (type : leNat (bs.take 2) = t) (body : bodyBytes t = some n) (plain : bodyZeros t = []) (other : t ≠ 1)
    (long : 8 + n ≤ bs.length) (short : bs.length ≤ 4096) (zero : leNat ((bs.drop 2).take 2) = 0) : sendOk bs = true := by
  subst type
  refine sendOk_iff.mpr ⟨by omega, short, zero, n, body, ?_, ?_, fun h => absurd h other⟩
  · rw [List.length_drop]
    omega
  · rw [plain]
    exact fun z hz => absurd hz List.not_mem_nil

section
variable (short : bs.length ≤ 4096) (zero : leNat ((bs.drop 2).take 2) = 0)
include short zero

theorem sendAct_heartbeat (type : leNat (bs.take 2) = 2) (long : 12 ≤ bs.length) :
    sendAct key qp port carried bs = .heartbeat (sendMsg key qp port bs) (leNat ((bs.drop 8).take 4)) := by
  simp [sendAct, sendMsg, sendOk_of_plain type rfl rfl (by decide) long short zero, type]

theorem sendAct_handover (type : leNat (bs.take 2) = 3) (long : 56 ≤ bs.length) :
    sendAct key qp port carried bs = .handover (sendMsg key qp port bs) (BitVec.ofNat 384 (leNat ((bs.drop 8).take 48))) := by
  simp [sendAct, sendMsg, sendOk_of_plain type rfl rfl (by decide) long short zero, type]

theorem sendAct_quiesce (type : leNat (bs.take 2) = 10) (long : 8 ≤ bs.length) :
    sendAct key qp port carried bs = .quiesce (sendMsg key qp port bs) := by
  simp [sendAct, sendMsg, sendOk_of_plain type rfl rfl (by decide) long short zero, type]

end

end

/-- The header of a reply is 8 bytes, and its data follow. -/
theorem Reply.bytes_header (r : Reply) :
    r.bytes.take 8 = leBytes 2 r.type ++ leBytes 1 r.status ++ leBytes 1 0 ++ leBytes 4 r.tag ∧ r.bytes.drop 8 = r.data := by
  have header : (leBytes 2 r.type ++ leBytes 1 r.status ++ leBytes 1 0 ++ leBytes 4 r.tag).length = 8 := by simp [leBytes_length]
  exact ⟨List.take_left' header, List.drop_left' header⟩

/-- Settles O50: a message by who sends it and what it holds, a SEND by its bytes, a lease and a handover by the clock. -/
theorem ownerMessageResults : Obligations.OwnerMessageResults := by
  refine ⟨fun s m => ?messages, fun s d => ⟨exec_leaseLapse_of_none, exec_handoverLapse_of_none,
    fun owned paused => exec_leaseLapse_of_current owned (.inl paused), State.lapsed_iff,
    fun owned running => ⟨fun early => exec_leaseLapse_of_current owned (.inr early), fun late =>
      ⟨s.lapse, exec_leaseLapse_of_over owned running late, rfl, rfl, rfl, rfl, rfl, rfl, rfl⟩⟩,
    fun named => ⟨exec_handoverLapse_of_early named, exec_handoverLapse_of_over named⟩⟩⟩
  dsimp only
  refine ⟨rfl, fun c => ⟨fun barred => ?barred, fun may => ⟨exec_claim_of_bad_length may, fun some fits =>
      ⟨exec_claim_of_length may some fits, State.elect_owner _ _⟩⟩⟩,
    fun other current running ms watts q prio desc reg heir =>
      exec_ownerMsg_of_other (State.due_of_current current) (fun owner => other owner) running ms watts q prio desc reg heir,
    fun lapsed ms watts q prio desc reg heir =>
      exec_ownerMsg_of_other (State.due_of_lapsed lapsed) (nomatch ·) (State.lapsed_iff.mp lapsed).2.1 ms watts q prio desc reg heir,
    fun paused ms => if_pos (Option.isSome_iff_ne_none.mpr paused), fun owner current => ?owner,
    fun qps qp port => ⟨bindPort_of_error, fun up => ⟨bindPort_of_room up, bindPort_of_full⟩⟩,
    fun key qp port carried bs => ⟨sendAct_of_malformed, fun type long short zero => sendAct_heartbeat short zero type long,
      fun type long short zero => sendAct_handover short zero type long, fun type long short zero => sendAct_quiesce short zero type long,
      fun z => sendAct_of_nonzero⟩,
    Reply.bytes_header⟩
  case barred =>
    refine fun notNamed => exec_claim_of_barred ?_
    rintro (none | ⟨named, early⟩)
    · obtain ⟨x, owned⟩ := barred
      cases none.symm.trans owned
    · exact notNamed.elim (absurd named) (absurd early ∘ Nat.not_lt.mpr)
  case owner =>
    exact ⟨fun ms running => exec_heartbeat_of_bad owner current running, fun ms running => exec_heartbeat_of_sound owner current running,
      exec_handover owner current, fun w => exec_setlimit_of_bad owner current, fun w => exec_setlimit_of_sound owner current,
      fun q d => exec_qcreate_of_sound owner current, fun q d => exec_qcreate_of_refused owner current,
      fun q d prio bad => ⟨exec_qcreate_of_bad owner current (.inl bad), exec_qdestroy_of_bad owner current bad,
        exec_qprio_of_bad owner current (.inl bad)⟩,
      fun q d bad => exec_qcreate_of_bad owner current (.inr bad), fun q prio bad => exec_qprio_of_bad owner current (.inr bad),
      fun q => exec_qdestroy_of_none owner current, fun q x number found =>
        ⟨exec_qdestroy_of_done owner current number found, exec_qdestroy_of_waiting owner current number found⟩,
      fun q prio => exec_qprio_of_refused owner current, fun q prio x number level => exec_qprio_of_found owner current number level,
      fun r => exec_mreg_of_bad owner current, fun r => exec_mreg_of_sound owner current⟩

end Sys2Proof.Machine
end

section
/-! SUPPORT. Live update, quiescence, attestation, and the recovery of tasks. -/

namespace Sys2Proof.Machine

/-! ### Live update (14 R388) -/

section
variable {s : State} {m : Msg} {b : UpdateBody}

/-- The fields of an update are in their ranges. -/
def updateSound (b : UpdateBody) : Prop := (b.reg = 0 ∧ b.digest = 0 ∨ (5 ≤ b.reg ∧ b.reg ≤ 7)) ∧ b.addr.toNat < 2 ^ 57

theorem updateSound_iff :
    (!(b.reg == 0 || (5 ≤ b.reg && b.reg ≤ 7)) || (b.reg == 0 && b.digest != 0) || !globalAddr b.addr.toNat) = false ↔ updateSound b := by
  simp only [globalAddr, updateSound, Bool.or_eq_false_iff, Bool.not_eq_false', Bool.or_eq_true, Bool.and_eq_true, Bool.and_eq_false_imp, beq_iff_eq,
    bne_eq_false_iff_eq, decide_eq_true_eq]
  grind

section
variable (running : s.cx.pause = none)
include running

theorem exec_update_of_other (other : s.due.owner.digest ≠ some m.key) : exec (.update m b) s = .next (s.due.answerTo m 9 1 []) := by
  change execUpdate m b s = _
  simp only [execUpdate, running, if_pos other]

variable (owner : s.owner.digest = some m.key) (current : s.lapsed = false)
include owner current

theorem exec_update_of_bad (bad : ¬ updateSound b) : exec (.update m b) s = .next (s.answerTo m 9 2 []) := by
  have bad := Bool.eq_true_of_not_eq_false (mt updateSound_iff.mp bad)
  change execUpdate m b s = _
  simp only [execUpdate, running, State.due_of_current current, owner, bad, ne_eq, not_true_eq_false, if_false, if_true]

variable (sound : updateSound b)
include sound

theorem exec_update_of_invalid (invalid : ¬ (s.stageValid b = true ∧ s.cx.standbyRuns = true)) : exec (.update m b) s = .next (s.answerTo m 9 3 []) := by
  have refused : (!s.stageValid b || !s.cx.standbyRuns) = true := by
    rw [← Bool.not_and, Bool.not_eq_true', Bool.eq_false_iff, ne_eq, Bool.and_eq_true]
    exact invalid
  change execUpdate m b s = _
  simp only [execUpdate, running, State.due_of_current current, owner, updateSound_iff.mpr sound, refused, ne_eq, not_true_eq_false, if_false,
    Bool.false_eq_true, if_true]

/-- The standby has booted the image, and is measured, before the versions are compared. -/
theorem exec_update_of_valid (good : s.stageValid b = true ∧ s.cx.standbyRuns = true) : exec (.update m b) s =
    let u := s.extendMr (2 - s.cx.active) b.stage.digest
    if (decide (s.cx.version < b.minVer) || decide (b.maxVer < s.cx.version)) = true then .next (u.answerTo m 9 3 [])
    else .next (({ u with cx := { u.cx with pause := some (s.time, m) } } : State).post (.update m b)) := by
  have accepted : (!s.stageValid b || !s.cx.standbyRuns) = false := by rw [good.1, good.2]; rfl
  change execUpdate m b s = _
  simp only [execUpdate, running, State.due_of_current current, owner, updateSound_iff.mpr sound, accepted, ne_eq, not_true_eq_false, if_false,
    Bool.false_eq_true]
  rfl

end

theorem State.atBoundary_iff : s.atBoundary = true ↔ ∀ e ∈ s.queues, ∀ p ∈ e.2.pkts, e.2.status.get 0 p.1 ≠ 0 := by
  simp [State.atBoundary]

section
variable {since : Nat} {m' : Msg} (paused : s.cx.pause = some (since, m'))
include paused

theorem exec_update_of_waiting (waits : m' ≠ m ∨ ∃ e ∈ s.queues, ∃ p ∈ e.2.pkts, e.2.status.get 0 p.1 = 0) :
    exec (.update m b) s = .next (s.post (.update m b)) := by
  have waits : (decide (m' ≠ m) || !s.atBoundary) = true := by
    rw [Bool.or_eq_true, decide_eq_true_eq, Bool.not_eq_true', Bool.eq_false_iff, ne_eq (s.atBoundary), State.atBoundary_iff]
    refine waits.imp_right (fun ⟨e, he, p, hp, new⟩ boundary => boundary e he p hp new)
  change execUpdate m b s = _
  simp only [execUpdate, paused, waits, if_true]

theorem exec_update_of_boundary (mine : m' = m) (boundary : ∀ e ∈ s.queues, ∀ p ∈ e.2.pkts, e.2.status.get 0 p.1 ≠ 0) :
    exec (.update m b) s = .next ((s.swapComplex b since).answerTo m 9 0 []) := by
  have done : (decide (m' ≠ m) || !s.atBoundary) = false := by rw [State.atBoundary_iff.mpr boundary]; simp [mine]
  change execUpdate m b s = _
  simp only [execUpdate, paused, done, Bool.false_eq_true, if_false]

end

end

/-! ### Quiescence (14 R392) -/

/-- The records, and the dies with their blocks: what says which slot is in which state. -/
def State.slotParts (s : State) : SMap (BitVec 2048) × SMap Die := (s.recs, s.dies)

theorem State.tasksIn_congr {s u : State} (same : u.slotParts = s.slotParts) (st : Nat) : u.tasksIn st = s.tasksIn st := by
  obtain ⟨recs, dies⟩ := Prod.mk.inj same
  simp only [State.tasksIn, State.recsIn, State.slotState, State.record, State.die, recs, dies]

/-- The freeze of a task is a request to its tiles. -/
theorem State.freezeTask_slotParts (s : State) (k : Nat) : (s.freezeTask k).slotParts = s.slotParts :=
  foldl_leaves State.slotParts (fun s t => s.post (.freezeRequestArrival t none)) (fun _ _ => rfl) (s.task k).tiles (s.setTask k { s.task k with auto := true })

theorem State.freezeTasks_tasksIn (s : State) (ks : List Nat) (st : Nat) : (ks.foldl (fun u k => u.freezeTask k) s).tasksIn st = s.tasksIn st :=
  State.tasksIn_congr (foldl_leaves State.slotParts (fun u k => u.freezeTask k) State.freezeTask_slotParts ks s) st

/-- A QUIESCE is under way where the package is quiesced and the message still waits. -/
theorem State.quiescing_iff {s : State} : s.quiescing = true ↔ s.owner.quiesced = true ∧ ∃ m', Instr.quiesce m' ∈ s.agenda := by
  unfold State.quiescing
  rw [Bool.and_eq_true, List.any_eq_true]
  refine and_congr_right (fun _ => ⟨fun ⟨i, waits, is⟩ => ?_, fun ⟨m', waits⟩ => ⟨_, waits, rfl⟩⟩)
  split at is
  · exact ⟨_, waits⟩
  · cases is

/-- The package with the bit that stops reading and staging. -/
def State.quieted (s : State) : State := { s with owner := { s.owner with quiesced := true } }

section
variable {s : State} {m : Msg} (owner : s.owner.digest = some m.key) (current : s.lapsed = false)
include owner current

theorem exec_quiesce_of_owner : exec (.quiesce m) s =
    let u := if (!s.owner.quiesced) = true then (s.quieted.tasksIn 6).foldl (fun u k => u.freezeTask k) s.quieted else s.quieted
    .next (if (u.tasksIn 6).isEmpty = true then u.answerTo m 10 0 [] else u.post (.quiesce m)) := by
  change execQuiesce m s = _
  unfold execQuiesce
  rw [State.due_of_current current]
  exact if_neg (by rw [owner]; exact not_not.mpr rfl)

theorem exec_quiesce_of_idle (idle : s.tasksIn 6 = []) : exec (.quiesce m) s = .next (s.quieted.answerTo m 10 0 []) := by
  have idle : s.quieted.tasksIn 6 = [] := idle
  rw [exec_quiesce_of_owner owner current, idle]
  simp only [List.foldl_nil, ite_self, idle, List.isEmpty_nil, if_true]

section
variable (runs : s.tasksIn 6 ≠ [])
include runs

theorem exec_quiesce_of_again (again : s.owner.quiesced = true) : exec (.quiesce m) s = .next (s.quieted.post (.quiesce m)) := by
  have runs : (s.quieted.tasksIn 6).isEmpty = false := List.isEmpty_eq_false_iff.mpr runs
  rw [exec_quiesce_of_owner owner current]
  simp only [again, runs, Bool.not_true, Bool.false_eq_true, if_false]

theorem exec_quiesce_of_first (first : s.owner.quiesced = false) :
    exec (.quiesce m) s = .next (((s.tasksIn 6).foldl (fun u k => u.freezeTask k) s.quieted).post (.quiesce m)) := by
  have runs : (s.quieted.tasksIn 6).isEmpty = false := List.isEmpty_eq_false_iff.mpr runs
  rw [exec_quiesce_of_owner owner current]
  simp only [first, State.freezeTasks_tasksIn, runs, Bool.not_false, Bool.false_eq_true, if_false, if_true]
  rfl

end

theorem exec_resume_of_quiescing (under : s.quiescing = true) : exec (.resume m) s = .next (s.post (.resume m)) :=
  if_pos (by rw [under, State.due_of_current current, owner]; simp)

/-- What resuming restores, stages and reads again. -/
theorem exec_resume_of_done (done : s.quiescing = false) : exec (.resume m) s =
    (let u : State := { s with owner := { s.owner with quiesced := false } }
     let v := ((u.tasksIn 7).filter (fun k => (u.task k).auto && !(u.task k).faulted)).foldl (fun v k => v.post (.gangRestore k)) u
     let w := (v.tasksIn 5).foldl (fun w k => w.post (.taskEnterRunning ((w.task k).tiles.headD 0))) v
     let x := ((w.tasksIn 3).map (fun k => k / 65536)).dedup.foldl (fun x d => x.wake d) w
     .next ((x.queues.foldl (fun (y : State) (e : Nat × Queue) => y.post (.commandQueueDoorbell e.1)) x).answerTo m 11 0 [])) :=
  (if_neg (by simp [done])).trans (State.ownerMsg_of_sound owner current rfl rfl)

end

/-! ### Attestation and status (14 R385, R390) -/

theorem exec_status (m : Msg) (first : Nat) (s : State) : exec (.status m first) s =
    (let u := s.due
     let o := u.owner
     let qs := (u.queues.filter (fun e => decide (first ≤ e.1))).take 332
     .next (u.answerTo m 13 0 (leBytes 48 ((o.digest.map BitVec.toNat).getD 0) ++
        leBytes 1 (if o.digest = none then 0 else if o.heir ≠ none then 2 else 1) ++ leBytes 3 0 ++ leBytes 4 o.beatMs ++ leBytes 32 o.nonce.toNat ++
        leBytes 8 (BitVec.ofInt 64 u.budget).toNat ++ leBytes 4 u.limit ++ leBytes 4 qs.length ++
        qs.flatMap (fun e => leBytes 2 e.1 ++ leBytes 1 e.2.prio ++ leBytes 1 0 ++ leBytes 4 e.2.read ++ leBytes 4 ((u.writeIndex e.2).getD 0))))) := by
  change execStatus m first s = _
  unfold execStatus
  dsimp only
  cases s.due.owner.digest <;> cases s.due.owner.heir <;> rfl

/-! ### Recovery (23 R468 to R470, R489) -/

/-- FRESTORE of a task with images. -/
def State.frestoreImages (s : State) (m : Msg) (task tile : Nat) (clear : Bool) : Host.Outcome State Fault Refusal :=
  let k := task % 2 ^ 20
  let u := if clear then s.clearFaults k else s
  if !u.admits (u.restoreCost k) then .next (s.post (.frestore m task tile clear))
  else match u.frestoreHomes k tile with
    | none => .next (s.post (.frestore m task tile clear))
    | some l =>
      match u.restoreTask k l with
      | .error (.wait _ v) => .next (v.post (.frestore m task tile clear))
      | .error (.trap _) => .next ((s.restoreRefused k 7).answerTo m 14 3 [])
      | .ok (v, .error st) => .next ((({ v with tiles := s.tiles } : State).restoreRefused k st).answerTo m 14 3 [])
      | .ok (_, .ok v) => .next (v.answerTo m 14 0 [])

section
variable {s : State} {m : Msg} {task tile : Nat} {clear : Bool} {u : State} (now : (if clear then s.clearFaults (task % 2 ^ 20) else s) = u)
include now

theorem State.frestoreImages_of_waiting (waits : u.admits (u.restoreCost (task % 2 ^ 20)) = false ∨ u.frestoreHomes (task % 2 ^ 20) tile = none) :
    s.frestoreImages m task tile clear = .next (s.post (.frestore m task tile clear)) := by
  subst now
  unfold State.frestoreImages
  dsimp only
  rcases waits with account | homes
  · exact if_pos (by rw [account]; rfl)
  · rw [homes, ite_self]

/-- What the restore at the tiles found answers. -/
theorem State.frestoreImages_of_homes {l : List (Nat × Image × Nat)} (account : u.admits (u.restoreCost (task % 2 ^ 20)) = true)
    (homes : u.frestoreHomes (task % 2 ^ 20) tile = some l) :
    (∀ w v, u.restoreTask (task % 2 ^ 20) l = .ok (w, .ok v) → s.frestoreImages m task tile clear = .next (v.answerTo m 14 0 [])) ∧
    (∀ w v, u.restoreTask (task % 2 ^ 20) l = .error (.wait w v) → s.frestoreImages m task tile clear = .next (v.post (.frestore m task tile clear))) ∧
    (∀ v st, u.restoreTask (task % 2 ^ 20) l = .ok (v, .error st) →
      s.frestoreImages m task tile clear = .next ((({ v with tiles := s.tiles } : State).restoreRefused (task % 2 ^ 20) st).answerTo m 14 3 [])) := by
  subst now
  unfold State.frestoreImages
  simp only [account, homes, Bool.not_true, Bool.false_eq_true, if_false]
  exact ⟨fun w v done => by rw [done], fun w v waits => by rw [waits], fun v st no => by rw [no]⟩

end

section
variable {s : State} {m : Msg} {task tile : Nat} {clear send : Bool}

theorem exec_frestore_of_other (other : s.due.owner.digest ≠ some m.key) : exec (.frestore m task tile clear) s = .next (s.due.answerTo m 14 1 []) :=
  if_pos other

theorem exec_fdiscard_of_other (other : s.due.owner.digest ≠ some m.key) : exec (.fdiscard m task send) s = .next (s.due.answerTo m 15 1 []) :=
  (if_neg (by simp [other])).trans (State.ownerMsg_of_other other)

variable (owner : s.owner.digest = some m.key) (current : s.lapsed = false)
include owner current

/-- What FRESTORE of the owner does, by whether its tile and its task are ones it may name. -/
theorem exec_frestore_of_owner : exec (.frestore m task tile clear) s =
    (let k := task % 2 ^ 20
     if (decide (tile ≥ 2560) && decide (tile ≠ 0xFFFF) && !(task / 2 ^ 20 == s.ua.pkg && s.slotState k == 7 && (s.task k).imageId.isEmpty)) = true then
       .next (s.answerTo m 14 2 [])
     else if (decide (task / 2 ^ 20 ≠ s.ua.pkg) || decide (s.slotState k ≠ 7)) = true then .next (s.answerTo m 14 3 [])
     else if (s.task k).imageId.isEmpty = true then
       .next ((((s.setRecord k (setRecD (setRecF (s.record k) 1 63 60 3) 23 (BitVec.ofNat 64 s.time))).setTask k
         { s.task k with faulted := false }).wake (k / 65536)).answerTo m 14 0 [])
     else s.frestoreImages m task tile clear) := by
  change execFrestore m task tile clear s = _
  unfold execFrestore
  rw [State.due_of_current current]
  exact if_neg (by rw [owner]; exact not_not.mpr rfl)

theorem exec_frestore_of_bad (nowhere : 2560 ≤ tile) (named : tile ≠ 0xFFFF)
    (image : task / 2 ^ 20 ≠ s.ua.pkg ∨ s.slotState (task % 2 ^ 20) ≠ 7 ∨ (s.task (task % 2 ^ 20)).imageId ≠ []) :
    exec (.frestore m task tile clear) s = .next (s.answerTo m 14 2 []) :=
  (exec_frestore_of_owner owner current).trans (if_pos (by simpa [nowhere, named, -Nat.reducePow, imp_iff_not_or, or_assoc] using image))

section
variable (place : tile < 2560 ∨ tile = 0xFFFF)
include place

/-- A tile that FRESTORE may name is no offence. -/
theorem exec_frestore_of_place : exec (.frestore m task tile clear) s =
    (let k := task % 2 ^ 20
     if (decide (task / 2 ^ 20 ≠ s.ua.pkg) || decide (s.slotState k ≠ 7)) = true then .next (s.answerTo m 14 3 [])
     else if (s.task k).imageId.isEmpty = true then
       .next ((((s.setRecord k (setRecD (setRecF (s.record k) 1 63 60 3) 23 (BitVec.ofNat 64 s.time))).setTask k
         { s.task k with faulted := false }).wake (k / 65536)).answerTo m 14 0 [])
     else s.frestoreImages m task tile clear) :=
  (exec_frestore_of_owner owner current).trans (if_neg (by rcases place with h | h <;> simp [h]))

theorem exec_frestore_of_refused (notFrozen : task / 2 ^ 20 ≠ s.ua.pkg ∨ s.slotState (task % 2 ^ 20) ≠ 7) :
    exec (.frestore m task tile clear) s = .next (s.answerTo m 14 3 []) :=
  (exec_frestore_of_place owner current place).trans (if_pos (by rwa [Bool.or_eq_true, decide_eq_true_eq, decide_eq_true_eq]))

theorem exec_frestore_of_images (mine : task / 2 ^ 20 = s.ua.pkg) (frozen : s.slotState (task % 2 ^ 20) = 7)
    (held : (s.task (task % 2 ^ 20)).imageId ≠ []) : exec (.frestore m task tile clear) s = s.frestoreImages m task tile clear := by
  refine (exec_frestore_of_place owner current place).trans ((if_neg ?_).trans (if_neg ?_))
  · simp [mine, frozen, -Nat.reducePow]
  · simpa using held

end

theorem exec_frestore_of_no_image (mine : task / 2 ^ 20 = s.ua.pkg) (frozen : s.slotState (task % 2 ^ 20) = 7)
    (none : (s.task (task % 2 ^ 20)).imageId = []) :
    exec (.frestore m task tile clear) s = .next ((((s.setRecord (task % 2 ^ 20) (setRecD (setRecF (s.record (task % 2 ^ 20)) 1 63 60 3) 23
        (BitVec.ofNat 64 s.time))).setTask (task % 2 ^ 20) { s.task (task % 2 ^ 20) with faulted := false }).wake (task % 2 ^ 20 / 65536)).answerTo m 14 0 []) := by
  refine (exec_frestore_of_owner owner current).trans ((if_neg ?_).trans ((if_neg ?_).trans (if_pos ?_)))
  · simp [mine, frozen, none, -Nat.reducePow]
  · simp [mine, frozen, -Nat.reducePow]
  · exact List.isEmpty_iff.mpr none

/-! #### Discards (23 R469) -/

theorem exec_fdiscard_of_refused (refused : task / 2 ^ 20 ≠ s.ua.pkg ∨ (s.slotState (task % 2 ^ 20) ≠ 2 ∧ s.slotState (task % 2 ^ 20) ≠ 3 ∧
      s.slotState (task % 2 ^ 20) ≠ 7)) : exec (.fdiscard m task send) s = .next (s.answerTo m 15 3 []) := by
  have refused : (task / 2 ^ 20 != s.ua.pkg || !(s.slotState (task % 2 ^ 20) == 2 || s.slotState (task % 2 ^ 20) == 3 || s.slotState (task % 2 ^ 20) == 7))
      = true := by simpa [-Nat.reducePow, and_assoc] using refused
  change execFdiscard m task send s = _
  unfold execFdiscard
  dsimp only
  rw [refused]
  exact (if_neg (by simp)).trans (State.ownerMsg_of_refused owner current rfl rfl)

section
variable (mine : task / 2 ^ 20 = s.ua.pkg)
  (held : s.slotState (task % 2 ^ 20) = 2 ∨ s.slotState (task % 2 ^ 20) = 3 ∨ s.slotState (task % 2 ^ 20) = 7)
include mine held

theorem exec_fdiscard_of_held : exec (.fdiscard m task send) s =
    match s.discardTask (task % 2 ^ 20) with
    | none => .next ((((s.dirs.filter (fun e => e.2.ovf)).map (fun e => e.1)).foldl (fun v n => v.askHandler n) s).post (.fdiscard m task send))
    | some (v, es) => .next (((v.retireRecord (task % 2 ^ 20) send).report (some (recQueue (s.record (task % 2 ^ 20))))
        { cls := 1, reach := 2, task := v.tid (task % 2 ^ 20), detail := discardDetail send es }).answerTo m 15 0 []) := by
  have yes : (task / 2 ^ 20 != s.ua.pkg || !(s.slotState (task % 2 ^ 20) == 2 || s.slotState (task % 2 ^ 20) == 3 || s.slotState (task % 2 ^ 20) == 7))
      = false := by simpa [mine, -Nat.reducePow, or_iff_not_imp_left] using held
  change execFdiscard m task send s = _
  unfold execFdiscard
  dsimp only
  rw [yes]
  cases found : s.discardTask (task % 2 ^ 20) with
  | none => exact if_pos (by simp [State.due_of_current current, owner])
  | some p => exact (if_neg (by simp)).trans ((State.ownerMsg_of_sound owner current rfl rfl).trans (by rw [found]))

end

end

/-- A message of a host that is not the owner, once a lapse that is due has taken effect. -/
theorem exec_management_of_other {s u : State} {m : Msg} (now : s.due = u) (other : u.owner.digest ≠ some m.key) (b : UpdateBody) (task tile : Nat)
    (clear send : Bool) :
    (s.cx.pause = none → exec (.update m b) s = .next (u.answerTo m 9 1 [])) ∧
    exec (.frestore m task tile clear) s = .next (u.answerTo m 14 1 []) ∧ exec (.fdiscard m task send) s = .next (u.answerTo m 15 1 []) := by
  subst now
  exact ⟨fun running => exec_update_of_other running other, exec_frestore_of_other other, exec_fdiscard_of_other other⟩

/-- Settles O51: each message by its sender, its fields and the state it meets. -/
theorem managementMessageResults : Obligations.ManagementMessageResults := by
  intro s m
  dsimp only
  refine ⟨?valid, ?paused, ?quiet, ?badUpdate, fun b task tile clear send other current => ?other, fun b task tile clear send lapsed => ?lapsed,
    fun n => rfl, fun first => exec_status m first s, ?images, ?place, ?noImage, ?refused, ?discard, ?kept⟩
  case valid =>
    refine fun b ⟨owner, current⟩ running fields address => ⟨exec_update_of_invalid running owner current ⟨fields, address⟩, fun good version => ?_,
      fun good low high => ?_⟩
    · exact (exec_update_of_valid running owner current ⟨fields, address⟩ good).trans (if_pos (by simpa using version))
    · exact (exec_update_of_valid running owner current ⟨fields, address⟩ good).trans (if_neg (by simpa using ⟨low, high⟩))
  case paused =>
    exact fun b since m' paused => ⟨exec_update_of_waiting paused, exec_update_of_boundary paused⟩
  case quiet =>
    exact fun ⟨owner, current⟩ => ⟨exec_quiesce_of_idle owner current, exec_quiesce_of_again owner current, exec_quiesce_of_first owner current,
      exec_resume_of_quiescing owner current, State.quiescing_iff, exec_resume_of_done owner current⟩
  case badUpdate =>
    refine fun b ⟨owner, current⟩ running bad => exec_update_of_bad running owner current ?_
    rintro ⟨fields, address⟩
    rcases bad with ⟨_, _⟩ | _ | ⟨zero, digest⟩ | _
    · omega
    · omega
    · exact fields.elim (fun no => digest no.2) (by omega)
    · omega
  case other => exact exec_management_of_other (State.due_of_current current) other b task tile clear send
  case lapsed =>
    obtain ⟨update, recovery⟩ := exec_management_of_other (m := m) (State.due_of_lapsed lapsed) (nomatch ·) b task tile clear send
    exact ⟨update (State.lapsed_iff.mp lapsed).2.1, recovery⟩
  case images =>
    intro task tile clear ⟨owner, current⟩ place mine frozen held
    rw [exec_frestore_of_images owner current place mine frozen held]
    exact ⟨State.frestoreImages_of_waiting rfl, fun l => State.frestoreImages_of_homes rfl⟩
  case place => exact fun task tile clear ⟨owner, current⟩ => exec_frestore_of_bad owner current
  case noImage => exact fun task tile clear ⟨owner, current⟩ => exec_frestore_of_no_image owner current
  case refused => exact fun task tile clear ⟨owner, current⟩ => exec_frestore_of_refused owner current
  case discard =>
    intro task send ⟨owner, current⟩ mine held
    rw [exec_fdiscard_of_held owner current mine held]
    exact ⟨fun v done => by simp only [State.discardTask, done, Option.map_some], fun none => by simp only [State.discardTask, none, Option.map_none]⟩
  case kept => exact fun task send ⟨owner, current⟩ => exec_fdiscard_of_refused owner current

end Sys2Proof.Machine
end

section
/-! SUPPORT. Requests of host links: RDMA requests, UALink transactions, and the links' failures. -/

namespace Sys2Proof.Machine

/-! ### RDMA requests (14 R375, R376, R378) -/

section
variable {s : State} {r : Rdma}

/-- On a queue pair in the error state nothing happens (23 R481). -/
theorem exec_rdma_of_down (down : s.qpUp r.qp = false) :
    exec (.rdmaWrite r) s = .next s ∧ exec (.rdmaRead r) s = .next s ∧ exec (.rdmaCompareAndSwap r) s = .next s ∧
    exec (.rdmaFetchAndAdd r) s = .next s ∧ exec (.rdmaUnsupportedRequest r.qp) s = .next s := by
  have down' : (!s.qpUp r.qp) = true := by rw [down]; rfl
  exact ⟨if_pos down', if_pos down', if_pos down', if_pos down', congrArg Host.Outcome.next (if_neg (by simp [down]))⟩

section
variable (up : s.qpUp r.qp = true)
include up

theorem exec_rdmaUnsupportedRequest_of_up :
    exec (.rdmaUnsupportedRequest r.qp) s = .next (s.rdmaReply r.qp 2 []) := congrArg Host.Outcome.next (if_pos up)

/-! #### Writes -/

theorem exec_rdmaWrite_of_up : exec (.rdmaWrite r) s =
    match s.grant r 1 r.data.length with
    | none => .next (s.rdmaNak r.qp)
    | some root =>
      if !s.rangeOk root 2 r.va.toNat r.data.length then .next (s.rdmaNak r.qp)
      else if s.shutIn root r.va.toNat r.data.length ≠ [] then
        .next (s.outsideWait (s.shutIn root r.va.toNat r.data.length) (.rdmaWrite r))
      else .next ((((s.writeRange root (cut r.va r.data.length) r.data).crossAll 0).rdmaReply r.qp 0 []).ringDoorbells
        (asidOf root) r.va.toNat r.data.length) :=
  if_neg (by simp [up])

theorem exec_rdmaWrite_of_none (none : s.grant r 1 r.data.length = none) : exec (.rdmaWrite r) s = .next (s.rdmaNak r.qp) := by
  rw [exec_rdmaWrite_of_up up, none]

section
variable {root : Word} (granted : s.grant r 1 r.data.length = some root)
include granted

theorem exec_rdmaWrite_of_barred (barred : s.rangeOk root 2 r.va.toNat r.data.length = false) : exec (.rdmaWrite r) s = .next (s.rdmaNak r.qp) := by
  rw [exec_rdmaWrite_of_up up, granted]
  exact if_pos (by rw [barred]; rfl)

variable (ok : s.rangeOk root 2 r.va.toNat r.data.length = true)
include ok

theorem exec_rdmaWrite_of_open (open_ : s.shutIn root r.va.toNat r.data.length = []) : exec (.rdmaWrite r) s =
    .next ((((s.writeRange root (cut r.va r.data.length) r.data).crossAll 0).rdmaReply r.qp 0 []).ringDoorbells
      (asidOf root) r.va.toNat r.data.length) := by
  rw [exec_rdmaWrite_of_up up, granted]
  exact (if_neg (by simp [ok])).trans (if_neg (not_not.mpr open_))

theorem exec_rdmaWrite_of_shut (shut : s.shutIn root r.va.toNat r.data.length ≠ []) :
    exec (.rdmaWrite r) s = .next (s.outsideWait (s.shutIn root r.va.toNat r.data.length) (.rdmaWrite r)) := by
  rw [exec_rdmaWrite_of_up up, granted]
  exact (if_neg (by simp [ok])).trans (if_pos shut)

end

/-! #### Reads -/

theorem exec_rdmaRead_of_up : exec (.rdmaRead r) s =
    match s.grant r 0 r.len with
    | none => .next (s.rdmaNak r.qp)
    | some root =>
      if !s.rangeOk root 1 r.va.toNat r.len then .next (s.rdmaNak r.qp)
      else match s.poisonIn root r.va.toNat r.len with
        | some a => .next (s.poisonReply r.qp a)
        | none => .next (s.rdmaReply r.qp 0 ((s.readRange root (r.len / 4096 + 2) r.va.toNat r.len).getD [])) :=
  if_neg (by simp [up])

theorem exec_rdmaRead_of_none (none : s.grant r 0 r.len = none) : exec (.rdmaRead r) s = .next (s.rdmaNak r.qp) := by
  rw [exec_rdmaRead_of_up up, none]

section
variable {root : Word} (granted : s.grant r 0 r.len = some root)
include granted

theorem exec_rdmaRead_of_barred (barred : s.rangeOk root 1 r.va.toNat r.len = false) : exec (.rdmaRead r) s = .next (s.rdmaNak r.qp) := by
  rw [exec_rdmaRead_of_up up, granted]
  exact if_pos (by rw [barred]; rfl)

variable (ok : s.rangeOk root 1 r.va.toNat r.len = true)
include ok

theorem exec_rdmaRead_of_poison {a : Nat} (poison : s.poisonIn root r.va.toNat r.len = some a) :
    exec (.rdmaRead r) s = .next (s.poisonReply r.qp a) := by
  rw [exec_rdmaRead_of_up up, granted]
  exact (if_neg (by simp [ok])).trans (by rw [poison])

theorem exec_rdmaRead_of_clean (clean : s.poisonIn root r.va.toNat r.len = none) :
    exec (.rdmaRead r) s = .next (s.rdmaReply r.qp 0 ((s.readRange root (r.len / 4096 + 2) r.va.toNat r.len).getD [])) := by
  rw [exec_rdmaRead_of_up up, granted]
  exact (if_neg (by simp [ok])).trans (by rw [clean])

end

/-! #### Atomics -/

section
variable {i : Instr} {f : Nat → Nat}

theorem State.rdmaAtomic_of_none (none : s.grant r 2 8 = none) : s.rdmaAtomic i r f = .next (s.rdmaNak r.qp) :=
  (if_neg (by simp [up])).trans (by rw [none])

variable {root : Word} (granted : s.grant r 2 8 = some root)
include granted

theorem State.rdmaAtomic_of_grant : s.rdmaAtomic i r f =
    if (decide (r.va.toNat % 8 ≠ 0) || !s.rangeOk root 8 r.va.toNat 8) = true then .next (s.rdmaNak r.qp)
    else match s.poisonIn root r.va.toNat 8 with
      | some a => .next (s.poisonReply r.qp a)
      | none =>
        if s.shutIn root r.va.toNat 8 ≠ [] then .next (s.outsideWait (s.shutIn root r.va.toNat 8) i) else
        let old := leNat ((s.readRange root 2 r.va.toNat 8).getD [])
        .next ((((s.writeRange root (cut r.va 8) (leBytes 8 (f old))).crossAll 0).rdmaReply r.qp 0 (leBytes 8 old)).ringDoorbells
          (asidOf root) r.va.toNat 8) :=
  (if_neg (by simp [up])).trans (by rw [granted] <;> rfl)

theorem State.rdmaAtomic_of_barred (barred : r.va.toNat % 8 ≠ 0 ∨ s.rangeOk root 8 r.va.toNat 8 = false) :
    s.rdmaAtomic i r f = .next (s.rdmaNak r.qp) :=
  (State.rdmaAtomic_of_grant up granted).trans (if_pos (by simpa using barred))

variable (aligned : r.va.toNat % 8 = 0) (ok : s.rangeOk root 8 r.va.toNat 8 = true)
include aligned ok

theorem State.rdmaAtomic_of_poison {a : Nat} (poison : s.poisonIn root r.va.toNat 8 = some a) :
    s.rdmaAtomic i r f = .next (s.poisonReply r.qp a) :=
  (State.rdmaAtomic_of_grant up granted).trans ((if_neg (by simp [aligned, ok])).trans (by rw [poison]))

variable (clean : s.poisonIn root r.va.toNat 8 = none)
include clean

theorem State.rdmaAtomic_of_shut (shut : s.shutIn root r.va.toNat 8 ≠ []) :
    s.rdmaAtomic i r f = .next (s.outsideWait (s.shutIn root r.va.toNat 8) i) :=
  (State.rdmaAtomic_of_grant up granted).trans ((if_neg (by simp [aligned, ok])).trans (by rw [clean]; exact if_pos shut))

theorem State.rdmaAtomic_of_open (open_ : s.shutIn root r.va.toNat 8 = []) : s.rdmaAtomic i r f =
    (let old := leNat ((s.readRange root 2 r.va.toNat 8).getD [])
     .next ((((s.writeRange root (cut r.va 8) (leBytes 8 (f old))).crossAll 0).rdmaReply r.qp 0 (leBytes 8 old)).ringDoorbells
       (asidOf root) r.va.toNat 8)) :=
  (State.rdmaAtomic_of_grant up granted).trans ((if_neg (by simp [aligned, ok])).trans (by rw [clean]; exact if_neg (not_not.mpr open_)))

end

end

theorem exec_rdmaCompareAndSwap : exec (.rdmaCompareAndSwap r) s =
    s.rdmaAtomic (.rdmaCompareAndSwap r) r (fun old => if old = r.compare.toNat then r.operand.toNat else old) := rfl

theorem exec_rdmaFetchAndAdd : exec (.rdmaFetchAndAdd r) s =
    s.rdmaAtomic (.rdmaFetchAndAdd r) r (fun old => (old + r.operand.toNat) % 2 ^ 64) := rfl

/-- Both atomics are performed alike, but for the value they write. -/
theorem exec_rdmaAtomic {i : Instr} (which : i = .rdmaCompareAndSwap r ∨ i = .rdmaFetchAndAdd r) : ∃ f, exec i s = s.rdmaAtomic i r f := by
  rcases which with rfl | rfl
  · exact ⟨_, exec_rdmaCompareAndSwap⟩
  · exact ⟨_, exec_rdmaFetchAndAdd⟩

/-! #### Grants (14 R376, R385) -/

theorem State.grant_of_no_region {right n : Nat} (none : s.regions.find r.rkey = .none) : s.grant r right n = .none := by
  rw [State.grant, none]

/-- What a grant says of its region, its range and its host. -/
theorem State.grant_some {right n : Nat} {root : Word} (granted : s.grant r right n = some root) :
    ∃ g, s.regions.find r.rkey = some g ∧ (g.desc.qp = r.qp ∨ g.desc.qp = 0xFFFFFFFF) ∧ g.desc.rights.getLsbD right = true ∧
      g.desc.base.toNat ≤ r.va.toNat ∧ r.va.toNat + n ≤ g.desc.base.toNat + g.desc.len ∧
      (right = 0 ∨ s.due.owner.digest = some (s.hostOf r.qp)) := by
  unfold State.grant at granted
  split at granted
  · cases granted
  · next g found =>
    dsimp only at granted
    split at granted
    · next yes =>
      simp only [Bool.and_eq_true, Bool.or_eq_true, beq_iff_eq, decide_eq_true_eq, and_assoc] at yes
      obtain ⟨qp, right_, low, high, -, host⟩ := yes
      exact ⟨g, found, qp, right_, low, high, host⟩
    · cases granted

theorem State.grant_of_other_host {right n : Nat} (changes : right ≠ 0) (other : s.due.owner.digest ≠ some (s.hostOf r.qp)) :
    s.grant r right n = none := by
  refine Option.eq_none_iff_forall_ne_some.mpr (fun root granted => ?_)
  obtain ⟨g, -, -, -, -, -, host⟩ := State.grant_some granted
  exact host.elim changes other

theorem State.grant_of_barred {right n : Nat} {g : Region} (found : s.regions.find r.rkey = some g)
    (barred : g.desc.rights.getLsbD right = false ∨ r.va.toNat < g.desc.base.toNat ∨ g.desc.base.toNat + g.desc.len < r.va.toNat + n ∨
      (g.desc.qp ≠ r.qp ∧ g.desc.qp ≠ 0xFFFFFFFF)) : s.grant r right n = none := by
  refine Option.eq_none_iff_forall_ne_some.mpr (fun root granted => ?_)
  obtain ⟨g', found', qp, right_, low, high, -⟩ := State.grant_some granted
  obtain rfl := Option.some.inj (found'.symm.trans found)
  rcases barred with h | h | h | ⟨h, h'⟩
  · simp [right_] at h
  · omega
  · omega
  · exact qp.elim h h'

end

/-! ### UALink transactions (14 R391, 23 R482) -/

section
variable {s : State} {r : UaReq}

theorem exec_ualinkBringup_of_kept {port : Nat} {pod : List Nat} (kept : s.ua.up = true ∨ 1023 < port) :
    exec (.ualinkBringup port pod) s = .next s := congrArg Host.Outcome.next (if_pos (by simpa using kept))

theorem exec_ualinkBringup_of_first {port : Nat} {pod : List Nat} (first : s.ua.up = false) (number : port ≤ 1023) :
    exec (.ualinkBringup port pod) s = .next { s with ua := { pkg := port, pod := pod.filter (fun p => p < 1024), up := true, failed := [] } } :=
  congrArg Host.Outcome.next (if_neg (by simp [first, number]))

/-- A transaction that leaves this package's memory, or is too long. -/
theorem uaOk_eq_false {n : Nat} (bad : 2 ^ 40 < r.pa + n ∨ 256 < n) : uaOk r n = false := by
  unfold uaOk
  rw [Bool.and_eq_false_iff, decide_eq_false_iff_not, decide_eq_false_iff_not]
  omega

theorem uaOk_eq_true {n : Nat} (inside : r.pa + n ≤ 2 ^ 40) (short : n ≤ 256) : uaOk r n = true := by
  unfold uaOk
  rw [Bool.and_eq_true, decide_eq_true_eq, decide_eq_true_eq]
  exact ⟨inside, short⟩

theorem exec_ualinkRead_of_bad (bad : 2 ^ 40 < r.pa + r.len ∨ 256 < r.len) : exec (.ualinkRead r) s = .next (s.rdmaReply uaQp 1 []) :=
  if_pos (by rw [uaOk_eq_false bad]; rfl)

section
variable (inside : r.pa + r.len ≤ 2 ^ 40) (short : r.len ≤ 256)
include inside short

theorem exec_ualinkRead_of_ok : exec (.ualinkRead r) s =
    match (linePieces r.pa r.len).find? (fun p => s.linePois p.1) with
    | some p => .next (s.poisonReply uaQp p.1)
    | none => .next (s.rdmaReply uaQp 0 (s.memRead r.pa r.len)) :=
  if_neg (by simp [uaOk_eq_true inside short])

theorem exec_ualinkRead_of_clean (clean : (linePieces r.pa r.len).find? (fun p => s.linePois p.1) = none) :
    exec (.ualinkRead r) s = .next (s.rdmaReply uaQp 0 (s.memRead r.pa r.len)) := by
  rw [exec_ualinkRead_of_ok inside short, clean]

theorem exec_ualinkRead_of_poison {p : Nat × Nat} (poison : (linePieces r.pa r.len).find? (fun p => s.linePois p.1) = some p) :
    exec (.ualinkRead r) s = .next (s.poisonReply uaQp p.1) := by
  rw [exec_ualinkRead_of_ok inside short, poison]

end

/-- An atomic as the home of its line performs it. -/
def State.ualinkReq (s : State) (r : UaReq) : MemReq :=
  { kind := 1, agent := unitOf (homeDie r.pa), pa := r.pa, op := r.op, len := r.len, operand := r.operand, ver := s.versioned r.pa }

theorem exec_ualinkAtomic_of_bad (bad : (2 ^ 40 < r.pa + r.len ∨ 256 < r.len) ∨ r.len = 0 ∨ 32 < r.pa % 32 + r.len) :
    exec (.ualinkAtomic r) s = .next (s.rdmaReply uaQp 1 []) := by
  refine if_pos ?_
  rcases bad with h | h | h
  · simp [uaOk_eq_false h]
  · simp [h]
  · simp [h]

section
variable (inside : r.pa + r.len ≤ 2 ^ 40) (some : r.len ≠ 0) (within : r.pa % 32 + r.len ≤ 32)
include inside some within

theorem exec_ualinkAtomic_of_ok : exec (.ualinkAtomic r) s =
    if s.linePois r.pa then .next (s.poisonReply uaQp r.pa)
    else if s.shutAt r.pa r.len ≠ [] then .next (s.outsideWait (s.shutAt r.pa r.len) (.ualinkAtomic r))
    else .next (((s.performReq none (s.ualinkReq r)).crossHomes r.pa r.len).rdmaReply uaQp 0 (s.memRead r.pa r.len)) :=
  if_neg (by simp [uaOk_eq_true inside (by omega : r.len ≤ 256), some, within])

theorem exec_ualinkAtomic_of_poison (poison : s.linePois r.pa = true) : exec (.ualinkAtomic r) s = .next (s.poisonReply uaQp r.pa) :=
  (exec_ualinkAtomic_of_ok inside some within).trans (if_pos poison)

variable (clean : s.linePois r.pa = false)
include clean

theorem exec_ualinkAtomic_of_shut (shut : s.shutAt r.pa r.len ≠ []) :
    exec (.ualinkAtomic r) s = .next (s.outsideWait (s.shutAt r.pa r.len) (.ualinkAtomic r)) :=
  (exec_ualinkAtomic_of_ok inside some within).trans ((if_neg (by simp [clean])).trans (if_pos shut))

theorem exec_ualinkAtomic_of_open (open_ : s.shutAt r.pa r.len = []) : exec (.ualinkAtomic r) s =
    .next (((s.performReq none (s.ualinkReq r)).crossHomes r.pa r.len).rdmaReply uaQp 0 (s.memRead r.pa r.len)) :=
  (exec_ualinkAtomic_of_ok inside some within).trans ((if_neg (by simp [clean])).trans (if_neg (not_not.mpr open_)))

end

/-! #### Writes and messages -/

section
variable (memory : r.msg = 0)
include memory

theorem exec_ualinkWrite_of_memory : exec (.ualinkWrite r) s =
    if !uaOk r r.data.length then .next (s.rdmaReply uaQp 1 [])
    else if s.shutAt r.pa r.data.length ≠ [] then .next (s.outsideWait (s.shutAt r.pa r.data.length) (.ualinkWrite r))
    else .next (((s.maskedWrites (linePieces r.pa r.data.length) r.data
      (if r.mask.isEmpty then List.replicate r.data.length true else r.mask)).crossHomes r.pa r.data.length).rdmaReply uaQp 0 []) := by
  change execUalinkWrite r s = _
  simp only [execUalinkWrite, memory, OfNat.zero_ne_ofNat, zero_ne_one, if_false]

theorem exec_ualinkWrite_of_bad (bad : 2 ^ 40 < r.pa + r.data.length ∨ 256 < r.data.length) :
    exec (.ualinkWrite r) s = .next (s.rdmaReply uaQp 1 []) :=
  (exec_ualinkWrite_of_memory memory).trans (if_pos (by rw [uaOk_eq_false bad]; rfl))

section
variable (inside : r.pa + r.data.length ≤ 2 ^ 40) (short : r.data.length ≤ 256)
include inside short

theorem exec_ualinkWrite_of_open (open_ : s.shutAt r.pa r.data.length = []) : exec (.ualinkWrite r) s =
    .next (((s.maskedWrites (linePieces r.pa r.data.length) r.data
      (if r.mask = [] then List.replicate r.data.length true else r.mask)).crossHomes r.pa r.data.length).rdmaReply uaQp 0 []) := by
  refine (exec_ualinkWrite_of_memory memory).trans ((if_neg (by simp [uaOk_eq_true inside short])).trans ((if_neg (not_not.mpr open_)).trans ?_))
  simp only [List.isEmpty_iff]

theorem exec_ualinkWrite_of_shut (shut : s.shutAt r.pa r.data.length ≠ []) :
    exec (.ualinkWrite r) s = .next (s.outsideWait (s.shutAt r.pa r.data.length) (.ualinkWrite r)) :=
  (exec_ualinkWrite_of_memory memory).trans ((if_neg (by simp [uaOk_eq_true inside short])).trans (if_pos shut))

end

end

theorem exec_ualinkWrite_of_decrement (message : r.msg = 1) :
    exec (.ualinkWrite r) s = .next (s.post (.decrementArrival r.target ⟨r.sender, none⟩)) := if_pos message

theorem exec_ualinkWrite_of_event (message : r.msg = 2) : exec (.ualinkWrite r) s = .next (s.post (.eventOpArrival r.ev)) := by
  change execUalinkWrite r s = _
  simp only [execUalinkWrite, message, OfNat.ofNat_ne_one, if_false, if_true]

/-- A packet enters at the port of the I/O die once the router has room for it (12 R350). -/
theorem exec_ualinkWrite_of_packet (message : r.msg = 3) {entered : Option State}
    (enters : s.enterPort (entryTile (r.pkt.dest % 2560)).1 (entryTile (r.pkt.dest % 2560)).2 { r.pkt with launch := none } = entered) :
    exec (.ualinkWrite r) s = .next (entered.getD (s.again (.ualinkWrite r))) := by
  subst enters
  change execUalinkWrite r s = _
  simp only [execUalinkWrite, message, OfNat.ofNat_ne_one, Nat.reduceEqDiff, if_false, if_true]

theorem State.enterPort_of_room {t port : Nat} {p : Packet} (room : s.roomFor t (8 + port) p = true) :
    s.enterPort t port p = some ((s.useCredits t (8 + port) p).post (.routerPacketArrival t port p)) := if_pos room

theorem State.enterPort_of_full {t port : Nat} {p : Packet} (full : s.roomFor t (8 + port) p = false) : s.enterPort t port p = none :=
  if_neg (by simp [ioPort, full])

end

/-- Settles O52: each request by its queue pair or transaction, its grant and range, and the lines it meets. -/
theorem hostLinkResults : Obligations.HostLinkResults := by
  refine ⟨fun s r => ?rdma, fun s r port n hp pod => ?ualink⟩
  case rdma =>
    dsimp only
    refine ⟨exec_rdma_of_down, fun up => ⟨exec_rdmaUnsupportedRequest_of_up up, exec_rdmaWrite_of_none up, exec_rdmaRead_of_none up,
      fun none => ⟨exec_rdmaCompareAndSwap.trans (State.rdmaAtomic_of_none up none),
        exec_rdmaFetchAndAdd.trans (State.rdmaAtomic_of_none up none)⟩,
      fun root granted ok => ⟨exec_rdmaWrite_of_open up granted ok, exec_rdmaWrite_of_shut up granted ok⟩,
      fun root granted => exec_rdmaWrite_of_barred up granted,
      fun root granted => ⟨exec_rdmaRead_of_barred up granted, fun a ok => exec_rdmaRead_of_poison up granted ok, exec_rdmaRead_of_clean up granted⟩,
      fun root i granted which => ?atomic, fun root bs granted aligned ok clean read open_ => ?swap⟩,
      fun right n => ⟨rfl, State.grant_of_other_host, State.grant_of_no_region, fun g => State.grant_of_barred⟩⟩
    case atomic =>
      obtain ⟨f, performed⟩ := exec_rdmaAtomic (s := s) which
      rw [performed]
      exact ⟨State.rdmaAtomic_of_barred up granted, fun aligned ok => ⟨fun a => State.rdmaAtomic_of_poison up granted aligned ok,
        State.rdmaAtomic_of_shut up granted aligned ok⟩⟩
    case swap =>
      subst read
      exact ⟨exec_rdmaCompareAndSwap.trans (State.rdmaAtomic_of_open up granted aligned ok clean open_),
        exec_rdmaFetchAndAdd.trans (State.rdmaAtomic_of_open up granted aligned ok clean open_)⟩
  case ualink =>
    dsimp only
    refine ⟨fun up => exec_ualinkBringup_of_kept (.inl up), fun bad => exec_ualinkBringup_of_kept (.inr bad), exec_ualinkBringup_of_first,
      fun out => ⟨exec_ualinkRead_of_bad (.inl out), exec_ualinkAtomic_of_bad (.inl (.inl out))⟩, exec_ualinkRead_of_clean,
      exec_ualinkAtomic_of_open, fun memory out => exec_ualinkWrite_of_bad memory (.inl out),
      fun long => ⟨exec_ualinkRead_of_bad (.inr long), exec_ualinkAtomic_of_bad (.inl (.inr long))⟩,
      fun crosses => exec_ualinkAtomic_of_bad (.inr crosses), fun a memory long => exec_ualinkWrite_of_bad memory (.inr long),
      fun memory inside short => ⟨exec_ualinkWrite_of_open memory inside short, exec_ualinkWrite_of_shut memory inside short⟩,
      exec_ualinkAtomic_of_shut, fun p inside short => exec_ualinkRead_of_poison inside short, exec_ualinkAtomic_of_poison, exec_ualinkWrite_of_decrement,
      exec_ualinkWrite_of_event, fun message => ⟨fun room => ?room, fun full => ?full⟩, rfl, rfl⟩
    case room => exact exec_ualinkWrite_of_packet message (State.enterPort_of_room room)
    case full => exact exec_ualinkWrite_of_packet message (State.enterPort_of_full full)

end Sys2Proof.Machine
end
